-- ==== Sys2Proof/Word.lean ====
section
/-! DEFINITION. The word types of the Forrov architecture (02_numbers.md R32, 06_vector.md R166) and the names of
engines, ports and registers (03_encoding.md R66 to R72). -/

namespace Sys2Proof

/-- A byte of any memory (00_scope.md R5). -/
abbrev Byte := BitVec 8
/-- A scalar register or operand, 64 bits (03_encoding.md R70). -/
abbrev Word := BitVec 64
/-- A vector of 128 lanes of 32 bits; lane 0 is the lowest (06_vector.md R166). -/
abbrev VecW := BitVec 4096
/-- A lane mask (03_encoding.md R71). -/
abbrev MaskW := BitVec 128

/-- The engines, in the order of their R67 codes (03_encoding.md R67). -/
inductive Eng where
  | ctl | sca | vec0 | vec1 | str | mem | cpy0 | cpy1 | col
  deriving DecidableEq, Repr

/-- The vector unit a VEC trigger stands for: slot 2 is VEC0, slot 3 is VEC1 (03_encoding.md R66). -/
inductive VUnit where
  | v0 | v1
  deriving DecidableEq, Repr

/-- The copy unit a CPY trigger stands for: slot 5 is CPY0, slot 6 is CPY1 (03_encoding.md R66). -/
inductive CUnit where
  | c0 | c1
  deriving DecidableEq, Repr

/-- The slot a COL move stands in (03_encoding.md R66, 09_copy_collective.md R241). -/
inductive CSlot where
  | s5 | s6
  deriving DecidableEq, Repr

/-- The operand ports of R68 (03_encoding.md). -/
inductive OPort where
  | o | o2 | m | w
  deriving DecidableEq, Repr

/-- The result ports of R72 (03_encoding.md). -/
inductive RPort where
  | scaR | scaP | memR | memP | ctlR | strR | vec0S | vec1S | cpy0R | cpy1R | colR
  | vec0R | vec0P | vec1R | vec1P | vec0M | vec1M | memVr | memVp | strVr | strVp
  deriving DecidableEq, Repr

/-- The registers with a full/empty bit (03_encoding.md R70, R71): s, o, a, g, v and vm; g index n stands for g(n+1). -/
inductive RegId where
  | s (i : Fin 64) | o (i : Fin 16) | a (i : Fin 8) | g (i : Fin 7) | v (i : Fin 32) | vm (i : Fin 8)
  deriving DecidableEq, Repr

/-- An SREG destination (03_encoding.md R70). -/
inductive SDest where
  | s (i : Fin 64) | o (i : Fin 16) | a (i : Fin 8) | g (i : Fin 7) | bind (i : Fin 16)
  deriving DecidableEq, Repr

/-- A VREG destination (03_encoding.md R71). -/
inductive VDest where
  | v (i : Fin 32) | vm (i : Fin 8)
  deriving DecidableEq, Repr

/-- A source of a move (03_encoding.md R72).  E is kept for every kind but the literal, whose bit 8 is its sign. -/
inductive Src where
  | reg (r : RegId) (e : Bool)
  | bind (i : Fin 16) (e : Bool)
  | port (p : RPort) (e : Bool)
  | lndS (n : Fin 64) (e : Bool)
  | lndV (n : Fin 64) (e : Bool)
  | const (i : BitVec 8) (e : Bool)
  | lit (x : BitVec 9)
  deriving DecidableEq, Repr

/-- What every move word carries beside its destination: the guard and the source (03_encoding.md R65). -/
structure Mv where
  g : BitVec 3
  src : Src
  deriving DecidableEq, Repr

/-- The R67 code of an engine (03_encoding.md R67). -/
def Eng.code : Eng → Nat
  | .ctl => 0 | .sca => 1 | .vec0 => 2 | .vec1 => 3 | .str => 4 | .mem => 5 | .cpy0 => 6 | .cpy1 => 7 | .col => 8

/-- The engine of a vector unit. -/
def VUnit.eng : VUnit → Eng
  | .v0 => .vec0 | .v1 => .vec1

/-- The engine of a copy unit. -/
def CUnit.eng : CUnit → Eng
  | .c0 => .cpy0 | .c1 => .cpy1

/-- A host access to BAR 0: its byte offset and its length in bytes (14_system.md R390). -/
structure BarAccess where
  off : Nat
  size : Nat
  deriving DecidableEq, Repr

end Sys2Proof
end

