-- ==== Sys2Proof/Config.lean ====
section
/-! DEFINITION. What an implementation of the ZLM-6400 fixes and what the manual leaves open: constants the spec gives,
and free values, which have no body, so that nothing can be proved of their value (log entries 13, 14, 33). -/

namespace Sys2Proof.Config

/-- The cores of the package (01_machine.md, "The hierarchy of work"). -/
def numCores : Nat := 512
/-- Scratchpad bytes (05_local_memory.md R135). -/
def scratchBytes : Nat := 0x80000
/-- Quad pool bytes (05_local_memory.md R135, R136). -/
def poolBytes : Nat := 0x800000
/-- Chunks of 512 bytes in a home's pool: 512 GiB of LPDDR-6 per edge die (01_machine.md R25, 11_translation.md R321). -/
def poolChunks : Nat := 0x40000000
/-- Base of the own-partition window (05_local_memory.md R135). -/
def ownBase : Nat := 0x01000000
/-- Base of the whole-pool window (05_local_memory.md R135). -/
def wholeBase : Nat := 0x02000000

/-- FREE VALUE: how a leaf that is neither uniform nor pinned compresses (11_translation.md R321, log entry 14). -/
opaque leafClass : List Byte → Byte
/-- FREE VALUE: whether a configuration block's XMSS signature verifies and its identity matches the PUF
(14_system.md R400 step 2, log entry 13). -/
opaque configAuthentic : List Byte → Bool
/-- FREE VALUE: whether a firmware slot's XMSS signature verifies (14_system.md R400 step 3, log entry 13). -/
opaque firmwareAuthentic : List Byte → Bool
/-- FREE VALUE: the version a firmware slot carries (14_system.md R400, log entry 13). -/
opaque firmwareVersion : List Byte → Word
/-- FREE VALUE: the device index in a configuration block (14_system.md R400 step 5, log entry 13). -/
opaque configDev : List Byte → BitVec 7
/-- FREE VALUE: the engines a configuration block's harvest map gives a core (01_machine.md R21, log entry 13). -/
opaque configPresent : List Byte → Nat → BitVec 9
/-- FREE VALUE: the certificate in the configuration block (14_system.md R403, log entry 13). -/
opaque certificate : List Byte → List Byte
/-- FREE VALUE: the device identity public key derived from the PUF seed (14_system.md R403, log entry 13). -/
opaque identityKey : List Byte
/-- FREE VALUE: the XMSS signature over a message (14_system.md R403, log entry 13). -/
opaque signature : List Byte → List Byte
/-- FREE VALUE: the width that the link partner of a CXL port offers at boot; true: the port of edge die 2 (14_system.md R388, R400
step 5, log entry 81). -/
opaque partnerWidth : Bool → Nat
/-- FREE VALUE: the bytes of a flash region, 0 slot A, 1 slot B, 2 configuration block (14_system.md R402, log entry 33). -/
opaque regionSize : Nat → Nat
/-- FREE VALUE: what an erased flash byte reads as (14_system.md R402, log entry 33). -/
opaque erasedByte : Byte

end Sys2Proof.Config
end

