-- ==== Sys2Proof/Syntax.lean ====
section
/-! DEFINITION. The abstract syntax: one constructor per row of spec/opcode_table.json.
The encoded moves and triggers carry their guard and source (03_encoding.md R65); a step without an encoding carries the open
choices and the outside values of that step (95_what_each_step_holds.md; log entry 1). -/

namespace Sys2Proof

/-- The moves, triggers and steps of the ZLM-6400; each constructor cites the rule the table names for it. -/
inductive Instr where
  /-- MOVE_SREG (R70): A move writes a scalar, operand-file, address, guard or relocation register through SREG. -/
  | moveSreg (slot : Fin 8) (d : SDest) (m : Mv)
  /-- MOVE_VREG (R71): A move from slot 2 or 3 writes a vector or mask register through VREG. -/
  | moveVreg (slot : Fin 8) (d : VDest) (m : Mv)
  /-- MOVE_VREG_SLOT7 (R71): A move from slot 7 writes a vector or mask register through VREG. -/
  | moveVregSlot7 (d : VDest) (m : Mv)
  /-- MOVE_OPERAND_PORT (R69): A move from an engine's own slot stores a value in one of its operand ports o, o2, m or w. -/
  | moveOperandPort (slot : Fin 8) (p : OPort) (m : Mv)
  /-- MOVE_COL_OPERAND (R241): A move from slot 5 or 6 stores a value in a COL operand port. -/
  | moveColOperand (c : CSlot) (p : OPort) (m : Mv)
  /-- MOVE_XPORT (R67): A move through the operand window stores a value in a non-trigger port of any engine from any slot. -/
  | moveXport (slot : Fin 8) (e : Eng) (p : OPort) (m : Mv)
  /-- CTL_JMP (R114): Jumps to the bundle address in b. -/
  | ctlJmp (m : Mv)
  /-- CTL_JREL (R114): Jumps to A plus the signed value of b. -/
  | ctlJrel (m : Mv)
  /-- CTL_CALL (R114): Applies the loop-end step, pushes S(A) on the link stack and jumps to b. -/
  | ctlCall (m : Mv)
  /-- CTL_RET (R114): Pops the link stack and continues at the popped address. -/
  | ctlRet (m : Mv)
  /-- CTL_LOOP (R118): Creates a loop frame whose body length is in ctl.o and whose count is in b. -/
  | ctlLoop (m : Mv)
  /-- CTL_REP (R122): Makes the slot-4 move of the next bundle enter its queue n times. -/
  | ctlRep (m : Mv)
  /-- CTL_HALT (R125): Ends the core's part in the job with exit word b[31:0]. -/
  | ctlHalt (m : Mv)
  /-- CTL_TRAP (R127): Issues its bundle and then parks the core with TRAP_INSTR and argument b[15:0]. -/
  | ctlTrap (m : Mv)
  /-- CTL_TFENCE (R128): Waits until the core's queues and triggers are complete, then raises a pending ASYNC fault or ARITH, or issues. -/
  | ctlTfence (m : Mv)
  /-- CTL_CSRR (R130): Reads control register b into ctl.r. -/
  | ctlCsrr (m : Mv)
  /-- CTL_CSRW (R130): Writes b to the control register numbered by ctl.o. -/
  | ctlCsrw (m : Mv)
  /-- CTL_GSET (R116): Sets guard gd to b[3]. -/
  | ctlGset (m : Mv)
  /-- CTL_GNOT (R116): Sets guard gd to NOT gx. -/
  | ctlGnot (m : Mv)
  /-- CTL_GAND (R116): Sets guard gd to gx AND gy. -/
  | ctlGand (m : Mv)
  /-- CTL_GOR (R116): Sets guard gd to gx OR gy. -/
  | ctlGor (m : Mv)
  /-- CTL_DRAIN (R129): Waits until the core's queues, triggers, transfers and tokens are complete, then issues. -/
  | ctlDrain (m : Mv)
  /-- CTL_ENDPH (R275): Ends the superstep and names the phase of the next one. -/
  | ctlEndph (m : Mv)
  /-- CTL_BAR (R289): Arrives at a barrier and waits until its episode completes. -/
  | ctlBar (m : Mv)
  /-- CTL_ARRIVE (R289): Arrives at a barrier without waiting. -/
  | ctlArrive (m : Mv)
  /-- CTL_BWAIT (R289): Waits for the episode of the core's latest arrival at a barrier to complete. -/
  | ctlBwait (m : Mv)
  /-- CTL_BWAITT (R290): Waits for a barrier episode with a time limit and reports in ctl.r whether the limit expired. -/
  | ctlBwaitt (m : Mv)
  /-- CTL_WAITT (R294): Freezes the core until the die's DTC reaches b. -/
  | ctlWaitt (m : Mv)
  /-- CTL_TIME (R295): Writes DTC or the core's SSC to ctl.r. -/
  | ctlTime (m : Mv)
  /-- SCA_ADD (R109): Writes a + b to sca.r. -/
  | scaAdd (m : Mv)
  /-- SCA_SUB (R109): Writes a − b to sca.r. -/
  | scaSub (m : Mv)
  /-- SCA_MUL (R109): Writes the low 64 bits of a × b to sca.r. -/
  | scaMul (m : Mv)
  /-- SCA_MULHS (R109): Writes the high 64 bits of the signed product to sca.r. -/
  | scaMulhs (m : Mv)
  /-- SCA_MULHN (R109): Writes the high 64 bits of the unsigned product to sca.r. -/
  | scaMulhn (m : Mv)
  /-- SCA_DIVS (R109): Writes the signed quotient, truncated towards zero, to sca.r. -/
  | scaDivs (m : Mv)
  /-- SCA_DIVN (R109): Writes the unsigned quotient to sca.r. -/
  | scaDivn (m : Mv)
  /-- SCA_REMS (R109): Writes the signed remainder to sca.r. -/
  | scaRems (m : Mv)
  /-- SCA_REMN (R109): Writes the unsigned remainder to sca.r. -/
  | scaRemn (m : Mv)
  /-- SCA_AND (R109): Writes a AND b to sca.r. -/
  | scaAnd (m : Mv)
  /-- SCA_OR (R109): Writes a OR b to sca.r. -/
  | scaOr (m : Mv)
  /-- SCA_XOR (R109): Writes a XOR b to sca.r. -/
  | scaXor (m : Mv)
  /-- SCA_ANDN (R109): Writes a AND NOT b to sca.r. -/
  | scaAndn (m : Mv)
  /-- SCA_SHL (R109): Writes a shifted left by b[5:0] to sca.r. -/
  | scaShl (m : Mv)
  /-- SCA_SHRL (R109): Writes a shifted right logically by b[5:0] to sca.r. -/
  | scaShrl (m : Mv)
  /-- SCA_SHRA (R109): Writes a shifted right arithmetically by b[5:0] to sca.r. -/
  | scaShra (m : Mv)
  /-- SCA_ROTL (R109): Writes a rotated left by b[5:0] to sca.r. -/
  | scaRotl (m : Mv)
  /-- SCA_CLZ (R109): Writes the count of leading zero bits of b to sca.r. -/
  | scaClz (m : Mv)
  /-- SCA_CTZ (R109): Writes the count of trailing zero bits of b to sca.r. -/
  | scaCtz (m : Mv)
  /-- SCA_POPC (R109): Writes the count of one bits of b to sca.r. -/
  | scaPopc (m : Mv)
  /-- SCA_MINS (R109): Writes the signed minimum to sca.r. -/
  | scaMins (m : Mv)
  /-- SCA_MAXS (R109): Writes the signed maximum to sca.r. -/
  | scaMaxs (m : Mv)
  /-- SCA_MINN (R109): Writes the unsigned minimum to sca.r. -/
  | scaMinn (m : Mv)
  /-- SCA_MAXN (R109): Writes the unsigned maximum to sca.r. -/
  | scaMaxn (m : Mv)
  /-- SCA_CEQ (R109): Writes 1 to sca.r if a equals b, and 0 otherwise. -/
  | scaCeq (m : Mv)
  /-- SCA_CNE (R109): Writes 1 to sca.r if a differs from b, and 0 otherwise. -/
  | scaCne (m : Mv)
  /-- SCA_CLTS (R109): Writes 1 to sca.r if a < b as signed values. -/
  | scaClts (m : Mv)
  /-- SCA_CLTN (R109): Writes 1 to sca.r if a < b as unsigned values. -/
  | scaCltn (m : Mv)
  /-- SCA_CLES (R109): Writes 1 to sca.r if a ≤ b as signed values. -/
  | scaCles (m : Mv)
  /-- SCA_CLEN (R109): Writes 1 to sca.r if a ≤ b as unsigned values. -/
  | scaClen (m : Mv)
  /-- SCA_SEL (R109): Writes a to sca.r if c[0] is 1, and b otherwise. -/
  | scaSel (m : Mv)
  /-- SCA_SEXT (R109): Writes b sign-extended from bit a[5:0] to sca.r. -/
  | scaSext (m : Mv)
  /-- SCA_ZEXT (R109): Writes b zero-extended from bit a[5:0] to sca.r. -/
  | scaZext (m : Mv)
  /-- SCA_BFX (R109): Writes the bit field of b described by a to sca.r. -/
  | scaBfx (m : Mv)
  /-- SCA_BFI (R109): Writes c with the bit field described by a replaced from b to sca.r. -/
  | scaBfi (m : Mv)
  /-- SCA_PASS (R109): Writes b to sca.r. -/
  | scaPass (m : Mv)
  /-- SCA_CAT9 (R109): Writes (a << 9) OR b[8:0] to sca.r. -/
  | scaCat9 (m : Mv)
  /-- MEM_LDB (R143): Loads a byte, sign-extended, into mem.r. -/
  | memLdb (m : Mv)
  /-- MEM_LDBN (R143): Loads a byte, zero-extended, into mem.r. -/
  | memLdbn (m : Mv)
  /-- MEM_LDH (R143): Loads a half-word, sign-extended, into mem.r. -/
  | memLdh (m : Mv)
  /-- MEM_LDHN (R143): Loads a half-word, zero-extended, into mem.r. -/
  | memLdhn (m : Mv)
  /-- MEM_LDW (R143): Loads a word, sign-extended, into mem.r. -/
  | memLdw (m : Mv)
  /-- MEM_LDWN (R143): Loads a word, zero-extended, into mem.r. -/
  | memLdwn (m : Mv)
  /-- MEM_LDD (R143): Loads 8 bytes into mem.r. -/
  | memLdd (m : Mv)
  /-- MEM_STB (R145): Stores b[7:0] at the address in o. -/
  | memStb (m : Mv)
  /-- MEM_STH (R145): Stores b[15:0] at the address in o. -/
  | memSth (m : Mv)
  /-- MEM_STW (R145): Stores b[31:0] at the address in o. -/
  | memStw (m : Mv)
  /-- MEM_STD (R145): Stores b[63:0] at the address in o. -/
  | memStd (m : Mv)
  /-- MEM_VLD (R144): Loads 128 contiguous words into mem.vr. -/
  | memVld (m : Mv)
  /-- MEM_VLDS (R144): Loads 128 strided words into mem.vr. -/
  | memVlds (m : Mv)
  /-- MEM_VGAT (R144): Gathers 128 words at per-lane offsets into mem.vr. -/
  | memVgat (m : Mv)
  /-- MEM_VST (R146): Stores 128 lanes contiguously. -/
  | memVst (m : Mv)
  /-- MEM_VSTS (R146): Stores 128 lanes with a stride. -/
  | memVsts (m : Mv)
  /-- MEM_VSCA (R146): Scatters 64 offset and value pairs. -/
  | memVsca (m : Mv)
  /-- MEM_VSTM (R146): Stores the lanes that mem.m selects, contiguously. -/
  | memVstm (m : Mv)
  /-- MEM_AMOADD (R147): Atomically adds b to a 64-bit word and returns the old value. -/
  | memAmoadd (m : Mv)
  /-- MEM_AMOMINS (R147): Atomic signed minimum on a 64-bit word. -/
  | memAmomins (m : Mv)
  /-- MEM_AMOMAXS (R147): Atomic signed maximum on a 64-bit word. -/
  | memAmomaxs (m : Mv)
  /-- MEM_AMOMINN (R147): Atomic unsigned minimum on a 64-bit word. -/
  | memAmominn (m : Mv)
  /-- MEM_AMOMAXN (R147): Atomic unsigned maximum on a 64-bit word. -/
  | memAmomaxn (m : Mv)
  /-- MEM_AMOAND (R147): Atomic AND on a 64-bit word. -/
  | memAmoand (m : Mv)
  /-- MEM_AMOOR (R147): Atomic OR on a 64-bit word. -/
  | memAmoor (m : Mv)
  /-- MEM_AMOXOR (R147): Atomic XOR on a 64-bit word. -/
  | memAmoxor (m : Mv)
  /-- MEM_AMOSWAP (R147): Atomic swap on a 64-bit word. -/
  | memAmoswap (m : Mv)
  /-- MEM_AMOCAS (R147): Atomic compare-and-swap on a 64-bit word. -/
  | memAmocas (m : Mv)
  /-- MEM_AMOADD_W (R147): Atomic add on a 32-bit word. -/
  | memAmoaddW (m : Mv)
  /-- MEM_AMOMINS_W (R147): Atomic signed minimum on a 32-bit word. -/
  | memAmominsW (m : Mv)
  /-- MEM_AMOMAXS_W (R147): Atomic signed maximum on a 32-bit word. -/
  | memAmomaxsW (m : Mv)
  /-- MEM_AMOMINN_W (R147): Atomic unsigned minimum on a 32-bit word. -/
  | memAmominnW (m : Mv)
  /-- MEM_AMOMAXN_W (R147): Atomic unsigned maximum on a 32-bit word. -/
  | memAmomaxnW (m : Mv)
  /-- MEM_AMOAND_W (R147): Atomic AND on a 32-bit word. -/
  | memAmoandW (m : Mv)
  /-- MEM_AMOOR_W (R147): Atomic OR on a 32-bit word. -/
  | memAmoorW (m : Mv)
  /-- MEM_AMOXOR_W (R147): Atomic XOR on a 32-bit word. -/
  | memAmoxorW (m : Mv)
  /-- MEM_AMOSWAP_W (R147): Atomic swap on a 32-bit word. -/
  | memAmoswapW (m : Mv)
  /-- MEM_AMOCAS_W (R147): Atomic compare-and-swap on a 32-bit word. -/
  | memAmocasW (m : Mv)
  /-- MEM_AMOFMAX_W (R148): Atomic FP32 maximum on a 32-bit word. -/
  | memAmofmaxW (m : Mv)
  /-- MEM_MARK (R151): Orders every later access of both inner queues after every earlier one. -/
  | memMark (m : Mv)
  /-- MEM_SEND (R284): Sends 512 bytes to a landing slot named by the descriptor in mem.o. -/
  | memSend (m : Mv)
  /-- MEM_SENDS (R284): Sends 8 bytes to a landing slot named by the descriptor in mem.o. -/
  | memSends (m : Mv)
  /-- VEC_IADD (R172): Lane-wise 32-bit addition. -/
  | vecIadd (u : VUnit) (m : Mv)
  /-- VEC_ISUB (R172): Lane-wise 32-bit subtraction. -/
  | vecIsub (u : VUnit) (m : Mv)
  /-- VEC_IMUL (R172): Lane-wise low 32 bits of the product. -/
  | vecImul (u : VUnit) (m : Mv)
  /-- VEC_IMULH (R172): Lane-wise high 32 bits of the signed product. -/
  | vecImulh (u : VUnit) (m : Mv)
  /-- VEC_IMAC (R172): Lane-wise a × b + c. -/
  | vecImac (u : VUnit) (m : Mv)
  /-- VEC_IMINS (R172): Lane-wise signed minimum. -/
  | vecImins (u : VUnit) (m : Mv)
  /-- VEC_IMAXS (R172): Lane-wise signed maximum. -/
  | vecImaxs (u : VUnit) (m : Mv)
  /-- VEC_IMINN (R172): Lane-wise unsigned minimum. -/
  | vecIminn (u : VUnit) (m : Mv)
  /-- VEC_IMAXN (R172): Lane-wise unsigned maximum. -/
  | vecImaxn (u : VUnit) (m : Mv)
  /-- VEC_IABS (R172): Lane-wise saturating absolute value. -/
  | vecIabs (u : VUnit) (m : Mv)
  /-- VEC_AND (R172): Lane-wise AND. -/
  | vecAnd (u : VUnit) (m : Mv)
  /-- VEC_OR (R172): Lane-wise OR. -/
  | vecOr (u : VUnit) (m : Mv)
  /-- VEC_XOR (R172): Lane-wise XOR. -/
  | vecXor (u : VUnit) (m : Mv)
  /-- VEC_ANDN (R172): Lane-wise a AND NOT b. -/
  | vecAndn (u : VUnit) (m : Mv)
  /-- VEC_SHL (R172): Lane-wise shift left. -/
  | vecShl (u : VUnit) (m : Mv)
  /-- VEC_SHRL (R172): Lane-wise logical shift right. -/
  | vecShrl (u : VUnit) (m : Mv)
  /-- VEC_SHRA (R172): Lane-wise arithmetic shift right. -/
  | vecShra (u : VUnit) (m : Mv)
  /-- VEC_POPC (R172): Lane-wise count of one bits. -/
  | vecPopc (u : VUnit) (m : Mv)
  /-- VEC_CLZ (R172): Lane-wise count of leading zero bits. -/
  | vecClz (u : VUnit) (m : Mv)
  /-- VEC_CEQ (R173): Lane-wise bit equality into vecN.m. -/
  | vecCeq (u : VUnit) (m : Mv)
  /-- VEC_CLTS (R173): Lane-wise signed less-than into vecN.m. -/
  | vecClts (u : VUnit) (m : Mv)
  /-- VEC_CLES (R173): Lane-wise signed less-or-equal into vecN.m. -/
  | vecCles (u : VUnit) (m : Mv)
  /-- VEC_FCEQ (R173): Lane-wise FP32 equality into vecN.m. -/
  | vecFceq (u : VUnit) (m : Mv)
  /-- VEC_FCLT (R173): Lane-wise FP32 less-than into vecN.m. -/
  | vecFclt (u : VUnit) (m : Mv)
  /-- VEC_FCLE (R173): Lane-wise FP32 less-or-equal into vecN.m. -/
  | vecFcle (u : VUnit) (m : Mv)
  /-- VEC_SEL (R174): Selects a or b per lane by the mask m. -/
  | vecSel (u : VUnit) (m : Mv)
  /-- VEC_FADD (R175): Lane-wise FP32 addition, per RMODE. -/
  | vecFadd (u : VUnit) (m : Mv)
  /-- VEC_FSUB (R175): Lane-wise FP32 subtraction. -/
  | vecFsub (u : VUnit) (m : Mv)
  /-- VEC_FMUL (R175): Lane-wise FP32 multiplication. -/
  | vecFmul (u : VUnit) (m : Mv)
  /-- VEC_FFMA (R175): Lane-wise fused multiply-add with one rounding. -/
  | vecFfma (u : VUnit) (m : Mv)
  /-- VEC_FMIN (R176): Lane-wise FP32 minimum. -/
  | vecFmin (u : VUnit) (m : Mv)
  /-- VEC_FMAX (R176): Lane-wise FP32 maximum. -/
  | vecFmax (u : VUnit) (m : Mv)
  /-- VEC_FABS (R176): Lane-wise FP32 absolute value. -/
  | vecFabs (u : VUnit) (m : Mv)
  /-- VEC_FNEG (R176): Lane-wise FP32 negation. -/
  | vecFneg (u : VUnit) (m : Mv)
  /-- VEC_FRCP (R177): Lane-wise reciprocal. -/
  | vecFrcp (u : VUnit) (m : Mv)
  /-- VEC_FRSQ (R177): Lane-wise reciprocal square root. -/
  | vecFrsq (u : VUnit) (m : Mv)
  /-- VEC_FEXP2 (R177): Lane-wise power of two. -/
  | vecFexp2 (u : VUnit) (m : Mv)
  /-- VEC_FLOG2 (R177): Lane-wise base-2 logarithm. -/
  | vecFlog2 (u : VUnit) (m : Mv)
  /-- VEC_FSQRT (R177): Lane-wise square root. -/
  | vecFsqrt (u : VUnit) (m : Mv)
  /-- VEC_F2I (R178): Converts FP32 lanes to I32. -/
  | vecF2i (u : VUnit) (m : Mv)
  /-- VEC_I2F (R178): Converts I32 lanes to FP32. -/
  | vecI2f (u : VUnit) (m : Mv)
  /-- VEC_F2BF (R179): Narrows two FP32 vectors to 256 BF16 halves. -/
  | vecF2bf (u : VUnit) (m : Mv)
  /-- VEC_BF2FL (R179): Widens the low 128 BF16 halves to FP32. -/
  | vecBf2fl (u : VUnit) (m : Mv)
  /-- VEC_BF2FH (R179): Widens the high 128 BF16 halves to FP32. -/
  | vecBf2fh (u : VUnit) (m : Mv)
  /-- VEC_NARROW (R180): Packs two sources into narrower integer elements. -/
  | vecNarrow (u : VUnit) (m : Mv)
  /-- VEC_WIDEN (R181): Expands half of b into wider integer elements. -/
  | vecWiden (u : VUnit) (m : Mv)
  /-- VEC_BMAX (R183): Writes the block maximum magnitude of each of four blocks. -/
  | vecBmax (u : VUnit) (m : Mv)
  /-- VEC_QSCALE (R183): Writes the automatic S10 scale of each of four blocks. -/
  | vecQscale (u : VUnit) (m : Mv)
  /-- VEC_QFA4 (R184): Quantises four blocks to FA4. -/
  | vecQfa4 (u : VUnit) (m : Mv)
  /-- VEC_QIB8 (R184): Quantises four blocks to IB8. -/
  | vecQib8 (u : VUnit) (m : Mv)
  /-- VEC_DQFA4 (R185): Dequantises four FA4 blocks to FP32. -/
  | vecDqfa4 (u : VUnit) (m : Mv)
  /-- VEC_DQIB8 (R185): Dequantises four IB8 blocks to FP32. -/
  | vecDqib8 (u : VUnit) (m : Mv)
  /-- VEC_WADD (R187): Adds FP32 lanes exactly into wide accumulator wk. -/
  | vecWadd (u : VUnit) (m : Mv)
  /-- VEC_WSUB (R187): Subtracts FP32 lanes exactly from wide accumulator wk. -/
  | vecWsub (u : VUnit) (m : Mv)
  /-- VEC_WGET (R188): Reads wide accumulator wk as FP32. -/
  | vecWget (u : VUnit) (m : Mv)
  /-- VEC_WCLR (R187): Clears wide accumulator wk and its flags. -/
  | vecWclr (u : VUnit) (m : Mv)
  /-- VEC_WFOLD (R187): Adds wide accumulator wj into wk lane by lane. -/
  | vecWfold (u : VUnit) (m : Mv)
  /-- VEC_WGETBF (R188): Reads wide accumulator wk as BF16. -/
  | vecWgetbf (u : VUnit) (m : Mv)
  /-- VEC_IREDADD (R190): Sums 128 I32 lanes exactly into vecN.s. -/
  | vecIredadd (u : VUnit) (m : Mv)
  /-- VEC_IREDMAX (R190): Writes the signed maximum of 128 lanes to vecN.s. -/
  | vecIredmax (u : VUnit) (m : Mv)
  /-- VEC_FREDMAX (R190): Writes the FP32 maximum of 128 lanes to vecN.s. -/
  | vecFredmax (u : VUnit) (m : Mv)
  /-- VEC_FREDSUM (R190): Writes the exact FP32 sum of 128 lanes, rounded once, to vecN.s. -/
  | vecFredsum (u : VUnit) (m : Mv)
  /-- VEC_PERM (R191): Permutes the lanes of a by the indices in b. -/
  | vecPerm (u : VUnit) (m : Mv)
  /-- VEC_LROT (R191): Rotates the lanes of a by n. -/
  | vecLrot (u : VUnit) (m : Mv)
  /-- VEC_BCAST (R191): Broadcasts lane n of a to every lane. -/
  | vecBcast (u : VUnit) (m : Mv)
  /-- VEC_INS (R191): Inserts lane 0 of b into lane c of a. -/
  | vecIns (u : VUnit) (m : Mv)
  /-- VEC_EXT (R191): Extracts lane n of a into vecN.s. -/
  | vecExt (u : VUnit) (m : Mv)
  /-- VEC_ZIP (R191): Interleaves the low halves of a and b. -/
  | vecZip (u : VUnit) (m : Mv)
  /-- VEC_UNZIP (R191): De-interleaves the lanes of b. -/
  | vecUnzip (u : VUnit) (m : Mv)
  /-- VEC_CLMUL (R192): Lane-wise low half of the carry-less product. -/
  | vecClmul (u : VUnit) (m : Mv)
  /-- VEC_CLMULH (R192): Lane-wise high half of the carry-less product. -/
  | vecClmulh (u : VUnit) (m : Mv)
  /-- VEC_BITREV (R192): Lane-wise bit reversal. -/
  | vecBitrev (u : VUnit) (m : Mv)
  /-- STR_PUSHA (R221): Pushes an A edge bank from local memory as digits. -/
  | strPusha (m : Mv)
  /-- STR_PUSHB (R221): Pushes a B edge bank from local memory as digits, following a pending compaction map. -/
  | strPushb (m : Mv)
  /-- STR_PUSHAV (R227): Writes one A line from a vector of digits. -/
  | strPushav (m : Mv)
  /-- STR_PUSHBV (R227): Writes one B line from a vector of digits. -/
  | strPushbv (m : Mv)
  /-- STR_PUSHAK (R224): Pushes an A bank with K-compaction and returns the first position not consumed. -/
  | strPushak (m : Mv)
  /-- STR_BANK (R229): Sets the active bank selection BSEL. -/
  | strBank (m : Mv)
  /-- STR_BEAT (R230): Performs one beat into the active counter bank. -/
  | strBeat (m : Mv)
  /-- STR_RUN (R231): Performs beats until SLEN or an early stop at a checkpoint. -/
  | strRun (m : Mv)
  /-- STR_SHIFT (R228): Slides the active A bank by one position and brings in a new column. -/
  | strShift (m : Mv)
  /-- STR_FOLD (R234): Folds the active counter bank into the accumulator store and clears it. -/
  | strFold (m : Mv)
  /-- STR_DRAIN (R235): Reads an accumulator row as FP32 into str.vr. -/
  | strDrain (m : Mv)
  /-- STR_DRAINBF (R235): Reads an accumulator row as BF16 into str.vr. -/
  | strDrainbf (m : Mv)
  /-- STR_CLRA (R236): Clears the accumulator store and its ANAN bits. -/
  | strClra (m : Mv)
  /-- STR_CLRC (R236): Clears one counter bank and its beat index. -/
  | strClrc (m : Mv)
  /-- STR_CNT (R237): Reads one count of the active counter bank into str.r. -/
  | strCnt (m : Mv)
  /-- STR_SLEN (R239): Sets SLEN. -/
  | strSlen (m : Mv)
  /-- STR_SPREC (R239): Sets SPREC. -/
  | strSprec (m : Mv)
  /-- STR_SEEDA (R239): Sets SEEDA. -/
  | strSeeda (m : Mv)
  /-- STR_SEEDB (R239): Sets SEEDB. -/
  | strSeedb (m : Mv)
  /-- STR_SMODE (R239): Sets SMODE. -/
  | strSmode (m : Mv)
  /-- STR_STHR (R239): Sets the zero-skip threshold STHR. -/
  | strSthr (m : Mv)
  /-- STR_REFEXP (R239): Sets REFEXP. -/
  | strRefexp (m : Mv)
  /-- STR_DIGIT (R239): Sets the IB8 digit selection DSEL. -/
  | strDigit (m : Mv)
  /-- STR_CKINT (R239): Sets the checkpoint interval CKINT. -/
  | strCkint (m : Mv)
  /-- STR_MGN (R239): Sets checkpoint margin MGN[o]. -/
  | strMgn (m : Mv)
  /-- STR_CPAIR (R239): Sets the compared output pair CPAIR. -/
  | strCpair (m : Mv)
  /-- STR_STAT (R233): Reads the run status into str.r. -/
  | strStat (m : Mv)
  /-- CPY_GO (R243): Launches a copy job from a card, with a token register. -/
  | cpyGo (u : CUnit) (m : Mv)
  /-- CPY_CANCEL (R249): Cancels an incomplete copy job by its token. -/
  | cpyCancel (u : CUnit) (m : Mv)
  /-- CPY_STATUS (R250): Reports the progress of a copy job into cpyN.r. -/
  | cpyStatus (u : CUnit) (m : Mv)
  /-- COL_GO (R245): Launches a collective card with a token register. -/
  | colGo (c : CSlot) (m : Mv)
  /-- COL_CANCEL (R249): Removes a card that is still in the core's card queue. -/
  | colCancel (c : CSlot) (m : Mv)
  /-- OPERAND_ENTRY_CAPTURE (R69): An operand-port entry at an engine queue head captures its value, once its source is full, and leaves the queue. -/
  | operandEntryCapture (e : Eng)
  /-- MEM_ACCESS_START (R137): A MEM access starts at the head of its inner queue and makes its alignment, phase, bounds and ECC checks. -/
  | memAccessStart (st : Bool)
  /-- MEM_ACCESS_PERFORMED (R153): A store, atomic or send is performed at the array or leaves the core. -/
  | memAccessPerformed (st : Bool)
  /-- ATOMIC_APPLY (R149): An atomic in a memory port's write queue is applied to the array, possibly merged with others on one line. -/
  | atomicApply (pool : Bool)
  /-- CARD_READ (R244): A go at its queue head reads and validates its card, or refuses it. -/
  | cardRead (e : Eng)
  /-- JOB_COPY (R256): A COPY job moves bytes in job order. -/
  | jobCopy (n : Nat)
  /-- JOB_FILL (R256): A FILL job writes an 8-byte pattern. -/
  | jobFill (n : Nat)
  /-- JOB_GATHER (R256): A GATHER job copies rows at listed indices. -/
  | jobGather (n : Nat)
  /-- JOB_MAXSCALE (R268): A MAXSCALE collective writes the block exponent maxima on every rank. -/
  | jobMaxscale (r : Nat) (b : Nat)
  /-- JOB_REDUCE (R270): A REDUCE collective writes the exact sum, rounded once, at the root. -/
  | jobReduce (r : Nat) (b : Nat)
  /-- JOB_ALLREDUCE (R270): An ALLREDUCE collective writes the exact sum, rounded once, on every rank. -/
  | jobAllreduce (r : Nat) (b : Nat)
  /-- JOB_ALLGATHER (R270): An ALLGATHER collective copies every rank's source to every rank. -/
  | jobAllgather (r : Nat) (b : Nat)
  /-- JOB_BCAST (R270): A BCAST collective copies the root's source to every rank. -/
  | jobBcast (r : Nat) (b : Nat)
  /-- HOP_COMBINE (R269): A hop receives contributions to a block and adds them exactly at the widened width. -/
  | hopCombine (i : Nat) (j : Nat)
  /-- QUIET_REPORT (R160): A stop, edge die or pod switch reports quiet for a phase tag. -/
  | quietReport (st : Nat) (tag : Bool)
  /-- DEADLINE_EXPIRY (R378): DTC passes the deadline under KILL_LATE, and the job is parked and killed DONE_LATE. -/
  | deadlineExpiry (n : Nat)
  /-- INVAL_ACKNOWLEDGE (R315): A home acknowledges once requests translated before acceptance are performed. -/
  | invalAcknowledge (h : Nat)
  /-- FORWARDED_REQUEST (R320): A forwarded request reaches the destination home and is applied there in the old arrival order. -/
  | forwardedRequest (i : Nat)
  /-- HOME_REQUEST (R299): A main-memory request reaches its home and is transformed, translated, permission-checked and performed. -/
  | homeRequest (t : Option Nat)
  /-- ATS_PAGE_RESPONSE (R308): The host answers a host-half page request, and the home retries it or fails it. -/
  | atsPageResponse (pasid : Nat) (page : Nat) (ok : Bool) (hpa : Nat) (rd : Bool) (wr : Bool)
  /-- ATS_INVALIDATION (R315): A host ATS invalidation of the host half is accepted, drained and completed. -/
  | atsInvalidation (pasid : Nat) (lo : Nat) (len : Nat)
  /-- EXPANSION_HOLD_TIMEOUT (R325): A job write that has waited HOLDLIM is discarded, and its job ends OUT_OF_SPACE. -/
  | expansionHoldTimeout (i : Nat)
  /-- HOST_WRITE (R164): A CXL.mem host write is applied on arrival or held in the ingress buffer. -/
  | hostWrite (port : Bool) (hpa : Nat) (data : List Byte)
  /-- HOST_READ (R165): A CXL.mem host read returns memory or held data without waiting. -/
  | hostRead (port : Bool) (hpa : Nat) (len : Nat)
  /-- POWER_WINDOW (R404): At each 10 µs window the power arbiter sets each die's beat grant. -/
  | powerWindow (gs : List Nat)
  /-- PTP_SYNC (R399): An IEEE 1588 sync message adjusts the servo of edge die 0. -/
  | ptpSync (off : Int) (bound : Nat)
  /-- DTCSET_WRITE (R399): A write to DTCSET loads DTC while no stand runs. -/
  | dtcsetWrite (v : Word)
  /-- BAR0_REGISTER_WRITE (R392): A host write to a BAR 0 register without behaviour of its own. -/
  | bar0RegisterWrite (a : BarAccess) (v : Word)
  /-- WAKE_PAGE_WRITE (R394): A write to a queue wake page writes the queue's wake word. -/
  | wakePageWrite (v : Word)
  /-- NONCE_WRITE (R403): A write to the last NONCE word starts an attestation signature. -/
  | nonceWrite (off : Nat) (v : Word)
  /-- POD_LINK_FAIL (R398): A pod link fails, retrains once, and traffic moves or jobs end LINKDOWN. -/
  | podLinkFail (ok : Bool)
  /-- CXL_PORT_TRAIN (R388): A CXL port trains at a width the partner offers. -/
  | cxlPortTrain (port : Bool) (width : Nat)
  /-- BUNDLE_ISSUE (R82): The sequencer issues one bundle once every issue condition holds: it reads sources, writes registers and places moves in engine queues. -/
  | bundleIssue
  /-- PENDING_TRANSFER_COMPLETE (R79): The source of a pending transfer fills, and its value is written into the empty destination register. -/
  | pendingTransferComplete
  /-- RESULT_ARRIVAL (R78): A trigger's result arrives on its result port after its latency, and the port fills. -/
  | resultArrival
  /-- REPEAT_ENTRY (R122): A further repetition of a ctl.rep move reads its source afresh and enters its queue once there is room. -/
  | repeatEntry
  /-- COL_CARD_TAKE (R245): The die's collective engine takes a validated card from a core's card queue. -/
  | colCardTake
  /-- JOB_AMO (R257): An AMO job applies atomics to words. -/
  | jobAmo
  /-- JOB_DELTA (R258): A DELTA job hashes blocks and writes records of changed blocks. -/
  | jobDelta
  /-- TOKEN_FILL (R246): A job ends and its token fills with a status word whose FLAGS are ORed into AFL. -/
  | tokenFill
  /-- COLLECTIVE_ASSEMBLE (R266): A collective use assembles once a card is held for every participating die. -/
  | collectiveAssemble
  /-- FLIT_ARBITRATION (R261): A Girdle stop or pod-link port chooses the next flit among the priority classes. -/
  | flitArbitration
  /-- SEND_ARRIVAL (R285): A send reaches its target die and lands, is held or is discarded. -/
  | sendArrival
  /-- DISCARD_NOTICE (R287): A discard notice reaches the sender, which records a deferred send fault. -/
  | discardNotice
  /-- SLOT_READABLE (R286): A frozen core's landing slot becomes readable and its bundle issues. -/
  | slotReadable
  /-- FREEZE_TIMEOUT (R286): A landing-slot freeze lasts more than LIM cc and the core traps STRAGGLER with argument 3. -/
  | freezeTimeout
  /-- WAITT_RELEASE (R294): The die's DTC reaches the waitt value and the frozen bundle issues. -/
  | waittRelease
  /-- BARRIER_ARRIVAL (R289): A core's barrier arrival is registered once its earlier MEM accesses are performed. -/
  | barrierArrival
  /-- EPISODE_COMPLETE (R289): A barrier episode completes once every participant's arrival is registered, and its waiters issue. -/
  | episodeComplete
  /-- BWAITT_TIMEOUT (R290): A bwaitt limit expires, and the bundle issues with 1 in ctl.r. -/
  | bwaittTimeout
  /-- LOCAL_ARRIVAL (R276): After endph, a core's queues, triggers and transfers drain and it arrives at the boundary. -/
  | localArrival
  /-- FINAL_ARRIVAL (R125): A halted core drains completely, including its tokens, and arrives at the final boundary. -/
  | finalArrival
  /-- BOUNDARY_COMPLETE (R278): The boundary completes and its steps run: PHC, slots, held sends, host writes, budget charge, stop decision and superstep start. -/
  | boundaryComplete
  /-- SCAP_EXCEEDED (R280): A core's SSC reaches CAP without local arrival, and the core traps. -/
  | scapExceeded
  /-- STRAGGLER (R281): The straggler timer exceeds LIM, the stand parks, and cores trap STRAGGLER. -/
  | straggler
  /-- CORE_PARK (R326): A trap parks the core and the stand, which then capture context. -/
  | corePark
  /-- CAPTURE_END (R335): Capture ends when no entry can advance, and the core writes its trap record. -/
  | captureEnd
  /-- WATCHDOG (R336): Capture does not end within 65,536 cc, and WATCHDOG is recorded with INCOMPLETE. -/
  | watchdog
  /-- CP_TRAP_DISPOSITION (R379): The command processor holds, replays or kills a trapped job. -/
  | cpTrapDisposition
  /-- STAND_RESUME (R395): SCMD 1 resumes every core of a held stand by reissue or skip. -/
  | standResume
  /-- STAND_KILL (R395): SCMD 2 kills a held stand. -/
  | standKill
  /-- STAND_REPLAY (R395): SCMD 3 replays a held stand's REPLAYABLE job from its start. -/
  | standReplay
  /-- SHADOW_PREPARE (R344): The Canopy unit loads the incoming context into the shadow banks while the current job runs. -/
  | shadowPrepare
  /-- SPILL_REFILL_COMPLETE (R344): The spill engine finishes writing outgoing lines and refilling incoming ones, and the incoming first superstep starts. -/
  | spillRefillComplete
  /-- CONTEXT_WRITEBACK (R344): The spill engine writes the outgoing context to its frame in the background. -/
  | contextWriteback
  /-- PARKED_PREEMPT_END (R328): The Canopy unit ends a parked job chosen for pre-emption without waiting for the command processor. -/
  | parkedPreemptEnd
  /-- PREEMPT_DECISION (R376): A ready LAUNCH with an earlier deadline makes the Canopy unit choose to pre-empt the running job. -/
  | preemptDecision
  /-- DISPATCH (R376): The Canopy unit dispatches the ready LAUNCH of earliest deadline to an idle partition. -/
  | dispatch
  /-- WAKE_WORD_WRITE (R354): A write to a wake word is performed at its home, and the twig core reads the producer index afresh. -/
  | wakeWordWrite
  /-- PACKET_FETCH (R356): A twig core fetches an available packet. -/
  | packetFetch
  /-- PACKET_DECODE (R356): A twig core decodes a packet, journals it and advances FIDX, or rejects it. -/
  | packetDecode
  /-- LAUNCH (R367): A LAUNCH packet starts a job of a resident slot. -/
  | launch
  /-- SLOTLOAD (R364): A SLOTLOAD packet checks and loads a kernel image and its weight regions into a resident slot. -/
  | slotload
  /-- SLOTDROP (R365): A SLOTDROP packet invalidates a resident slot. -/
  | slotdrop
  /-- WAITV (R381): A WAITV packet waits until a masked memory word meets its condition. -/
  | waitv
  /-- WAITV_EVALUATE (R381): After a write to its line, a waiting WAITV re-evaluates its condition. -/
  | waitvEvaluate
  /-- WAITV_TIMEOUT (R381): A WAITV reaches start + TMO and completes WAIT_TIMEOUT. -/
  | waitvTimeout
  /-- WRITEV_STORE (R381): A WRITEV with OP 0 stores a value. -/
  | writevStore
  /-- WRITEV_ADD (R381): A WRITEV with OP 1 atomically adds a value. -/
  | writevAdd
  /-- FFENCE (R358): An FFENCE packet holds the fetch of later packets until earlier ones have completed. -/
  | ffence
  /-- DEPEND (R381): A DEPEND packet waits for another queue's completion entry. -/
  | depend
  /-- DEPEND_EVALUATE (R381): A waiting DEPEND re-evaluates after the other queue writes a completion entry. -/
  | dependEvaluate
  /-- DEPEND_TIMEOUT (R381): A DEPEND reaches start + TMO and completes WAIT_TIMEOUT. -/
  | dependTimeout
  /-- TIMESTAMP (R381): A TIMESTAMP packet writes DTC to memory. -/
  | timestamp
  /-- NOP (R359): A NOP packet completes DONE. -/
  | nop
  /-- INVAL_INVALIDATE (R315): An INVAL with OP 0 makes every home accept the invalidation and remove cached translations for the range. -/
  | invalInvalidate
  /-- INVAL_RETRY (R311): An INVAL with OP 1 retries held requests and side-log entries by a fresh walk, replaying on success. -/
  | invalRetry
  /-- INVAL_FAIL (R383): An INVAL with OP 2 declares held requests and side-log entries unresolvable. -/
  | invalFail
  /-- MIGRATE (R319): A MIGRATE packet freezes a range at its old home. -/
  | migrate
  /-- MIGRATE_PUBLISH (R319): After its drain, the old home copies the leaves, installs a forwarding entry and forwards held requests. -/
  | migratePublish
  /-- BALLOON_DONATE (R383): A BALLOON with OP 0 appends leaves to the balloon list. -/
  | balloonDonate
  /-- BALLOON_WITHDRAW (R383): A BALLOON with OP 1 removes leaves that have not yet been taken from the balloon list. -/
  | balloonWithdraw
  /-- VIEWSET (R383): A VIEWSET packet writes a view register of an edge die. -/
  | viewset
  /-- VIEWSET_DRAIN_COMPLETE (R383): Requests transformed by the old view are performed, and VIEWSET completes. -/
  | viewsetDrainComplete
  /-- COMPLETION_WRITE (R360): A packet's completion entry is written once there is ring room, and CIDX advances. -/
  | completionWrite
  /-- EXPANSION_HOLD_RELEASE (R325): Chunks become free and held writes are applied in arrival order. -/
  | expansionHoldRelease
  /-- BALLOON_INFLATE (R324): FREEC falls below LOWW, and the Clearing engine frees listed leaves up to HIGHW. -/
  | balloonInflate
  /-- EVENT_ARBITRATE (R396): The event arbiter takes an event in order, writes its record to the event ring and signals MSI-X. -/
  | eventArbitrate
  /-- GIRDLE_BEACON (R399): Edge die 0 sends a DTC beacon every 1 µs, and dies slew their DTC to it. -/
  | girdleBeacon
  /-- SIGNATURE_READY (R403): The signature is in place and ATSTAT reads 2. -/
  | signatureReady
  /-- MAILBOX_ERASE (R402): Recovery command 1 erases a flash region. -/
  | mailboxErase
  /-- MAILBOX_PROGRAM (R402): Recovery command 2 programs 64 KiB of a flash region. -/
  | mailboxProgram
  /-- MAILBOX_COMMITVER (R402): Recovery command 3 raises MINVER to the running firmware's version. -/
  | mailboxCommitver
  /-- MAILBOX_RESET (R402): Recovery command 4 performs a warm reset. -/
  | mailboxReset
  /-- MAILBOX_COMMAND_DONE (R402): A recovery command finishes, and MSTAT reports success or failure. -/
  | mailboxCommandDone
  /-- POWER_ON_BOOT (R400): At power-on the boot ROM authenticates the configuration and firmware and starts the device. -/
  | powerOnBoot
  /-- WARM_RESET (R386): A warm reset keeps memory and replays the journal record by record. -/
  | warmReset
  /-- HEARTBEAT_MISS (R385): The active bole core misses three heartbeats, and the standby takes over. -/
  | heartbeatMiss
  /-- BOLE_TAKEOVER (R385): The standby bole core replays the journal, rescans wake words and releases held completions. -/
  | boleTakeover
  /-- TWIG_FAILOVER (R349): A failed twig core's queues move to the next working twig core and are refetched. -/
  | twigFailover
  /-- PATROL_SCRUB (R405): Patrol scrubbing visits SRAM lines at least once per 100 ms. -/
  | patrolScrub (found : Nat)
  /-- CORRECTED_ERROR_SUMMARY (R405): An edge die reports its corrected-error counts at most once per second. -/
  | correctedErrorSummary
  /-- TRIGGER_FULL_EFFECT (R125): A trigger that writes no result port, such as str.run, str.fold, a push or vecN.wadd, takes its full effect and sets its flags some cc after it started. -/
  | triggerFullEffect
  /-- WAITV_REREAD (R381): A WAITV on a host-half ADDR reads its word again at intervals of at most 10 µs of DTC and re-evaluates its condition. -/
  | waitvReread
  /-- MSIX_COALESCE_EXPIRY (R396): When events arrive within one µs of the last MSI-X message, the coalesced MSI-X vector 0 message is sent once the µs has elapsed. -/
  | msixCoalesceExpiry
  /-- QUEUE_RESET (R361): The host resets a queue, and its packets not yet decoded complete with CANCELLED. -/
  | queueReset
  /-- BOLE_CORE_ERROR (R385): The active bole core reports an uncorrectable error of its own; the standby takes over, or, if both bole cores have failed, the device enters the recovery state. -/
  | boleCoreError
  deriving DecidableEq, Repr

end Sys2Proof
end

