-- ==== Sys2Proof/WellFormed.lean ====
section
/-! DEFINITION. Which terms of Instr stand for something the machine can meet: the slots and ports of 03_encoding.md
R66 to R68, and the ranges of the numbers a step carries. -/

namespace Sys2Proof

/-- Which engines have an operand port (03_encoding.md R68). -/
def hasPort (e : Eng) (p : OPort) : Bool :=
  match p with
  | .o | .o2 => true
  | .m => e == .vec0 || e == .vec1 || e == .mem
  | .w => e == .vec0 || e == .vec1

/-- The engine of a slot's own operand ports, as far as m and w are concerned (03_encoding.md R66, R68). -/
def slotHasPort (slot : Nat) (p : OPort) : Bool :=
  match p with
  | .o | .o2 => true
  | .m => slot == 2 || slot == 3 || slot == 7
  | .w => slot == 2 || slot == 3

/-- Well-formed instructions.  A move stands in a slot that reaches its destination (03_encoding.md R66, R67); a quiet
report comes from a stop below 68 and an acknowledgement from a home below 4 (01_machine.md R12); a power window gives each
of the 64 compute dies its G (14_system.md R404). -/
def Instr.wf : Instr → Bool
  | .moveSreg slot _ _ => slot.val == 0 || slot.val == 1 || slot.val == 7
  | .moveVreg slot _ _ => slot.val == 2 || slot.val == 3
  | .moveOperandPort slot p _ => slotHasPort slot.val p
  | .moveColOperand _ p _ => p == .o || p == .o2
  | .moveXport _ e p _ => hasPort e p
  | .quietReport st _ => decide (st < 68)
  | .invalAcknowledge h => decide (h < 4)
  | .powerWindow gs => decide (gs.length = 64)
  | _ => true

end Sys2Proof
end

