-- ==== Sys2Proof/Decode.lean ====
section
/-! DEFINITION. The decoder of a move word in its slot, written from the tables of 03_encoding.md, and the encoder. -/

namespace Sys2Proof

/-- The engine whose triggers a slot reaches through DUNIT 1 (03_encoding.md R66). -/
def slotEng (slot : Nat) : Eng :=
  match slot with
  | 0 => .ctl | 1 => .sca | 2 => .vec0 | 3 => .vec1 | 4 => .str | 5 => .cpy0 | 6 => .cpy1 | _ => .mem

/-- The slot of an engine's own triggers (03_encoding.md R66); COL stands in slot 5 or 6. -/
def Eng.slot : Eng → Nat
  | .ctl => 0 | .sca => 1 | .vec0 => 2 | .vec1 => 3 | .str => 4 | .cpy0 => 5 | .cpy1 => 6 | .mem => 7 | .col => 5

/-- The number of a COL slot. -/
def CSlot.slot : CSlot → Nat
  | .s5 => 5 | .s6 => 6

/-- An engine by its R67 code (03_encoding.md R67). -/
def engOfCode (n : Nat) : Option Eng :=
  match n with
  | 0 => some .ctl | 1 => some .sca | 2 => some .vec0 | 3 => some .vec1 | 4 => some .str
  | 5 => some .mem | 6 => some .cpy0 | 7 => some .cpy1 | 8 => some .col | _ => none

/-- An operand port by its number (03_encoding.md R68). -/
def oportOfNat (n : Nat) : Option OPort :=
  match n with
  | 0 => some .o | 1 => some .o2 | 2 => some .m | 3 => some .w | _ => none

/-- The number of an operand port (03_encoding.md R68). -/
def OPort.code : OPort → BitVec 7
  | .o => 0 | .o2 => 1 | .m => 2 | .w => 3

/-- The register an SREG port number selects; none is ILLEGAL_ENCODING (03_encoding.md R70). -/
def sdestOfNat (n : Nat) : Option SDest :=
  if n < 64 then some (.s (Fin.ofNat 64 n))
  else if n < 80 then some (.o (Fin.ofNat 16 (n - 64)))
  else if n < 88 then some (.a (Fin.ofNat 8 (n - 80)))
  else if n < 95 then some (.g (Fin.ofNat 7 (n - 88)))
  else if n < 96 then none
  else if n < 112 then some (.bind (Fin.ofNat 16 (n - 96)))
  else none

/-- The SREG port number of a register (03_encoding.md R70). -/
def SDest.port : SDest → BitVec 7
  | .s i => BitVec.ofNat 7 i.val
  | .o i => BitVec.ofNat 7 (64 + i.val)
  | .a i => BitVec.ofNat 7 (80 + i.val)
  | .g i => BitVec.ofNat 7 (88 + i.val)
  | .bind i => BitVec.ofNat 7 (96 + i.val)

/-- The register a VREG port number selects (03_encoding.md R71). -/
def vdestOfNat (n : Nat) : Option VDest :=
  if n < 32 then some (.v (Fin.ofNat 32 n))
  else if n < 40 then some (.vm (Fin.ofNat 8 (n - 32)))
  else none

/-- The VREG port number of a register (03_encoding.md R71). -/
def VDest.port : VDest → BitVec 7
  | .v i => BitVec.ofNat 7 i.val
  | .vm i => BitVec.ofNat 7 (32 + i.val)

/-- The scalar source an index names (03_encoding.md R72, SKIND 0b00). -/
def scalarSrc (e : Bool) (n : Nat) : Option Src :=
  if n < 64 then some (.reg (.s (Fin.ofNat 64 n)) e)
  else if n < 80 then some (.reg (.o (Fin.ofNat 16 (n - 64))) e)
  else if n < 88 then some (.reg (.a (Fin.ofNat 8 (n - 80))) e)
  else if n < 95 then some (.reg (.g (Fin.ofNat 7 (n - 88))) e)
  else if n < 96 then none
  else if n < 112 then some (.bind (Fin.ofNat 16 (n - 96)) e)
  else if n < 123 then
    match n with
    | 112 => some (.port .scaR e) | 113 => some (.port .scaP e) | 114 => some (.port .memR e)
    | 115 => some (.port .memP e) | 116 => some (.port .ctlR e) | 117 => some (.port .strR e)
    | 118 => some (.port .vec0S e) | 119 => some (.port .vec1S e) | 120 => some (.port .cpy0R e)
    | 121 => some (.port .cpy1R e) | _ => some (.port .colR e)
  else if n < 128 then none
  else if n < 192 then some (.lndS (Fin.ofNat 64 (n - 128)) e)
  else none

/-- The vector source an index names (03_encoding.md R72, SKIND 0b01). -/
def vectorSrc (e : Bool) (n : Nat) : Option Src :=
  if n < 32 then some (.reg (.v (Fin.ofNat 32 n)) e)
  else if n < 40 then some (.reg (.vm (Fin.ofNat 8 (n - 32))) e)
  else if n < 50 then
    match n with
    | 40 => some (.port .vec0R e) | 41 => some (.port .vec0P e) | 42 => some (.port .vec1R e)
    | 43 => some (.port .vec1P e) | 44 => some (.port .vec0M e) | 45 => some (.port .vec1M e)
    | 46 => some (.port .memVr e) | 47 => some (.port .memVp e) | 48 => some (.port .strVr e)
    | _ => some (.port .strVp e)
  else if n < 64 then none
  else if n < 128 then some (.lndV (Fin.ofNat 64 (n - 64)) e)
  else none

/-- The source fields SKIND, E and SIDX (03_encoding.md R65, R72, R73); none is ILLEGAL_ENCODING. -/
def decodeSrc (w : BitVec 11) : Option Src :=
  let e := w.getLsbD 8
  let n := (w.extractLsb' 0 8).toNat
  match (w.extractLsb' 9 2).toNat with
  | 0 => scalarSrc e n
  | 1 => vectorSrc e n
  | 2 => some (.const (w.extractLsb' 0 8) e)
  | _ => some (.lit (w.extractLsb' 0 9))

/-- The index of a result port within its source kind (03_encoding.md R72): true for the vector kind. -/
def RPort.index : RPort → Bool × BitVec 8
  | .scaR => (false, 112) | .scaP => (false, 113) | .memR => (false, 114) | .memP => (false, 115)
  | .ctlR => (false, 116) | .strR => (false, 117) | .vec0S => (false, 118) | .vec1S => (false, 119)
  | .cpy0R => (false, 120) | .cpy1R => (false, 121) | .colR => (false, 122)
  | .vec0R => (true, 40) | .vec0P => (true, 41) | .vec1R => (true, 42) | .vec1P => (true, 43)
  | .vec0M => (true, 44) | .vec1M => (true, 45) | .memVr => (true, 46) | .memVp => (true, 47)
  | .strVr => (true, 48) | .strVp => (true, 49)

/-- The kind (true: vector) and index of a register as a source (03_encoding.md R72). -/
def RegId.index : RegId → Bool × BitVec 8
  | .s i => (false, BitVec.ofNat 8 i.val)
  | .o i => (false, BitVec.ofNat 8 (64 + i.val))
  | .a i => (false, BitVec.ofNat 8 (80 + i.val))
  | .g i => (false, BitVec.ofNat 8 (88 + i.val))
  | .v i => (true, BitVec.ofNat 8 i.val)
  | .vm i => (true, BitVec.ofNat 8 (32 + i.val))

/-- SKIND, E and SIDX put together (03_encoding.md R65). -/
def srcBits (kind : BitVec 2) (e : Bool) (n : BitVec 8) : BitVec 11 :=
  kind ++ (BitVec.ofBool e ++ n)

/-- The source bits of a move word (03_encoding.md R65, R72). -/
def encodeSrc : Src → BitVec 11
  | .reg r e => srcBits (if r.index.1 then 1 else 0) e r.index.2
  | .bind i e => srcBits 0 e (BitVec.ofNat 8 (96 + i.val))
  | .port p e => srcBits (if p.index.1 then 1 else 0) e p.index.2
  | .lndS n e => srcBits 0 e (BitVec.ofNat 8 (128 + n.val))
  | .lndV n e => srcBits 1 e (BitVec.ofNat 8 (64 + n.val))
  | .const i e => srcBits 2 e i
  | .lit x => (3 : BitVec 2) ++ x

/-- The triggers of CTL by port number (03_encoding.md R91). -/
def decodeCtl (m : Mv) (p : Nat) : Option Instr :=
  match p with
  | 0x08 => some (.ctlJmp m)
  | 0x09 => some (.ctlJrel m)
  | 0x0A => some (.ctlCall m)
  | 0x0B => some (.ctlRet m)
  | 0x0C => some (.ctlLoop m)
  | 0x0D => some (.ctlRep m)
  | 0x0E => some (.ctlHalt m)
  | 0x0F => some (.ctlTrap m)
  | 0x10 => some (.ctlTfence m)
  | 0x11 => some (.ctlCsrr m)
  | 0x12 => some (.ctlCsrw m)
  | 0x13 => some (.ctlGset m)
  | 0x14 => some (.ctlGnot m)
  | 0x15 => some (.ctlGand m)
  | 0x16 => some (.ctlGor m)
  | 0x17 => some (.ctlDrain m)
  | 0x20 => some (.ctlEndph m)
  | 0x21 => some (.ctlBar m)
  | 0x22 => some (.ctlArrive m)
  | 0x23 => some (.ctlBwait m)
  | 0x24 => some (.ctlBwaitt m)
  | 0x25 => some (.ctlWaitt m)
  | 0x26 => some (.ctlTime m)
  | _ => none

/-- The triggers of SCA by port number (03_encoding.md R92). -/
def decodeSca (m : Mv) (p : Nat) : Option Instr :=
  match p with
  | 0x08 => some (.scaAdd m)
  | 0x09 => some (.scaSub m)
  | 0x0A => some (.scaMul m)
  | 0x0B => some (.scaMulhs m)
  | 0x0C => some (.scaMulhn m)
  | 0x0D => some (.scaDivs m)
  | 0x0E => some (.scaDivn m)
  | 0x0F => some (.scaRems m)
  | 0x10 => some (.scaRemn m)
  | 0x11 => some (.scaAnd m)
  | 0x12 => some (.scaOr m)
  | 0x13 => some (.scaXor m)
  | 0x14 => some (.scaAndn m)
  | 0x15 => some (.scaShl m)
  | 0x16 => some (.scaShrl m)
  | 0x17 => some (.scaShra m)
  | 0x18 => some (.scaRotl m)
  | 0x19 => some (.scaClz m)
  | 0x1A => some (.scaCtz m)
  | 0x1B => some (.scaPopc m)
  | 0x1C => some (.scaMins m)
  | 0x1D => some (.scaMaxs m)
  | 0x1E => some (.scaMinn m)
  | 0x1F => some (.scaMaxn m)
  | 0x20 => some (.scaCeq m)
  | 0x21 => some (.scaCne m)
  | 0x22 => some (.scaClts m)
  | 0x23 => some (.scaCltn m)
  | 0x24 => some (.scaCles m)
  | 0x25 => some (.scaClen m)
  | 0x26 => some (.scaSel m)
  | 0x27 => some (.scaSext m)
  | 0x28 => some (.scaZext m)
  | 0x29 => some (.scaBfx m)
  | 0x2A => some (.scaBfi m)
  | 0x2B => some (.scaPass m)
  | 0x2C => some (.scaCat9 m)
  | _ => none

/-- The triggers of MEM by port number (03_encoding.md R93). -/
def decodeMem (m : Mv) (p : Nat) : Option Instr :=
  match p with
  | 0x08 => some (.memLdb m)
  | 0x09 => some (.memLdbn m)
  | 0x0A => some (.memLdh m)
  | 0x0B => some (.memLdhn m)
  | 0x0C => some (.memLdw m)
  | 0x0D => some (.memLdwn m)
  | 0x0E => some (.memLdd m)
  | 0x10 => some (.memStb m)
  | 0x11 => some (.memSth m)
  | 0x12 => some (.memStw m)
  | 0x13 => some (.memStd m)
  | 0x18 => some (.memVld m)
  | 0x19 => some (.memVlds m)
  | 0x1A => some (.memVgat m)
  | 0x1B => some (.memVst m)
  | 0x1C => some (.memVsts m)
  | 0x1D => some (.memVsca m)
  | 0x1E => some (.memVstm m)
  | 0x20 => some (.memAmoadd m)
  | 0x21 => some (.memAmomins m)
  | 0x22 => some (.memAmomaxs m)
  | 0x23 => some (.memAmominn m)
  | 0x24 => some (.memAmomaxn m)
  | 0x25 => some (.memAmoand m)
  | 0x26 => some (.memAmoor m)
  | 0x27 => some (.memAmoxor m)
  | 0x28 => some (.memAmoswap m)
  | 0x29 => some (.memAmocas m)
  | 0x30 => some (.memAmoaddW m)
  | 0x31 => some (.memAmominsW m)
  | 0x32 => some (.memAmomaxsW m)
  | 0x33 => some (.memAmominnW m)
  | 0x34 => some (.memAmomaxnW m)
  | 0x35 => some (.memAmoandW m)
  | 0x36 => some (.memAmoorW m)
  | 0x37 => some (.memAmoxorW m)
  | 0x38 => some (.memAmoswapW m)
  | 0x39 => some (.memAmocasW m)
  | 0x3A => some (.memAmofmaxW m)
  | 0x40 => some (.memMark m)
  | 0x41 => some (.memSend m)
  | 0x42 => some (.memSends m)
  | _ => none

/-- The triggers of VEC by port number (03_encoding.md R94). -/
def decodeVec (u : VUnit) (m : Mv) (p : Nat) : Option Instr :=
  match p with
  | 0x08 => some (.vecIadd u m)
  | 0x09 => some (.vecIsub u m)
  | 0x0A => some (.vecImul u m)
  | 0x0B => some (.vecImulh u m)
  | 0x0C => some (.vecImac u m)
  | 0x0D => some (.vecImins u m)
  | 0x0E => some (.vecImaxs u m)
  | 0x0F => some (.vecIminn u m)
  | 0x10 => some (.vecImaxn u m)
  | 0x11 => some (.vecIabs u m)
  | 0x12 => some (.vecAnd u m)
  | 0x13 => some (.vecOr u m)
  | 0x14 => some (.vecXor u m)
  | 0x15 => some (.vecAndn u m)
  | 0x16 => some (.vecShl u m)
  | 0x17 => some (.vecShrl u m)
  | 0x18 => some (.vecShra u m)
  | 0x19 => some (.vecPopc u m)
  | 0x1A => some (.vecClz u m)
  | 0x1B => some (.vecCeq u m)
  | 0x1C => some (.vecClts u m)
  | 0x1D => some (.vecCles u m)
  | 0x1E => some (.vecFceq u m)
  | 0x1F => some (.vecFclt u m)
  | 0x20 => some (.vecFcle u m)
  | 0x21 => some (.vecSel u m)
  | 0x28 => some (.vecFadd u m)
  | 0x29 => some (.vecFsub u m)
  | 0x2A => some (.vecFmul u m)
  | 0x2B => some (.vecFfma u m)
  | 0x2C => some (.vecFmin u m)
  | 0x2D => some (.vecFmax u m)
  | 0x2E => some (.vecFabs u m)
  | 0x2F => some (.vecFneg u m)
  | 0x30 => some (.vecFrcp u m)
  | 0x31 => some (.vecFrsq u m)
  | 0x32 => some (.vecFexp2 u m)
  | 0x33 => some (.vecFlog2 u m)
  | 0x34 => some (.vecFsqrt u m)
  | 0x40 => some (.vecF2i u m)
  | 0x41 => some (.vecI2f u m)
  | 0x42 => some (.vecF2bf u m)
  | 0x43 => some (.vecBf2fl u m)
  | 0x44 => some (.vecBf2fh u m)
  | 0x45 => some (.vecNarrow u m)
  | 0x46 => some (.vecWiden u m)
  | 0x48 => some (.vecBmax u m)
  | 0x49 => some (.vecQscale u m)
  | 0x4A => some (.vecQfa4 u m)
  | 0x4B => some (.vecQib8 u m)
  | 0x4C => some (.vecDqfa4 u m)
  | 0x4D => some (.vecDqib8 u m)
  | 0x50 => some (.vecWadd u m)
  | 0x51 => some (.vecWsub u m)
  | 0x52 => some (.vecWget u m)
  | 0x53 => some (.vecWclr u m)
  | 0x54 => some (.vecWfold u m)
  | 0x55 => some (.vecWgetbf u m)
  | 0x58 => some (.vecIredadd u m)
  | 0x59 => some (.vecIredmax u m)
  | 0x5A => some (.vecFredmax u m)
  | 0x5B => some (.vecFredsum u m)
  | 0x60 => some (.vecPerm u m)
  | 0x61 => some (.vecLrot u m)
  | 0x62 => some (.vecBcast u m)
  | 0x63 => some (.vecIns u m)
  | 0x64 => some (.vecExt u m)
  | 0x65 => some (.vecZip u m)
  | 0x66 => some (.vecUnzip u m)
  | 0x68 => some (.vecClmul u m)
  | 0x69 => some (.vecClmulh u m)
  | 0x6A => some (.vecBitrev u m)
  | _ => none

/-- The triggers of STR by port number (03_encoding.md R95). -/
def decodeStr (m : Mv) (p : Nat) : Option Instr :=
  match p with
  | 0x08 => some (.strPusha m)
  | 0x09 => some (.strPushb m)
  | 0x0A => some (.strPushav m)
  | 0x0B => some (.strPushbv m)
  | 0x0C => some (.strPushak m)
  | 0x0D => some (.strBank m)
  | 0x10 => some (.strBeat m)
  | 0x11 => some (.strRun m)
  | 0x12 => some (.strShift m)
  | 0x18 => some (.strFold m)
  | 0x19 => some (.strDrain m)
  | 0x1A => some (.strDrainbf m)
  | 0x1B => some (.strClra m)
  | 0x1C => some (.strClrc m)
  | 0x1D => some (.strCnt m)
  | 0x20 => some (.strSlen m)
  | 0x21 => some (.strSprec m)
  | 0x22 => some (.strSeeda m)
  | 0x23 => some (.strSeedb m)
  | 0x24 => some (.strSmode m)
  | 0x25 => some (.strSthr m)
  | 0x26 => some (.strRefexp m)
  | 0x27 => some (.strDigit m)
  | 0x28 => some (.strCkint m)
  | 0x29 => some (.strMgn m)
  | 0x2A => some (.strCpair m)
  | 0x2B => some (.strStat m)
  | _ => none

/-- The triggers of CPY by port number (03_encoding.md R96). -/
def decodeCpy (u : CUnit) (m : Mv) (p : Nat) : Option Instr :=
  match p with
  | 0x08 => some (.cpyGo u m)
  | 0x09 => some (.cpyCancel u m)
  | 0x0A => some (.cpyStatus u m)
  | _ => none

/-- The triggers of COL by port number (03_encoding.md R96). -/
def decodeCol (c : CSlot) (m : Mv) (p : Nat) : Option Instr :=
  match p with
  | 0x08 => some (.colGo c m)
  | 0x09 => some (.colCancel c m)
  | _ => none

/-- The operand-port move of DUNIT 1 in a slot (03_encoding.md R66, R68). -/
def decodeOwnPort (slot : Fin 8) (m : Mv) (p : Nat) : Option Instr :=
  match oportOfNat p with
  | some q => if hasPort (slotEng slot.val) q then some (.moveOperandPort slot q m) else none
  | none => none

/-- A trigger of DUNIT 1 in a slot (03_encoding.md R66, R91 to R96). -/
def decodeTrigger (slot : Fin 8) (m : Mv) (p : Nat) : Option Instr :=
  match slot.val with
  | 0 => decodeCtl m p
  | 1 => decodeSca m p
  | 2 => decodeVec .v0 m p
  | 3 => decodeVec .v1 m p
  | 4 => decodeStr m p
  | 5 => decodeCpy .c0 m p
  | 6 => decodeCpy .c1 m p
  | _ => decodeMem m p

/-- DUNIT 0 in a slot: SREG in slots 0, 1 and 7, VREG in slots 2 and 3, reserved elsewhere (03_encoding.md R66). -/
def decodeUnit0 (slot : Fin 8) (m : Mv) (p : Nat) : Option Instr :=
  if slot.val = 0 ∨ slot.val = 1 ∨ slot.val = 7 then (sdestOfNat p).map (.moveSreg slot · m)
  else if slot.val = 2 ∨ slot.val = 3 then (vdestOfNat p).map (.moveVreg slot · m)
  else none

/-- DUNIT 2 in a slot: COL in slots 5 and 6, VREG in slot 7, reserved elsewhere (03_encoding.md R66, R241). -/
def decodeUnit2 (slot : Fin 8) (m : Mv) (p : Nat) : Option Instr :=
  match slot.val with
  | 5 => decodeColUnit .s5 m p
  | 6 => decodeColUnit .s6 m p
  | 7 => (vdestOfNat p).map (.moveVregSlot7 · m)
  | _ => none
where
  /-- A COL port: o and o2, or a trigger (03_encoding.md R96). -/
  decodeColUnit (c : CSlot) (m : Mv) (p : Nat) : Option Instr :=
    match p with
    | 0 => some (.moveColOperand c .o m)
    | 1 => some (.moveColOperand c .o2 m)
    | _ => decodeCol c m p

/-- DUNIT 3: the operand window XPORT (03_encoding.md R67). -/
def decodeXport (slot : Fin 8) (m : Mv) (d : BitVec 7) : Option Instr :=
  match engOfCode (d.extractLsb' 3 4).toNat, oportOfNat (d.extractLsb' 0 3).toNat with
  | some e, some q => if hasPort e q then some (.moveXport slot e q m) else none
  | _, _ => none

/-- A move word in a slot; none is ILLEGAL_ENCODING (03_encoding.md R65 to R72).  The no-op word is recognised before
this, by R63. -/
def decodeMove (slot : Fin 8) (w : BitVec 24) : Option Instr :=
  match decodeSrc (w.extractLsb' 0 11) with
  | none => none
  | some src =>
    let m : Mv := ⟨w.extractLsb' 21 3, src⟩
    let d := w.extractLsb' 11 7
    match (w.extractLsb' 18 3).toNat with
    | 0 => decodeUnit0 slot m d.toNat
    | 1 => if d.toNat < 8 then decodeOwnPort slot m d.toNat else decodeTrigger slot m d.toNat
    | 2 => decodeUnit2 slot m d.toNat
    | 3 => decodeXport slot m d
    | _ => none

/-- The slot, the DUNIT and the DPORT of an encoded instruction, and its guard and source (03_encoding.md R65 to R68,
R91 to R96); none for a step that has no encoding. -/
def Instr.fields : Instr → Option (Nat × BitVec 3 × BitVec 7 × Mv)
  | .ctlJmp m => some (0, 1, 0x08, m)
  | .ctlJrel m => some (0, 1, 0x09, m)
  | .ctlCall m => some (0, 1, 0x0A, m)
  | .ctlRet m => some (0, 1, 0x0B, m)
  | .ctlLoop m => some (0, 1, 0x0C, m)
  | .ctlRep m => some (0, 1, 0x0D, m)
  | .ctlHalt m => some (0, 1, 0x0E, m)
  | .ctlTrap m => some (0, 1, 0x0F, m)
  | .ctlTfence m => some (0, 1, 0x10, m)
  | .ctlCsrr m => some (0, 1, 0x11, m)
  | .ctlCsrw m => some (0, 1, 0x12, m)
  | .ctlGset m => some (0, 1, 0x13, m)
  | .ctlGnot m => some (0, 1, 0x14, m)
  | .ctlGand m => some (0, 1, 0x15, m)
  | .ctlGor m => some (0, 1, 0x16, m)
  | .ctlDrain m => some (0, 1, 0x17, m)
  | .ctlEndph m => some (0, 1, 0x20, m)
  | .ctlBar m => some (0, 1, 0x21, m)
  | .ctlArrive m => some (0, 1, 0x22, m)
  | .ctlBwait m => some (0, 1, 0x23, m)
  | .ctlBwaitt m => some (0, 1, 0x24, m)
  | .ctlWaitt m => some (0, 1, 0x25, m)
  | .ctlTime m => some (0, 1, 0x26, m)
  | .scaAdd m => some (1, 1, 0x08, m)
  | .scaSub m => some (1, 1, 0x09, m)
  | .scaMul m => some (1, 1, 0x0A, m)
  | .scaMulhs m => some (1, 1, 0x0B, m)
  | .scaMulhn m => some (1, 1, 0x0C, m)
  | .scaDivs m => some (1, 1, 0x0D, m)
  | .scaDivn m => some (1, 1, 0x0E, m)
  | .scaRems m => some (1, 1, 0x0F, m)
  | .scaRemn m => some (1, 1, 0x10, m)
  | .scaAnd m => some (1, 1, 0x11, m)
  | .scaOr m => some (1, 1, 0x12, m)
  | .scaXor m => some (1, 1, 0x13, m)
  | .scaAndn m => some (1, 1, 0x14, m)
  | .scaShl m => some (1, 1, 0x15, m)
  | .scaShrl m => some (1, 1, 0x16, m)
  | .scaShra m => some (1, 1, 0x17, m)
  | .scaRotl m => some (1, 1, 0x18, m)
  | .scaClz m => some (1, 1, 0x19, m)
  | .scaCtz m => some (1, 1, 0x1A, m)
  | .scaPopc m => some (1, 1, 0x1B, m)
  | .scaMins m => some (1, 1, 0x1C, m)
  | .scaMaxs m => some (1, 1, 0x1D, m)
  | .scaMinn m => some (1, 1, 0x1E, m)
  | .scaMaxn m => some (1, 1, 0x1F, m)
  | .scaCeq m => some (1, 1, 0x20, m)
  | .scaCne m => some (1, 1, 0x21, m)
  | .scaClts m => some (1, 1, 0x22, m)
  | .scaCltn m => some (1, 1, 0x23, m)
  | .scaCles m => some (1, 1, 0x24, m)
  | .scaClen m => some (1, 1, 0x25, m)
  | .scaSel m => some (1, 1, 0x26, m)
  | .scaSext m => some (1, 1, 0x27, m)
  | .scaZext m => some (1, 1, 0x28, m)
  | .scaBfx m => some (1, 1, 0x29, m)
  | .scaBfi m => some (1, 1, 0x2A, m)
  | .scaPass m => some (1, 1, 0x2B, m)
  | .scaCat9 m => some (1, 1, 0x2C, m)
  | .memLdb m => some (7, 1, 0x08, m)
  | .memLdbn m => some (7, 1, 0x09, m)
  | .memLdh m => some (7, 1, 0x0A, m)
  | .memLdhn m => some (7, 1, 0x0B, m)
  | .memLdw m => some (7, 1, 0x0C, m)
  | .memLdwn m => some (7, 1, 0x0D, m)
  | .memLdd m => some (7, 1, 0x0E, m)
  | .memStb m => some (7, 1, 0x10, m)
  | .memSth m => some (7, 1, 0x11, m)
  | .memStw m => some (7, 1, 0x12, m)
  | .memStd m => some (7, 1, 0x13, m)
  | .memVld m => some (7, 1, 0x18, m)
  | .memVlds m => some (7, 1, 0x19, m)
  | .memVgat m => some (7, 1, 0x1A, m)
  | .memVst m => some (7, 1, 0x1B, m)
  | .memVsts m => some (7, 1, 0x1C, m)
  | .memVsca m => some (7, 1, 0x1D, m)
  | .memVstm m => some (7, 1, 0x1E, m)
  | .memAmoadd m => some (7, 1, 0x20, m)
  | .memAmomins m => some (7, 1, 0x21, m)
  | .memAmomaxs m => some (7, 1, 0x22, m)
  | .memAmominn m => some (7, 1, 0x23, m)
  | .memAmomaxn m => some (7, 1, 0x24, m)
  | .memAmoand m => some (7, 1, 0x25, m)
  | .memAmoor m => some (7, 1, 0x26, m)
  | .memAmoxor m => some (7, 1, 0x27, m)
  | .memAmoswap m => some (7, 1, 0x28, m)
  | .memAmocas m => some (7, 1, 0x29, m)
  | .memAmoaddW m => some (7, 1, 0x30, m)
  | .memAmominsW m => some (7, 1, 0x31, m)
  | .memAmomaxsW m => some (7, 1, 0x32, m)
  | .memAmominnW m => some (7, 1, 0x33, m)
  | .memAmomaxnW m => some (7, 1, 0x34, m)
  | .memAmoandW m => some (7, 1, 0x35, m)
  | .memAmoorW m => some (7, 1, 0x36, m)
  | .memAmoxorW m => some (7, 1, 0x37, m)
  | .memAmoswapW m => some (7, 1, 0x38, m)
  | .memAmocasW m => some (7, 1, 0x39, m)
  | .memAmofmaxW m => some (7, 1, 0x3A, m)
  | .memMark m => some (7, 1, 0x40, m)
  | .memSend m => some (7, 1, 0x41, m)
  | .memSends m => some (7, 1, 0x42, m)
  | .vecIadd u m => some (u.eng.slot, 1, 0x08, m)
  | .vecIsub u m => some (u.eng.slot, 1, 0x09, m)
  | .vecImul u m => some (u.eng.slot, 1, 0x0A, m)
  | .vecImulh u m => some (u.eng.slot, 1, 0x0B, m)
  | .vecImac u m => some (u.eng.slot, 1, 0x0C, m)
  | .vecImins u m => some (u.eng.slot, 1, 0x0D, m)
  | .vecImaxs u m => some (u.eng.slot, 1, 0x0E, m)
  | .vecIminn u m => some (u.eng.slot, 1, 0x0F, m)
  | .vecImaxn u m => some (u.eng.slot, 1, 0x10, m)
  | .vecIabs u m => some (u.eng.slot, 1, 0x11, m)
  | .vecAnd u m => some (u.eng.slot, 1, 0x12, m)
  | .vecOr u m => some (u.eng.slot, 1, 0x13, m)
  | .vecXor u m => some (u.eng.slot, 1, 0x14, m)
  | .vecAndn u m => some (u.eng.slot, 1, 0x15, m)
  | .vecShl u m => some (u.eng.slot, 1, 0x16, m)
  | .vecShrl u m => some (u.eng.slot, 1, 0x17, m)
  | .vecShra u m => some (u.eng.slot, 1, 0x18, m)
  | .vecPopc u m => some (u.eng.slot, 1, 0x19, m)
  | .vecClz u m => some (u.eng.slot, 1, 0x1A, m)
  | .vecCeq u m => some (u.eng.slot, 1, 0x1B, m)
  | .vecClts u m => some (u.eng.slot, 1, 0x1C, m)
  | .vecCles u m => some (u.eng.slot, 1, 0x1D, m)
  | .vecFceq u m => some (u.eng.slot, 1, 0x1E, m)
  | .vecFclt u m => some (u.eng.slot, 1, 0x1F, m)
  | .vecFcle u m => some (u.eng.slot, 1, 0x20, m)
  | .vecSel u m => some (u.eng.slot, 1, 0x21, m)
  | .vecFadd u m => some (u.eng.slot, 1, 0x28, m)
  | .vecFsub u m => some (u.eng.slot, 1, 0x29, m)
  | .vecFmul u m => some (u.eng.slot, 1, 0x2A, m)
  | .vecFfma u m => some (u.eng.slot, 1, 0x2B, m)
  | .vecFmin u m => some (u.eng.slot, 1, 0x2C, m)
  | .vecFmax u m => some (u.eng.slot, 1, 0x2D, m)
  | .vecFabs u m => some (u.eng.slot, 1, 0x2E, m)
  | .vecFneg u m => some (u.eng.slot, 1, 0x2F, m)
  | .vecFrcp u m => some (u.eng.slot, 1, 0x30, m)
  | .vecFrsq u m => some (u.eng.slot, 1, 0x31, m)
  | .vecFexp2 u m => some (u.eng.slot, 1, 0x32, m)
  | .vecFlog2 u m => some (u.eng.slot, 1, 0x33, m)
  | .vecFsqrt u m => some (u.eng.slot, 1, 0x34, m)
  | .vecF2i u m => some (u.eng.slot, 1, 0x40, m)
  | .vecI2f u m => some (u.eng.slot, 1, 0x41, m)
  | .vecF2bf u m => some (u.eng.slot, 1, 0x42, m)
  | .vecBf2fl u m => some (u.eng.slot, 1, 0x43, m)
  | .vecBf2fh u m => some (u.eng.slot, 1, 0x44, m)
  | .vecNarrow u m => some (u.eng.slot, 1, 0x45, m)
  | .vecWiden u m => some (u.eng.slot, 1, 0x46, m)
  | .vecBmax u m => some (u.eng.slot, 1, 0x48, m)
  | .vecQscale u m => some (u.eng.slot, 1, 0x49, m)
  | .vecQfa4 u m => some (u.eng.slot, 1, 0x4A, m)
  | .vecQib8 u m => some (u.eng.slot, 1, 0x4B, m)
  | .vecDqfa4 u m => some (u.eng.slot, 1, 0x4C, m)
  | .vecDqib8 u m => some (u.eng.slot, 1, 0x4D, m)
  | .vecWadd u m => some (u.eng.slot, 1, 0x50, m)
  | .vecWsub u m => some (u.eng.slot, 1, 0x51, m)
  | .vecWget u m => some (u.eng.slot, 1, 0x52, m)
  | .vecWclr u m => some (u.eng.slot, 1, 0x53, m)
  | .vecWfold u m => some (u.eng.slot, 1, 0x54, m)
  | .vecWgetbf u m => some (u.eng.slot, 1, 0x55, m)
  | .vecIredadd u m => some (u.eng.slot, 1, 0x58, m)
  | .vecIredmax u m => some (u.eng.slot, 1, 0x59, m)
  | .vecFredmax u m => some (u.eng.slot, 1, 0x5A, m)
  | .vecFredsum u m => some (u.eng.slot, 1, 0x5B, m)
  | .vecPerm u m => some (u.eng.slot, 1, 0x60, m)
  | .vecLrot u m => some (u.eng.slot, 1, 0x61, m)
  | .vecBcast u m => some (u.eng.slot, 1, 0x62, m)
  | .vecIns u m => some (u.eng.slot, 1, 0x63, m)
  | .vecExt u m => some (u.eng.slot, 1, 0x64, m)
  | .vecZip u m => some (u.eng.slot, 1, 0x65, m)
  | .vecUnzip u m => some (u.eng.slot, 1, 0x66, m)
  | .vecClmul u m => some (u.eng.slot, 1, 0x68, m)
  | .vecClmulh u m => some (u.eng.slot, 1, 0x69, m)
  | .vecBitrev u m => some (u.eng.slot, 1, 0x6A, m)
  | .strPusha m => some (4, 1, 0x08, m)
  | .strPushb m => some (4, 1, 0x09, m)
  | .strPushav m => some (4, 1, 0x0A, m)
  | .strPushbv m => some (4, 1, 0x0B, m)
  | .strPushak m => some (4, 1, 0x0C, m)
  | .strBank m => some (4, 1, 0x0D, m)
  | .strBeat m => some (4, 1, 0x10, m)
  | .strRun m => some (4, 1, 0x11, m)
  | .strShift m => some (4, 1, 0x12, m)
  | .strFold m => some (4, 1, 0x18, m)
  | .strDrain m => some (4, 1, 0x19, m)
  | .strDrainbf m => some (4, 1, 0x1A, m)
  | .strClra m => some (4, 1, 0x1B, m)
  | .strClrc m => some (4, 1, 0x1C, m)
  | .strCnt m => some (4, 1, 0x1D, m)
  | .strSlen m => some (4, 1, 0x20, m)
  | .strSprec m => some (4, 1, 0x21, m)
  | .strSeeda m => some (4, 1, 0x22, m)
  | .strSeedb m => some (4, 1, 0x23, m)
  | .strSmode m => some (4, 1, 0x24, m)
  | .strSthr m => some (4, 1, 0x25, m)
  | .strRefexp m => some (4, 1, 0x26, m)
  | .strDigit m => some (4, 1, 0x27, m)
  | .strCkint m => some (4, 1, 0x28, m)
  | .strMgn m => some (4, 1, 0x29, m)
  | .strCpair m => some (4, 1, 0x2A, m)
  | .strStat m => some (4, 1, 0x2B, m)
  | .cpyGo u m => some (u.eng.slot, 1, 0x08, m)
  | .cpyCancel u m => some (u.eng.slot, 1, 0x09, m)
  | .cpyStatus u m => some (u.eng.slot, 1, 0x0A, m)
  | .colGo c m => some (c.slot, 2, 0x08, m)
  | .colCancel c m => some (c.slot, 2, 0x09, m)
  | .moveSreg slot d m => some (slot.val, 0, d.port, m)
  | .moveVreg slot d m => some (slot.val, 0, d.port, m)
  | .moveVregSlot7 d m => some (7, 2, d.port, m)
  | .moveOperandPort slot p m => some (slot.val, 1, p.code, m)
  | .moveColOperand c p m => some (c.slot, 2, p.code, m)
  | .moveXport slot e p m => some (slot.val, 3, BitVec.ofNat 4 e.code ++ p.code.extractLsb' 0 3, m)
  | .bundleIssue => none
  | .pendingTransferComplete => none
  | .operandEntryCapture _ => none
  | .resultArrival => none
  | .repeatEntry => none
  | .memAccessStart _ => none
  | .memAccessPerformed _ => none
  | .atomicApply _ => none
  | .cardRead _ => none
  | .colCardTake => none
  | .jobCopy _ => none
  | .jobFill _ => none
  | .jobGather _ => none
  | .jobAmo => none
  | .jobDelta => none
  | .tokenFill => none
  | .collectiveAssemble => none
  | .jobMaxscale _ _ => none
  | .jobReduce _ _ => none
  | .jobAllreduce _ _ => none
  | .jobAllgather _ _ => none
  | .jobBcast _ _ => none
  | .hopCombine _ _ => none
  | .flitArbitration => none
  | .sendArrival => none
  | .discardNotice => none
  | .slotReadable => none
  | .freezeTimeout => none
  | .waittRelease => none
  | .barrierArrival => none
  | .episodeComplete => none
  | .bwaittTimeout => none
  | .localArrival => none
  | .finalArrival => none
  | .quietReport _ _ => none
  | .boundaryComplete => none
  | .scapExceeded => none
  | .straggler => none
  | .corePark => none
  | .captureEnd => none
  | .watchdog => none
  | .cpTrapDisposition => none
  | .standResume => none
  | .standKill => none
  | .standReplay => none
  | .shadowPrepare => none
  | .spillRefillComplete => none
  | .contextWriteback => none
  | .parkedPreemptEnd => none
  | .preemptDecision => none
  | .dispatch => none
  | .deadlineExpiry _ => none
  | .wakeWordWrite => none
  | .packetFetch => none
  | .packetDecode => none
  | .launch => none
  | .slotload => none
  | .slotdrop => none
  | .waitv => none
  | .waitvEvaluate => none
  | .waitvTimeout => none
  | .writevStore => none
  | .writevAdd => none
  | .ffence => none
  | .depend => none
  | .dependEvaluate => none
  | .dependTimeout => none
  | .timestamp => none
  | .nop => none
  | .invalInvalidate => none
  | .invalAcknowledge _ => none
  | .invalRetry => none
  | .invalFail => none
  | .migrate => none
  | .migratePublish => none
  | .forwardedRequest _ => none
  | .balloonDonate => none
  | .balloonWithdraw => none
  | .viewset => none
  | .viewsetDrainComplete => none
  | .completionWrite => none
  | .homeRequest _ => none
  | .atsPageResponse _ _ _ _ _ _ => none
  | .atsInvalidation _ _ _ => none
  | .expansionHoldRelease => none
  | .expansionHoldTimeout _ => none
  | .balloonInflate => none
  | .hostWrite _ _ _ => none
  | .hostRead _ _ _ => none
  | .eventArbitrate => none
  | .powerWindow _ => none
  | .girdleBeacon => none
  | .ptpSync _ _ => none
  | .dtcsetWrite _ => none
  | .bar0RegisterWrite _ _ => none
  | .wakePageWrite _ => none
  | .nonceWrite _ _ => none
  | .signatureReady => none
  | .mailboxErase => none
  | .mailboxProgram => none
  | .mailboxCommitver => none
  | .mailboxReset => none
  | .mailboxCommandDone => none
  | .powerOnBoot => none
  | .warmReset => none
  | .heartbeatMiss => none
  | .boleTakeover => none
  | .twigFailover => none
  | .podLinkFail _ => none
  | .cxlPortTrain _ _ => none
  | .patrolScrub _ => none
  | .correctedErrorSummary => none
  | .triggerFullEffect => none
  | .waitvReread => none
  | .msixCoalesceExpiry => none
  | .queueReset => none
  | .boleCoreError => none

/-- The move word of a guard, a destination and a source (03_encoding.md R65). -/
def packMove (unit : BitVec 3) (port : BitVec 7) (m : Mv) : BitVec 24 :=
  m.g ++ (unit ++ (port ++ encodeSrc m.src))

/-- The slot and the move word of an encoded instruction (03_encoding.md R62, R65). -/
def encode (i : Instr) : Option (Nat × BitVec 24) :=
  match i.fields with
  | some (slot, unit, port, m) => some (slot, packMove unit port m)
  | none => none

/-- The eight move words of 24 stored bytes, slot 0 first (03_encoding.md R62). -/
def bundleWords (bytes : List Byte) : List (BitVec 24) :=
  match bytes with
  | a :: b :: c :: rest => (c ++ (b ++ a)) :: bundleWords rest
  | _ => []

/-- The first slot, in ascending order, in which a word decodes (log entry 7). -/
def decodeAnySlot (w : BitVec 24) : Option Instr :=
  [0, 1, 2, 4, 5, 7].findSome? (fun slot : Fin 8 => decodeMove slot w)

/-- The instruction a table word stands for.  The table gives no slot, so the first slot in which the word decodes is
taken (log entry 7); the no-op word 0 (03_encoding.md R63) reads as the SREG move of s0 to s0. -/
def decodeTableWord (nbits w : Nat) : Option Instr :=
  if nbits = 24 then decodeAnySlot (BitVec.ofNat 24 w) else none

end Sys2Proof
end

