-- ==== Sys2Proof/Machine/State.lean ====
section
/-! DEFINITION. The state of the machine as plain data: everything the spec gives it (INVENTORY.md, '## State'), and the
state right after power-on. -/

namespace Sys2Proof.Machine

/-- Sparse data by number, in one canonical form: keys strictly rising, no entry equal to the default. -/
abbrev SMap (α : Type) := List (Nat × α)

/-- Bytes by address in canonical form; an unlisted address reads 0 (log entries 5 and 8). -/
abbrev Mem := List Host.Cell

/-- A register with its full/empty bit (03_encoding.md R77). -/
inductive Cell (α : Type) where
  | full (v : α)
  | empty
  deriving DecidableEq, Repr

/-- A value on a bus: a scalar, a vector or a mask (03_encoding.md R75). -/
inductive Val where
  | s (w : Word)
  | v (w : VecW)
  | m (w : MaskW)
  deriving DecidableEq, Repr

/-- A result port: full, or waiting for the result of the trigger with this tag (03_encoding.md R78). -/
inductive PCell where
  | full (v : Val)
  | pend (tag : Nat)
  deriving DecidableEq, Repr

/-- What a move waits for: a trigger's result, or an empty register (03_encoding.md R79). -/
inductive Wait where
  | tag (n : Nat)
  | reg (r : RegId)
  deriving DecidableEq, Repr

/-- A source as bound at issue: captured, or waiting (03_encoding.md R79, R84). -/
inductive EVal where
  | ready (v : Val)
  | wait (w : Wait)
  deriving DecidableEq, Repr

/-- One entry of an engine queue (03_encoding.md R83; the fields that R331 records among them). -/
structure Entry where
  move : BitVec 24
  slot : Nat
  badr : Nat
  rep : Option Nat          -- repetition index under ctl.rep (04_scalar_control.md R122)
  trig : Option Instr       -- none: an operand-port move
  port : OPort
  val : EVal
  tag : Nat                 -- issue order; names the trigger's result
  rmode : BitVec 2          -- RMODE and QCFG at issue (04_scalar_control.md R134)
  qcfg : BitVec 5
  faulted : Bool            -- this entry faulted (12_traps.md R335)
  bid : Nat                 -- issue order of its bundle, of its repetition (12_traps.md R337)
  deriving DecidableEq, Repr

/-- A MEM access in an inner queue, with the operands it left the engine queue with (05_local_memory.md R141), and of one that
has started the lanes performed so far and what they read (05_local_memory.md R138). -/
structure Access where
  ent : Entry
  o : Word
  o2 : Word
  m : MaskW
  b : Val
  lanes : MaskW := 0
  got : VecW := 0
  deriving DecidableEq, Repr

/-- A pending transfer into an empty register (03_encoding.md R79). -/
structure Pend where
  dst : RegId
  val : EVal
  tag : Nat
  deriving DecidableEq, Repr

/-- A trigger that has started and is not complete: its result port, if any, its value and its flags
(03_encoding.md R78, 02_numbers.md R60). -/
structure Flight where
  tag : Nat
  port : Option RPort
  val : Val
  flags : Byte
  eng : Eng
  div : Bool                -- occupies the divider (04_scalar_control.md R107)
  deriving DecidableEq, Repr

/-- The repetitions of a ctl.rep bundle that have not entered their queue (04_scalar_control.md R122). -/
structure Rep where
  left : Nat
  index : Nat
  move : BitVec 24
  instr : Instr
  badr : Nat
  rmode : BitVec 2
  qcfg : BitVec 5
  deriving DecidableEq, Repr

/-- A loop frame (04_scalar_control.md R118). -/
structure Loop where
  lstart : Nat
  lend : Nat
  lcnt : Nat
  deriving DecidableEq, Repr

/-- The operand ports of one engine (03_encoding.md R68, R69). -/
structure OPorts where
  o : Val
  o2 : Val
  m : MaskW
  w : Word
  deriving DecidableEq, Repr

/-- A wide-accumulator lane (02_numbers.md R46, R47). -/
structure WLane where
  x : BitVec 320
  nanf : Bool
  pinf : Bool
  ninf : Bool
  satf : Bool
  deriving DecidableEq, Repr

/-- An edge-bank entry: a digit of R42 and a live bit (07_stream_array.md R193). -/
structure Dig where
  live : Bool
  s : Bool
  m : BitVec 4
  deriving DecidableEq, Repr

/-- A pending compaction map: the KEXT of its pushak, the source position of each place, and the source block of each
slot (08_stream_ops.md R224, R225). -/
structure CMap where
  kext : Nat
  places : List Nat
  slots : List Nat
  deriving DecidableEq, Repr

/-- The STR engine (07_stream_array.md R193, R194; 08_stream_ops.md R225, R233).  Edge banks 0 to 3 are EA0, EA1, EB0,
EB1; an entry has key bank·16,384 + line·128 + position, a header bank·512 + line·4 + slot, a sub-counter
bank·65,536 + output·4 + slot. -/
structure Str where
  edge : SMap Dig
  hdr : SMap (BitVec 16)
  tag0 : List (BitVec 2)
  tag1 : List (BitVec 2)
  cnt : SMap (BitVec 16)
  bt0 : BitVec 32
  bt1 : BitVec 32
  acc : SMap Word
  anan : SMap Bool
  sprec : BitVec 3
  slen : BitVec 9
  seeda : BitVec 4
  seedb : BitVec 4
  smode : Bool
  sthr : BitVec 4
  refexp : BitVec 10
  dsel : BitVec 2
  ckint : BitVec 9
  mgn : SMap (BitVec 17)
  cpair : BitVec 28
  bsel : BitVec 3
  cmap : Option CMap        -- some: CMAPV is 1
  stop : Bool
  tie : Bool
  sbeat : BitVec 32
  deriving DecidableEq, Repr

/-- A send in flight, held or recorded (10_phase_sync.md R284, R285). -/
structure Send where
  core : Nat                -- CORE_ID of the sender, device included
  part : Nat
  pgid : Nat
  phc : Nat
  dest : Nat                -- device and core of the descriptor: bits 15:0 as CORE_ID
  slot : Nat
  arr : Nat
  data : VecW
  badr : Nat
  tag : Nat
  desc : Word
  deriving DecidableEq, Repr

/-- The architectural context of R343 (12_traps.md): what the live and the shadow bank hold. -/
structure Ctx where
  s : SMap (Cell Word)
  o : SMap (Cell Word)
  a : SMap (Cell Word)
  g : SMap (Cell Bool)
  bind : SMap Word
  v : SMap (Cell VecW)
  vm : SMap (Cell MaskW)
  ports : SMap PCell
  oports : SMap OPorts
  loops : List Loop          -- innermost first; at most two
  links : List Nat           -- top first; at most sixteen
  afl : Byte
  afm : Byte
  qcfg : BitVec 5
  rmode : BitVec 2
  wide : SMap WLane          -- key unit·512 + accumulator·128 + lane
  str : Str
  holds : List Send          -- sends held at the die's stop for this core (10_phase_sync.md R285)
  next : Nat                 -- of a context that is not live: the bundle its sequencer goes on with (R347)
  deriving DecidableEq, Repr

/-- A footprint range of 64-byte lines [lo, hi) in local (main = false) or main memory (05_local_memory.md R156). -/
structure FRange where
  main : Bool
  lo : Nat
  hi : Nat
  deriving DecidableEq, Repr

/-- A copy or collective job of a core (09_copy_collective.md R243 to R250). -/
structure CJob where
  tag : Nat                 -- issue order
  eng : Eng
  tok : Fin 64
  addr : BitVec 32          -- of the card
  badr : Nat
  card : Option (BitVec 512)
  ptag : Bool               -- phase tag (05_local_memory.md R160)
  step : Nat                -- PHC of its superstep
  rd : List FRange
  wr : List FRange
  started : Bool
  pos : Nat                 -- bytes, words or blocks done, in job order
  off : Nat                 -- DELTA: the output offset; a collective: the units it has injected
  rows : List (Nat × Nat)   -- GATHER: rows that have begun, with their indices as read then
  doneb : Nat
  flags : Byte
  buf : Option (List Byte)  -- bytes read and not yet written
  asked : Bool              -- a main-memory request is outstanding
  flush : Option (Byte × Word)   -- a fault met while bytes before it stood in buf: its status and address (R312)
  held : Bool               -- held on a restartable fault
  slog : Nat                -- its entries waiting in side logs
  cancel : Bool
  faddr : Word
  ended : Option Byte       -- the status it ended with; its token has not filled yet
  cause : Byte
  use : Option Nat          -- its collective use
  part : List (Nat × Byte × Word)   -- ASYNC_PARTIAL entries (11_translation.md R314)
  nfault : Nat
  gone : List Nat := []     -- a collective: places of groups written through blocks that DONEB no longer counts (R314)
  deriving DecidableEq, Repr

/-- A fault recorded by a job or a send and raised later (09_copy_collective.md R248, 10_phase_sync.md R287). -/
structure Deferred where
  tag : Nat
  send : Bool
  cause : Byte
  faddr : Word
  tok : Nat
  part : List (Nat × Byte × Word)
  nfault : Nat
  live : Bool               -- its token register still holds the filled token (09_copy_collective.md R248)
  deriving DecidableEq, Repr

/-- A trap as it will be recorded (12_traps.md R330). -/
structure Trap where
  cause : Byte
  prec : Byte
  slotEng : Byte
  repv : Bool
  second : Bool
  badr : Nat
  arg : BitVec 16
  faddr : Word
  next : Nat
  tok : Nat
  part : List (Nat × Byte × Word)
  nfault : Nat
  incomplete : Bool
  bid : Nat                 -- issue order of the bundle it belongs to (12_traps.md R337)
  cc : Nat := 0             -- the cc of capture in which it was detected (12_traps.md R337)
  src : Option Deferred := none   -- the recorded fault that it raises (09_copy_collective.md R248)
  deriving DecidableEq, Repr

/-- Why a bundle that passed its checks waits (03_encoding.md R86; 10_phase_sync.md R286, R289, R290, R294). -/
inductive Freeze where
  | slot
  | waitt
  | bar (arrived : Bool)
  | arrive
  | bwait
  | bwaitt (limit : Nat)
  deriving DecidableEq, Repr

/-- What a core's sequencer does. -/
inductive Seq where
  | idle                              -- parked: no stand runs on the core (01_machine.md R21)
  | run
  | frozen (f : Freeze) (cc : Nat)
  | endph (exch : Bool) (arrived : Bool)   -- after ctl.endph (10_phase_sync.md R275, R276)
  | halted (arrived : Bool)           -- after ctl.halt (04_scalar_control.md R125)
  | capture (cc : Nat)                -- trapped or parked, capturing (12_traps.md R335)
  | parked                            -- captured
  deriving DecidableEq, Repr

/-- A core's arrival at a barrier (10_phase_sync.md R289, R291). -/
structure Arrival where
  id : Nat
  scope : Nat
  done : Bool
  deriving DecidableEq, Repr

/-- Sites of uncorrectable errors of a core (12_traps.md R333; 14_system.md R405). -/
structure BadSites where
  scratch : List Nat        -- scratchpad bytes
  imem : List Nat           -- bundles
  regs : List RegId
  wide : List Nat           -- lanes, keyed as Ctx.wide
  acc : List Nat            -- accumulator entries
  edge : List Nat           -- edge entries, keyed as Str.edge
  cnt : List Nat            -- sub-counters, keyed as Str.cnt
  hdr : List Nat            -- block headers, keyed as Str.hdr
  tag : List Nat            -- TAG entries: A bank·128 + position (07_stream_array.md R193)
  binds : List Nat          -- relocation registers
  bus : List Nat            -- slots whose next move meets a parity error on its bus (12_traps.md R333)
  deriving DecidableEq, Repr

/-- A landed datum of a landing slot (10_phase_sync.md R286). -/
structure Landed where
  arr : Nat
  data : VecW
  deriving DecidableEq, Repr

/-- An atomic in a memory port's write queue (05_local_memory.md R149); job: an AMO card's, else a MEM trigger's. -/
structure PortAtomic where
  core : Nat
  tag : Nat
  job : Bool
  addr : Nat                -- byte of the port's array
  width : Nat               -- bytes
  op : Nat                  -- the MEM trigger port of the operation
  x : Word
  cmp : Word
  deriving DecidableEq, Repr

/-- One core (01_machine.md R18; "The engines of a core"). -/
structure Core where
  ctx : Ctx
  shadow : Option Ctx        -- prepared incoming context (12_traps.md R343, R344)
  pc : Nat
  seq : Seq
  was : Seq                  -- what the sequencer did when the core parked
  code : Mem                 -- instruction memory, 24 bytes per bundle (03_encoding.md R62)
  nbundle : Nat
  consts : SMap Word         -- k0 to k255
  codeGen : Option (Nat × Nat)   -- slot and generation held (13_queues.md R371)
  slmap : BitVec 17
  standId : Word
  ncores : Nat
  lrank : Nat
  det : Bool
  disc : Bool                -- PHS bit 1 (12_traps.md R347)
  part : Nat                 -- partition of the running stand
  ssc : BitVec 32            -- (10_phase_sync.md R280)
  qs : SMap (List Entry)     -- engine queues, keyed by engine code
  ldq : List Access          -- MEM load queue
  stq : List Access          -- MEM store queue
  lda : List Access          -- loads started, not performed
  sta : List Access          -- stores, atomics and sends started, not performed
  pends : List Pend
  flights : List Flight
  rep : Option Rep
  repNext : Option Nat       -- a ctl.rep waiting for its bundle
  resumeBreak : Bool         -- resumed past the breakpoint (12_traps.md R339)
  scratch : Mem
  wq : List PortAtomic       -- write queue of the scratchpad port
  lnd : SMap (Option Landed)
  jobs : List CJob
  cards : List (Nat × Nat)   -- card queue: tags of validated collective jobs, with the fabric cycle each arrived in (R20)
  refused : List CJob        -- jobs refused at their card read, for a reissue (09_copy_collective.md R244)
  deferred : List Deferred
  arrivals : List Arrival
  breakpt : Option Nat
  trap : Option Trap
  capEmpty : List RegId      -- registers that capture left empty
  exitw : BitVec 32
  exited : Bool
  beats : Nat                -- since the last charge
  bytes : Nat
  bad : BadSites
  nextTag : Nat
  fresh : Byte               -- flags raised in the current cc (02_numbers.md R60)
  deriving DecidableEq, Repr

/-- A quad pool and its port's write queue (05_local_memory.md R136, R149). -/
structure Quad where
  mem : Mem
  wq : List PortAtomic
  bad : List Nat
  deriving DecidableEq, Repr

/-- A die's copy of DTC with its slew (10_phase_sync.md R292): corr is the offset still to correct, credit the slew
allowance in 10^-6 ns. -/
structure Clock where
  dtc : Word
  corr : Int
  credit : Nat
  deriving DecidableEq, Repr

/-- A compute die. -/
structure Die where
  clock : Clock
  grant : Nat                -- beats per 16 cc (14_system.md R404)
  deriving DecidableEq, Repr

/-- Who issued a main-memory request: a job of a core, or the packet of a queue (11_translation.md R299). -/
inductive Origin where
  | job (core tag : Nat)
  | coll (core tag : Nat)     -- a rank of a collective use
  | pkt (q : Nat)
  | pod                       -- another module of the pod
  deriving DecidableEq, Repr

/-- A view register (09_copy_collective.md R262). -/
structure View where
  valid : Bool
  asid : Nat
  xform : Nat
  abase : Nat
  alen : Nat
  tbase : Nat
  tpitch : Nat
  extr : Nat
  extc : Nat
  deriving DecidableEq, Repr

/-- The kind of a request (11_translation.md R299, R306, R309). -/
inductive RKind where
  | read (n : Nat)
  | write (data : List Byte)
  | cells (l : List (Nat × Byte))     -- a side-log entry: bytes of one line, by offset from its address
  | atomic (width op : Nat) (x : Word)
  | table (data : List Byte)          -- DELTA hash entry: read and written (R306)
  deriving DecidableEq, Repr

/-- A main-memory request (11_translation.md R299). -/
structure Req where
  org : Origin
  asid : Nat
  kind : RKind
  addr : Word
  ptag : Bool
  prio : Nat
  pos : Nat                  -- bytes of the job before it, in job order (11_translation.md R310)
  replay : Bool              -- it has been in a side log (11_translation.md R311)
  pgid : Nat                 -- PGID of the stand that issued it (11_translation.md R298)
  view : Option View         -- the view that its home transformed it by (09_copy_collective.md R263)
  fixed : Bool               -- it has reached its home
  rw : Bool := false         -- a side-log entry of a DELTA hash entry: it needs read and write (11_translation.md R306)
  n : Nat := 0               -- a side-log entry: the bytes of its job that it stands for (11_translation.md R314)
  due : Bool := false        -- its retry has been ordered and waits at its home (11_translation.md R311, R325)
  deriving DecidableEq, Repr

/-- A 256-byte flit of a collective use, that of its identifier's use k (09_copy_collective.md R266, R428): injected by a
rank, or a result multicast by the last one. -/
structure CFlit where
  key : Nat
  cid : Nat
  k : Nat
  rank : Nat
  result : Bool
  bytes : List Byte
  deriving DecidableEq, Repr

/-- What a flit carries (09_copy_collective.md R261; 10_phase_sync.md R285, R287); a notice names the sender's CORE_ID. -/
inductive Load where
  | send (x : Send)
  | notice (core : Nat) (badr tag : Nat) (cause : Byte)
  | req (r : Req)
  | coll (x : CFlit)
  deriving DecidableEq, Repr

/-- A flit waiting at a stop or in transit. -/
structure Flit where
  cls : Nat
  load : Load
  deriving DecidableEq, Repr

/-- A Girdle stop: the flits that wait there and the arbitration counters (09_copy_collective.md R261). -/
structure Stop where
  wait : List Flit
  run0 : Nat                 -- flits sent since one of class 1 or 2 while those waited
  run1 : Nat                 -- class 1 flits sent since one of class 2 while those waited
  deriving DecidableEq, Repr

/-- A TLB entry (11_translation.md R300): OFF range [lo, lo + size) of an ASID. -/
structure Tlb where
  asid : Nat
  lo : Nat
  size : Nat
  pa : Nat
  rd : Bool
  w : Bool
  pin : Bool
  locked : Bool
  deriving DecidableEq, Repr

/-- A table pointer in the walk cache (11_translation.md R300): the OFF range [lo, lo + size) of an ASID goes on with k levels
left at base. -/
structure Wce where
  asid : Nat
  lo : Nat
  size : Nat
  k : Nat
  base : Nat
  deriving DecidableEq, Repr

/-- A write waiting in the expansion hold buffer (11_translation.md R325); none: the host's. -/
structure ExpHold where
  req : Option Req
  cells : List (Nat × Byte)  -- presented address and byte
  n : Nat                    -- bytes of its job that it writes, its flags, and the entries it left in side logs
  flags : Byte
  logs : Nat
  since : Nat                -- DTC when it was held
  deriving DecidableEq, Repr

/-- A migration hold or a forwarding entry (11_translation.md R319). -/
structure Fwd where
  asid : Nat
  lo : Nat                   -- OFF range
  hi : Nat
  dhome : Nat
  dppa : Nat
  published : Bool
  q : Nat                    -- the queue whose MIGRATE it is
  deriving DecidableEq, Repr

/-- A request forwarded to this home with the PPA of each of its targets (11_translation.md R319). -/
structure Fwded where
  req : Req
  pas : List (Option Nat)
  deriving DecidableEq, Repr

/-- A host write held at the ingress for the running stands of some partitions (05_local_memory.md R164). -/
structure Ingress where
  parts : List Nat
  port : Bool
  pa : Nat
  data : List Byte
  deriving DecidableEq, Repr

/-- A home (11_translation.md). -/
structure Home where
  mem : Mem
  commit : Nat
  loww : Nat
  highw : Nat
  holdlim : Nat
  artb : Nat
  chunks : SMap Nat          -- chunks of each leaf by its content (R321, R322)
  pins : List (Nat × Nat)    -- ranges of leaves that some leaf entry with PIN = 1 maps (R321)
  tables : List Nat          -- leaves that hold page tables of this home
  balloon : List Nat
  tlb : List Tlb
  walks : List Wce           -- walk cache (R300)
  held : List Req            -- held reads and writes (R308, R309)
  slog : List Req            -- side log (R309)
  exph : List ExpHold
  migs : List Fwd
  mighold : List Req         -- requests held during a migration
  fwded : List Fwded         -- requests forwarded here, in arrival order
  views : SMap View
  ingress : List Ingress
  bad : List Nat             -- uncorrectable sites
  corrected : Nat
  summed : Option Nat        -- DTC of its last corrected-error summary
  deriving DecidableEq, Repr

/-- A queue descriptor as read (13_queues.md R352); ok: every reserved field is zero. -/
structure QDesc where
  pring : Nat
  log2n : Nat
  cring : Nat
  wake : Nat
  period : Nat
  cls : Nat
  en : Bool
  killLate : Bool
  replayable : Bool
  priv : Bool
  dbg : Bool
  reldl : Nat
  part : Nat
  asid : Nat
  capc : Nat
  capb : Nat
  capx : Nat
  ok : Bool
  deriving DecidableEq, Repr

/-- A partition descriptor as read (13_queues.md R350). -/
structure PDesc where
  dmask : Nat
  ctxb : Nat
  nframe : Nat
  valid : Bool
  admcap : Nat
  deriving DecidableEq, Repr

/-- An admitted LAUNCH (13_queues.md R370, R372). -/
structure Adm where
  q : Nat
  seq : Nat
  desc : QDesc               -- the queue's descriptor at its decode
  slot : Nat
  gen : Nat
  d : Nat
  rho : Nat
  budC : Nat
  budB : Nat
  budX : Nat
  lim : Nat
  cap : Nat
  bloc : Nat
  pgid : Nat
  pasid : Option Nat
  binds : List Word
  frame : Nat
  started : Bool             -- it has been dispatched at least once
  preempted : Bool           -- it waits to resume
  replayed : Bool
  remC : Nat
  remB : Nat
  remX : Nat
  usedC : Nat
  usedB : Nat
  usedX : Nat
  next : Option (Nat × Bool)   -- pre-empted: PHC and phase of the superstep it resumes with
  deriving DecidableEq, Repr

/-- The use of a barrier by its participants (10_phase_sync.md R288): group is the quad, the die or 0. -/
structure Episode where
  id : Nat
  scope : Nat
  group : Nat
  arrived : List Nat
  deriving DecidableEq, Repr

/-- How a running stand stands (12_traps.md R327, R328; 13_queues.md R379). -/
inductive RunSt where
  | running
  | parking                  -- a trap event was received, or the stand was ordered to park: every core parks
  | held                     -- held for system software (DBG)
  | swapping                 -- between the swap and the incoming job's first superstep
  deriving DecidableEq, Repr

/-- The job that runs on a partition (10_phase_sync.md R273; 13_queues.md R371). -/
structure Run where
  adm : Adm
  cores : List Nat           -- the stand in rank order
  phc : Nat
  exch : Bool
  pool : Nat
  ccSince : Nat              -- cc since the last charge
  strag : Option Nat         -- straggler timer (R281)
  quiet : List (Nat × Bool)  -- stops that reported quiet for a tag
  ids : List (Nat × Nat)     -- barrier ids and the scope fixed for them (R291)
  episodes : List Episode
  chosen : Bool              -- chosen for pre-emption (R376)
  incoming : Option Adm      -- whose context the shadow banks hold (R344)
  spill : Option (Adm × List Nat)   -- whose local lines are still to be written out, and its cores (R344 step 2)
  st : RunSt
  first : Option Byte        -- cause of the first trap event received
  footR : List FRange        -- declared footprints, resolved (R260, R371)
  footW : List FRange
  filter : List (Nat × Nat × Nat)   -- ingress filter: home, presented frame range (R318)
  killed : Bool              -- ended by the Canopy unit
  late : Bool                -- DEADLINE_EXPIRY parked it
  pend : Bool                -- a boundary's stop decision goes on after a resumption (12_traps.md R340)
  exhausted : Bool           -- the last charge left a budget at 0 (13_queues.md R377)
  barAt : Nat × Nat := (0, 0)   -- the last barrier arrival registered: fabric cycle and core (10_phase_sync.md R291)
  deriving DecidableEq, Repr

/-- A partition (13_queues.md R350). -/
structure Part where
  desc : Option PDesc        -- the descriptor in force while the partition holds admitted entries (R350)
  run : Option Run
  adms : List Adm            -- admitted and incomplete, the running one excluded
  skipm : SMap Word          -- SKIPM0 to SKIPM7 (14_system.md R395)
  outgoing : Option (Adm × List (Nat × Ctx))   -- the outgoing context in the shadow banks, not yet written out
  saved : List (Nat × Nat × Nat × Ctx)         -- contexts of pre-empted jobs: queue, sequence, core
  deriving DecidableEq, Repr

/-- A card that a collective engine has taken (09_copy_collective.md R245). -/
structure CCard where
  core : Nat
  tag : Nat
  card : BitVec 512
  deriving DecidableEq, Repr

/-- A contribution to a block (09_copy_collective.md R269): its exponent, count, width, and per element class and integer. -/
structure Contrib where
  block : Nat
  e : Int
  n : Nat
  w : Nat
  els : List (Nat × Int)
  deriving DecidableEq, Repr

/-- Contributions that the hops have combined (09_copy_collective.md R269, R428): the flit's number and the rounds of one
rank each that it sums, its bytes on the wire, and whether two different E(b) met in it. -/
structure Sum where
  unit : Nat
  ranks : List Nat
  bytes : List Byte
  clash : Bool
  deriving DecidableEq, Repr

/-- One collective use, the k-th of its identifier (09_copy_collective.md R266): the cards held and, once assembled, what its
engines have injected, combined and received. -/
structure Use where
  key : Nat                  -- the stand or pod group whose cards match (R266)
  cid : Nat
  k : Nat
  cards : List CCard
  assembled : Bool
  done : List (Nat × Nat)    -- injected flits: rank and number
  sums : List Sum
  results : List (Nat × List Byte)   -- flits received at every rank: number, or rank·2^32 + number, and bytes
  flags : List (Nat × Byte)  -- rounding flags of a block's result (R270)
  clash : Bool               -- some block met two different E(b) (R269)
  far : List CCard := []     -- cards of other modules of the pod group, by CORE_ID (R266)
  dev : Nat := 0             -- this module's device index, and those of the group's modules where there are others (R266)
  devs : List Nat := []
  farEnd : Option (Byte × List (Nat × Byte × Word)) := none   -- how the ranks of other modules ended, with the faulting ones (R314)
  deriving DecidableEq, Repr

/-- How many cards of an identifier a die's engine has taken (09_copy_collective.md R266). -/
structure Taken where
  key : Nat
  cid : Nat
  die : Nat
  n : Nat
  deriving DecidableEq, Repr

/-- A fetched packet that has not been decoded, with the descriptor in force at its fetch (13_queues.md R353, R356). -/
structure Fetched where
  seq : Nat
  body : List Byte
  desc : QDesc
  deriving DecidableEq, Repr

/-- A decoded packet that has not completed (13_queues.md R356, R384). -/
structure Pkt where
  seq : Nat
  body : List Byte
  desc : QDesc
  rej : Byte                 -- 0: accepted; otherwise the rejection code
  started : Bool
  startDtc : Nat
  status : Option Byte       -- some: complete, its entry not yet written
  cfl : Byte
  cause : Byte
  exitw : Word
  aflb : Byte
  usedC : Nat
  usedB : Nat
  usedX : Nat
  result : Word
  dline : Nat
  acks : List Nat            -- homes that have to acknowledge
  failed : Bool              -- a hold of this packet was declared unresolvable
  image : Option (List Byte) -- SLOTLOAD: the image as it was read (13_queues.md R364)
  since : Option Nat         -- DTC of the first failing chunk allocation of a MIGRATE or SLOTLOAD
  old : Option View          -- VIEWSET: the old contents, while requests they transformed drain
  deriving DecidableEq, Repr

/-- The command processor's state of a queue (13_queues.md R352, R354, R356, R372). -/
structure Queue where
  producer : Nat             -- as last read from the wake word
  fidx : Nat
  cidx : Nat
  desc : QDesc               -- the descriptor as the command processor last read it (R353)
  fetched : List Fetched
  pkts : List Pkt            -- decoded, oldest first
  rho0 : Option Nat
  prevRho : Option Nat
  stopped : Bool             -- EN was cleared because a ring or the wake word cannot be translated (R354)
  cstop : Bool               -- its completion ring is one of them (R354, R360)
  recent : Option Adm        -- its most recent admitted LAUNCH (R373)
  deriving DecidableEq, Repr

/-- A resident slot (13_queues.md, "Resident slots"). -/
structure RSlot where
  valid : Bool
  gen : Nat
  asid : Nat
  image : Mem
  len : Nat
  regions : List (Nat × Nat)
  bad : List Nat             -- image bytes with an uncorrectable error (12_traps.md R346)
  deriving DecidableEq, Repr

/-- A journal record (13_queues.md R384). -/
structure JRec where
  place : Nat                -- which of the 8,192 records it is
  q : Nat
  seq : Nat
  body : List Byte
  rej : Byte
  d : Nat                    -- D and ρ of a LAUNCH, once they were fixed
  rho : Nat
  adm : Option Adm
  started : Bool
  performed : Bool
  complete : Bool
  deriving DecidableEq, Repr

/-- An event at its source (14_system.md R396). -/
structure Ev where
  ty : Nat
  stop : Nat
  src : Nat                  -- source within the stop, for the order of one source (R31)
  fc : Nat                   -- the fabric cycle in which it reached the arbiter (01_machine.md R31)
  payload : List Byte
  deriving DecidableEq, Repr

/-- An ATS answer the host gave (11_translation.md R307): page of 4 KiB of a PASID. -/
structure Ats where
  pasid : Nat
  page : Nat
  hpa : Nat
  rd : Bool
  wr : Bool
  deriving DecidableEq, Repr

/-- A recovery-mailbox command in progress (14_system.md R402). -/
structure MCmd where
  ok : Bool
  deriving DecidableEq, Repr

/-- The module's registers (14_system.md). -/
structure Sys where
  state : Nat                -- 0 booting, 1 running, 2 recovery
  fwB : Bool
  fwver : Word
  minver : Word
  dev : BitVec 7
  nuse : Nat
  port0 : Nat                -- trained width of the CXL port of edge die 0; 0: not trained
  port2 : Nat
  ptab : Word
  qtab : Word
  jrnl : Word
  decided : Nat              -- the fabric cycle from which the Canopy unit may decide again (13_queues.md R375)
  evbase : Word
  evprod : BitVec 32
  evcons : BitVec 32
  plim : Word
  hdmb : Nat
  clock : Clock              -- DTC of edge die 0
  edges : SMap Clock         -- DTC of edge dies 1 to 3 (01_machine.md R15)
  locked : Bool
  syncs : Nat
  dtskew : Word
  flashA : List Byte
  flashB : List Byte
  flashC : List Byte
  otk : Nat                  -- one-time keys used
  cmd : Word
  arg : Word
  mstat : Nat
  running : Option MCmd
  erased : Option Nat        -- the flash region erased last and not changed since
  window : Mem               -- flash-update window
  meas : List Byte           -- the three measurements
  atstat : Nat
  idx : Word
  nonce : Mem
  sig : List Byte
  links : SMap Bool          -- pod links up
  switches : SMap Nat        -- the pod switch that each pod link reaches (R398)
  events : List Ev
  msixWait : Bool            -- a coalesced MSI-X message is due
  msixLast : Nat
  msixSent : Nat
  activeB : Bool             -- the active bole core is the second one
  bole0 : Bool               -- working
  bole1 : Bool
  takeover : Bool
  twigs : SMap Bool          -- failed twig cores
  window0 : Nat              -- start of the power window
  ats : List Ats
  pageReqs : List (Nat × Nat)   -- host-half page requests awaiting an answer
  pod : SMap (List Nat)      -- devices of other modules that run a stand of a PGID (11_translation.md R298)
  abroad : List Send         -- sends in other modules, not landed, held or discarded there yet (10_phase_sync.md R277)
  lastRead : List Byte       -- data of the last host read, and its poison (the model's own observation)
  lastPoison : Bool
  deriving DecidableEq, Repr

/-- What a turn of the schedule does (log entries 1 and 2). -/
inductive What where
  | fetch                    -- the core's sequencer takes its next bundle
  | head (e : Eng)           -- the entry at the head of an engine queue is served
  | step (i : Instr)         -- a step of the machine with its open choices
  deriving DecidableEq, Repr

/-- What happens at the machine from outside the instructions of the table: the command processor's firmware, soft errors,
and other modules of the pod (log entry 59). -/
inductive Env where
  | breakpoint (core : Nat) (a : Option Nat)     -- a core's breakpoint address is set (12_traps.md R334)
  | localByte (core a : Nat) (b : Byte)          -- a byte of a held core's local memory is rewritten (12_traps.md R339)
  | codeByte (core a : Nat) (b : Byte)           -- a byte of its instruction memory is rewritten (12_traps.md R339)
  | artb (home : Nat) (v : Word)                 -- ARTB is written (11_translation.md R323)
  | root (home asid : Nat) (v : Word)            -- a root entry is written (11_translation.md R301)
  | jrnl (v : Word)                              -- the journal is placed (13_queues.md R384; 14_system.md R392)
  | errors (core : Nat) (x : BadSites)           -- uncorrectable errors of a core (14_system.md R405)
  | poolErrors (quad : Nat) (l : List Nat)       -- of a quad pool
  | slotErrors (slot : Nat) (l : List Nat)       -- of a resident slot's image
  | memErrors (home : Nat) (l : List Nat)        -- of a home's main memory
  | podFlit (f : Flit)                           -- a flit of another module reaches this one (10_phase_sync.md R285)
  | podTaken (x : Send)                          -- a send of this module has landed or been held in another (10_phase_sync.md R277)
  | podQuiet (pgid : Nat) (tag : Bool)           -- the other modules of a PGID are quiet for a tag (14_system.md R397, R398)
  | podCable (link switch : Nat)                 -- a pod link reaches a switch (14_system.md R398)
  | podStands (pgid : Nat) (devs : List Nat)     -- the other modules that run a stand of a PGID (11_translation.md R298)
  | podArrive (pgid id : Nat)                    -- the other modules of a PGID have arrived at a barrier (10_phase_sync.md R289)
  | podCard (pgid : Nat) (x : CCard)             -- a card of another module joins its use (09_copy_collective.md R266)
  | podRanks (pgid cid k : Nat) (st : Byte) (faults : List (Nat × Byte × Word))   -- the ranks of other modules end (R429)
  | podReply (r : Req) (l : List Byte) (st : Byte)   -- another module answers a request: status 0 performed (R299)
  | walk (home asid off : Nat)                   -- a walker reads and caches what maps an offset (11_translation.md R300)
  | evict (home : Nat) (walks : Bool) (i : Nat)  -- an entry of a TLB or walk cache is evicted (11_translation.md R300)
  deriving DecidableEq, Repr

/-- One turn: what happens from outside, then time passes (cc core cycles, ns of device time), then what acts: core names the core a
step is about, obj the partition, queue, home, stop, job or other thing a step is about (log entries 1 to 3). -/
structure Turn where
  core : Nat
  obj : Nat
  cc : Nat
  ns : Nat
  env : List Env
  what : What
  deriving DecidableEq, Repr

/-- The whole machine. -/
structure State where
  agenda : List Turn
  cur : Nat                  -- core of the current turn
  obj : Nat                  -- partition, queue, home, stop, job or other thing of the current turn
  fabric : Nat               -- fabric cycles since power-on (01_machine.md R31)
  cores : SMap Core
  quads : SMap Quad
  dies : SMap Die
  stops : SMap Stop
  air : List Flit
  parts : SMap Part
  uses : List Use
  taken : List Taken
  homes : SMap Home
  queues : SMap Queue
  slots : SMap RSlot
  journal : List JRec
  sys : Sys
  hostMem : Mem
  pasids : SMap Nat          -- 1 + PASID bound to an ASID (11_translation.md R297)
  deriving DecidableEq, Repr

/-- Why the model stops. -/
inductive Fault where
  /-- Raised by step when the agenda names a core outside 0 to 511; safe: the device has no such core
  (01_machine.md R18). -/
  | noSuchCore (n : Nat)
  deriving DecidableEq, Repr

/-- Why a step has no meaning. -/
inductive Refusal where
  /-- Raised by an arm of exec whose instruction has no meaning yet; safe. -/
  | notModelled (mnemonic : String)
  deriving DecidableEq, Repr

/-- The result of a step of this machine. -/
abbrev Res := Host.Outcome State Fault Refusal

/-- Every lane clear (06_vector.md R186). -/
def WLane.zero : WLane := ⟨0, false, false, false, false⟩

/-- A dead entry with digit 0 (07_stream_array.md R193). -/
def Dig.dead : Dig := ⟨false, false, 0⟩

/-- TAG[k] = ⌊k/32⌋ for the 128 positions (07_stream_array.md R193). -/
def defaultTags : List (BitVec 2) := (List.range 128).map (fun k => BitVec.ofNat 2 (k / 32))

/-- The STR engine at job start (07_stream_array.md R193, R194). -/
def Str.start : Str where
  edge := []
  hdr := []
  tag0 := defaultTags
  tag1 := defaultTags
  cnt := []
  bt0 := 0
  bt1 := 0
  acc := []
  anan := []
  sprec := 4
  slen := 256
  seeda := 0
  seedb := 0
  smode := false
  sthr := 0
  refexp := 0
  dsel := 0
  ckint := 0
  mgn := []
  cpair := 0
  bsel := 0
  cmap := none
  stop := false
  tie := false
  sbeat := 0

/-- Operand ports at job start (03_encoding.md R69). -/
def OPorts.zero : OPorts := ⟨.s 0, .s 0, 0, 0⟩

/-- The context at job start (03_encoding.md R77; 02_numbers.md R35, R50, R59). -/
def Ctx.start : Ctx where
  s := []
  o := []
  a := []
  g := []
  bind := []
  v := []
  vm := []
  ports := []
  oports := []
  loops := []
  links := []
  afl := 0
  afm := 0
  qcfg := 0x1C
  rmode := 0
  wide := []
  str := Str.start
  holds := []
  next := 0

/-- No known error sites. -/
def BadSites.none : BadSites := ⟨[], [], [], [], [], [], [], [], [], [], []⟩

/-- A core no job runs on, as at power-on (log entry 5). -/
def Core.idle : Core where
  ctx := Ctx.start
  shadow := none
  pc := 0
  seq := .idle
  was := .idle
  code := []
  nbundle := 0
  consts := []
  codeGen := none
  slmap := 0x1FF
  standId := 0
  ncores := 0
  lrank := 0
  det := false
  disc := false
  part := 0
  ssc := 0
  qs := []
  ldq := []
  stq := []
  lda := []
  sta := []
  pends := []
  flights := []
  rep := none
  repNext := none
  resumeBreak := false
  scratch := []
  wq := []
  lnd := []
  jobs := []
  cards := []
  refused := []
  deferred := []
  arrivals := []
  breakpt := none
  trap := none
  capEmpty := []
  exitw := 0
  exited := false
  beats := 0
  bytes := 0
  bad := BadSites.none
  nextTag := 0
  fresh := 0

/-- A quad pool at power-on. -/
def Quad.start : Quad := ⟨[], [], []⟩

/-- A clock at power-on (log entry 5). -/
def Clock.start : Clock := ⟨0, 0, 0⟩

/-- A compute die at power-on, unthrottled (14_system.md R404). -/
def Die.start : Die := ⟨Clock.start, 16⟩

/-- An empty Girdle stop. -/
def Stop.start : Stop := ⟨[], 0, 0⟩

/-- A view register that is not in force. -/
def View.off : View := ⟨false, 0, 0, 0, 0, 0, 0, 0, 0⟩

/-- A home at power-on: the defaults of 11_translation.md R323. -/
def Home.start : Home where
  mem := []
  commit := 0x10000000000
  loww := 0
  highw := 0
  holdlim := 1000
  artb := 0
  chunks := []
  pins := []
  tables := []
  balloon := []
  tlb := []
  walks := []
  held := []
  slog := []
  exph := []
  migs := []
  mighold := []
  fwded := []
  views := []
  ingress := []
  bad := []
  corrected := 0
  summed := none

/-- A queue descriptor of zeros. -/
def QDesc.zero : QDesc := ⟨0, 0, 0, 0, 0, 0, false, false, false, false, false, 0, 0, 0, 0, 0, 0, true⟩

/-- A partition without a job. -/
def Part.start : Part := ⟨none, none, [], [], none, []⟩

/-- A queue nothing has been fetched from. -/
def Queue.start : Queue := ⟨0, 0, 0, QDesc.zero, [], [], none, none, false, false, none⟩

/-- An invalid slot (13_queues.md, "Resident slots": VALID is 0 at power-on). -/
def RSlot.start : RSlot := ⟨false, 0, 0, [], 0, [], []⟩

/-- The module's registers at power-on (log entry 5). -/
def Sys.start : Sys where
  state := 0
  fwB := false
  fwver := 0
  minver := 0
  dev := 0
  nuse := 0
  port0 := 0
  port2 := 0
  ptab := 0
  qtab := 0
  jrnl := 0
  decided := 0
  evbase := 0
  evprod := 0
  evcons := 0
  plim := 1600
  hdmb := 0
  clock := Clock.start
  edges := []
  locked := false
  syncs := 0
  dtskew := BitVec.allOnes 64
  flashA := []
  flashB := []
  flashC := []
  otk := 0
  cmd := 0
  arg := 0
  mstat := 0
  running := none
  erased := none
  window := []
  meas := []
  atstat := 0
  idx := 0
  nonce := []
  sig := []
  links := []
  switches := []
  events := []
  msixWait := false
  msixLast := 0
  msixSent := 0
  activeB := false
  bole0 := true
  bole1 := true
  takeover := false
  twigs := []
  window0 := 0
  ats := []
  pageReqs := []
  pod := []
  abroad := []
  lastRead := []
  lastPoison := false

/-- The machine right after power is applied, before the boot ROM has run (14_system.md R400; log entry 5). -/
def State.reset : State where
  agenda := []
  cur := 0
  obj := 0
  fabric := 0
  cores := []
  quads := []
  dies := []
  stops := []
  air := []
  parts := []
  uses := []
  taken := []
  homes := []
  queues := []
  slots := []
  journal := []
  sys := Sys.start
  hostMem := []
  pasids := []

end Sys2Proof.Machine
end

