-- ==== Sys2Proof/Machine/Ops.lean ====
section
/-! DEFINITION. The named operations over the state: sparse maps, bytes and memory, registers and ports, the parts of the
machine, taking a trap and returning from one, events, and the passing of time. -/

namespace Sys2Proof.Machine

/-! ### Sparse maps -/

/-- The value at a key, the default where nothing is listed. -/
def SMap.get {α : Type} (m : SMap α) (d : α) (k : Nat) : α :=
  match m with
  | [] => d
  | (k', v) :: r => if k' = k then v else SMap.get r d k

/-- Insertion at the place that keeps rising keys. -/
def SMap.insert {α : Type} (m : SMap α) (k : Nat) (v : α) : SMap α :=
  match m with
  | [] => [(k, v)]
  | (k', v') :: r =>
    if k < k' then (k, v) :: (k', v') :: r
    else if k = k' then (k, v) :: r
    else (k', v') :: SMap.insert r k v

/-- Writing a key; writing the default removes it. -/
def SMap.set {α : Type} [DecidableEq α] (m : SMap α) (d : α) (k : Nat) (v : α) : SMap α :=
  if v = d then m.filter (fun p => p.1 != k) else SMap.insert m k v

/-- Writing the keys lo, …, lo + n - 1 with f 0, …, f (n - 1). -/
def SMap.fill {α : Type} [DecidableEq α] (m : SMap α) (d : α) (lo n : Nat) (f : Nat → α) : SMap α :=
  m.filter (fun p => decide (p.1 < lo))
    ++ (List.range n).filterMap (fun i => if f i = d then none else some (lo + i, f i))
    ++ m.filter (fun p => decide (lo + n ≤ p.1))

/-- The canonical form: keys strictly rising and no default listed. -/
def SMap.wf {α : Type} [DecidableEq α] (m : SMap α) (d : α) : Bool :=
  decide (m.Pairwise (fun p q => p.1 < q.1)) && m.all (fun p => decide (p.2 ≠ d))

/-! ### Bytes and memory -/

/-- One byte (log entries 5 and 8: an unlisted byte reads 0). -/
def Mem.read (m : Mem) (a : Nat) : Byte := SMap.get m 0 a

/-- Writing one byte. -/
def Mem.write (m : Mem) (a : Nat) (b : Byte) : Mem := SMap.set m 0 a b

/-- The canonical form of a memory. -/
def Mem.wf (m : Mem) : Bool := SMap.wf m 0

/-- n bytes from an address. -/
def Mem.readN (m : Mem) (a n : Nat) : List Byte := (List.range n).map (fun i => m.read (a + i))

/-- Bytes to consecutive addresses, the first at the lowest. -/
def Mem.writeL (m : Mem) (a : Nat) (l : List Byte) : Mem :=
  match l with
  | [] => m
  | b :: r => Mem.writeL (m.write a b) (a + 1) r

/-- n bytes at a, byte i being f i. -/
def Mem.writeFn (m : Mem) (a n : Nat) (f : Nat → Byte) : Mem := SMap.fill m 0 a n f

/-- The little-endian bytes of a number (00_scope.md R5). -/
def leBytes (n v : Nat) : List Byte := (List.range n).map (fun i => BitVec.ofNat 8 (v / 2 ^ (8 * i)))

/-- The number little-endian bytes stand for (00_scope.md R5). -/
def ofLe : List Byte → Nat
  | [] => 0
  | b :: r => b.toNat + 256 * ofLe r

/-- The little-endian value of n bytes at an address. -/
def Mem.le (m : Mem) (a n : Nat) : Nat := ofLe (m.readN a n)

/-- The little-endian value of n bytes at an offset of a byte list. -/
def leAt (l : List Byte) (off n : Nat) : Nat := ofLe ((l.drop off).take n)

/-- n values of w bits packed from the least significant end. -/
def packN (w : Nat) (f : Nat → Nat) : Nat → Nat
  | 0 => 0
  | n + 1 => packN w f n + f n * 2 ^ (w * n)

/-- A vector from its lanes (06_vector.md R166). -/
def ofLanes (f : Nat → BitVec 32) : VecW := BitVec.ofNat 4096 (packN 32 (fun i => (f i).toNat) 128)

/-- Lane i of a vector (06_vector.md R166). -/
def lane (v : VecW) (i : Nat) : BitVec 32 := v.extractLsb' (32 * i) 32

/-- Half h of a vector (06_vector.md R179). -/
def half (v : VecW) (h : Nat) : BitVec 16 := v.extractLsb' (16 * h) 16

/-- Byte j of a vector (06_vector.md R166). -/
def vbyte (v : VecW) (j : Nat) : Byte := v.extractLsb' (8 * j) 8

/-- A vector from its 256 halves. -/
def ofHalves (f : Nat → BitVec 16) : VecW := BitVec.ofNat 4096 (packN 16 (fun i => (f i).toNat) 256)

/-- A vector from its 512 bytes. -/
def ofBytes (f : Nat → Byte) : VecW := BitVec.ofNat 4096 (packN 8 (fun i => (f i).toNat) 512)

/-- A mask from its bits. -/
def ofBits (f : Nat → Bool) : MaskW := BitVec.ofNat 128 (packN 1 (fun i => (f i).toNat) 128)

/-! ### The parts of the machine -/

/-- Core n. -/
def State.core (s : State) (n : Nat) : Core := s.cores.get Core.idle n
/-- s with core n replaced. -/
def State.setCore (s : State) (n : Nat) (c : Core) : State := { s with cores := s.cores.set Core.idle n c }
/-- The core the step is about. -/
def State.me (s : State) : Core := s.core s.cur
/-- s with the core the step is about replaced. -/
def State.setMe (s : State) (c : Core) : State := s.setCore s.cur c
/-- The quad number of a core (01_machine.md R18). -/
def quadOf (n : Nat) : Nat := n / 4
/-- The die of a core (01_machine.md R18). -/
def dieOf (n : Nat) : Nat := n / 8
/-- The pool of a quad. -/
def State.quad (s : State) (n : Nat) : Quad := s.quads.get Quad.start n
/-- s with a quad pool replaced. -/
def State.setQuad (s : State) (n : Nat) (q : Quad) : State := { s with quads := s.quads.set Quad.start n q }
/-- A compute die. -/
def State.die (s : State) (n : Nat) : Die := s.dies.get Die.start n
/-- s with a die replaced. -/
def State.setDie (s : State) (n : Nat) (d : Die) : State := { s with dies := s.dies.set Die.start n d }
/-- A Girdle stop. -/
def State.stop (s : State) (n : Nat) : Stop := s.stops.get Stop.start n
/-- s with a stop replaced. -/
def State.setStop (s : State) (n : Nat) (x : Stop) : State := { s with stops := s.stops.set Stop.start n x }
/-- A partition. -/
def State.part (s : State) (n : Nat) : Part := s.parts.get Part.start n
/-- s with a partition replaced. -/
def State.setPart (s : State) (n : Nat) (x : Part) : State := { s with parts := s.parts.set Part.start n x }
/-- The job that runs on a partition. -/
def State.runOf (s : State) (p : Nat) : Option Run := (s.part p).run
/-- s with the running job of a partition replaced. -/
def State.setRun (s : State) (p : Nat) (r : Option Run) : State := s.setPart p { s.part p with run := r }
/-- A home. -/
def State.home (s : State) (n : Nat) : Home := s.homes.get Home.start n
/-- s with a home replaced. -/
def State.setHome (s : State) (n : Nat) (x : Home) : State := { s with homes := s.homes.set Home.start n x }
/-- A queue's command-processor state. -/
def State.queue (s : State) (n : Nat) : Queue := s.queues.get Queue.start n
/-- s with a queue replaced. -/
def State.setQueue (s : State) (n : Nat) (x : Queue) : State := { s with queues := s.queues.set Queue.start n x }
/-- A resident slot. -/
def State.slot (s : State) (n : Nat) : RSlot := s.slots.get RSlot.start n
/-- s with a slot replaced. -/
def State.setSlot (s : State) (n : Nat) (x : RSlot) : State := { s with slots := s.slots.set RSlot.start n x }

/-- Device time of edge die 0 in ns (10_phase_sync.md R292). -/
def State.now (s : State) : Nat := s.sys.clock.dtc.toNat

/-- Device time at an edge die in ns (01_machine.md R15; 10_phase_sync.md R292). -/
def State.nowAt (s : State) (e : Nat) : Nat := if e = 0 then s.now else (SMap.get s.sys.edges Clock.start e).dtc.toNat

/-- DTC as a core reads it: its die's copy (10_phase_sync.md R292, R294). -/
def State.dtcOf (s : State) (core : Nat) : Word := (s.die (dieOf core)).clock.dtc

/-- The Girdle stop of a compute die (01_machine.md R12). -/
def stopOfDie (d : Nat) : Nat := 17 * (d / 16) + d % 16 + 1

/-- The Girdle stop of an edge die (01_machine.md R12). -/
def stopOfEdge (e : Nat) : Nat := 17 * e

/-- CORE_ID of a core (01_machine.md R18): the device index above the nine bits of die, quad and core. -/
def State.coreId (s : State) (n : Nat) : Nat := s.sys.dev.toNat * 512 + n

/-- The core of this module that a CORE_ID names; none for another module's. -/
def State.ownCore (s : State) (id : Nat) : Option Nat := if id / 512 = s.sys.dev.toNat then some (id % 512) else none

/-- Whether a CORE_ID names a core of a list of this module's. -/
def State.among (s : State) (l : List Nat) (id : Nat) : Bool := (s.ownCore id).any (fun n => l.contains n)

/-! ### Cells -/

/-- A cell with its content rewritten; empty stays empty. -/
def Cell.map {α β : Type} (c : Cell α) (f : α → β) : Cell β :=
  match c with
  | .full v => .full (f v)
  | .empty => .empty

/-! ### Lists -/

/-- A list with entry i replaced. -/
def setAt {α : Type} (l : List α) (i : Nat) (x : α) : List α :=
  match l, i with
  | [], _ => []
  | _ :: r, 0 => x :: r
  | y :: r, i + 1 => y :: setAt r i x

/-- A list without entry i. -/
def dropAt {α : Type} (l : List α) (i : Nat) : List α := l.take i ++ l.drop (i + 1)

/-! ### Cause codes (12_traps.md R333) -/

abbrev Cause.NONE : Byte := 0x00
abbrev Cause.ILLEGAL_ENCODING : Byte := 0x01
abbrev Cause.ILLEGAL_OPERAND : Byte := 0x02
abbrev Cause.PRIVILEGE : Byte := 0x03
abbrev Cause.EMPTY_TRAP : Byte := 0x04
abbrev Cause.LOOP_NEST : Byte := 0x05
abbrev Cause.PHASE_COMPUTE : Byte := 0x06
abbrev Cause.PHASE_EXCHANGE : Byte := 0x07
abbrev Cause.STRAGGLER : Byte := 0x08
abbrev Cause.OVERRUN : Byte := 0x09
abbrev Cause.SCAP_EXCEEDED : Byte := 0x0A
abbrev Cause.LOCAL_BOUNDS : Byte := 0x0B
abbrev Cause.POOL_BOUNDS : Byte := 0x0C
abbrev Cause.ALIGN : Byte := 0x0D
abbrev Cause.FOOTPRINT_INVALID : Byte := 0x0E
abbrev Cause.CARD_INVALID : Byte := 0x0F
abbrev Cause.ASYNC_PERM : Byte := 0x10
abbrev Cause.ASYNC_NOTPRESENT : Byte := 0x11
abbrev Cause.ASYNC_OUT_OF_SPACE : Byte := 0x12
abbrev Cause.ASYNC_PARTIAL : Byte := 0x13
abbrev Cause.ARITH : Byte := 0x14
abbrev Cause.TRAP_INSTR : Byte := 0x15
abbrev Cause.BREAK : Byte := 0x16
abbrev Cause.ECC_SCRATCH : Byte := 0x17
abbrev Cause.ECC_POOL : Byte := 0x18
abbrev Cause.ECC_IMEM : Byte := 0x19
abbrev Cause.ECC_REGFILE : Byte := 0x1A
abbrev Cause.ECC_ACC : Byte := 0x1B
abbrev Cause.LANDING_OVERFLOW : Byte := 0x1C
abbrev Cause.BARRIER_MISMATCH : Byte := 0x1D
abbrev Cause.COLLECTIVE_MISMATCH : Byte := 0x1E
abbrev Cause.LINK_DOWN : Byte := 0x1F
abbrev Cause.WATCHDOG : Byte := 0x20
abbrev Cause.STACK : Byte := 0x21
abbrev Cause.HALT_IN_EXCHANGE : Byte := 0x22
abbrev Cause.SLEN_RANGE : Byte := 0x23
abbrev Cause.TOKEN_REUSE : Byte := 0x24

/-- The causes whose Resume column is "kill" (12_traps.md R333). -/
def killOnly (c : Byte) : Bool :=
  [Cause.PHASE_COMPUTE, Cause.PHASE_EXCHANGE, Cause.STRAGGLER, Cause.OVERRUN, Cause.SCAP_EXCEEDED,
    Cause.BARRIER_MISMATCH, Cause.COLLECTIVE_MISMATCH, Cause.LINK_DOWN, Cause.WATCHDOG, Cause.HALT_IN_EXCHANGE].contains c

/-! ### Taking a trap and returning from one -/

/-- The SLOTENG byte (12_traps.md R330): engine code, SLOTV and slot. -/
def slotEngByte (e : Option Eng) (slot : Option Nat) : Byte :=
  BitVec.ofNat 8 ((match e with | some x => x.code | none => 15) * 16
    + (match slot with | some n => 8 + n | none => 0))

/-- A trap with nothing but a cause, a precision, the bundle it names and the bundle issued on resumption. -/
def Trap.plain (cause prec : Byte) (badr next : Nat) : Trap where
  cause := cause
  prec := prec
  slotEng := 0xF0
  repv := false
  second := false
  badr := badr
  arg := 0
  faddr := 0
  next := next
  tok := 0
  part := []
  nfault := 0
  incomplete := false
  bid := 0

/-- Whether a trap belongs to a move that issued before another's: an earlier bundle, or a lower slot of the same one
(12_traps.md R337). -/
def Trap.before (t u : Trap) : Bool :=
  decide (t.bid < u.bid ∨ (t.bid = u.bid ∧ t.slotEng.toNat % 8 < u.slotEng.toNat % 8))

/-- A trap with the issue order of its bundle: that of its move, of a bundle-precise one the bundle at the pc. -/
def Core.dated (c : Core) (t : Trap) : Trap := if t.prec = 1 then t else { t with bid := c.nextTag }

/-- A recorded fault takes its place in issue order (09_copy_collective.md R248; 10_phase_sync.md R287). -/
def insertDeferred (d : Deferred) : List Deferred → List Deferred
  | [] => [d]
  | x :: r => if d.tag < x.tag then d :: x :: r else x :: insertDeferred d r

/-- The cc of its capture that a core is in. -/
def Core.captureCc (c : Core) : Nat :=
  match c.seq with
  | .capture k => k
  | _ => 0

/-- TAKING A TRAP (12_traps.md R326, R337): the core issues no further bundle and captures; its record holds the trap
detected first, of two in one cc the one whose move issued earlier; another fault sets SECOND, and gives a core parked
without a cause of its own its cause with PREC 1. A recorded fault whose trap gives way to an earlier move's waits again. -/
def Core.takeTrap (c : Core) (t : Trap) : Core :=
  match c.trap with
  | none => { c with trap := some (c.dated t), seq := .capture 0, was := c.seq }
  | some t0 =>
    if t0.cause = Cause.NONE then { c with trap := some { t with prec := 1, next := t0.next, cc := c.captureCc } }
    else if c.captureCc = t0.cc ∧ (c.dated t).before t0 = true then
      { c with
        trap := some { c.dated t with next := t0.next, second := t0.second || decide (t0.prec = 1), cc := t0.cc },
        deferred := match t0.src with | some d => insertDeferred d c.deferred | none => c.deferred }
    else { c with trap := some { t0 with second := true } }

/-- RETURNING FROM A TRAP (12_traps.md R339): the sequencer goes on with NEXT, or with the wait it was in, SSC counts again
from the value it held, and a BREAK is passed once. -/
def Core.resume (c : Core) : Core :=
  match c.trap with
  | none => c
  | some t => { c with trap := none, seq := c.was, pc := t.next, capEmpty := [],
                       resumeBreak := decide (t.cause = Cause.BREAK) }

/-! ### Events -/

/-- An event appended at its source (14_system.md R396).  DESIGN CHOICE (log entry 18): it reaches the arbiter in the fabric cycle in
which it is sent (01_machine.md R31). -/
def State.sendEvent (s : State) (ty stop src : Nat) (payload : List Byte) : State :=
  { s with sys := { s.sys with events := s.sys.events ++ [⟨ty, stop, src, s.fabric, payload⟩] } }

/-- The event of a hold, a side-log retirement or an unresolvable fault (11_translation.md R307; the place of its fields
in the payload is log entry 18). -/
def State.faultEvent (s : State) (home asid kind core tok : Nat) (addr : Word) : State :=
  s.sendEvent 3 (stopOfEdge home) 9
    (leBytes 1 home ++ leBytes 2 asid ++ leBytes 1 kind ++ leBytes 2 core ++ leBytes 2 tok ++ leBytes 8 addr.toNat)

/-! ### Time -/

/-- ns of device time at a clock, slewed by at most 500 ppm towards the offset it corrects (10_phase_sync.md R292). -/
def Clock.tick (k : Clock) (ns : Nat) : Clock :=
  let credit := if k.corr = 0 then 0 else k.credit + 500 * ns
  let step := min (credit / 1000000) k.corr.natAbs
  let step := if k.corr < 0 then min step ns else step
  let corr := if k.corr < 0 then k.corr + step else k.corr - step
  { dtc := if k.corr < 0 then k.dtc + BitVec.ofNat 64 (ns - step) else k.dtc + BitVec.ofNat 64 (ns + step),
    corr := corr,
    credit := if corr = 0 then 0 else credit - 1000000 * step }

/-- A clock that corrects another offset from now on (10_phase_sync.md R292). -/
def Clock.aim (k : Clock) (corr : Int) : Clock := { k with corr := corr, credit := 0 }

/-- ns of device time at every clock: edge dies and compute dies; a fabric cycle is half a nanosecond
(01_machine.md R15; 00_scope.md, "fc"). -/
def State.tickNs (s : State) (ns : Nat) : State :=
  { s with
    fabric := s.fabric + 2 * ns,
    sys := { s.sys with clock := s.sys.clock.tick ns,
                        edges := s.sys.edges.fill Clock.start 1 3 (fun i => (s.sys.edges.get Clock.start (1 + i)).tick ns) },
    dies := s.dies.fill Die.start 0 64 (fun d => { s.die d with clock := (s.die d).clock.tick ns }) }

/-- cc core cycles at a core: SSC and the limits that count cc (10_phase_sync.md R280, R286; 12_traps.md R327, R336). -/
def Core.tick (c : Core) (cc : Nat) : Core :=
  let c := if cc = 0 then c else { c with fresh := 0 }
  let n := BitVec.ofNat 32 cc
  match c.seq with
  | .idle | .parked => c
  | .run => { c with ssc := c.ssc + n }
  | .frozen f k => { c with ssc := c.ssc + n, seq := .frozen f (k + cc) }
  | .endph e arrived => if arrived then c else { c with ssc := c.ssc + n, seq := .endph e arrived }
  | .halted arrived => if arrived then c else { c with ssc := c.ssc + n, seq := .halted arrived }
  | .capture k => { c with seq := .capture (k + cc) }

/-- cc core cycles at a running job: the cycles charged next, and the straggler timer where it counts (10_phase_sync.md
R281; 12_traps.md R327; 13_queues.md R377). -/
def Run.tick (r : Run) (counts : Bool) (cc : Nat) : Run :=
  { r with ccSince := r.ccSince + cc, strag := if counts then r.strag.map (· + cc) else r.strag }

/-! ### Queues of the engines -/

/-- The entries of an engine's queue. -/
def Core.q (c : Core) (e : Eng) : List Entry := c.qs.get [] e.code

/-- c with an engine's queue replaced. -/
def Core.setQ (c : Core) (e : Eng) (l : List Entry) : Core := { c with qs := c.qs.set [] e.code l }

/-- The operand ports of an engine. -/
def Core.op (c : Core) (e : Eng) : OPorts := c.ctx.oports.get OPorts.zero e.code

/-- c with an engine's operand ports replaced. -/
def Core.setOp (c : Core) (e : Eng) (p : OPorts) : Core :=
  { c with ctx := { c.ctx with oports := c.ctx.oports.set OPorts.zero e.code p } }

/-- The depth of an engine's queue (03_encoding.md R83). -/
def depthOf : Eng → Nat
  | .ctl => 0 | .sca => 2 | .vec0 => 8 | .vec1 => 8 | .str => 4 | .mem => 16 | .cpy0 => 8 | .cpy1 => 8 | .col => 4

/-- The place of a result port among the ports of a context. -/
def portIdx : RPort → Nat
  | .scaR => 0 | .scaP => 1 | .memR => 2 | .memP => 3 | .ctlR => 4 | .strR => 5 | .vec0S => 6 | .vec1S => 7
  | .cpy0R => 8 | .cpy1R => 9 | .colR => 10 | .vec0R => 11 | .vec0P => 12 | .vec1R => 13 | .vec1P => 14
  | .vec0M => 15 | .vec1M => 16 | .memVr => 17 | .memVp => 18 | .strVr => 19 | .strVp => 20

/-- A result port; at job start it is full and holds 0 (03_encoding.md R77). -/
def Core.port (c : Core) (p : RPort) : PCell := c.ctx.ports.get (.full (.s 0)) (portIdx p)

/-- c with a result port replaced. -/
def Core.setPort (c : Core) (p : RPort) (x : PCell) : Core :=
  { c with ctx := { c.ctx with ports := c.ctx.ports.set (.full (.s 0)) (portIdx p) x } }

/-- The previous-result partner of a port (03_encoding.md R78). -/
def partnerOf : RPort → Option RPort
  | .scaR => some .scaP | .memR => some .memP | .memVr => some .memVp | .strVr => some .strVp
  | .vec0R => some .vec0P | .vec1R => some .vec1P | _ => none

/-- A trigger that returns a result on p issues: p empties, and its old value, full or pending, moves to its partner
(03_encoding.md R78). -/
def Core.claimPort (c : Core) (p : RPort) (tag : Nat) : Core :=
  match partnerOf p with
  | some q => (c.setPort q (c.port p)).setPort p (.pend tag)
  | none => c.setPort p (.pend tag)

/-- The phase a core is in: true in an exchange superstep (10_phase_sync.md R273). -/
def State.exchOf (s : State) (core : Nat) : Bool :=
  match s.runOf (s.core core).part with
  | some r => r.exch
  | none => false

/-- PHC of the stand of a core (10_phase_sync.md R273). -/
def State.phcOf (s : State) (core : Nat) : Nat :=
  match s.runOf (s.core core).part with
  | some r => r.phc
  | none => 0

/-- POOL of the kernel a core runs (03_encoding.md R102). -/
def State.poolOf (s : State) (core : Nat) : Nat :=
  match s.runOf (s.core core).part with
  | some r => r.pool
  | none => 0

/-- The straggler limit of a core's job (10_phase_sync.md R274). -/
def State.limOf (s : State) (core : Nat) : Nat :=
  match s.runOf (s.core core).part with
  | some r => r.adm.lim
  | none => 0

/-- The superstep cap of a core's job (10_phase_sync.md R274). -/
def State.capOf (s : State) (core : Nat) : Nat :=
  match s.runOf (s.core core).part with
  | some r => r.adm.cap
  | none => 0

end Sys2Proof.Machine
end

