-- ==== Sys2Proof/Machine/Operands.lean ====
section
/-! DEFINITION. Operand forms: what a source reads, how widths are matched (03_encoding.md R72 to R75), how a value is
written to a register or a port, and how waiting moves are woken. -/

namespace Sys2Proof.Machine

/-- A scalar replicated into every lane (03_encoding.md R75, scalar into vector). -/
def broadcast (w : Word) : VecW := ofLanes (fun _ => w.extractLsb' 0 32)

/-- A value at a scalar destination (03_encoding.md R75; a vector never reaches one). -/
def Val.toScalar : Val → Word
  | .s w => w
  | .v w => w.extractLsb' 0 64
  | .m w => w.extractLsb' 0 64

/-- A value at a vector destination: a scalar is broadcast, a mask bit becomes a lane of ones or zeros
(03_encoding.md R75). -/
def Val.toVec : Val → VecW
  | .s w => broadcast w
  | .v w => w
  | .m w => ofLanes (fun i => if w.getLsbD i then BitVec.allOnes 32 else 0)

/-- A value at a mask destination: bit 0 of each lane; a mask is copied bit for bit (03_encoding.md R75). -/
def Val.toMask : Val → MaskW
  | .s w => if w.getLsbD 0 then BitVec.allOnes 128 else 0
  | .v w => ofBits (fun i => (lane w i).getLsbD 0)
  | .m w => w

/-- Whether a source belongs to the vector space, masks included (03_encoding.md R72). -/
def srcIsVector : Src → Bool
  | .reg (.v _) _ | .reg (.vm _) _ => true
  | .port p _ => p.index.1
  | .lndV _ _ => true
  | _ => false

/-- The E bit of a source, which constants, literals and landing slots ignore (03_encoding.md R73, R74). -/
def srcTrapsEmpty : Src → Bool
  | .reg _ e | .bind _ e | .port _ e => e
  | _ => false

/-- A register's content as a bus value; a guard reads 0 or 1, and s0 reads 0 (03_encoding.md R70, R72). -/
def Ctx.readReg (x : Ctx) (r : RegId) : Cell Val :=
  match r with
  | .s i => if i.val = 0 then .full (.s 0) else (x.s.get (.full 0) i.val).map .s
  | .o i => (x.o.get (.full 0) i.val).map .s
  | .a i => (x.a.get (.full 0) i.val).map .s
  | .g i => (x.g.get (.full false) i.val).map (fun b => .s (if b then 1 else 0))
  | .v i => (x.v.get (.full 0) i.val).map .v
  | .vm i => (x.vm.get (.full 0) i.val).map .m

/-- A register written full: s0 discards, a guard takes bit 0, widths by R75 (03_encoding.md R70, R71, R75). -/
def Ctx.writeReg (x : Ctx) (r : RegId) (v : Val) : Ctx :=
  match r with
  | .s i => if i.val = 0 then x else { x with s := x.s.set (.full 0) i.val (.full v.toScalar) }
  | .o i => { x with o := x.o.set (.full 0) i.val (.full v.toScalar) }
  | .a i => { x with a := x.a.set (.full 0) i.val (.full v.toScalar) }
  | .g i => { x with g := x.g.set (.full false) i.val (.full (v.toScalar.getLsbD 0)) }
  | .v i => { x with v := x.v.set (.full 0) i.val (.full v.toVec) }
  | .vm i => { x with vm := x.vm.set (.full 0) i.val (.full v.toMask) }

/-- A register emptied; s0 never is (03_encoding.md R77, R79). -/
def Ctx.emptyReg (x : Ctx) (r : RegId) : Ctx :=
  match r with
  | .s i => if i.val = 0 then x else { x with s := x.s.set (.full 0) i.val .empty }
  | .o i => { x with o := x.o.set (.full 0) i.val .empty }
  | .a i => { x with a := x.a.set (.full 0) i.val .empty }
  | .g i => { x with g := x.g.set (.full false) i.val .empty }
  | .v i => { x with v := x.v.set (.full 0) i.val .empty }
  | .vm i => { x with vm := x.vm.set (.full 0) i.val .empty }

/-- Whether a register is empty (03_encoding.md R77). -/
def Ctx.isEmpty (x : Ctx) (r : RegId) : Bool :=
  match x.readReg r with
  | .full _ => false
  | .empty => true

/-- What an address register delivers to a slot-4 move: its local address (04_scalar_control.md R121). -/
def areg4 (v : Val) : Val := .s ((v.toScalar.extractLsb' 0 32).setWidth 64)

/-- The address register after a slot-4 read: bits 31:0 advanced by the signed stride mod 2^32
(04_scalar_control.md R121). -/
def advance (w : Word) : Word := (w.extractLsb' 32 32) ++ (w.extractLsb' 0 32 + w.extractLsb' 32 32)

/-- The source of a move as a slot binds it at issue (03_encoding.md R72, R78, R79; 04_scalar_control.md R121). A landing
slot without data is bound by no bundle: the read traps PHASE_COMPUTE or the core freezes (R74; 10_phase_sync.md R286), and
no check sees the 0 given here (log entry 60). -/
def Core.bindSrc (c : Core) (slot : Nat) (x : Src) : EVal :=
  match x with
  | .reg r _ =>
    match c.ctx.readReg r with
    | .full v =>
      match r with
      | .a _ => .ready (if slot = 4 then areg4 v else v)
      | _ => .ready v
    | .empty => .wait (.reg r)
  | .bind i _ => .ready (.s (c.ctx.bind.get 0 i.val))
  | .port p _ =>
    match c.port p with
    | .full v => .ready v
    | .pend t => .wait (.tag t)
  | .lndS n _ =>
    match c.lnd.get none n.val with
    | some d => .ready (.s (d.data.extractLsb' 0 64))
    | none => .ready (.s 0)
  | .lndV n _ =>
    match c.lnd.get none n.val with
    | some d => .ready (.v d.data)
    | none => .ready (.v 0)
  | .const i _ => .ready (.s (c.consts.get 0 i.toNat))
  | .lit w => .ready (.s (w.signExtend 64))

/-- Whether a source is empty in the sense of R77 (03_encoding.md R77, R79). -/
def Core.srcEmpty (c : Core) (x : Src) : Bool :=
  match x with
  | .reg r _ => c.ctx.isEmpty r
  | .port p _ => match c.port p with | .full _ => false | .pend _ => true
  | _ => false

/-- The register a source reads, if it is one with a full/empty bit. -/
def srcReg : Src → Option RegId
  | .reg r _ => some r
  | _ => none

/-- The landing slot a source reads (03_encoding.md R72). -/
def srcLanding : Src → Option (Fin 64)
  | .lndS n _ | .lndV n _ => some n
  | _ => none

/-- A value for whatever waits on w. -/
def EVal.wake (e : EVal) (w : Wait) (v : Val) : EVal :=
  match e with
  | .ready x => .ready x
  | .wait w' => if w' = w then .ready v else .wait w'

/-- Every queue entry and transfer that waits on w receives v (03_encoding.md R79). -/
def Core.wakeAll (c : Core) (w : Wait) (v : Val) : Core :=
  { c with
    qs := c.qs.map (fun p => (p.1, p.2.map (fun e => { e with val := e.val.wake w v }))),
    pends := c.pends.map (fun p => { p with val := p.val.wake w v }) }

/-- The slot-4 moves that wait in a queue for an address register, as their tag and bundle (04_scalar_control.md R121). -/
def Core.aregReads (c : Core) (r : RegId) : List (Nat × Nat) :=
  c.qs.flatMap (fun q => (q.2.filter (fun e => decide (e.slot = 4 ∧ e.val = .wait (.reg r)))).map (fun e => (e.tag, e.badr)))

/-- An address register advanced k times (04_scalar_control.md R121). -/
def advanceN : Nat → Word → Word
  | 0, w => w
  | k + 1, w => advance (advanceN k w)

/-- What a waiting read of an address register receives when the register fills with w: w as advanced by the slot-4 reads of
earlier bundles, a slot-4 read its address alone (04_scalar_control.md R121). -/
def aregValue (l : List (Nat × Nat)) (w : Word) (slot tag : Nat) (badr : Option Nat) : Val :=
  let v : Val := .s (advanceN (l.countP (fun x => decide (x.1 < tag ∧ (slot = 4 ∨ some x.2 ≠ badr)))) w)
  if slot = 4 then areg4 v else v

/-- An address register fills: the moves that wait for it read it in issue order, and every slot-4 read among them advances
it (03_encoding.md R79; 04_scalar_control.md R121). -/
def Core.fillAreg (c : Core) (r : RegId) (w : Word) : Core :=
  let l := c.aregReads r
  let give (e : Entry) : Entry := { e with val := e.val.wake (.reg r) (aregValue l w e.slot e.tag (some e.badr)) }
  { c with
    ctx := c.ctx.writeReg r (.s (advanceN l.length w)),
    qs := c.qs.map (fun p => (p.1, p.2.map give)),
    pends := c.pends.map (fun p => { p with val := p.val.wake (.reg r) (aregValue l w 0 p.tag none) }) }

/-- A register fills, and what waits for it receives its value (03_encoding.md R79). -/
def Core.fillReg (c : Core) (r : RegId) (v : Val) : Core :=
  match r with
  | .a _ => c.fillAreg r v.toScalar
  | _ =>
    let c := { c with ctx := c.ctx.writeReg r v }
    match c.ctx.readReg r with
    | .full x => c.wakeAll (.reg r) x
    | .empty => c

/-- A trigger's result arrives: every port still bound to it fills, and so does whatever waits for it
(03_encoding.md R78). -/
def Core.arrive (c : Core) (tag : Nat) (v : Val) : Core :=
  let c := { c with ctx := { c.ctx with
    ports := c.ctx.ports.map (fun (p : Nat × PCell) => (p.1, if p.2 = PCell.pend tag then PCell.full v else p.2)) } }
  c.wakeAll (.tag tag) v

/-- An operand port written; a vector port keeps a vector, m a mask, w and the scalar ports a scalar
(03_encoding.md R68, R69, R75; 06_vector.md R166; 05_local_memory.md R140). -/
def OPorts.write (x : OPorts) (vec : Bool) (p : OPort) (v : Val) : OPorts :=
  match p with
  | .o => { x with o := if vec then .v v.toVec else .s v.toScalar }
  | .o2 => { x with o2 := if vec then .v v.toVec else .s v.toScalar }
  | .m => { x with m := v.toMask }
  | .w => { x with w := v.toScalar }

/-- Whether an engine's o and o2 accept vectors (06_vector.md R166). -/
def isVecEng : Eng → Bool
  | .vec0 | .vec1 => true
  | _ => false

/-- Whether an operand port accepts a vector source (03_encoding.md R75; 05_local_memory.md R140; 06_vector.md R166;
04_scalar_control.md R106; 08_stream_ops.md R216; 09_copy_collective.md R241). -/
def portTakesVector (e : Eng) (p : OPort) : Bool :=
  match p with
  | .o | .o2 => isVecEng e
  | .m => true
  | .w => false

end Sys2Proof.Machine
end

