-- ==== Sys2Proof/Machine/Flags.lean ====
section
/-! DEFINITION. The sticky flags of AFL (02_numbers.md R59 to R61) and every rounding and range rule of 02_numbers.md:
exact values first, one rounding at the end. -/

namespace Sys2Proof.Machine

/-! ### Flags (02_numbers.md R59) -/

abbrev fNV : Byte := 0x01
abbrev fDZ : Byte := 0x02
abbrev fOF : Byte := 0x04
abbrev fUF : Byte := 0x08
abbrev fNX : Byte := 0x10
abbrev fACO : Byte := 0x20
abbrev fQX : Byte := 0x40
abbrev fIV : Byte := 0x80

/-- A flag or nothing. -/
def flagIf (b : Bool) (f : Byte) : Byte := if b then f else 0

/-- Flags are set by OR into AFL and never cleared by an operation (02_numbers.md R60). -/
def Core.orFlags (c : Core) (f : Byte) : Core :=
  { c with ctx := { c.ctx with afl := c.ctx.afl ||| f }, fresh := c.fresh ||| f }

/-- The flags of many lanes combine by OR (06_vector.md R168). -/
def orAll (n : Nat) (f : Nat → Byte) : Byte :=
  match n with
  | 0 => 0
  | n + 1 => orAll n f ||| f n

/-! ### Integer roundings -/

/-- Rounding modes of RMODE (02_numbers.md R35): 0 RNE, 1 RTZ, 2 RUP, 3 RDN. -/
abbrev RM := BitVec 2

/-- Whether a magnitude k with remainder r out of d (and sticky bits below) is rounded up (02_numbers.md R35, R37). -/
def roundUp (rm : RM) (neg : Bool) (k r d : Nat) (st : Bool) : Bool :=
  let inexact := decide (r ≠ 0) || st
  match rm.toNat with
  | 0 => decide (d < 2 * r) || (decide (2 * r = d) && (st || decide (k % 2 = 1)))
  | 1 => false
  | 2 => !neg && inexact
  | _ => neg && inexact

/-- num / den rounded to an integer magnitude, and whether that was inexact. -/
def roundDiv (rm : RM) (neg : Bool) (num den : Nat) : Nat × Bool :=
  let k := num / den
  let r := num % den
  (if roundUp rm neg k r den false then k + 1 else k, decide (r ≠ 0))

/-- num / den rounded to nearest, ties to even (02_numbers.md R36, R37). -/
def rneDiv (num den : Nat) : Nat := (roundDiv 0 false num den).1

/-- An integer num / den rounded to nearest even with its sign. -/
def rneDivInt (num : Int) (den : Nat) : Int :=
  if num < 0 then - (Int.ofNat (rneDiv num.natAbs den)) else Int.ofNat (rneDiv num.natAbs den)

/-- Integer square root, bit by bit from bit n. -/
def isqrtFrom (x : Nat) : Nat → Nat → Nat
  | 0, r => if (r + 1) * (r + 1) ≤ x then r + 1 else r
  | n + 1, r => isqrtFrom x n (if (r + 2 ^ (n + 1)) * (r + 2 ^ (n + 1)) ≤ x then r + 2 ^ (n + 1) else r)

/-- ⌊√x⌋. -/
def isqrt (x : Nat) : Nat := isqrtFrom x (x.log2 / 2 + 1) 0

/-- 2^e as a numerator and a denominator. -/
def pow2Frac (e : Int) : Nat × Nat := if e < 0 then (1, 2 ^ e.natAbs) else (2 ^ e.natAbs, 1)

/-! ### Floating-point formats -/

/-- A binary floating-point format with an 8-bit exponent of bias 127 and mb fraction bits: FP32 (23) and BF16 (7)
(02_numbers.md R32). -/
structure Fmt where
  mb : Nat
  deriving DecidableEq, Repr

abbrev fp32 : Fmt := ⟨23⟩
abbrev bf16 : Fmt := ⟨7⟩

/-- A floating-point datum taken apart: m · 2^e with a sign. -/
inductive Fp where
  | nan (signalling : Bool)
  | inf (neg : Bool)
  | fin (neg : Bool) (m : Nat) (e : Int)
  deriving DecidableEq, Repr

/-- A datum of a format taken apart (02_numbers.md R32, R33). -/
def Fmt.unpack (f : Fmt) (w : Nat) : Fp :=
  let frac := w % 2 ^ f.mb
  let ex := (w / 2 ^ f.mb) % 256
  let neg := decide ((w / 2 ^ (f.mb + 8)) % 2 = 1)
  if ex = 255 then (if frac = 0 then .inf neg else .nan (decide (frac < 2 ^ (f.mb - 1))))
  else if ex = 0 then .fin neg frac (-126 - (f.mb : Int))
  else .fin neg (frac + 2 ^ f.mb) ((ex : Int) - 127 - (f.mb : Int))

/-- The canonical NaN (02_numbers.md R33). -/
def Fmt.nan (f : Fmt) : Nat := 255 * 2 ^ f.mb + 2 ^ (f.mb - 1)

/-- The sign bit in place. -/
def Fmt.sign (f : Fmt) (neg : Bool) : Nat := if neg then 2 ^ (f.mb + 8) else 0

/-- An infinity. -/
def Fmt.infinity (f : Fmt) (neg : Bool) : Nat := f.sign neg + 255 * 2 ^ f.mb

/-- The largest finite magnitude. -/
def Fmt.maxFin (f : Fmt) (neg : Bool) : Nat := f.sign neg + 255 * 2 ^ f.mb - 1

/-- m · 2^e cut to units of 2^q: the quotient, the remainder and its divisor. -/
def cutAt (m : Nat) (e q : Int) : Nat × Nat × Nat :=
  if q ≤ e then (m * 2 ^ (e - q).toNat, 0, 1)
  else (m / 2 ^ (q - e).toNat, m % 2 ^ (q - e).toNat, 2 ^ (q - e).toNat)

/-- Whether k · 2^q ≥ 2^t. -/
def atLeastPow (k : Nat) (q t : Int) : Bool :=
  if t ≤ q then decide (k ≠ 0) else decide (2 ^ (t - q).toNat ≤ k)

/-- m · 2^e, with more bits below when st, rounded once to a format (02_numbers.md R33, R34): the datum and OF, UF, NX.
Tininess is detected after rounding. -/
def Fmt.round (f : Fmt) (rm : RM) (neg : Bool) (m : Nat) (e : Int) (st : Bool) : Nat × Byte :=
  if m = 0 ∧ st = false then (f.sign neg, 0)
  else
    let qu : Int := (m.log2 : Int) + e - (f.mb : Int)       -- unit of the unbounded-exponent result
    let q : Int := max qu (-126 - (f.mb : Int))
    let c := cutAt m e q
    let k := if roundUp rm neg c.1 c.2.1 c.2.2 st then c.1 + 1 else c.1
    let inexact := decide (c.2.1 ≠ 0) || st
    let cu := cutAt m e qu
    let ku := if roundUp rm neg cu.1 cu.2.1 cu.2.2 st then cu.1 + 1 else cu.1
    let tiny := !atLeastPow ku qu (-126)
    if atLeastPow k q 128 then
      let inf := match rm.toNat with
        | 0 => true
        | 1 => false
        | 2 => !neg
        | _ => neg
      (if inf then f.infinity neg else f.maxFin neg, fOF ||| fNX)
    else if k < 2 ^ f.mb then
      (f.sign neg + k, flagIf inexact fNX ||| flagIf (tiny && inexact) fUF)
    else
      (f.sign neg + (q + (f.mb : Int) + 127).toNat * 2 ^ f.mb + (k - 2 ^ f.mb),
        flagIf inexact fNX ||| flagIf (tiny && inexact) fUF)

/-- An integer multiple of a power of two rounded once. -/
def Fmt.roundInt (f : Fmt) (rm : RM) (x : Int) (e : Int) : Nat × Byte := f.round rm (decide (x < 0)) x.natAbs e false

/-- A finite value in units of 2^-149 (02_numbers.md R46): exact for FP32 and BF16. -/
def unit149 (neg : Bool) (m : Nat) (e : Int) : Int :=
  let x := (cutAt m e (-149)).1
  if neg then - (Int.ofNat x) else Int.ofNat x

/-! ### FP32 operations (02_numbers.md R33; 06_vector.md R175 to R177) -/

/-- The canonical NaN with NV. -/
def fNaNV : BitVec 32 × Byte := (0x7FC00000, fNV)

/-- The result of an operation on a NaN: the canonical NaN, NV for a signalling one (02_numbers.md R33). -/
def nanOf (xs : List Fp) : BitVec 32 × Byte :=
  (0x7FC00000, flagIf (xs.contains (.nan true)) fNV)

/-- Whether a datum is a NaN. -/
def Fp.isNan : Fp → Bool
  | .nan _ => true
  | _ => false

/-- Whether a datum is a zero. -/
def Fp.isZero : Fp → Bool
  | .fin _ 0 _ => true
  | _ => false

/-- The sign of a datum. -/
def Fp.neg : Fp → Bool
  | .nan _ => false
  | .inf n => n
  | .fin n _ _ => n

/-- A FP32 lane taken apart. -/
def un32 (w : BitVec 32) : Fp := fp32.unpack w.toNat

/-- A rounded FP32 result. -/
def mk32 (r : Nat × Byte) : BitVec 32 × Byte := (BitVec.ofNat 32 r.1, r.2)

/-- An exact sum of finite values, rounded; an exact zero is +0, -0 under RDN, or the common sign of two zeros
(06_vector.md R175). -/
def sumRound (rm : RM) (n1 : Bool) (m1 : Nat) (e1 : Int) (n2 : Bool) (m2 : Nat) (e2 : Int) : BitVec 32 × Byte :=
  let e := min e1 e2
  let a : Int := (m1 * 2 ^ (e1 - e).toNat : Nat)
  let b : Int := (m2 * 2 ^ (e2 - e).toNat : Nat)
  let x := (if n1 then -a else a) + (if n2 then -b else b)
  if x = 0 then
    let neg := if m1 = 0 ∧ m2 = 0 ∧ n1 = n2 then n1 else decide (rm = 3)
    (BitVec.ofNat 32 (fp32.sign neg), 0)
  else mk32 (fp32.roundInt rm x e)

/-- a + b (06_vector.md R175). -/
def fadd (rm : RM) (a b : BitVec 32) : BitVec 32 × Byte :=
  match un32 a, un32 b with
  | .nan s, y => nanOf [.nan s, y]
  | x, .nan s => nanOf [x, .nan s]
  | .inf n1, .inf n2 => if n1 = n2 then (a, 0) else fNaNV
  | .inf _, .fin _ _ _ => (a, 0)
  | .fin _ _ _, .inf _ => (b, 0)
  | .fin n1 m1 e1, .fin n2 m2 e2 => sumRound rm n1 m1 e1 n2 m2 e2

/-- A lane with its sign inverted. -/
def flipSign (b : BitVec 32) : BitVec 32 := b ^^^ 0x80000000

/-- a - b (06_vector.md R175). -/
def fsub (rm : RM) (a b : BitVec 32) : BitVec 32 × Byte := fadd rm a (flipSign b)

/-- a × b (06_vector.md R175). -/
def fmul (rm : RM) (a b : BitVec 32) : BitVec 32 × Byte :=
  match un32 a, un32 b with
  | .nan s, y => nanOf [.nan s, y]
  | x, .nan s => nanOf [x, .nan s]
  | .inf n1, y => if y.isZero then fNaNV else (BitVec.ofNat 32 (fp32.infinity (n1 != y.neg)), 0)
  | x, .inf n2 => if x.isZero then fNaNV else (BitVec.ofNat 32 (fp32.infinity (x.neg != n2)), 0)
  | .fin n1 m1 e1, .fin n2 m2 e2 => mk32 (fp32.round rm (n1 != n2) (m1 * m2) (e1 + e2) false)

/-- a × b + c rounded once; ∞ × 0 gives NaN with NV whatever c holds (06_vector.md R175). -/
def ffma (rm : RM) (a b c : BitVec 32) : BitVec 32 × Byte :=
  let x := un32 a
  let y := un32 b
  let z := un32 c
  let infZero := match x, y with
    | .inf _, .fin _ 0 _ => true
    | .fin _ 0 _, .inf _ => true
    | _, _ => false
  if infZero then fNaNV
  else if x.isNan || y.isNan || z.isNan then nanOf [x, y, z]
  else
    match x, y, z with
    | .fin n1 m1 e1, .fin n2 m2 e2, .fin n3 m3 e3 => sumRound rm (n1 != n2) (m1 * m2) (e1 + e2) n3 m3 e3
    | .fin _ _ _, .fin _ _ _, _ => (c, 0)
    | _, _, .inf n3 =>
      if n3 = (x.neg != y.neg) then (c, 0) else fNaNV
    | _, _, _ => (BitVec.ofNat 32 (fp32.infinity (x.neg != y.neg)), 0)

/-- An order key of a FP32 value that is no NaN: -0 ranks below +0 (05_local_memory.md R148). -/
def fkey (w : BitVec 32) : Int :=
  if w.getLsbD 31 then - ((w.toNat % 2 ^ 31 : Nat) : Int) - 1 else ((w.toNat % 2 ^ 31 : Nat) : Int)

/-- The larger value, a NaN winning as the canonical NaN (05_local_memory.md R148; 06_vector.md R176). -/
def fmaxW (a b : BitVec 32) : BitVec 32 :=
  if (un32 a).isNan || (un32 b).isNan then 0x7FC00000 else if fkey a < fkey b then b else a

/-- The smaller value under the same order (06_vector.md R176). -/
def fminW (a b : BitVec 32) : BitVec 32 :=
  if (un32 a).isNan || (un32 b).isNan then 0x7FC00000 else if fkey b < fkey a then b else a

/-- NV for a signalling NaN among the operands (02_numbers.md R33). -/
def snanFlag (xs : List (BitVec 32)) : Byte := flagIf (xs.any (fun w => un32 w = .nan true)) fNV

/-- fabs and fneg: exact; a NaN lane gives the canonical NaN (06_vector.md R176). -/
def fsign (f : BitVec 32 → BitVec 32) (b : BitVec 32) : BitVec 32 × Byte :=
  match un32 b with
  | .nan s => nanOf [.nan s]
  | _ => (f b, 0)

/-- 1 / b (06_vector.md R177). -/
def frcp (rm : RM) (b : BitVec 32) : BitVec 32 × Byte :=
  match un32 b with
  | .nan s => nanOf [.nan s]
  | .inf n => (BitVec.ofNat 32 (fp32.sign n), 0)
  | .fin n m e =>
    if m = 0 then (BitVec.ofNat 32 (fp32.infinity n), fDZ)
    else
      let k := m.log2 + 64
      mk32 (fp32.round rm n (2 ^ k / m) (-(k : Int) - e) (decide (2 ^ k % m ≠ 0)))

/-- 1 / √b (06_vector.md R177). -/
def frsq (rm : RM) (b : BitVec 32) : BitVec 32 × Byte :=
  match un32 b with
  | .nan s => nanOf [.nan s]
  | .inf n => if n then fNaNV else (0, 0)
  | .fin n m e =>
    if m = 0 then (BitVec.ofNat 32 (fp32.infinity n), fDZ)
    else if n then fNaNV
    else
      -- 1/√(m·2^e) = √(2^(2k)/m') · 2^(-k - e'/2), e' even, m' = m or 2m
      let odd := decide (e % 2 ≠ 0)
      let m' := if odd then 2 * m else m
      let e' := if odd then e - 1 else e
      let k := m'.log2 + 64
      let r := isqrt (2 ^ (2 * k) / m')
      mk32 (fp32.round rm false r (-(k : Int) - e' / 2) (decide (r * r * m' ≠ 2 ^ (2 * k))))

/-- √b (06_vector.md R177). -/
def fsqrt (rm : RM) (b : BitVec 32) : BitVec 32 × Byte :=
  match un32 b with
  | .nan s => nanOf [.nan s]
  | .inf n => if n then fNaNV else (b, 0)
  | .fin n m e =>
    if m = 0 then (b, 0)
    else if n then fNaNV
    else
      let odd := decide (e % 2 ≠ 0)
      let m' := (if odd then 2 * m else m) * 2 ^ 64
      let e' := (if odd then e - 1 else e) - 64
      let r := isqrt m'
      mk32 (fp32.round rm false r (e' / 2) (decide (r * r ≠ m')))

/-- Bits kept below the binary point by fexp2 and flog2 (log entry 11). -/
def fxBits : Nat := 320

/-- ln 2 · 2^320 from below: 2 · Σ 1/((2k+1)·3^(2k+1)), the terms k < n. -/
def ln2Sum : Nat → Nat
  | 0 => 0
  | n + 1 => ln2Sum n + 2 * 2 ^ fxBits / ((2 * n + 1) * 3 ^ (2 * n + 1))

/-- e^y · 2^320 for y · 2^320 = x < 2^320, by its series: the sum from term k on, t being that term. -/
def expSum (x : Nat) : Nat → Nat → Nat → Nat
  | 0, _, _ => 0
  | n + 1, k, t => t + expSum x n (k + 1) (t * x / 2 ^ fxBits / (k + 1))

/-- 2^b rounded once (06_vector.md R177, log entry 11). -/
def fexp2 (rm : RM) (b : BitVec 32) : BitVec 32 × Byte :=
  match un32 b with
  | .nan s => nanOf [.nan s]
  | .inf n => if n then (0, 0) else (b, 0)
  | .fin n m e =>
    if atLeastPow m e 9 then
      -- |b| ≥ 512: beyond every exponent of the format
      mk32 (fp32.round rm false 1 (if n then -1000 else 1000) n)
    else
      let u := unit149 n m e
      let i := u / 2 ^ 149                      -- floor
      let fr := (u % 2 ^ 149).toNat              -- fraction in units of 2^-149
      if fr = 0 then mk32 (fp32.round rm false 1 i false)
      else
        let y := fr * ln2Sum 110 / 2 ^ 149
        mk32 (fp32.round rm false (expSum y 90 0 (2 ^ fxBits)) (i - (fxBits : Int)) true)

/-- The bits of log2 of x / 2^320 in [1, 2), n of them, by repeated squaring. -/
def logBits (x : Nat) : Nat → Nat
  | 0 => 0
  | n + 1 =>
    let y := x * x / 2 ^ fxBits
    if 2 ^ (fxBits + 1) ≤ y then 2 ^ n + logBits (y / 2) n else logBits y n

/-- log2(b) rounded once (06_vector.md R177, log entry 11). -/
def flog2 (rm : RM) (b : BitVec 32) : BitVec 32 × Byte :=
  match un32 b with
  | .nan s => nanOf [.nan s]
  | .inf n => if n then fNaNV else (b, 0)
  | .fin n m e =>
    if m = 0 then (BitVec.ofNat 32 (fp32.infinity true), fDZ)
    else if n then fNaNV
    else
      let i : Int := (m.log2 : Int) + e
      if m = 2 ^ m.log2 then
        (if i = 0 then (0, 0) else mk32 (fp32.roundInt rm i 0))
      else
        let s : Int := i * 2 ^ 128 + (logBits (m * 2 ^ fxBits / 2 ^ m.log2) 128 : Nat)
        if 0 ≤ s then mk32 (fp32.round rm false s.toNat (-128) true)
        else mk32 (fp32.round rm true (-s - 1).toNat (-128) true)

/-! ### Conversions (02_numbers.md R34, R50, R51) -/

/-- FP32 to BF16 (02_numbers.md R34). -/
def narrowBf (rm : RM) (w : BitVec 32) : BitVec 16 × Byte :=
  match un32 w with
  | .nan s => (0x7FC0, flagIf s fNV)
  | .inf n => (BitVec.ofNat 16 (bf16.infinity n), 0)
  | .fin n m e => let r := bf16.round rm n m e false; (BitVec.ofNat 16 r.1, r.2)

/-- BF16 to FP32, exact (02_numbers.md R34). -/
def widenBf (h : BitVec 16) : BitVec 32 × Byte :=
  match bf16.unpack h.toNat with
  | .nan s => (0x7FC00000, flagIf s fNV)
  | _ => (h ++ (0 : BitVec 16), 0)

/-- The least and greatest integers of a signed format of w bits. -/
def loOf (w : Nat) : Int := -(2 ^ (w - 1))
/-- The greatest integer of a signed format of w bits. -/
def hiOf (w : Nat) : Int := 2 ^ (w - 1) - 1

/-- FP32 to a signed integer of w bits (02_numbers.md R51): the two's-complement value and NV, NX or IV. -/
def toIntFmt (rm : RM) (isat : Bool) (w : Nat) (x : Fp) : Int × Byte :=
  match x with
  | .nan _ => (0, fNV)
  | .inf n => (if n then loOf w else hiOf w, fNV)
  | .fin n m e =>
    let c := cutAt m e 0
    let k := if roundUp rm n c.1 c.2.1 c.2.2 false then c.1 + 1 else c.1
    let inexact := decide (c.2.1 ≠ 0)
    let v : Int := if n then - (Int.ofNat k) else Int.ofNat k
    if loOf w ≤ v ∧ v ≤ hiOf w then (v, flagIf inexact fNX)
    else if isat then (if v < 0 then loOf w else hiOf w, fIV ||| flagIf inexact fNX)
    else (v, fNV ||| flagIf inexact fNX)

/-- An integer narrowed to [lo, hi], or wrapped by the caller's width (02_numbers.md R51, last row). -/
def narrowInt (isat : Bool) (lo hi v : Int) : Int × Byte :=
  if lo ≤ v ∧ v ≤ hi then (v, 0)
  else if isat then (if v < lo then lo else hi, fIV)
  else (v, 0)

/-! ### S10 scales and the block formats (02_numbers.md R38 to R41, R52 to R58) -/

/-- A finite non-zero S10 scale in units of 2^-149 (02_numbers.md R38): (4 + F) · 2^(E + 20), for E = 1 … 254. -/
def s10unit (c : Nat) : Nat := (4 + c % 4) * 2 ^ (c / 4 + 20)

/-- The magnitude of an FA4 code in half units: the edge digit of R40. -/
def fa4mag (c : Nat) : Nat :=
  match c % 8 with
  | 0 => 0 | 1 => 1 | 2 => 2 | 3 => 3 | 4 => 4 | 5 => 6 | 6 => 8 | _ => 12

/-- The distance of two naturals. -/
def dist (a b : Nat) : Nat := if a ≤ b then b - a else a - b

/-- grid(y) for y = x2 / (2·s) half units: the code whose magnitude is nearest, a tie going to the even code
(02_numbers.md R37, R54). -/
def gridCode (x2 s : Nat) : Nat :=
  (List.range 8).foldl (fun best c =>
    if dist x2 (fa4mag c * s) < dist x2 (fa4mag best * s) then c
    else if dist x2 (fa4mag c * s) = dist x2 (fa4mag best * s) ∧ c % 2 = 0 then c
    else best) 0

/-- An element for a block quantiser: sign and magnitude in units of 2^-149, or special; padding is none. -/
inductive QEl where
  | pad
  | special (snan : Bool)
  | val (neg : Bool) (x : Nat)
  deriving DecidableEq, Repr

/-- A FP32 lane as an element (02_numbers.md R52). -/
def qElOf (pad : Bool) (w : BitVec 32) : QEl :=
  if pad then .pad else
  match un32 w with
  | .nan s => .special s
  | .inf _ => .special false
  | .fin n m e => .val n (unit149 false m e).toNat

/-- The magnitude of an element; padding and specials count 0. -/
def QEl.mag : QEl → Nat
  | .val _ x => x
  | _ => 0

/-- amax over the non-padding elements (02_numbers.md R45, R52). -/
def amaxOf (l : List QEl) : Nat := l.foldl (fun a e => max a e.mag) 0

/-- Whether a block has a NaN or an infinity (02_numbers.md R52). -/
def hasSpecial (l : List QEl) : Bool := l.any (fun e => match e with | .special _ => true | _ => false)

/-- Whether amax / scale exceeds L: 7.5 for FA4, 127 for IB8 (02_numbers.md R53). -/
def exceedsL (ib8 : Bool) (amax c : Nat) : Bool :=
  if ib8 then decide (127 * s10unit c < amax) else decide (15 * s10unit c < 2 * amax)

/-- The smallest code from c on, within n codes, for which amax does not exceed L (02_numbers.md R53). -/
def scaleFrom (ib8 : Bool) (amax : Nat) : Nat → Nat → Nat
  | 0, c => c
  | n + 1, c => if exceedsL ib8 amax c then scaleFrom ib8 amax n (c + 1) else c

/-- The automatic scale code of R53 (02_numbers.md): in 0x004 … 0x3FB. -/
def autoScale (ib8 : Bool) (amax : Nat) : Nat := scaleFrom ib8 amax 0x3F7 0x004

/-- A quantised block: header bits beside the scale, the codes, whether an overflow was noted, NX and UF. -/
structure QBlock where
  scale : Nat
  altm : Nat
  alts : Bool
  codes : List Nat
  overflow : Bool
  flags : Byte
  deriving DecidableEq, Repr

/-- The FA4 alt magnitude of a block (02_numbers.md R54). -/
def altMag (amax c : Nat) : Nat :=
  let am := min 15 (rneDiv (2 * amax) (s10unit c))
  if [0, 1, 2, 3, 4, 6, 8, 12].contains am then 0 else am

/-- The sign of the first element whose magnitude is amax (02_numbers.md R54). -/
def altSign (l : List QEl) (amax : Nat) : Bool :=
  match l.find? (fun e => match e with | .val _ x => decide (x = amax) | _ => false) with
  | some (.val n _) => n
  | _ => false

/-- One FA4 element rounded under a scale and an alt value (02_numbers.md R54): its code. -/
def fa4Code (altm : Nat) (alts : Bool) (s : Nat) (e : QEl) : Nat :=
  match e with
  | .val n x =>
    let c := gridCode (min (2 * x) (12 * s)) s
    if altm ≠ 0 ∧ n = alts ∧ dist (2 * x) (altm * s) < dist (2 * x) (fa4mag c * s) then 8
    else if c = 0 then 0 else (if n then 8 else 0) + c
  | _ => 0

/-- The magnitude a FA4 code reads back with, in half units (02_numbers.md R40). -/
def fa4Read (altm c : Nat) : Nat := if c % 16 = 8 then altm else fa4mag c

/-- One attempt of the FA4 quantiser at a scale code (02_numbers.md R54, R56). -/
def fa4Attempt (l : List QEl) (c : Nat) : QBlock :=
  let amax := amaxOf l
  let s := s10unit c
  let altm := altMag amax c
  let alts := if altm = 0 then false else altSign l amax
  let codes := l.map (fa4Code altm alts s)
  let nx := (l.zip codes).any (fun p => decide (fa4Read altm p.2 * s ≠ 2 * p.1.mag))
  let uf := (l.zip codes).any (fun p => decide (p.1.mag ≠ 0 ∧ fa4Read altm p.2 = 0))
  { scale := c, altm := altm, alts := alts, codes := codes, overflow := exceedsL false amax c,
    flags := flagIf nx fNX ||| flagIf uf fUF }

/-- One attempt of the IB8 quantiser at a scale code (02_numbers.md R55, R56). -/
def ib8Attempt (l : List QEl) (c : Nat) : QBlock :=
  let s := s10unit c
  let mags := l.map (fun e => rneDiv e.mag s)
  let codes := l.map (fun e =>
    let k := min 127 (rneDiv e.mag s)
    match e with
    | .val n _ => if k = 0 then 0 else (if n then 128 else 0) + k
    | _ => 0)
  let nx := (l.zip codes).any (fun p => decide ((p.2 % 128) * s ≠ p.1.mag))
  let uf := (l.zip codes).any (fun p => decide (p.1.mag ≠ 0 ∧ p.2 % 128 = 0))
  { scale := c, altm := 0, alts := false, codes := codes, overflow := mags.any (fun k => decide (127 < k)),
    flags := flagIf nx fNX ||| flagIf uf fUF }

/-- A block with every element zero and a given scale field. -/
def flatBlock (l : List QEl) (scale : Nat) (flags : Byte) : QBlock :=
  ⟨scale, 0, false, l.map (fun _ => 0), false, flags⟩

/-- Attempts under RESCALE with n retries left, or SAT (02_numbers.md R57): the written block. -/
def qAttempts (ib8 : Bool) (sat : Bool) (l : List QEl) : Nat → Nat → QBlock
  | 0, c =>
    let b := if ib8 then ib8Attempt l c else fa4Attempt l c
    { b with flags := b.flags ||| flagIf b.overflow fQX }
  | n + 1, c =>
    let b := if ib8 then ib8Attempt l c else fa4Attempt l c
    if b.overflow && !sat && decide (c ≠ 0x3FB) then qAttempts ib8 sat l n (c + 1)
    else { b with flags := b.flags ||| flagIf b.overflow fQX }

/-- quantise(): R52 first, then the scale of R53 or the explicit one of R57, then R54 to R57 (02_numbers.md;
06_vector.md R184).  qcfg: ISAT, QPOL, QRETRY, QAUTO of R50. -/
def quantise (ib8 : Bool) (qcfg : BitVec 5) (l : List QEl) (explicit : Nat) : QBlock :=
  if hasSpecial l then flatBlock l 0x3FF fNV
  else if amaxOf l = 0 then flatBlock l 0 0
  else if qcfg.getLsbD 4 then
    qAttempts ib8 (qcfg.getLsbD 1) l (qcfg.extractLsb' 2 2).toNat (autoScale ib8 (amaxOf l))
  else if explicit / 4 = 0 then flatBlock l 0 (fNX ||| fUF)
  else if explicit / 4 = 255 then flatBlock l 0x3FF fNV
  else qAttempts ib8 (qcfg.getLsbD 1) l (qcfg.extractLsb' 2 2).toNat explicit

/-- The bytes of a FA4 block (02_numbers.md R39). -/
def fa4Bytes (b : QBlock) : List Byte :=
  leBytes 2 (b.altm * 2 ^ 11 + (if b.alts then 2 ^ 10 else 0) + b.scale)
    ++ (List.range 16).map (fun i => BitVec.ofNat 8 (b.codes.getD (2 * i) 0 + 16 * b.codes.getD (2 * i + 1) 0))

/-- The bytes of an IB8 block (02_numbers.md R41). -/
def ib8Bytes (b : QBlock) : List Byte :=
  leBytes 2 b.scale ++ (List.range 32).map (fun i => BitVec.ofNat 8 (b.codes.getD i 0))

/-- Element e of a FA4 block as sign and magnitude in half units (02_numbers.md R39, R40). -/
def fa4El (blk : List Byte) (e : Nat) : Bool × Nat :=
  let h := leAt blk 0 2
  let b := (blk.getD (2 + e / 2) 0).toNat
  let c := if e % 2 = 0 then b % 16 else b / 16
  if c = 8 then (decide (h / 2 ^ 10 % 2 = 1), h / 2 ^ 11 % 16) else (decide (8 ≤ c), fa4mag c)

/-- Element e of an IB8 block as sign and magnitude (02_numbers.md R41). -/
def ib8El (blk : List Byte) (e : Nat) : Bool × Nat :=
  let b := (blk.getD (2 + e) 0).toNat
  (decide (128 ≤ b), b % 128)

/-- A dequantised element in a format (02_numbers.md R58): a zero block gives +0, a NaN block the canonical NaN without a
flag, a zero element +0, a product beyond the range an infinity with OF. -/
def dequant (f : Fmt) (rm : RM) (ib8 : Bool) (blk : List Byte) (e : Nat) : Nat × Byte :=
  let c := leAt blk 0 2 % 1024
  let x := if ib8 then ib8El blk e else fa4El blk e
  if c / 4 = 255 then (f.nan, 0)
  else if c / 4 = 0 ∨ x.2 = 0 then (0, 0)
  else
    let r := f.round rm x.1 (x.2 * s10unit c) (if ib8 then -149 else -150) false
    if r.2 &&& fOF = 0 then r else (f.infinity x.1, fOF)

/-! ### Wide accumulators (02_numbers.md R46 to R48; 06_vector.md R187, R188) -/

/-- An integer added to a lane, saturating (02_numbers.md R47). -/
def WLane.add (l : WLane) (d : Int) : WLane × Byte :=
  if l.satf then (l, 0)
  else
    let y := l.x.toInt + d
    if y < -(2 ^ 319) then ({ l with x := BitVec.ofInt 320 (-(2 ^ 319)), satf := true }, fOF)
    else if 2 ^ 319 - 1 < y then ({ l with x := BitVec.ofInt 320 (2 ^ 319 - 1), satf := true }, fOF)
    else ({ l with x := BitVec.ofInt 320 y }, 0)

/-- A FP32 value added to a lane, or subtracted (06_vector.md R187). -/
def WLane.addFp (l : WLane) (sub : Bool) (w : BitVec 32) : WLane × Byte :=
  match un32 w with
  | .nan s => ({ l with nanf := true }, flagIf s fNV)
  | .inf n => if (n != sub) then ({ l with ninf := true }, 0) else ({ l with pinf := true }, 0)
  | .fin n m e => l.add (unit149 (n != sub) m e)

/-- A lane read in a format (02_numbers.md R48). -/
def WLane.read (l : WLane) (f : Fmt) (rm : RM) : Nat × Byte :=
  if l.nanf || (l.pinf && l.ninf) then (f.nan, fNV)
  else if l.pinf then (f.infinity false, 0)
  else if l.ninf then (f.infinity true, 0)
  else if l.satf then (f.infinity (decide (l.x.toInt < 0)), fOF)
  else if l.x.toInt = 0 then (0, 0)
  else f.roundInt rm l.x.toInt (-149)

end Sys2Proof.Machine
end

