-- ==== Sys2Proof/Machine/Issue.lean ====
section
/-! DEFINITION. Bundle issue: what holds a bundle, what traps it and in which rank, and what it does
(03_encoding.md R76 to R90; 04_scalar_control.md R111 to R130; 10_phase_sync.md R283 to R295). -/

namespace Sys2Proof.Machine

/-- A move of a bundle other than the no-op: its slot, its word and what it decodes to in that slot. -/
structure BMove where
  slot : Nat
  word : BitVec 24
  instr : Option Instr
  deriving DecidableEq, Repr

/-- Where a move goes. -/
inductive Dest where
  | reg (r : RegId)
  | bind (i : Nat)
  | oport (e : Eng) (p : OPort)
  | trig (e : Eng) (port : Nat)
  | none
  deriving DecidableEq, Repr

/-- The register of an SREG destination (03_encoding.md R70). -/
def destOfSDest : SDest → Dest
  | .s i => .reg (.s i)
  | .o i => .reg (.o i)
  | .a i => .reg (.a i)
  | .g i => .reg (.g i)
  | .bind i => .bind i.val

/-- The register of a VREG destination. -/
def regOfVDest : VDest → RegId
  | .v i => .v i
  | .vm i => .vm i

/-- The destination of an instruction (03_encoding.md R66 to R71). -/
def destOf (i : Instr) : Dest :=
  match i with
  | .moveSreg _ d _ => destOfSDest d
  | .moveVreg _ d _ | .moveVregSlot7 d _ => .reg (regOfVDest d)
  | .moveOperandPort slot p _ => .oport (slotEng slot.val) p
  | .moveColOperand _ p _ => .oport .col p
  | .moveXport _ e p _ => .oport e p
  | _ =>
    match i.fields with
    | some (slot, unit, port, _) => .trig (if unit = 2 then .col else slotEng slot) port.toNat
    | none => .none

/-- The result port a trigger fills (04_scalar_control.md R106; 05_local_memory.md R142; 06_vector.md R167;
08_stream_ops.md R219; 09_copy_collective.md R242); the CTL triggers write ctl.r themselves. -/
def resPort (e : Eng) (p : Nat) : Option RPort :=
  match e with
  | .ctl => none
  | .sca => some .scaR
  | .mem =>
    if p ≤ 0x0E then some .memR
    else if 0x20 ≤ p ∧ p ≤ 0x3A then some .memR
    else if 0x18 ≤ p ∧ p ≤ 0x1A then some .memVr
    else none
  | .vec0 => vecPort p .vec0R .vec0M .vec0S
  | .vec1 => vecPort p .vec1R .vec1M .vec1S
  | .str => if p = 0x0C ∨ p = 0x1D ∨ p = 0x2B then some .strR else if p = 0x19 ∨ p = 0x1A then some .strVr else none
  | .cpy0 => if p = 0x08 then none else some .cpy0R
  | .cpy1 => if p = 0x08 then none else some .cpy1R
  | .col => if p = 0x08 then none else some .colR
where
  /-- The port of a VEC trigger (06_vector.md R167). -/
  vecPort (p : Nat) (r m sc : RPort) : Option RPort :=
    if 0x1B ≤ p ∧ p ≤ 0x20 then some m
    else if (0x58 ≤ p ∧ p ≤ 0x5B) ∨ p = 0x64 then some sc
    else if p = 0x50 ∨ p = 0x51 ∨ p = 0x53 ∨ p = 0x54 then none
    else some r

/-- Whether a trigger's own source may be a vector (05_local_memory.md R140; 06_vector.md R166; 08_stream_ops.md R216). -/
def trigTakesVector (e : Eng) (p : Nat) : Bool :=
  match e with
  | .vec0 | .vec1 => true
  | .mem => decide (0x1A ≤ p ∧ p ≤ 0x1E ∨ p = 0x41)
  | .str => decide (p = 0x0A ∨ p = 0x0B ∨ p = 0x12)
  | _ => false

/-- The engine whose queue a move enters, CTL excluded. -/
def queueOf (d : Dest) : Option Eng :=
  match d with
  | .oport .ctl _ | .trig .ctl _ => none
  | .oport e _ | .trig e _ => some e
  | _ => none

/-- The destination of a move of a bundle; of a word with a reserved source, the one its destination field names, none
where that is reserved (03_encoding.md R66 to R71, R86). -/
def BMove.dest (b : BMove) : Dest :=
  match b.instr with
  | some i => destOf i
  | none =>
    match decodeMove (Fin.ofNat 8 b.slot) (b.word.extractLsb' 11 13 ++ srcBits 3 false 0) with
    | some i => destOf i
    | none => .none

/-- The source of a move of a bundle, also of a word with a reserved destination (03_encoding.md R72, R82). -/
def BMove.src (b : BMove) : Option Src :=
  match b.instr with
  | some i => i.fields.map (fun f => f.2.2.2.src)
  | none => decodeSrc (b.word.extractLsb' 0 11)

/-- The guard field of a move (03_encoding.md R65). -/
def BMove.guard (b : BMove) : Nat := (b.word.extractLsb' 21 3).toNat

/-- A guard register's cell; guard 0 always holds 1 (03_encoding.md R65; 04_scalar_control.md R116). -/
def Core.guardCell (c : Core) (g : Nat) : Cell Bool := if g = 0 then .full true else c.ctx.g.get (.full false) (g - 1)

/-- Whether a move is performed: its guard reads 1 (03_encoding.md R76). -/
def Core.performs (c : Core) (b : BMove) : Bool :=
  match c.guardCell b.guard with
  | .full x => x
  | .empty => false

/-- The bundle at the pc: the moves other than the no-op, by slot (03_encoding.md R62, R63). -/
def Core.fetch (c : Core) : List BMove :=
  ((bundleWords (c.code.readN (24 * c.pc) 24)).zipIdx.filter (fun p => p.1 ≠ 0)).map
    (fun p => ⟨p.2, p.1, decodeMove (Fin.ofNat 8 p.2) p.1⟩)

/-- The one-move bundle of an instruction. -/
def oneMove (i : Instr) : List BMove :=
  match encode i with
  | some (slot, w) => [⟨slot, w, some i⟩]
  | none => []

/-- The CTL trigger among the performed moves, with its bound source (04_scalar_control.md R111). -/
def Core.ctlTrig (c : Core) (ms : List BMove) : Option (Instr × EVal) :=
  match ms.find? (fun b => c.performs b && (match b.dest with | .trig .ctl _ => true | _ => false)) with
  | some b =>
    match b.instr, b.src with
    | some i, some x => some (i, c.bindSrc b.slot x)
    | _, _ => none
  | none => none

/-- A scalar at hand, or 0 while it is pending. -/
def EVal.scalar : EVal → Word
  | .ready v => v.toScalar
  | .wait _ => 0

/-- Whether a value is still pending. -/
def EVal.pending : EVal → Bool
  | .ready _ => false
  | .wait _ => true

/-- An operand port of CTL as the bundle's own trigger sees it: the bundle's writes come first (04_scalar_control.md
R111). -/
def Core.ctlOperand (c : Core) (ms : List BMove) (p : OPort) : EVal :=
  match ms.find? (fun b => c.performs b && decide (b.dest = .oport .ctl p)) with
  | some b => match b.src with | some x => c.bindSrc b.slot x | none => .ready (.s 0)
  | none => .ready (if p = .o2 then (c.op .ctl).o2 else (c.op .ctl).o)

/-- The bundle's own move to an operand port. -/
def Core.ownOperand (c : Core) (ms : List BMove) (e : Eng) (p : OPort) : Option (BMove × Src) :=
  (ms.find? (fun b => c.performs b && decide (b.dest = .oport e p))).bind (fun b => b.src.map (fun x => (b, x)))

/-- The o value of a go in issue order: the bundle's own move, else the latest move to o in the engine's queue, else what the
port holds (03_encoding.md R69; 09_copy_collective.md R243). -/
def Core.goOperand (c : Core) (ms : List BMove) (e : Eng) : EVal :=
  match c.ownOperand ms e .o with
  | some (b, x) => c.bindSrc b.slot x
  | none =>
    match (c.q e).reverse.find? (fun en => decide (en.trig = none ∧ en.port = .o)) with
    | some en => en.val
    | none => .ready (c.op e).o

/-- A landing slot is readable: its data has landed and SSC has reached its ARR (10_phase_sync.md R286). -/
def Core.slotReadable (c : Core) (n : Fin 64) : Bool :=
  match c.lnd.get none n.val with
  | some d => decide (d.arr ≤ c.ssc.toNat)
  | none => false

/-- The scalar that a source gives at issue; none while it is not at hand: an empty register or port, a landing slot that is
not readable, or any landing slot in a compute superstep (03_encoding.md R74, R79; 10_phase_sync.md R286). -/
def Core.atHand (c : Core) (exch : Bool) (slot : Nat) (x : Src) : Option Word :=
  match srcLanding x with
  | some n => if exch && c.slotReadable n then some (c.bindSrc slot x).scalar else none
  | none =>
    match c.bindSrc slot x with
    | .ready v => some v.toScalar
    | .wait _ => none

/-- ctl.o as the checks of a bundle see it; none while the bundle's own move to it has no value at hand. -/
def Core.ctlAtHand (c : Core) (exch : Bool) (ms : List BMove) : Option Word :=
  match c.ownOperand ms .ctl .o with
  | some (b, x) => c.atHand exch b.slot x
  | none => some (c.op .ctl).o.toScalar

/-- The token number of a go as its checks see it; none while it is not at hand (09_copy_collective.md R243). -/
def Core.goAtHand (c : Core) (exch : Bool) (ms : List BMove) (e : Eng) : Option Word :=
  match c.ownOperand ms e .o with
  | some (b, x) => c.atHand exch b.slot x
  | none =>
    match c.goOperand ms e with
    | .ready v => some v.toScalar
    | .wait _ => none

/-- Whether the bundle's own move to a go's o port traps on its empty source instead of waiting (03_encoding.md R79). -/
def Core.goTraps (c : Core) (ms : List BMove) (e : Eng) : Bool :=
  match c.ownOperand ms e .o with
  | some (_, x) => c.srcEmpty x && srcTrapsEmpty x
  | none => false

/-- The go triggers of a bundle that are performed: their engines in slot order (09_copy_collective.md R242). -/
def Core.goes (c : Core) (ms : List BMove) : List Eng :=
  ms.filterMap (fun b => if c.performs b then
    (match b.dest with
     | .trig .cpy0 8 => some .cpy0
     | .trig .cpy1 8 => some .cpy1
     | .trig .col 8 => some .col
     | _ => none) else none)

/-! ### What holds a bundle (03_encoding.md R82) -/

/-- The registers of the main scalar file or of the vector file that a source reads (03_encoding.md R82). -/
def mainRead (x : Src) : Option (Bool × Nat) :=
  match x with
  | .reg (.s i) _ => if i.val = 0 then none else some (false, i.val)
  | .reg (.a i) _ => some (false, 80 + i.val)
  | .reg (.g i) _ => some (false, 88 + i.val)
  | .bind i _ => some (false, 96 + i.val)
  | .reg (.v i) _ => some (true, i.val)
  | .reg (.vm i) _ => some (true, 32 + i.val)
  | _ => none

/-- At most four distinct registers of each file are read; squashed moves count (03_encoding.md R76, R82). -/
def readsTooMany (ms : List BMove) : Bool :=
  let l := (ms.filterMap (fun b => b.src.bind mainRead)).eraseDups
  decide (4 < (l.filter (·.1)).length) || decide (4 < (l.filter (fun p => !p.1)).length)

/-- The address register a slot-4 move reads (04_scalar_control.md R121). -/
def slot4Areg (ms : List BMove) : Option (Fin 8) :=
  match ms.find? (fun b => b.slot = 4) with
  | some b => match b.src with | some (.reg (.a i) _) => some i | _ => none
  | none => none

/-- The engine the repetitions of a slot-4 move enter (04_scalar_control.md R122). -/
def repEng (i : Instr) : Eng :=
  match destOf i with
  | .oport e _ | .trig e _ => e
  | _ => .str

/-- Whether a bundle reads or writes an address register in any slot (04_scalar_control.md R123). -/
def touchesAreg (ms : List BMove) (i : Fin 8) : Bool :=
  ms.any (fun b => decide (b.dest = .reg (.a i)) ||
    (match b.src with | some (.reg (.a j) _) => decide (j = i) | _ => false))

/-- Whether the running repeat holds a bundle (04_scalar_control.md R123, log entry 19). -/
def Core.repHolds (c : Core) (ms : List BMove) : Bool :=
  match c.rep with
  | none => false
  | some r =>
    let e := repEng r.instr
    let ai := match r.instr.fields with
      | some (_, _, _, m) => (match m.src with | .reg (.a i) _ => some i | _ => none)
      | none => none
    ms.any (fun b => decide (b.slot = 4) || decide (queueOf b.dest = some e))
      || (match ai with | some i => touchesAreg ms i | none => false)
      || ms.any (fun b => match b.dest with
          | .trig .ctl p => p = 0x0D || p = 0x0E || p = 0x17 || p = 0x10 || p = 0x20
          | _ => false)

/-- Room in every queue for its performed moves (03_encoding.md R82, R83). -/
def Core.hasRoom (c : Core) (ms : List BMove) : Bool :=
  [Eng.sca, .vec0, .vec1, .str, .mem, .cpy0, .cpy1, .col].all (fun e =>
    decide ((c.q e).length + (ms.filter (fun b => c.performs b && decide (queueOf b.dest = some e))).length ≤ depthOf e))

/-- The registers a performed move writes, s0 excepted (03_encoding.md R81). -/
def BMove.writes (b : BMove) : Option RegId :=
  match b.dest with
  | .reg (.s i) => if i.val = 0 then none else some (.s i)
  | .reg r => some r
  | _ => none

/-- The guards a guard trigger reads and writes: an empty one holds it (04_scalar_control.md R116, R117). -/
def guardTrigEmpty (c : Core) (i : Instr) (b : Word) : Bool :=
  let e (g : Nat) : Bool := match c.guardCell g with | .empty => true | .full _ => false
  let d := (b.extractLsb' 0 3).toNat
  let x := (b.extractLsb' 3 3).toNat
  let y := (b.extractLsb' 6 3).toNat
  match i with
  | .ctlGset _ => e d
  | .ctlGnot _ => e d || e x
  | .ctlGand _ | .ctlGor _ => e d || e x || e y
  | _ => false

/-- Whether a token register is empty for another reason than being the token of an incomplete job
(09_copy_collective.md R243). -/
def Core.tokenWaits (c : Core) (t : Word) : Bool :=
  if t.extractLsb' 6 58 = 0 ∧ t ≠ 0 then
    let r : Fin 64 := Fin.ofNat 64 t.toNat
    c.ctx.isEmpty (.s r) && !c.jobs.any (fun j => decide (j.tok = r))
  else false

/-- Some condition of R82 holds the bundle (03_encoding.md R76, R79 to R82; 04_scalar_control.md R117, R122, R123;
09_copy_collective.md R243). -/
def stalls (c : Core) (ms : List BMove) : Bool :=
  let perf := ms.filter (fun b => c.performs b)
  let emptyE0 (b : BMove) : Bool := match b.src with | some x => c.srcEmpty x && !srcTrapsEmpty x | none => false
  ms.any (fun b => match c.guardCell b.guard with | .empty => true | .full _ => false)
    || !c.hasRoom ms
    || readsTooMany ms
    || perf.any (fun b => emptyE0 b && (match b.dest with | .oport .ctl _ | .trig .ctl _ => true | _ => false))
    || decide (16 < c.pends.length + (perf.filter (fun b => emptyE0 b && b.writes.isSome)).length)
    || perf.any (fun b => match b.writes with | some r => c.ctx.isEmpty r | none => false)
    || (match c.ctlTrig ms with | some (i, b) => guardTrigEmpty c i b.scalar | none => false)
    || c.repHolds ms
    || (c.repNext.isSome && ms.any (fun b => decide (b.slot = 4) && c.performs b
          && (match b.src.bind srcReg with | some r => c.ctx.isEmpty r | none => false)))
    || (c.goes ms).any (fun e => !c.goTraps ms e && ((c.goOperand ms e).pending || c.tokenWaits (c.goOperand ms e).scalar))

/-! ### What traps a bundle (03_encoding.md R86) -/

/-- The ranks of R86 (03_encoding.md). Of the three causes of rank 8, PHASE_EXCHANGE comes before HALT_IN_EXCHANGE where a
bundle holds both a STR trigger and ctl.halt: R86 gives them no order (log entry 62). -/
def rankOrder : List Byte :=
  [Cause.ECC_IMEM, Cause.ILLEGAL_ENCODING, Cause.PRIVILEGE, Cause.BREAK, Cause.ILLEGAL_OPERAND, Cause.LOOP_NEST,
    Cause.STACK, Cause.TOKEN_REUSE, Cause.PHASE_COMPUTE, Cause.PHASE_EXCHANGE, Cause.HALT_IN_EXCHANGE,
    Cause.BARRIER_MISMATCH, Cause.ECC_REGFILE, Cause.EMPTY_TRAP]

/-- The access of a control register (04_scalar_control.md R131): none is not listed, true may be written. -/
def csrAccess (num : Nat) : Option Bool :=
  if [0x018, 0x019, 0x01A, 0x01B].contains num then some true
  else if [0x000, 0x001, 0x002, 0x003, 0x004, 0x008, 0x009, 0x00A, 0x00B, 0x010, 0x011, 0x020, 0x021, 0x022,
      0x030].contains num then some false
  else none

/-- A barrier word's fields ID and SCOPE (10_phase_sync.md R288). -/
def barId (b : Word) : Nat := (b.extractLsb' 0 6).toNat
/-- SCOPE of a barrier word (10_phase_sync.md R288). -/
def barScope (b : Word) : Nat := (b.extractLsb' 6 3).toNat

/-- The scopes that name a barrier (10_phase_sync.md R288). -/
def scopeOk (b : Word) : Bool := decide (1 ≤ barScope b ∧ barScope b ≤ 4)

/-- The checks of a CTL trigger: the first of its causes in the rank of R86 (04_scalar_control.md R114 to R130;
10_phase_sync.md R275, R288 to R295). A check on a value that is not at hand is not made: the bundle traps EMPTY_TRAP or
PHASE_COMPUTE by its source, or freezes and is checked when the value is there (03_encoding.md R74, R79; log entry 60). -/
def ctlCheck (c : Core) (exch hasMem : Bool) (i : Instr) (b o : Option Word) : Option Byte :=
  let bad (p : Bool) (k : Byte) (r : Option Byte) : Option Byte := if p then some k else r
  let onB (f : Word → Bool) : Bool := b.any f
  let onO (f : Word → Bool) : Bool := o.any f
  match i with
  | .ctlJmp _ => bad (onB fun b => b.extractLsb' 14 50 ≠ 0) Cause.ILLEGAL_OPERAND none
  | .ctlJrel _ =>
    bad (onB fun b => decide ((c.pc : Int) + b.toInt < 0 ∨ 16383 < (c.pc : Int) + b.toInt)) Cause.ILLEGAL_OPERAND none
  | .ctlCall _ =>
    bad (onB fun b => b.extractLsb' 14 50 ≠ 0) Cause.ILLEGAL_OPERAND (bad (decide (16 ≤ c.ctx.links.length)) Cause.STACK none)
  | .ctlRet _ => bad c.ctx.links.isEmpty Cause.STACK none
  | .ctlLoop _ =>
    let depth := c.ctx.loops.length
    bad ((onO fun o => decide (o.toNat < 1 ∨ 64 < o.toNat)) || onB fun b => decide (b = 0 ∨ b.extractLsb' 32 32 ≠ 0))
        Cause.ILLEGAL_OPERAND
      (bad (decide (depth = 1) && c.ctx.loops.any (fun f => onO fun o => decide (f.lend < c.pc + o.toNat))) Cause.ILLEGAL_OPERAND
        (bad (decide (2 ≤ depth)) Cause.LOOP_NEST none))
  | .ctlRep _ => bad ((onB fun b => decide (b.toNat < 1 ∨ 65536 < b.toNat)) || c.repNext.isSome) Cause.ILLEGAL_OPERAND none
  | .ctlHalt _ => bad exch Cause.HALT_IN_EXCHANGE none
  | .ctlTrap _ | .ctlTfence _ | .ctlDrain _ | .ctlWaitt _ => none
  | .ctlCsrr _ => bad (onB fun b => (csrAccess b.toNat).isNone) Cause.ILLEGAL_OPERAND none
  | .ctlCsrw _ =>
    bad (onO fun o => csrAccess o.toNat = some false) Cause.PRIVILEGE
      (bad (onO fun o => (csrAccess o.toNat).isNone) Cause.ILLEGAL_OPERAND none)
  | .ctlGset _ | .ctlGnot _ | .ctlGand _ | .ctlGor _ => bad (onB fun b => b.extractLsb' 0 3 = 0) Cause.ILLEGAL_OPERAND none
  | .ctlEndph _ => bad (onB fun b => decide (1 < b.toNat)) Cause.ILLEGAL_OPERAND none
  | .ctlTime _ => bad (onB fun b => decide (1 < b.toNat)) Cause.ILLEGAL_OPERAND none
  | .ctlBar _ | .ctlArrive _ =>
    bad ((onB fun b => !scopeOk b) || hasMem) Cause.ILLEGAL_OPERAND
      (bad (!exch) Cause.PHASE_COMPUTE
        (bad (c.arrivals.any (fun a => (onB fun b => decide (a.id = barId b)) && !a.done)) Cause.BARRIER_MISMATCH none))
  | .ctlBwait _ =>
    bad ((onB fun b => !scopeOk b) || hasMem) Cause.ILLEGAL_OPERAND (bad (!exch) Cause.PHASE_COMPUTE (noArrival b))
  | .ctlBwaitt _ =>
    bad ((onB fun b => !scopeOk b) || hasMem || onO fun o => decide (o.extractLsb' 32 32 ≠ 0)) Cause.ILLEGAL_OPERAND
      (bad (!exch) Cause.PHASE_COMPUTE (noArrival b))
  | _ => none
where
  /-- A wait at a barrier word the core has no arrival for (10_phase_sync.md R291). -/
  noArrival (b : Option Word) : Option Byte :=
    if b.any (fun b => !c.arrivals.any (fun a => decide (a.id = barId b ∧ a.scope = barScope b))) then
      some Cause.BARRIER_MISMATCH else none

/-- The range of a STR configuration value (08_stream_ops.md R229, R239); slen under the given SPREC. -/
def strRange (sprec : BitVec 3) (i : Instr) (b : Word) : Bool :=
  match i with
  | .strBank _ => decide (b.toNat < 8)
  | .strSlen _ => decide (1 ≤ b.toNat ∧ b.toNat ≤ 4 ^ sprec.toNat)
  | .strSprec _ => decide (1 ≤ b.toNat ∧ b.toNat ≤ 4)
  | .strSeeda _ | .strSeedb _ | .strSthr _ => decide (b.toNat < 16)
  | .strSmode _ => decide (b.toNat < 2)
  | .strRefexp _ => decide (-512 ≤ b.toInt ∧ b.toInt ≤ 511)
  | .strDigit _ => decide (b.toNat < 4)
  | .strCkint _ => decide (b.toNat ≤ 256)
  | .strMgn _ => decide (b.toNat < 2 ^ 17)
  | .strCpair _ => decide (b.toNat < 2 ^ 28)
  | _ => true

/-- A STR value that is full at issue is checked there when the check depends on it alone; slen waits for the queue head
while an earlier SPREC write is in the queue (08_stream_ops.md R218, R239). -/
def strIssueCheck (c : Core) (i : Instr) (b : Option Word) : Bool :=
  let sprecQueued := (c.q .str).any (fun e => match e.trig with | some (.strSprec _) => true | _ => false)
  match b with
  | none => false
  | some v =>
    match i with
    | .strSlen _ => !sprecQueued && !strRange c.ctx.str.sprec i v
    | _ => !strRange c.ctx.str.sprec i v

/-- Whether two destinations are the same register or port (03_encoding.md R85). -/
def sameDest (a b : Dest) : Bool :=
  match a, b with
  | .none, _ => false
  | .reg (.s i), _ => i.val ≠ 0 && decide (a = b)
  | _, _ => decide (a = b)

/-- Whether a move conflicts with another move of the bundle (03_encoding.md R85; 04_scalar_control.md R121). -/
def conflicts (ms : List BMove) (b : BMove) : Bool :=
  ms.any (fun x => decide (x.slot ≠ b.slot) && sameDest x.dest b.dest)
    || (match slot4Areg ms with
        | some i =>
          (decide (b.slot = 4) && ms.any (fun x => decide (x.dest = .reg (.a i)))) || decide (b.dest = .reg (.a i))
        | none => false)

/-- Whether a move's relocation-register destination makes it privileged (03_encoding.md R70, log entry 20). -/
def isBindMove (b : BMove) : Bool :=
  match b.dest with
  | .bind _ => true
  | _ => false

/-- A vector source at a destination that accepts only scalars (03_encoding.md R75). -/
def vectorMisplaced (b : BMove) : Bool :=
  match b.src with
  | none => false
  | some x =>
    srcIsVector x && (match b.dest with
      | .reg (.v _) | .reg (.vm _) | .none => false
      | .reg _ | .bind _ => true
      | .oport e p => !portTakesVector e p
      | .trig e p => !trigTakesVector e p)

/-- The token checks of a go that give ILLEGAL_OPERAND, made once its number is at hand (09_copy_collective.md R243). -/
def goIllegal (c : Core) (exch : Bool) (ms : List BMove) (e : Eng) : Bool :=
  (c.goAtHand exch ms e).any (fun t =>
    decide (t.extractLsb' 6 58 ≠ 0 ∨ t = 0)
      || (ms.filter (fun b => c.performs b)).any (fun b => decide (b.dest = .reg (.s (Fin.ofNat 64 t.toNat))))
      || (c.goes ms).any (fun e' => decide (e' ≠ e ∧ c.goAtHand exch ms e' = some t)))

/-- A register that a move reads at issue holds an uncorrectable error, or its bus a parity error: its guard also where it is
squashed; of a performed move its source, and the guards that a guard trigger reads (12_traps.md R333). -/
def readsBad (c : Core) (b : BMove) : Bool :=
  let guardBad (g : Nat) : Bool := decide (g ≠ 0) && c.bad.regs.contains (.g (Fin.ofNat 7 (g - 1)))
  guardBad b.guard || (c.performs b &&
    (c.bad.bus.contains b.slot
      || (match b.src with
          | some (.reg r _) => c.bad.regs.contains r
          | some (.bind i _) => c.bad.binds.contains i.val
          | _ => false)
      || (match b.instr, b.src with
          | some (.ctlGnot _), some x => (c.atHand true b.slot x).any (fun w => guardBad (w.extractLsb' 3 3).toNat)
          | some (.ctlGand _), some x | some (.ctlGor _), some x =>
            (c.atHand true b.slot x).any (fun w => guardBad (w.extractLsb' 3 3).toNat || guardBad (w.extractLsb' 6 3).toNat)
          | _, _ => false)))

/-- The causes a move raises at issue (03_encoding.md R66 to R75, R85; 05_local_memory.md R152; 10_phase_sync.md R283;
09_copy_collective.md R243; 12_traps.md R333). -/
def moveCauses (c : Core) (exch : Bool) (ms : List BMove) (b : BMove) : List Byte :=
  let perf := c.performs b
  let hasMem := ms.any (fun x => c.performs x && (match x.dest with | .trig .mem _ => true | _ => false))
  let when' (p : Bool) (k : Byte) : List Byte := if p then [k] else []
  when' (b.instr.isNone || conflicts ms b) Cause.ILLEGAL_ENCODING
    ++ when' (isBindMove b) Cause.PRIVILEGE
    ++ when' (readsBad c b) Cause.ECC_REGFILE
    ++ (if perf then
      when' (vectorMisplaced b) Cause.ILLEGAL_OPERAND
        ++ (match b.instr, b.src with
            | some i, some x =>
              (match b.dest with
               | .trig .ctl _ =>
                 (match ctlCheck c exch hasMem i (c.atHand exch b.slot x) (c.ctlAtHand exch ms) with
                  | some k => [k]
                  | none => [])
               | .trig .str _ =>
                 when' (strIssueCheck c i (c.atHand exch b.slot x)) Cause.ILLEGAL_OPERAND ++ when' exch Cause.PHASE_EXCHANGE
               | .trig .mem p => when' (!exch && decide (p = 0x41 ∨ p = 0x42)) Cause.PHASE_COMPUTE
               | .trig e 8 =>
                 if (c.goes ms).contains e then
                   when' (goIllegal c exch ms e) Cause.ILLEGAL_OPERAND
                     ++ when' (c.jobs.any (fun j => (c.goAtHand exch ms e).any (fun t => j.tok = Fin.ofNat 64 t.toNat)))
                          Cause.TOKEN_REUSE
                 else []
               | .oport .ctl _ => when' (c.repNext.isSome && decide (b.slot = 4)) Cause.ILLEGAL_OPERAND
               | _ => [])
                ++ when' (!exch && (srcLanding x).isSome) Cause.PHASE_COMPUTE
                ++ when' (c.srcEmpty x && srcTrapsEmpty x) Cause.EMPTY_TRAP
            | _, _ => [])
      else [])

/-- The first cause in rank, and the lowest slot that raises it (03_encoding.md R86). -/
def firstCause (c : Core) (exch : Bool) (ms : List BMove) : Option (Byte × Option Nat) :=
  rankOrder.findSome? (fun k =>
    if k = Cause.ECC_IMEM then (if c.bad.imem.contains c.pc then some (k, none) else none)
    else if k = Cause.BREAK then (if c.breakpt = some c.pc ∧ c.resumeBreak = false then some (k, none) else none)
    else if k = Cause.ILLEGAL_ENCODING ∧ c.nbundle ≤ c.pc then some (k, none)
    else (ms.find? (fun b => (moveCauses c exch ms b).contains k)).map (fun b => (k, some b.slot)))

/-- The deferred fault of a token that the bundle reads, still in its register, with E = 1 (09_copy_collective.md R248). -/
def asyncRead (c : Core) (ms : List BMove) : Option Deferred :=
  c.deferred.find? (fun d => !d.send && d.live && ms.any (fun b => c.performs b && (match b.src with
    | some (.reg (.s i) true) => decide (i.val = d.tok)
    | _ => false)))

/-- A deferred fault raised at the bundle at the pc (09_copy_collective.md R248; 10_phase_sync.md R287). -/
def Core.raiseDeferred (c : Core) (d : Deferred) : Core :=
  { c with deferred := c.deferred.filter (fun x => decide (x ≠ d)) }.takeTrap
    { Trap.plain d.cause 3 c.pc c.pc with
      slotEng := if d.send then slotEngByte (some .mem) (some 7) else 0xF0,
      faddr := d.faddr, tok := d.tok, part := d.part, nfault := d.nfault, src := some d }

/-! ### What a bundle waits for after its checks -/

/-- Every engine queue is empty (04_scalar_control.md R125). -/
def Core.queuesEmpty (c : Core) : Bool := c.qs.all (fun p => p.2.isEmpty) && c.rep.isNone

/-- Every issued SCA, VEC, STR and MEM trigger has completed (04_scalar_control.md R125, R128). -/
def Core.triggersDone (c : Core) : Bool :=
  c.flights.isEmpty && c.ldq.isEmpty && c.stq.isEmpty && c.lda.isEmpty && c.sta.isEmpty

/-- The first three conditions of R125: queues, triggers and transfers (04_scalar_control.md R125; 10_phase_sync.md
R276). -/
def Core.quiesced (c : Core) : Bool := c.queuesEmpty && c.triggersDone && c.pends.isEmpty

/-- The four conditions of R125 (04_scalar_control.md). -/
def Core.drained (c : Core) : Bool := c.quiesced && c.jobs.isEmpty

/-- Every landing slot the bundle reads is readable (10_phase_sync.md R286). -/
def slotsReady (c : Core) (ms : List BMove) : Bool :=
  ms.all (fun b => !c.performs b || (match b.src.bind srcLanding with | some n => c.slotReadable n | none => true))

/-- The episode of the core's latest arrival at an id has completed (10_phase_sync.md R289). -/
def Core.barDone (c : Core) (b : Word) : Bool :=
  c.arrivals.any (fun a => decide (a.id = barId b) && a.done)

/-! ### Control registers and the CTL triggers -/

/-- A control register read (04_scalar_control.md R130 to R133; 10_phase_sync.md R273, R274, R292, R293). -/
def csrRead (s : State) (n : Nat) (num : Nat) : Word :=
  let c := s.core n
  let r := s.runOf c.part
  let ofRun (f : Run → Nat) : Word := match r with | some x => BitVec.ofNat 64 (f x) | none => 0
  match num with
  | 0x000 => BitVec.ofNat 64 (s.coreId n)
  | 0x001 => c.standId
  | 0x002 => BitVec.ofNat 64 c.ncores
  | 0x003 => BitVec.ofNat 64 c.lrank
  | 0x004 => if c.det then 1 else 0
  | 0x008 => ofRun (·.phc)
  | 0x009 => ofRun (fun x => (if x.exch then 1 else 0) + (if c.disc then 2 else 0) + 4 * (x.phc % 2))
  | 0x00A => ofRun (·.adm.cap)
  | 0x00B => ofRun (·.adm.lim)
  | 0x010 => s.dtcOf n
  | 0x011 => s.sys.dtskew
  | 0x018 => c.ctx.afl.setWidth 64
  | 0x019 => c.ctx.afm.setWidth 64
  | 0x01A => c.ctx.qcfg.setWidth 64
  | 0x01B => c.ctx.rmode.setWidth 64
  | 0x020 => ofRun (·.adm.remC)
  | 0x021 => ofRun (·.adm.remB)
  | 0x022 => ofRun (·.adm.remX)
  | 0x030 => c.slmap.setWidth 64
  | _ => 0

/-- A control register written; reserved bits are ignored, and a flag raised in the same cc stays set (02_numbers.md R60;
04_scalar_control.md R130, R131). -/
def csrWrite (c : Core) (num : Nat) (v : Word) : Core :=
  match num with
  | 0x018 => { c with ctx := { c.ctx with afl := v.extractLsb' 0 8 ||| c.fresh } }
  | 0x019 => { c with ctx := { c.ctx with afm := v.extractLsb' 0 8 } }
  | 0x01A => { c with ctx := { c.ctx with qcfg := v.extractLsb' 0 5 } }
  | 0x01B => { c with ctx := { c.ctx with rmode := v.extractLsb' 0 2 } }
  | _ => c

/-- The loop-end step at address a (04_scalar_control.md R119): the next address and the frames that remain. -/
def loopEnd (a : Nat) : List Loop → Nat × List Loop
  | [] => (a + 1, [])
  | f :: r =>
    if a = f.lend then
      (if 1 < f.lcnt then (f.lstart, { f with lcnt := f.lcnt - 1 } :: r) else loopEnd a r)
    else (a + 1, f :: r)

/-- The frames that a taken branch to t leaves: those it stays inside (04_scalar_control.md R120). -/
def exitFrames (t : Nat) : List Loop → List Loop
  | [] => []
  | f :: r => if f.lstart ≤ t ∧ t ≤ f.lend then f :: r else exitFrames t r

/-- c continues at the sequential successor of its bundle (04_scalar_control.md R119). -/
def Core.sequential (c : Core) : Core :=
  { c with pc := (loopEnd c.pc c.ctx.loops).1, ctx := { c.ctx with loops := (loopEnd c.pc c.ctx.loops).2 } }

/-- A taken jmp or jrel (04_scalar_control.md R114, R120). -/
def Core.branch (c : Core) (t : Nat) : Core :=
  { c with pc := t, ctx := { c.ctx with loops := exitFrames t c.ctx.loops } }

/-- ctl.call (04_scalar_control.md R114). -/
def Core.callTo (c : Core) (t : Nat) : Core :=
  let c' := c.sequential
  { c' with pc := t, ctx := { c'.ctx with links := c'.pc :: c'.ctx.links } }

/-- ctl.ret (04_scalar_control.md R114). -/
def Core.ret (c : Core) : Core :=
  match c.ctx.links with
  | t :: r => { c with pc := t, ctx := { c.ctx with links := r } }
  | [] => c

/-- ctl.loop (04_scalar_control.md R118). -/
def Core.loop (c : Core) (o b : Word) : Core :=
  { c with pc := c.pc + 1,
           ctx := { c.ctx with loops := ⟨c.pc + 1, c.pc + o.toNat, b.toNat⟩ :: c.ctx.loops } }

/-- A guard's value, guard 0 reading 1 (04_scalar_control.md R116). -/
def Core.guardVal (c : Core) (g : Nat) : Bool :=
  match c.guardCell g with
  | .full x => x
  | .empty => false

/-- A guard trigger's write, with what it reads taken before the bundle; a transfer into that guard from a move of the same
bundle does not write it later (04_scalar_control.md R116, R117). -/
def Core.setGuard (c : Core) (b : Word) (v : Bool) : Core :=
  { c with ctx := { c.ctx with g := c.ctx.g.set (.full false) ((b.extractLsb' 0 3).toNat - 1) (.full v) },
           pends := c.pends.filter (fun p => match p.dst with
             | .g i => decide (i.val ≠ (b.extractLsb' 0 3).toNat - 1)
             | _ => true) }

/-- ctl.r filled by the trigger that acts (04_scalar_control.md R113). -/
def Core.setCtlR (c : Core) (v : Word) : Core := c.setPort .ctlR (.full (.s v))

/-- The act of a CTL trigger in step 5 of R84: c0 is the core before the bundle, c after its register writes and queue
entries (04_scalar_control.md R114 to R130; 10_phase_sync.md R275, R289 to R295). -/
def ctlAct (s : State) (n : Nat) (c0 c : Core) (i : Instr) (b o : Word) : Core :=
  let x := (b.extractLsb' 3 3).toNat
  let y := (b.extractLsb' 6 3).toNat
  match i with
  | .ctlJmp _ => c.branch b.toNat
  | .ctlJrel _ => c.branch ((c.pc : Int) + b.toInt).toNat
  | .ctlCall _ => c.callTo b.toNat
  | .ctlRet _ => c.ret
  | .ctlLoop _ => c.loop o b
  | .ctlRep _ => { c.sequential with repNext := some b.toNat }
  | .ctlHalt _ => { c.sequential with seq := .halted false, exitw := b.extractLsb' 0 32, exited := true }
  | .ctlTrap _ =>
    c.sequential.takeTrap { Trap.plain Cause.TRAP_INSTR 5 c.pc c.sequential.pc with
      arg := b.extractLsb' 0 16, slotEng := slotEngByte (some .ctl) (some 0) }
  | .ctlCsrr _ => (c.sequential).setCtlR (csrRead s n b.toNat)
  | .ctlCsrw _ => csrWrite c.sequential o.toNat b
  | .ctlGset _ => c.sequential.setGuard b (b.getLsbD 3)
  | .ctlGnot _ => c.sequential.setGuard b (!c0.guardVal x)
  | .ctlGand _ => c.sequential.setGuard b (c0.guardVal x && c0.guardVal y)
  | .ctlGor _ => c.sequential.setGuard b (c0.guardVal x || c0.guardVal y)
  | .ctlEndph _ => { c.sequential with seq := .endph (decide (b = 1)) false }
  | .ctlTime _ => c.sequential.setCtlR (if b = 0 then s.dtcOf n else c0.ssc.setWidth 64)
  | .ctlBwaitt _ => c.sequential.setCtlR (if c0.barDone b then 0 else 1)
  | _ => c.sequential

/-! ### Performing a bundle (03_encoding.md R84) -/

/-- A register takes another value: a token that stood there is no longer read (09_copy_collective.md R248). -/
def overToken (r : RegId) (l : List Deferred) : List Deferred :=
  match r with
  | .s i => l.map (fun d => if d.send = false ∧ d.tok = i.val then { d with live := false } else d)
  | _ => l

/-- Step 2 of R84 for one move: a register write, an emptied register with its pending transfer, or a CTL operand. -/
def writeMove (c0 c : Core) (b : BMove) : Core :=
  match b.src with
  | none => c
  | some x =>
    match b.dest with
    | .reg r =>
      if r = .s 0 then c
      else
        match c0.bindSrc b.slot x with
        | .ready v => { c with ctx := c.ctx.writeReg r v, deferred := overToken r c.deferred }
        | .wait w => { c with ctx := c.ctx.emptyReg r, deferred := overToken r c.deferred, pends := c.pends ++ [⟨r, .wait w, c.nextTag⟩],
                              nextTag := c.nextTag + 1 }
    | .oport .ctl p => c.setOp .ctl ((c.op .ctl).write false p (.s (c0.bindSrc b.slot x).scalar))
    | _ => c

/-- The address register that a slot-4 move advances (04_scalar_control.md R121). -/
def advanceAreg (c0 c : Core) (b : BMove) : Core :=
  match b.slot, b.src with
  | 4, some (.reg (.a i) _) =>
    match c0.ctx.readReg (.a i) with
    | .full v => { c with ctx := c.ctx.writeReg (.a i) (.s (advance v.toScalar)) }
    | .empty => c
  | _, _ => c

/-- A queue entry of a move (03_encoding.md R79, R83; 04_scalar_control.md R134). -/
def mkEntry (c0 : Core) (b : BMove) (x : Src) (trig : Option Instr) (p : OPort) (tag : Nat) (rep : Option Nat)
    (bid : Nat) : Entry where
  move := b.word
  slot := b.slot
  badr := c0.pc
  rep := rep
  trig := trig
  port := p
  val := c0.bindSrc b.slot x
  tag := tag
  rmode := c0.ctx.rmode
  qcfg := c0.ctx.qcfg
  faulted := false
  bid := bid

/-- Step 3 of R84 for one move: an operand-port move enters its queue. -/
def enterOperand (c0 : Core) (rep : Bool) (c : Core) (b : BMove) : Core :=
  match b.src, b.dest with
  | some x, .oport e p =>
    if e = .ctl then c
    else
      let en := mkEntry c0 b x none p c.nextTag (if rep && decide (b.slot = 4) then some 0 else none) c0.nextTag
      { c.setQ e (c.q e ++ [en]) with nextTag := c.nextTag + 1 }
  | _, _ => c

/-- A new job of a go trigger (09_copy_collective.md R243). -/
def newJob (e : Eng) (t : Fin 64) (tag badr phc : Nat) : CJob where
  tag := tag
  eng := e
  tok := t
  addr := 0
  badr := badr
  card := none
  ptag := decide (phc % 2 = 1)
  step := phc
  rd := []
  wr := []
  started := false
  pos := 0
  off := 0
  rows := []
  doneb := 0
  flags := 0
  buf := none
  asked := false
  flush := none
  held := false
  slog := 0
  cancel := false
  faddr := 0
  ended := none
  cause := 0
  use := none
  part := []
  nfault := 0

/-- Step 4 of R84 for one move: a trigger enters its queue, its result port is claimed (R78), and a go's job comes to
exist with its token emptied (09_copy_collective.md R243). -/
def enterTrigger (c0 : Core) (ms : List BMove) (phc : Nat) (rep : Bool) (c : Core) (b : BMove) : Core :=
  match b.src, b.dest, b.instr with
  | some x, .trig e p, some i =>
    if e = .ctl then c
    else
      let tag := c.nextTag
      let en := mkEntry c0 b x (some i) .o tag (if rep && decide (b.slot = 4) then some 0 else none) c0.nextTag
      let c := { c.setQ e (c.q e ++ [en]) with nextTag := tag + 1 }
      let c := match resPort e p with
        | some q => c.claimPort q tag
        | none => c
      if (e = .cpy0 ∨ e = .cpy1 ∨ e = .col) ∧ p = 8 then
        let t : Fin 64 := Fin.ofNat 64 (c0.goOperand ms e).scalar.toNat
        { c with ctx := c.ctx.emptyReg (.s t), deferred := overToken (.s t) c.deferred, jobs := c.jobs ++ [newJob e t tag c0.pc phc] }
      else c
  | _, _, _ => c

/-- The order in which the triggers of one bundle count as issued: MEM accesses first, jobs last
(05_local_memory.md R155; 08_stream_ops.md R222). -/
def trigRank (b : BMove) : Nat :=
  match b.dest with
  | .trig .mem _ => 0
  | .trig .cpy0 _ | .trig .cpy1 _ | .trig .col _ => 2
  | _ => 1

/-- The repeat state after a bundle B under ctl.rep (04_scalar_control.md R122). -/
def startRep (c0 c : Core) (ms : List BMove) : Core :=
  match c0.repNext with
  | none => c
  | some k =>
    match ms.find? (fun b => b.slot = 4 ∧ c0.performs b = true) with
    | some b =>
      (match b.instr with
       | some i =>
         { c with repNext := none,
                  rep := if 1 < k then some ⟨k - 1, 1, b.word, i, c0.pc, c0.ctx.rmode, c0.ctx.qcfg⟩ else none }
       | none => { c with repNext := none })
    | none => { c with repNext := none }

/-- The whole of R84: every performed move of the bundle takes effect, then the CTL trigger acts and the sequencer goes
on (03_encoding.md R84; 04_scalar_control.md R119). -/
def performBundle (s : State) (n : Nat) (ms : List BMove) : State :=
  let c0 := { s.core n with seq := .run, resumeBreak := false }
  let perf := ms.filter (fun b => c0.performs b)
  let rep := c0.repNext.isSome
  let c := perf.foldl (writeMove c0) c0
  let c := perf.foldl (advanceAreg c0) c
  let c := perf.foldl (enterOperand c0 rep) c
  let trigs := perf.filter (fun b => decide (trigRank b = 0)) ++ perf.filter (fun b => decide (trigRank b = 1))
    ++ perf.filter (fun b => decide (trigRank b = 2))
  let c := trigs.foldl (enterTrigger c0 ms (s.phcOf n) rep) c
  let c := startRep c0 c ms
  let c := match c0.ctlTrig ms with
    | some (i, b) => ctlAct s n c0 c i b.scalar (c.op .ctl).o.toScalar
    | none => c.sequential
  s.setCore n c

/-- A freeze at the bundle at the pc. -/
def Core.freeze (c : Core) (f : Freeze) : Core := { c with seq := .frozen f 0 }

/-- The waits that come after the checks (03_encoding.md R86): a landing slot (R286), the fences (R128, R129), waitt
(R294) and the barriers (R289, R290); otherwise the bundle is performed. -/
def issueChecked (s : State) (n : Nat) (ms : List BMove) : State :=
  let c := s.core n
  if !slotsReady c ms then s.setCore n (c.freeze .slot)
  else
    match c.ctlTrig ms with
    | none => performBundle s n ms
    | some (i, b) =>
      match i with
      | .ctlTfence _ =>
        if !(c.queuesEmpty && c.triggersDone) then s
        else
          match c.deferred with
          | d :: _ => s.setCore n (c.raiseDeferred d)
          | [] =>
            if c.ctx.afl &&& c.ctx.afm ≠ 0 then
              s.setCore n (c.takeTrap { Trap.plain Cause.ARITH 0 c.pc c.pc with
                arg := (c.ctx.afl &&& c.ctx.afm).setWidth 16, slotEng := slotEngByte (some .ctl) (some 0) })
            else performBundle s n ms
      | .ctlDrain _ => if c.drained then performBundle s n ms else s
      | .ctlWaitt _ =>
        if b.scalar.toNat ≤ (s.dtcOf n).toNat then performBundle s n ms else s.setCore n (c.freeze .waitt)
      | .ctlBar _ => s.setCore n (c.freeze (.bar false))
      | .ctlArrive _ => s.setCore n (c.freeze .arrive)
      | .ctlBwait _ => if c.barDone b.scalar then performBundle s n ms else s.setCore n (c.freeze .bwait)
      | .ctlBwaitt _ =>
        if c.barDone b.scalar then performBundle s n ms
        else s.setCore n (c.freeze (.bwaitt ((c.ctlOperand ms .o).scalar.extractLsb' 0 32).toNat))
      | _ => performBundle s n ms

/-- The engine and slot of a bundle's trap (12_traps.md R330). -/
def trapSlotEng (ms : List BMove) (slot : Option Nat) : Byte :=
  match slot with
  | none => slotEngByte none none
  | some k =>
    match ms.find? (fun b => b.slot = k) with
    | some b =>
      (match b.dest with
       | .oport e _ | .trig e _ => slotEngByte (some e) (some k)
       | _ => slotEngByte none (some k))
    | none => slotEngByte none (some k)

/-- The token register of a TOKEN_REUSE trap (12_traps.md R330). -/
def reuseToken (c : Core) (ms : List BMove) (cause : Byte) : Nat :=
  if cause = Cause.TOKEN_REUSE then
    match (c.goes ms).find? (fun e => c.jobs.any (fun j => j.tok = Fin.ofNat 64 (c.goOperand ms e).scalar.toNat)) with
    | some e => (c.goOperand ms e).scalar.toNat % 64
    | none => 0
  else 0

/-- Whether the stand of a core still issues bundles: not after the event arbiter has received a trap event of it, nor while
it is ordered to park (12_traps.md R326). -/
def State.issuing (s : State) (n : Nat) : Bool :=
  match s.runOf (s.core n).part with
  | some r => decide (r.st = .running)
  | none => true

/-- ISSUE of a bundle at core n (03_encoding.md R82, R86): held while a condition of R82 holds it; then it raises the
first cause that applies, or waits as its trigger says, or is performed. -/
def issue (s : State) (n : Nat) (ms : List BMove) : State :=
  let c := s.core n
  if c.seq ≠ .run ∨ s.issuing n = false then s
  else if stalls c ms then s
  else
    match firstCause c (s.exchOf n) ms with
    | some (k, slot) =>
      s.setCore n ({ c with bad := { c.bad with bus := [] } }.takeTrap { Trap.plain k 0 c.pc c.pc with
        slotEng := trapSlotEng ms slot, tok := reuseToken c ms k })
    | none =>
      match asyncRead c ms with
      | some d => s.setCore n (c.raiseDeferred d)
      | none => issueChecked s n ms

/-- The issue of a one-move bundle at the current core. -/
def issueOne (i : Instr) (s : State) : Res := .next (issue s s.cur (oneMove i))

/-- BUNDLE_ISSUE (03_encoding.md R82): the bundle at the pc of the current core. -/
def execBundleIssue (s : State) : Res := .next (issue s s.cur s.me.fetch)

end Sys2Proof.Machine
end

