-- ==== Sys2Proof/Machine/Serve.lean ====
section
/-! DEFINITION. Serving the head of an engine queue, shared by every trigger of a queue engine (03_encoding.md R78, R83;
04_scalar_control.md R107; 12_traps.md R335). -/

namespace Sys2Proof.Machine

/-- Whether the engines of a core serve their queues: a captured or idle core's do not (12_traps.md R335). -/
def Core.serving (c : Core) : Bool :=
  match c.seq with
  | .idle | .parked => false
  | _ => true

/-- The engine whose datapath an engine shares under the harvest mapping of the core (03_encoding.md R87, R89). -/
def Core.twin (c : Core) (e : Eng) : Option Eng :=
  let on (i j : Nat) : Bool := c.slmap.getLsbD i || c.slmap.getLsbD j
  match e with
  | .vec0 => if on 15 16 then some .vec1 else none
  | .vec1 => if on 15 16 then some .vec0 else none
  | .cpy0 => if on 13 14 then some .cpy1 else none
  | .cpy1 => if on 13 14 then some .cpy0 else none
  | _ => none

/-- Whether the shared datapath goes to the other engine's head first: a waiting trigger that is older
(03_encoding.md R89). -/
def Core.twinFirst (c : Core) (e : Eng) (tag : Nat) : Bool :=
  match (c.twin e).map c.q with
  | some (en :: _) =>
    (match en.val with
     | .ready _ => en.trig.isSome && !en.faulted && decide (en.tag < tag)
     | .wait _ => false)
  | _ => false

/-- The head entry of an engine's queue and its value, if it is the given trigger and can start: its value is at hand and
it has not faulted, and a shared datapath has no older trigger (03_encoding.md R79, R83, R89; 12_traps.md R335). -/
def Core.headTrig (c : Core) (e : Eng) (i : Instr) : Option (Entry × Val) :=
  match c.q e with
  | en :: _ =>
    match en.val with
    | .ready v =>
      if c.serving && !en.faulted && !c.twinFirst e en.tag && decide (en.trig = some i) then some (en, v) else none
    | .wait _ => none
  | [] => none

/-- The head entry of an engine's queue leaves it. -/
def Core.popHead (c : Core) (e : Eng) : Core := c.setQ e (c.q e).tail

/-- A result on its way to a port, with the flags its arrival sets (02_numbers.md R60; 03_encoding.md R78). -/
def Core.launchResult (c : Core) (en : Entry) (e : Eng) (p : Option RPort) (v : Val) (f : Byte) (div : Bool) : Core :=
  { c with flights := c.flights ++ [⟨en.tag, p, v, f, e, div⟩] }

/-- The index in an engine's queue of its head becomes a fault precise at the move (12_traps.md R335, rule 1). -/
def Core.faultHead (c : Core) (e : Eng) : Core :=
  match c.q e with
  | en :: r => c.setQ e ({ en with faulted := true } :: r)
  | [] => c

/-- A trap precise at a move (12_traps.md R330, R333): the core parks, and its next bundle is the one at its pc. -/
def moveTrap (en : Entry) (e : Eng) (cause : Byte) (next : Nat) (faddr : Nat) : Trap :=
  { Trap.plain cause 1 en.badr next with
    slotEng := slotEngByte (some e) (some en.slot), repv := en.rep.isSome, faddr := BitVec.ofNat 64 faddr, bid := en.bid }

/-- The head of an engine's queue faults: the entry performs nothing, the queue stops and the core parks. -/
def Core.trapHead (c : Core) (e : Eng) (en : Entry) (cause : Byte) (faddr : Nat) : Core :=
  (c.faultHead e).takeTrap (moveTrap en e cause c.pc faddr)

end Sys2Proof.Machine
end

