-- ==== Sys2Proof/Machine/Local.lean ====
section
/-! DEFINITION. The local address space and local memory: windows, bounds, bytes of scratchpads and quad pools, 64-byte
lines, and the operations of an atomic (05_local_memory.md R135 to R138, R147, R148, R156). -/

namespace Sys2Proof.Machine

/-- Where a local address lies (05_local_memory.md R135). -/
inductive LWin where
  | scratch (off : Nat)
  | own (off : Nat)
  | whole (off : Nat)
  | beyond                   -- in a pool window beyond the allocation
  | nowhere
  deriving DecidableEq, Repr

/-- The window of a local address under POOL (05_local_memory.md R135). -/
def localWin (pool a : Nat) : LWin :=
  if a < Config.scratchBytes then .scratch a
  else if Config.ownBase ≤ a ∧ a < Config.ownBase + 0x800000 then
    (if a < Config.ownBase + pool then .own (a - Config.ownBase) else .beyond)
  else if Config.wholeBase ≤ a ∧ a < Config.wholeBase + 0x800000 then
    (if a < Config.wholeBase + 4 * pool then .whole (a - Config.wholeBase) else .beyond)
  else .nowhere

/-- Whether an address lies in the whole-pool window, allocated or not (05_local_memory.md R135). -/
def inWholeWindow (a : Nat) : Bool := decide (Config.wholeBase ≤ a ∧ a < Config.wholeBase + 0x800000)

/-- The array byte of a local address of a core: (false, byte) in its scratchpad, (true, byte) in its quad's pool
(05_local_memory.md R136). -/
def locOf (pool core a : Nat) : Option (Bool × Nat) :=
  match localWin pool a with
  | .scratch x => some (false, x)
  | .own x => some (true, (core % 4) * pool + x)
  | .whole y => some (true, y)
  | .beyond | .nowhere => none

/-- A byte of local memory as a core sees it. -/
def State.localByte (s : State) (core a : Nat) : Byte :=
  match locOf (s.poolOf core) core a with
  | some (false, x) => Mem.read (s.core core).scratch x
  | some (true, x) => Mem.read (s.quad (quadOf core)).mem x
  | none => 0

/-- n bytes of local memory from an address. -/
def State.localBytes (s : State) (core a n : Nat) : List Byte := (List.range n).map (fun i => s.localByte core (a + i))

/-- A byte of local memory written. -/
def State.setLocalByte (s : State) (core a : Nat) (b : Byte) : State :=
  match locOf (s.poolOf core) core a with
  | some (false, x) =>
    let c := s.core core
    s.setCore core { c with scratch := Mem.write c.scratch x b }
  | some (true, x) =>
    let q := s.quad (quadOf core)
    s.setQuad (quadOf core) { q with mem := Mem.write q.mem x b }
  | none => s

/-- Bytes written to consecutive local addresses. -/
def State.setLocalBytes (s : State) (core a : Nat) (l : List Byte) : State :=
  match l with
  | [] => s
  | b :: r => State.setLocalBytes (s.setLocalByte core a b) core (a + 1) r

/-- Whether an array byte holds an uncorrectable error (05_local_memory.md R137, check 4). -/
def State.localBad (s : State) (core a : Nat) : Bool :=
  match locOf (s.poolOf core) core a with
  | some (false, x) => (s.core core).bad.scratch.contains x
  | some (true, x) => (s.quad (quadOf core)).bad.contains x
  | none => false

/-- The number of a local 64-byte line, the same for every address that reaches it (05_local_memory.md R156): pool lines
count from 2^18. -/
def lineOf (pool core a : Nat) : Nat :=
  match locOf pool core a with
  | some (false, x) => x / 64
  | some (true, x) => 2 ^ 18 + x / 64
  | none => a / 64

/-- Whether a line range meets a line (05_local_memory.md R156). -/
def FRange.hasLine (r : FRange) (main : Bool) (l : Nat) : Bool := decide (r.main = main ∧ r.lo ≤ l ∧ l < r.hi)

/-- Whether two line ranges share a line (05_local_memory.md R156). -/
def FRange.meets (r t : FRange) : Bool := decide (r.main = t.main ∧ r.lo < t.hi ∧ t.lo < r.hi)

/-- op(old, x) of an atomic of w bits, op being the low four bits of its MEM port (05_local_memory.md R147, R148). -/
def amoOp (op w : Nat) (old x cmp : Word) : Word :=
  let so := (BitVec.ofNat w old.toNat).toInt
  let sx := (BitVec.ofNat w x.toNat).toInt
  let uo := old.toNat % 2 ^ w
  let ux := x.toNat % 2 ^ w
  let r : Nat :=
    match op with
    | 0 => uo + ux
    | 1 => if so ≤ sx then uo else ux
    | 2 => if so ≤ sx then ux else uo
    | 3 => if uo ≤ ux then uo else ux
    | 4 => if uo ≤ ux then ux else uo
    | 5 => (old &&& x).toNat
    | 6 => (old ||| x).toNat
    | 7 => (old ^^^ x).toNat
    | 8 => ux
    | 9 => if uo = cmp.toNat % 2 ^ w then ux else uo
    | _ => (fmaxW (old.extractLsb' 0 32) (x.extractLsb' 0 32)).toNat
  BitVec.ofNat 64 (r % 2 ^ w)

end Sys2Proof.Machine
end

