-- ==== Sys2Proof/Machine/Mem.lean ====
section
/-! DEFINITION. The MEM engine: its triggers enter the load and store queues, and accesses start, are performed and, for
atomics, applied at their memory port (05_local_memory.md R137 to R157; 10_phase_sync.md R284). -/

namespace Sys2Proof.Machine

/-- Bytes charged to the byte budget: none while the core is parked (09_copy_collective.md R272; 12_traps.md R327). -/
def Core.charge (c : Core) (n : Nat) : Core := if c.trap.isSome then c else { c with bytes := c.bytes + n }

/-- The kinds of MEM trigger (05_local_memory.md R143 to R152): bytes and sign extension of a load, bytes of a store, bytes
and operation of an atomic. -/
inductive MKind where
  | ld (n : Nat) (sx : Bool)
  | vld | vlds | vgat
  | st (n : Nat)
  | vst | vsts | vsca | vstm
  | amo (n op : Nat)
  | mark
  | send | sends
  deriving DecidableEq, Repr

/-- The kind of a MEM trigger. -/
def memKind (i : Instr) : MKind :=
  match i with
  | .memLdb _ => .ld 1 true
  | .memLdbn _ => .ld 1 false
  | .memLdh _ => .ld 2 true
  | .memLdhn _ => .ld 2 false
  | .memLdw _ => .ld 4 true
  | .memLdwn _ => .ld 4 false
  | .memLdd _ => .ld 8 false
  | .memStb _ => .st 1
  | .memSth _ => .st 2
  | .memStw _ => .st 4
  | .memStd _ => .st 8
  | .memVld _ => .vld
  | .memVlds _ => .vlds
  | .memVgat _ => .vgat
  | .memVst _ => .vst
  | .memVsts _ => .vsts
  | .memVsca _ => .vsca
  | .memVstm _ => .vstm
  | .memAmoadd _ => .amo 8 0
  | .memAmomins _ => .amo 8 1
  | .memAmomaxs _ => .amo 8 2
  | .memAmominn _ => .amo 8 3
  | .memAmomaxn _ => .amo 8 4
  | .memAmoand _ => .amo 8 5
  | .memAmoor _ => .amo 8 6
  | .memAmoxor _ => .amo 8 7
  | .memAmoswap _ => .amo 8 8
  | .memAmocas _ => .amo 8 9
  | .memAmoaddW _ => .amo 4 0
  | .memAmominsW _ => .amo 4 1
  | .memAmomaxsW _ => .amo 4 2
  | .memAmominnW _ => .amo 4 3
  | .memAmomaxnW _ => .amo 4 4
  | .memAmoandW _ => .amo 4 5
  | .memAmoorW _ => .amo 4 6
  | .memAmoxorW _ => .amo 4 7
  | .memAmoswapW _ => .amo 4 8
  | .memAmocasW _ => .amo 4 9
  | .memAmofmaxW _ => .amo 4 10
  | .memMark _ => .mark
  | .memSend _ => .send
  | .memSends _ => .sends
  | _ => .mark

/-- The kind of an access in an inner queue. -/
def Access.kind (x : Access) : MKind :=
  match x.ent.trig with
  | some i => memKind i
  | none => .mark

/-- The lane addresses of an access, in lane order (05_local_memory.md R143 to R147).  DESIGN CHOICE (log entry 67): lanes that
mem.m leaves out of a vstm count in its footprint too, as they do in its checks (R146).  Safe. -/
def Access.addrs (x : Access) : List Nat :=
  let low (w : Word) : Nat := w.toNat % 2 ^ 32
  let walk (base : Word) (stride : Int) : List Nat :=
    (List.range 128).map (fun i => (((low base : Int) + (i : Int) * stride) % 2 ^ 32).toNat)
  let hi (w : Word) : Int := (w.extractLsb' 32 32).toInt
  let b := x.b.toScalar
  match x.kind with
  | .ld _ _ => [low b]
  | .vld => walk b 4
  | .vlds => walk b (hi b)
  | .vgat => (List.range 128).map (fun i => (low x.o2 + (lane x.b.toVec i).toNat) % 2 ^ 32)
  | .st _ | .amo _ _ => [low x.o]
  | .vst | .vstm => walk x.o 4
  | .vsts => walk x.o (hi x.o)
  | .vsca => (List.range 64).map (fun j => (low x.o2 + (lane x.b.toVec (2 * j)).toNat) % 2 ^ 32)
  | .mark | .send | .sends => []

/-- Bytes at each lane address. -/
def MKind.width : MKind → Nat
  | .ld n _ | .st n | .amo n _ => n
  | _ => 4

/-- Whether an access stands in the store queue (05_local_memory.md R141). -/
def MKind.store : MKind → Bool
  | .st _ | .vst | .vsts | .vsca | .vstm | .amo _ _ | .send | .sends => true
  | _ => false

/-- Whether an access reads the array: loads and atomics (05_local_memory.md R137, check 4). -/
def MKind.reads : MKind → Bool
  | .ld _ _ | .vld | .vlds | .vgat | .amo _ _ => true
  | _ => false

/-- The checks of R137 in their order: the first that fails and the address of its lowest failing lane; a send's
descriptor is checked here too (05_local_memory.md R137; 10_phase_sync.md R284). -/
def accessFault (s : State) (core : Nat) (x : Access) : Option (Byte × Nat) :=
  let k := x.kind
  let n := k.width
  let as := x.addrs
  let pool := s.poolOf core
  let bytes (a : Nat) : List Nat := (List.range n).map (fun i => a + i)
  let outside (a : Nat) : Option Byte :=
    (bytes a).findSome? (fun y => match localWin pool y with
      | .beyond => some Cause.POOL_BOUNDS
      | .nowhere => some Cause.LOCAL_BOUNDS
      | _ => none)
  if (decide (k = .send) || decide (k = .sends)) && decide (x.o.extractLsb' 0 26 ≠ 0) then some (Cause.ILLEGAL_OPERAND, 0)
  else
    match as.find? (fun a => decide (a % n ≠ 0)) with
    | some a => some (Cause.ALIGN, a)
    | none =>
      match (if s.exchOf core then none else as.find? (fun a => (bytes a).any inWholeWindow)) with
      | some a => some (Cause.PHASE_COMPUTE, a)
      | none =>
        match as.find? (fun a => (outside a).isSome) with
        | some a => some ((outside a).getD Cause.LOCAL_BOUNDS, a)
        | none =>
          match (if k.reads then as.find? (fun a => (bytes a).any (s.localBad core)) else none) with
          | some a =>
            some (match localWin pool a with
              | .scratch _ => Cause.ECC_SCRATCH
              | _ => Cause.ECC_POOL, a)
          | none => none

/-- Whether an older job of the core makes an access wait: it writes a line the access touches, or reads a line the access
writes; a job whose card is not yet read counts as touching every line (05_local_memory.md R157). -/
def CJob.blocks (j : CJob) (pool core : Nat) (x : Access) : Bool :=
  let ls := (x.addrs.map (lineOf pool core)).eraseDups
  decide (j.tag < x.ent.tag) &&
    (match j.card with
     | none => !ls.isEmpty
     | some _ => ls.any (fun l => j.wr.any (·.hasLine false l) || (x.kind.store && j.rd.any (·.hasLine false l))))

/-! ### The lines that a memory push reads (08_stream_ops.md R220 to R225) -/

/-- A decoded control word with its source: KEXT and NLINE as counts (08_stream_ops.md R220). -/
structure PushCtl where
  kext : Nat
  nline : Nat
  kskip : Nat
  tgt : Bool
  ib8 : Bool
  base : Nat
  stride : Int
  deriving DecidableEq, Repr

/-- The control word of a push; none is ILLEGAL_OPERAND (08_stream_ops.md R220, R225): kmax is 128, or 512 for pushak, and
mapped is the KEXT of the pending map that a pushb takes instead of its own. -/
def pushCtl (ak : Bool) (mapped : Option Nat) (o o2 b : Word) : Option PushCtl :=
  let kmax := if ak then 512 else 128
  let kraw := (o.extractLsb' 16 10).toNat
  let nraw := (o.extractLsb' 8 8).toNat
  let kext := match mapped with
    | some k => k
    | none => if kraw = 0 then kmax else kraw
  let ib8 := o.getLsbD 0
  let st := (o2.extractLsb' 0 32).toInt
  let size : Nat := if ib8 then 34 else 18
  let kskip := (o.extractLsb' 2 5).toNat
  if (mapped.isNone && decide (kmax < kraw)) || decide (128 < nraw) || (ak && decide (kext ≤ kskip)) then none
  else some { kext := kext, nline := if nraw = 0 then 128 else nraw, kskip := if ak then kskip else 0, tgt := o.getLsbD 1,
              ib8 := ib8, base := b.toNat % 2 ^ 32,
              stride := if st = 0 then (((kext + 31) / 32 * size : Nat) : Int) else st }

/-- Bytes of a block. -/
def PushCtl.size (p : PushCtl) : Nat := if p.ib8 then 34 else 18

/-- LA(n) (08_stream_ops.md R220). -/
def PushCtl.la (p : PushCtl) (n : Nat) : Nat := (((p.base : Int) + (n : Int) * p.stride) % 2 ^ 32).toNat

/-- The address of block q of line n. -/
def PushCtl.blockAt (p : PushCtl) (n q : Nat) : Nat := p.la n + q * p.size

/-- Every byte of the given blocks of every line, lines first. -/
def PushCtl.bytes (p : PushCtl) (qs : List Nat) : List Nat :=
  (List.range p.nline).flatMap (fun n => qs.flatMap (fun q => (List.range p.size).map (fun i => p.blockAt n q + i)))

/-- The lines of the given blocks of every line of the source. -/
def PushCtl.lines (p : PushCtl) (pool core : Nat) (qs : List Nat) : List Nat :=
  ((List.range p.nline).flatMap (fun n => qs.flatMap (fun q =>
    [lineOf pool core (p.blockAt n q), lineOf pool core (p.blockAt n q + p.size - 1)]))).eraseDups

/-- Whether a STR trigger is a push from local memory: side B, and compacting. -/
def pushKind (i : Instr) : Option (Bool × Bool) :=
  match i with
  | .strPusha _ => some (false, false)
  | .strPushb _ => some (true, false)
  | .strPushak _ => some (false, true)
  | _ => none

/-- The lines that the pushes of a STR queue read, by tag, from the port values and the compaction map that the head finds;
none where a value before it is not there yet (08_stream_ops.md R222, R224, R225).  A pushak counts every block that it may
examine. -/
def pushLinesFrom (pool core : Nat) : Option OPorts → Option (Option CMap) → List Entry → List (Nat × Option (List Nat))
  | _, _, [] => []
  | ps, mp, e :: r =>
    match e.trig with
    | none =>
      pushLinesFrom pool core (match ps, e.val with | some o, .ready v => some (o.write false e.port v) | _, _ => none) mp r
    | some i =>
      match pushKind i with
      | none => pushLinesFrom pool core ps (match i with | .strShift _ | .strPushav _ => some none | _ => mp) r
      | some (sideB, ak) =>
        (e.tag,
          match ps, e.val, (if sideB then mp else some none) with
          | some o, .ready v, some m =>
            (match pushCtl ak (m.map (·.kext)) o.o.toScalar o.o2.toScalar v.toScalar with
             | none => some []
             | some p =>
               some (p.lines pool core (match m with
                 | some m => m.slots
                 | none => (List.range ((p.kext + 31) / 32)).filter (fun q => decide (p.kskip / 32 ≤ q)))))
          | _, _, _ => none) :: pushLinesFrom pool core ps (if ak then none else some none) r

/-- The lines that the pushes in the STR queue of a core read. -/
def Core.pushLines (c : Core) (pool core : Nat) : List (Nat × Option (List Nat)) :=
  pushLinesFrom pool core (some (c.op .str)) (some c.ctx.str.cmap) (c.q .str)

/-- Whether a queued push older than a tag reads one of these lines, or may: a younger store, atomic or job that writes them
waits (08_stream_ops.md R222). -/
def Core.pushReads (c : Core) (pool core tag : Nat) (hit : Nat → Bool) : Bool :=
  (c.pushLines pool core).any (fun x => decide (x.1 < tag) && (match x.2 with | none => true | some l => l.any hit))

/-- Whether a queued push makes a store or atomic wait (08_stream_ops.md R222). -/
def Core.pushBlocks (c : Core) (pool core : Nat) (x : Access) : Bool :=
  let ls := (x.addrs.map (lineOf pool core)).eraseDups
  !ls.isEmpty && x.kind.store && c.pushReads pool core x.ent.tag (fun l => ls.contains l)

/-- The access that an engine-queue head becomes (05_local_memory.md R141; 03_encoding.md R69). -/
def Core.accessOf (c : Core) (en : Entry) (v : Val) : Access :=
  { ent := en, o := (c.op .mem).o.toScalar, o2 := (c.op .mem).o2.toScalar, m := (c.op .mem).m, b := v }

/-- A MEM trigger leaves the engine queue for its inner queue, when that has room (05_local_memory.md R141, R151). -/
def Core.memEnter (c : Core) (i : Instr) : Core :=
  match c.headTrig .mem i with
  | none => c
  | some (en, v) =>
    let x := c.accessOf en v
    let k := memKind i
    if k = .mark then
      (if c.ldq.length < 8 ∧ c.stq.length < 8 then { c.popHead .mem with ldq := c.ldq ++ [x], stq := c.stq ++ [x] } else c)
    else if k.store then (if c.stq.length < 8 then { c.popHead .mem with stq := c.stq ++ [x] } else c)
    else (if c.ldq.length < 8 then { c.popHead .mem with ldq := c.ldq ++ [x] } else c)

/-- A MEM trigger at the current core. -/
def memRun (i : Instr) (s : State) : Res := .next (s.setMe (s.me.memEnter i))

/-- MEM_LDB (05_local_memory.md R143). -/
def execMemLdb (m : Mv) (s : State) : Res := memRun (.memLdb m) s

/-- MEM_LDBN (05_local_memory.md R143). -/
def execMemLdbn (m : Mv) (s : State) : Res := memRun (.memLdbn m) s

/-- MEM_LDH (05_local_memory.md R143). -/
def execMemLdh (m : Mv) (s : State) : Res := memRun (.memLdh m) s

/-- MEM_LDHN (05_local_memory.md R143). -/
def execMemLdhn (m : Mv) (s : State) : Res := memRun (.memLdhn m) s

/-- MEM_LDW (05_local_memory.md R143). -/
def execMemLdw (m : Mv) (s : State) : Res := memRun (.memLdw m) s

/-- MEM_LDWN (05_local_memory.md R143). -/
def execMemLdwn (m : Mv) (s : State) : Res := memRun (.memLdwn m) s

/-- MEM_LDD (05_local_memory.md R143). -/
def execMemLdd (m : Mv) (s : State) : Res := memRun (.memLdd m) s

/-- MEM_STB (05_local_memory.md R145). -/
def execMemStb (m : Mv) (s : State) : Res := memRun (.memStb m) s

/-- MEM_STH (05_local_memory.md R145). -/
def execMemSth (m : Mv) (s : State) : Res := memRun (.memSth m) s

/-- MEM_STW (05_local_memory.md R145). -/
def execMemStw (m : Mv) (s : State) : Res := memRun (.memStw m) s

/-- MEM_STD (05_local_memory.md R145). -/
def execMemStd (m : Mv) (s : State) : Res := memRun (.memStd m) s

/-- MEM_VLD (05_local_memory.md R144). -/
def execMemVld (m : Mv) (s : State) : Res := memRun (.memVld m) s

/-- MEM_VLDS (05_local_memory.md R144). -/
def execMemVlds (m : Mv) (s : State) : Res := memRun (.memVlds m) s

/-- MEM_VGAT (05_local_memory.md R144). -/
def execMemVgat (m : Mv) (s : State) : Res := memRun (.memVgat m) s

/-- MEM_VST (05_local_memory.md R146). -/
def execMemVst (m : Mv) (s : State) : Res := memRun (.memVst m) s

/-- MEM_VSTS (05_local_memory.md R146). -/
def execMemVsts (m : Mv) (s : State) : Res := memRun (.memVsts m) s

/-- MEM_VSCA (05_local_memory.md R146). -/
def execMemVsca (m : Mv) (s : State) : Res := memRun (.memVsca m) s

/-- MEM_VSTM (05_local_memory.md R146). -/
def execMemVstm (m : Mv) (s : State) : Res := memRun (.memVstm m) s

/-- MEM_AMOADD (05_local_memory.md R147). -/
def execMemAmoadd (m : Mv) (s : State) : Res := memRun (.memAmoadd m) s

/-- MEM_AMOMINS (05_local_memory.md R147). -/
def execMemAmomins (m : Mv) (s : State) : Res := memRun (.memAmomins m) s

/-- MEM_AMOMAXS (05_local_memory.md R147). -/
def execMemAmomaxs (m : Mv) (s : State) : Res := memRun (.memAmomaxs m) s

/-- MEM_AMOMINN (05_local_memory.md R147). -/
def execMemAmominn (m : Mv) (s : State) : Res := memRun (.memAmominn m) s

/-- MEM_AMOMAXN (05_local_memory.md R147). -/
def execMemAmomaxn (m : Mv) (s : State) : Res := memRun (.memAmomaxn m) s

/-- MEM_AMOAND (05_local_memory.md R147). -/
def execMemAmoand (m : Mv) (s : State) : Res := memRun (.memAmoand m) s

/-- MEM_AMOOR (05_local_memory.md R147). -/
def execMemAmoor (m : Mv) (s : State) : Res := memRun (.memAmoor m) s

/-- MEM_AMOXOR (05_local_memory.md R147). -/
def execMemAmoxor (m : Mv) (s : State) : Res := memRun (.memAmoxor m) s

/-- MEM_AMOSWAP (05_local_memory.md R147). -/
def execMemAmoswap (m : Mv) (s : State) : Res := memRun (.memAmoswap m) s

/-- MEM_AMOCAS (05_local_memory.md R147). -/
def execMemAmocas (m : Mv) (s : State) : Res := memRun (.memAmocas m) s

/-- MEM_AMOADD_W (05_local_memory.md R147). -/
def execMemAmoaddW (m : Mv) (s : State) : Res := memRun (.memAmoaddW m) s

/-- MEM_AMOMINS_W (05_local_memory.md R147). -/
def execMemAmominsW (m : Mv) (s : State) : Res := memRun (.memAmominsW m) s

/-- MEM_AMOMAXS_W (05_local_memory.md R147). -/
def execMemAmomaxsW (m : Mv) (s : State) : Res := memRun (.memAmomaxsW m) s

/-- MEM_AMOMINN_W (05_local_memory.md R147). -/
def execMemAmominnW (m : Mv) (s : State) : Res := memRun (.memAmominnW m) s

/-- MEM_AMOMAXN_W (05_local_memory.md R147). -/
def execMemAmomaxnW (m : Mv) (s : State) : Res := memRun (.memAmomaxnW m) s

/-- MEM_AMOAND_W (05_local_memory.md R147). -/
def execMemAmoandW (m : Mv) (s : State) : Res := memRun (.memAmoandW m) s

/-- MEM_AMOOR_W (05_local_memory.md R147). -/
def execMemAmoorW (m : Mv) (s : State) : Res := memRun (.memAmoorW m) s

/-- MEM_AMOXOR_W (05_local_memory.md R147). -/
def execMemAmoxorW (m : Mv) (s : State) : Res := memRun (.memAmoxorW m) s

/-- MEM_AMOSWAP_W (05_local_memory.md R147). -/
def execMemAmoswapW (m : Mv) (s : State) : Res := memRun (.memAmoswapW m) s

/-- MEM_AMOCAS_W (05_local_memory.md R147). -/
def execMemAmocasW (m : Mv) (s : State) : Res := memRun (.memAmocasW m) s

/-- MEM_AMOFMAX_W (05_local_memory.md R148). -/
def execMemAmofmaxW (m : Mv) (s : State) : Res := memRun (.memAmofmaxW m) s

/-- MEM_MARK (05_local_memory.md R151). -/
def execMemMark (m : Mv) (s : State) : Res := memRun (.memMark m) s

/-- MEM_SEND (05_local_memory.md R284). -/
def execMemSend (m : Mv) (s : State) : Res := memRun (.memSend m) s

/-- MEM_SENDS (05_local_memory.md R284). -/
def execMemSends (m : Mv) (s : State) : Res := memRun (.memSends m) s

/-! ### Starting, performing and applying accesses -/

/-- The head of an inner queue faults: it stops its queue and the core parks (05_local_memory.md R137; 12_traps.md R335). -/
def Core.trapAccess (c : Core) (st : Bool) (x : Access) (cause : Byte) (a : Nat) : Core :=
  let mark (l : List Access) : List Access :=
    match l with
    | y :: r => { y with ent := { y.ent with faulted := true } } :: r
    | [] => []
  (if st then { c with stq := mark c.stq } else { c with ldq := mark c.ldq }).takeTrap
    (moveTrap x.ent .mem cause c.pc a)

/-- A mark leaves both inner queues once it heads both and every access before it is performed
(05_local_memory.md R151). -/
def Core.passMark (c : Core) : Core :=
  match c.ldq, c.stq with
  | l :: lr, t :: tr =>
    if l.kind = .mark ∧ t.kind = .mark ∧ c.lda.isEmpty ∧ c.sta.isEmpty then { c with ldq := lr, stq := tr } else c
  | _, _ => c

/-- The head of an inner queue starts: its checks are made, or it waits for an older job (05_local_memory.md R137, R151,
R157). -/
def startAccess (s : State) (n : Nat) (st : Bool) : State :=
  let c := s.core n
  match (if st then c.stq else c.ldq) with
  | [] => s
  | x :: r =>
    if !c.serving || x.ent.faulted then s
    else if x.kind = .mark then s.setCore n c.passMark
    else if c.jobs.any (fun j => j.blocks (s.poolOf n) n x) || c.pushBlocks (s.poolOf n) n x then s
    else
      match accessFault s n x with
      | some (k, a) => s.setCore n (c.trapAccess st x k a)
      | none =>
        s.setCore n (if st then { c with stq := r, sta := c.sta ++ [x] } else { c with ldq := r, lda := c.lda ++ [x] })

/-- MEM_ACCESS_START (05_local_memory.md R137): of the store queue or the load queue of the current core. -/
def execMemAccessStart (st : Bool) (s : State) : Res := .next (startAccess s s.cur st)

/-- Lanes of an access. -/
def Access.nlanes (x : Access) : Nat := x.addrs.length

/-- The lanes that a turn performs: of those not yet performed the ones that a set names, none named standing for all
(05_local_memory.md R138; log entry 66). -/
def Access.pick (x : Access) (sel : Nat) : List Nat :=
  (List.range x.nlanes).filter (fun i => !x.lanes.getLsbD i && (decide (sel = 0) || sel.testBit i))

/-- An access with more lanes performed. -/
def Access.perform (x : Access) (l : List Nat) : Access := { x with lanes := l.foldl (fun a i => a ||| BitVec.ofNat 128 (2 ^ i)) x.lanes }

/-- Whether every lane is performed. -/
def Access.whole (x : Access) : Bool := (List.range x.nlanes).all (fun i => x.lanes.getLsbD i)

/-- What a vector load has read, with more lanes read now (05_local_memory.md R144). -/
def loadLanes (s : State) (n : Nat) (x : Access) (l : List Nat) : VecW :=
  ofLanes (fun i => if l.contains i then BitVec.ofNat 32 (ofLe (s.localBytes n (x.addrs.getD i 0) 4)) else lane x.got i)

/-- The value a load places in its port, the lanes l read last (05_local_memory.md R143, R144). -/
def loadValue (s : State) (n : Nat) (x : Access) (l : List Nat) : Val :=
  match x.kind with
  | .ld w sx =>
    let raw := ofLe (s.localBytes n (x.addrs.headD 0) w)
    .s (if sx then (BitVec.ofNat (8 * w) raw).signExtend 64 else BitVec.ofNat 64 raw)
  | _ => .v (loadLanes s n x l)

/-- The bytes of one lane of a store: none where a vstm leaves the lane out (05_local_memory.md R145, R146). -/
def Access.laneBytes (x : Access) (i : Nat) : List Byte :=
  let v := x.b.toVec
  match x.kind with
  | .st n => leBytes n x.b.toScalar.toNat
  | .vst | .vsts => leBytes 4 (lane v i).toNat
  | .vstm => if x.m.getLsbD i then leBytes 4 (lane v i).toNat else []
  | .vsca => leBytes 4 (lane v (2 * i + 1)).toNat
  | _ => []

/-- The bytes that lanes of a store write, in order, each run at its address; a higher lane that has written its word already, by
whichever window names it, remains (05_local_memory.md R134, R146). -/
def storeRuns (pool core : Nat) (x : Access) (l : List Nat) : List (Nat × List Byte) :=
  let as := x.addrs
  let loc (i : Nat) : Option (Bool × Nat) := locOf pool core (as.getD i 0)
  (l.filter (fun i => !(List.range x.nlanes).any (fun j =>
    decide (i < j) && x.lanes.getLsbD j && decide (loc j = loc i)))).map (fun i => (as.getD i 0, x.laneBytes i))

/-- Runs of bytes written in order. -/
def State.setRuns (s : State) (n : Nat) (l : List (Nat × List Byte)) : State :=
  l.foldl (fun t r => t.setLocalBytes n r.1 r.2) s

/-- The atomic that an access puts into its port's write queue (05_local_memory.md R147, R149). -/
def portAtomicOf (s : State) (n : Nat) (x : Access) : Option (Bool × PortAtomic) :=
  match x.kind with
  | .amo w op =>
    (locOf (s.poolOf n) n (x.addrs.headD 0)).map (fun l =>
      (l.1, { core := n, tag := x.ent.tag, job := false, addr := l.2, width := w, op := op, x := x.b.toScalar, cmp := x.o2 }))
  | _ => none

/-- Whether an access already stands in a write queue. -/
def inWq (l : List PortAtomic) (n tag : Nat) : Bool := l.any (fun p => !p.job && decide (p.core = n ∧ p.tag = tag))

/-- The send of a MEM trigger (10_phase_sync.md R284, R285). -/
def sendOf (s : State) (n : Nat) (x : Access) : Send :=
  let r := s.runOf (s.core n).part
  { core := s.coreId n, part := (s.core n).part,
    pgid := match r with | some q => q.adm.pgid | none => 0,
    phc := s.phcOf n,
    dest := (x.o.extractLsb' 48 16).toNat, slot := (x.o.extractLsb' 42 6).toNat, arr := (x.o.extractLsb' 26 16).toNat,
    data := if x.kind = .send then x.b.toVec else x.b.toScalar.setWidth 4096,
    badr := x.ent.badr, tag := x.ent.tag, desc := x.o }

/-- A flit put down at a Girdle stop (09_copy_collective.md R261). -/
def State.putFlit (s : State) (stop : Nat) (f : Flit) : State :=
  s.setStop stop { s.stop stop with wait := (s.stop stop).wait ++ [f] }

/-- The oldest started access of a queue is performed, a vector access in the lanes that sel names: a load reads its value, a
store writes, a send leaves the core, an atomic reaches its port's write queue (05_local_memory.md R138, R149, R153;
10_phase_sync.md R284). -/
def performAccess (s : State) (n : Nat) (st : Bool) (sel : Nat) : State :=
  let c := s.core n
  if st then
    match c.sta with
    | [] => s
    | x :: r =>
      match x.kind with
      | .amo _ _ =>
        (match portAtomicOf s n x with
         | some (false, p) => if inWq c.wq n x.ent.tag then s else s.setCore n { c with wq := c.wq ++ [p] }
         | some (true, p) =>
           let q := s.quad (quadOf n)
           if inWq q.wq n x.ent.tag then s else s.setQuad (quadOf n) { q with wq := q.wq ++ [p] }
         | none => s)
      | .send | .sends =>
        (s.setCore n { c.charge (if x.kind = .send then 512 else 8) with sta := r }).putFlit
          (stopOfDie (dieOf n)) ⟨0, .send (sendOf s n x)⟩
      | _ =>
        let l := x.pick sel
        let y := x.perform l
        (s.setCore n { c with sta := if y.whole then r else y :: r }).setRuns n (storeRuns (s.poolOf n) n x l)
  else
    match c.lda with
    | [] => s
    | x :: r =>
      let l := x.pick sel
      let y := x.perform l
      if y.whole then
        s.setCore n ({ c with lda := r }.launchResult x.ent .mem
          (some (match x.kind with | .ld _ _ => .memR | _ => .memVr)) (loadValue s n x l) 0 false)
      else s.setCore n { c with lda := { y with got := loadLanes s n x l } :: r }

/-- MEM_ACCESS_PERFORMED (05_local_memory.md R138, R153): of the store queue or the load queue of the current core, in the lanes
that the turn names. -/
def execMemAccessPerformed (st : Bool) (s : State) : Res := .next (performAccess s s.cur st s.obj)

/-- An atomic read and written in an array (05_local_memory.md R147): the memory after it and the old value. -/
def atomicAt (m : Mem) (p : PortAtomic) : Mem × Word :=
  let old := BitVec.ofNat 64 (m.le p.addr p.width)
  (Mem.writeL m p.addr (leBytes p.width (amoOp p.op (8 * p.width) old p.x p.cmp).toNat), old)

/-- The owner of an applied atomic goes on: a MEM trigger's old value sets out for mem.r, a job's element is done
(05_local_memory.md R147; 09_copy_collective.md R257). -/
def Core.atomicDone (c : Core) (p : PortAtomic) (old : Word) : Core :=
  if p.job then
    { c.charge p.width with jobs := c.jobs.map (fun j => if j.tag = p.tag then { j with doneb := j.doneb + p.width } else j) }
  else
    match c.sta.find? (fun x => decide (x.ent.tag = p.tag)) with
    | some x =>
      { c with sta := c.sta.filter (fun y => decide (y.ent.tag ≠ p.tag)) }.launchResult x.ent .mem (some .memR) (.s old) 0 false
    | none => c

/-- The oldest atomic of a port's write queue is applied (05_local_memory.md R149). -/
def applyAtomic (s : State) (n : Nat) (pool : Bool) : State :=
  if pool then
    let q := s.quad (quadOf n)
    match q.wq with
    | [] => s
    | p :: r =>
      let a := atomicAt q.mem p
      let s := s.setQuad (quadOf n) { q with mem := a.1, wq := r }
      s.setCore p.core ((s.core p.core).atomicDone p a.2)
  else
    let c := s.core n
    match c.wq with
    | [] => s
    | p :: r =>
      let a := atomicAt c.scratch p
      s.setCore n ({ c with scratch := a.1, wq := r }.atomicDone p a.2)

/-- ATOMIC_APPLY (05_local_memory.md R149): at the scratchpad port of the current core, or at its quad's pool port. -/
def execAtomicApply (pool : Bool) (s : State) : Res := .next (applyAtomic s s.cur pool)

end Sys2Proof.Machine
end

