-- ==== Sys2Proof/Machine/Xlat.lean ====
section
/-! DEFINITION. Main memory: the chunk pool of a home, its page walk, translation of an address, and views
(11_translation.md R297 to R306, R321, R322; 09_copy_collective.md R262 to R264). -/

namespace Sys2Proof.Machine

/-! ### The chunk pool -/

/-- The bytes of a 4 KiB leaf. -/
def leafBytes (m : Mem) (leaf : Nat) : List Byte :=
  let l : Mem := m.filter (fun p => decide (p.1 / 4096 = leaf))
  Mem.readN l (4096 * leaf) 4096

/-- One 8-byte pattern repeated (11_translation.md R321). -/
def uniform (l : List Byte) : Bool := decide (l.drop 8 = l.take (l.length - 8))

/-- The chunks of a leaf that is not pinned (11_translation.md R321): none where it repeats one pattern, else the free
value's 1 to 8 (log entry 14). -/
def leafChunks (m : Mem) (leaf : Nat) : Nat :=
  let l := leafBytes m leaf
  if uniform l then 0 else 1 + (Config.leafClass l).toNat % 8

/-- A range without another. -/
def minusRange (r x : Nat × Nat) : List (Nat × Nat) :=
  [(r.1, min r.2 x.1), (max r.1 x.2, r.2)].filter (fun p => decide (p.1 < p.2))

/-- The size of a union of ranges [lo, hi). -/
def unionSize : List (Nat × Nat) → Nat
  | [] => 0
  | r :: l => ((l.foldl (fun a x => a.flatMap (fun p => minusRange p x)) [r]).map (fun p => p.2 - p.1)).sum + unionSize l

/-- Whether a leaf entry with PIN = 1 maps a leaf (11_translation.md R321). -/
def Home.isPinned (h : Home) (leaf : Nat) : Bool := h.pins.any (fun r => decide (r.1 ≤ leaf ∧ leaf < r.2))

/-- Chunks in use at a home: 8 for each pinned leaf, and those of the others' content (11_translation.md R321). -/
def Home.used (h : Home) : Nat :=
  (h.chunks.filter (fun p => !h.isPinned p.1)).foldl (fun a p => a + p.2) 0 + 8 * unionSize h.pins

/-- FREEC (11_translation.md R323). -/
def Home.free (h : Home) : Nat := Config.poolChunks - h.used

/-- A bit of a number. -/
def bit (e n : Nat) : Bool := decide (e / 2 ^ n % 2 = 1)

/-- The entries of a page table that are not zero: index and value. -/
def tableEntries (m : Mem) (base n : Nat) : List (Nat × Nat) :=
  (((m.filter (fun p => decide (base ≤ p.1 ∧ p.1 < base + 8 * n))).map (fun p => (p.1 - base) / 8)).eraseDups).map
    (fun i => (i, Mem.le m (base + 8 * i) 8))

/-- A non-zero reserved bit of an entry of its kind (11_translation.md R303). -/
def pteBad (e : Nat) (leaf : Bool) : Bool :=
  decide (e / 2 ^ 56 ≠ 0 ∨ e / 2 ^ 44 % 16 ≠ 0 ∨ e / 2 ^ 7 % 32 ≠ 0) || (leaf && bit e 4)

/-- The table leaves below a table with k levels left, and the ranges of leaves that its pinned pages map; an entry that R302
makes INVALID maps none (11_translation.md R302 to R304, R321). -/
def pinsFrom (m : Mem) : Nat → Nat → List Nat × List (Nat × Nat)
  | 0, _ => ([], [])
  | k + 1, base =>
    (tableEntries m base 512).foldl (fun a x =>
      let e := x.2
      let pa := e / 2 ^ 12 % 2 ^ 32
      if !bit e 0 || pteBad e (bit e 1) then a
      else if bit e 1 then
        (if bit e 6 && decide (pa % 2 ^ (9 * k) = 0) && !(decide (k = 3) && bit e 5) then (a.1, a.2 ++ [(pa, pa + 2 ^ (9 * k))]) else a)
      else
        let r := pinsFrom m k (4096 * pa)
        (a.1 ++ r.1, a.2 ++ r.2)) ([base / 4096], [])

/-- A home whose tables have changed: which leaves hold tables and which ranges are pinned; the balloon list holds no pinned leaf
(11_translation.md R301, R321, R324). -/
def Home.repinned (h : Home) : Home :=
  let r := (tableEntries h.mem h.artb 65536).foldl (fun (a : List Nat × List (Nat × Nat)) x =>
    if bit x.2 0 && decide (x.2 / 2 ^ 44 = 0 ∧ x.2 / 2 % 2 ^ 11 = 0) then
      let r := pinsFrom h.mem 4 (x.2 / 2 ^ 12 % 2 ^ 32 * 4096)
      (a.1 ++ r.1, a.2 ++ r.2)
    else a) ([], [])
  { h with tables := r.1.eraseDups, pins := r.2.eraseDups,
           balloon := h.balloon.filter (fun l => !r.2.any (fun p => decide (p.1 ≤ l ∧ l < p.2))) }

/-- Whether a leaf holds a part of the root table (11_translation.md R301). -/
def Home.isRoot (h : Home) (leaf : Nat) : Bool := decide (h.artb / 4096 ≤ leaf ∧ leaf < h.artb / 4096 + 128)

/-- Whether a leaf holds page tables, or a part of the root table (11_translation.md R301). -/
def Home.isTable (h : Home) (leaf : Nat) : Bool := h.tables.contains leaf || h.isRoot leaf

/-- A home with another content, its leaves ls encoded anew; they leave the balloon list (11_translation.md R321, R322,
R324). -/
def Home.encoded (h : Home) (m : Mem) (ls : List Nat) : Home :=
  let h1 := { h with mem := m, chunks := ls.foldl (fun a l => SMap.set a 0 l (leafChunks m l)) h.chunks,
                     balloon := h.balloon.filter (fun l => !ls.contains l) }
  if ls.any h.isTable then h1.repinned else h1

/-- A leaf made a zero leaf, its chunks released (11_translation.md R324). -/
def Home.zeroLeaf (h : Home) (leaf : Nat) : Home := h.encoded (h.mem.filter (fun p => decide (p.1 / 4096 ≠ leaf))) [leaf]

/-- The Clearing engine takes leaves from the head of the balloon list until FREEC reaches a goal or the list is empty
(11_translation.md R324). -/
def Home.inflate (h : Home) (goal : Nat) : Nat → Home
  | 0 => h
  | n + 1 =>
    if goal ≤ h.free then h
    else
      match h.balloon with
      | [] => h
      | l :: _ => (h.zeroLeaf l).inflate goal n

/-- The leaves that cells lie in. -/
def leavesOf (cells : List (Nat × Byte)) : List Nat := (cells.map (fun p => p.1 / 4096)).eraseDups

/-- The memory after cells are written in order. -/
def putCells (m : Mem) (cells : List (Nat × Byte)) : Mem := cells.foldl (fun a p => Mem.write a p.1 p.2) m

/-- Whether a home can take new content: no chunk more than before, or chunks that the pool has; the first test is a bound on
the second (11_translation.md R322). -/
def Home.fits (h h1 : Home) (ls : List Nat) : Bool :=
  decide (8 * (h1.mem.length + ls.length + unionSize h1.pins) ≤ Config.poolChunks) || decide (h1.used ≤ h.used ∨ h1.used ≤ Config.poolChunks)

/-- New content of a home and whether the pool could supply its chunks, the Clearing engine taking listed leaves until the chunks
wanted are free; where it could not, it has taken every listed leaf, and the content stays (11_translation.md R322, R324, R325; log
entry 27). -/
def Home.renew (h : Home) (f : Mem → Mem) (ls : List Nat) : Home × Bool :=
  let h1 := h.encoded (f h.mem) ls
  if h.fits h1 ls then (h1, true)
  else
    let h0 := { h with balloon := h1.balloon }
    let h2 := h0.inflate (h1.used - h.used) h0.balloon.length
    let h3 := h2.encoded (f h2.mem) ls
    if h2.fits h3 ls then (h3, true) else (h2, false)

/-- A write at a home. -/
def Home.put (h : Home) (cells : List (Nat × Byte)) : Home × Bool := h.renew (fun m => putCells m cells) (leavesOf cells)

/-! ### The page walk -/

/-- A leaf that a walk ended at: the OFF range it maps, its presented address and its permissions. -/
structure Leaf where
  lo : Nat
  size : Nat
  pa : Nat
  rd : Bool
  w : Bool
  pin : Bool
  ch : Bool
  deriving DecidableEq, Repr

/-- How a walk ends (11_translation.md R302). -/
inductive Walk where
  | leaf (l : Leaf)
  | absent
  | bad
  | wait                     -- a table leaf it reads has a held write (11_translation.md R325)
  deriving DecidableEq, Repr

/-- The walk from a table with k levels left (11_translation.md R302, R304). -/
def walkFrom (m : Mem) (commit off : Nat) : Nat → Nat → Walk
  | 0, _ => .bad
  | k + 1, base =>
    let size := 2 ^ (12 + 9 * k)
    let e := Mem.le m (base + 8 * (off / size % 512)) 8
    let leaf := bit e 1
    let pa := e / 2 ^ 12 % 2 ^ 32 * 4096
    if !bit e 0 then .absent
    else if pteBad e leaf then .bad
    else if leaf then
      (if decide (k = 3) && bit e 5 then .bad
       else if pa % size ≠ 0 then .bad
       else if commit ≤ pa + off % size then .bad
       else .leaf ⟨off / size * size, size, pa, bit e 2, bit e 3, bit e 6, bit e 5⟩)
    else if k = 0 then .bad
    else walkFrom m commit off k pa

/-- Whether a leaf has a write in the expansion hold buffer (11_translation.md R325). -/
def Home.leafHeld (h : Home) (leaf : Nat) : Bool := h.exph.any (fun e => e.cells.any (fun c => decide (c.1 / 4096 = leaf)))

/-- The table leaves that a walk from a table with k levels left reads. -/
def leavesRead (m : Mem) (off : Nat) : Nat → Nat → List Nat
  | 0, _ => []
  | k + 1, base =>
    let e := Mem.le m (base + 8 * (off / 2 ^ (12 + 9 * k) % 512)) 8
    base / 4096 :: (if !bit e 0 || pteBad e (bit e 1) || bit e 1 then [] else leavesRead m off k (e / 2 ^ 12 % 2 ^ 32 * 4096))

/-- The walk from a table with k levels left, which waits for held writes of the tables it reads (11_translation.md R302,
R325). -/
def Home.walkOn (h : Home) (off k base : Nat) : Walk :=
  if !h.exph.isEmpty && (leavesRead h.mem off k base).any h.leafHeld then .wait else walkFrom h.mem h.commit off k base

/-- A fresh walk of an ASID's tables (11_translation.md R301, R302, R325). -/
def Home.walk (h : Home) (asid off : Nat) : Walk :=
  let r := Mem.le h.mem (h.artb + 8 * asid) 8
  if h.leafHeld ((h.artb + 8 * asid) / 4096) then .wait
  else if !bit r 0 || decide (r / 2 ^ 44 ≠ 0 ∨ r / 2 % 2 ^ 11 ≠ 0) then .bad
  else h.walkOn off 4 (r / 2 ^ 12 % 2 ^ 32 * 4096)

/-- The TLB entry of a leaf, of its whole group under CH (11_translation.md R300, R305). -/
def Leaf.tlb (l : Leaf) (asid : Nat) : Tlb :=
  let n := l.lo / l.size % 16
  if l.ch ∧ n * l.size ≤ l.pa ∧ (l.pa - n * l.size) % (16 * l.size) = 0 then
    ⟨asid, l.lo - n * l.size, 16 * l.size, l.pa - n * l.size, l.rd, l.w, l.pin, false⟩
  else ⟨asid, l.lo, l.size, l.pa, l.rd, l.w, l.pin, false⟩

/-- Whether a TLB entry translates an offset of an ASID. -/
def Tlb.covers (x : Tlb) (asid off : Nat) : Bool := decide (x.asid = asid ∧ x.lo ≤ off ∧ off < x.lo + x.size)

/-- The table pointers that a walk from a table with k levels left passes: levels left below each, and its base; an entry of the
last level that is no leaf is none (11_translation.md R300, R302). -/
def pathFrom (m : Mem) (off : Nat) : Nat → Nat → List (Nat × Nat)
  | 0, _ => []
  | k + 1, base =>
    let e := Mem.le m (base + 8 * (off / 2 ^ (12 + 9 * k) % 512)) 8
    let next := e / 2 ^ 12 % 2 ^ 32 * 4096
    if !bit e 0 || pteBad e (bit e 1) || bit e 1 || decide (k = 0) then [] else (k, next) :: pathFrom m off k next

/-- The table pointers of an ASID on the way to an offset, as walk-cache entries. -/
def Home.path (h : Home) (asid off : Nat) : List Wce :=
  let r := Mem.le h.mem (h.artb + 8 * asid) 8
  if !bit r 0 || decide (r / 2 ^ 44 ≠ 0 ∨ r / 2 % 2 ^ 11 ≠ 0) then []
  else (pathFrom h.mem off 4 (r / 2 ^ 12 % 2 ^ 32 * 4096)).map (fun p =>
    ⟨asid, off / 2 ^ (12 + 9 * p.1) * 2 ^ (12 + 9 * p.1), 2 ^ (12 + 9 * p.1), p.1, p.2⟩)

/-- Whether a walk-cache entry is on the way to an offset of an ASID. -/
def Wce.covers (x : Wce) (asid off : Nat) : Bool := decide (x.asid = asid ∧ x.lo ≤ off ∧ off < x.lo + x.size)

/-- Translation of a device-half offset at its home: by a locked entry, by the cached entry that the step names, TLB entries
numbered before those of the walk cache, or by a fresh walk (11_translation.md R300, R302). -/
def Home.lookup (h : Home) (asid off : Nat) (t : Option Nat) : Walk :=
  let use (x : Tlb) : Walk :=
    if h.commit ≤ x.pa + (off - x.lo) then .bad else .leaf ⟨x.lo, x.size, x.pa, x.rd, x.w, x.pin, false⟩
  let fresh : Walk := h.walk asid off
  match h.tlb.find? (fun x => x.locked && x.covers asid off) with
  | some x => use x
  | none =>
    match t with
    | none => fresh
    | some k =>
      match h.tlb[k]? with
      | some x => if x.covers asid off then use x else fresh
      | none =>
        match h.walks[k - h.tlb.length]? with
        | some x => if x.covers asid off then h.walkOn off x.k x.base else fresh
        | none => fresh

/-- What a walker that reads the tables of an ASID at an offset caches: valid entries it holds no copy of
(11_translation.md R300). -/
def Home.cached (h : Home) (asid off : Nat) : Home :=
  let h1 := { h with walks := h.walks ++ (h.path asid off).filter (fun x => !h.walks.contains x) }
  match h.walk asid off with
  | .wait => h
  | .leaf l =>
    if decide (65536 ≤ h.tlb.length) || h.tlb.any (fun x => x.covers asid off) then h1
    else { h1 with tlb := h.tlb ++ [l.tlb asid] }
  | _ => h1

/-! ### Addresses -/

/-- HOME of a device-half address (11_translation.md R297). -/
def homeOf (a : Nat) : Nat := a / 2 ^ 54 % 4
/-- OFF of a device-half address (11_translation.md R297). -/
def offOf (a : Nat) : Nat := a % 2 ^ 48
/-- Whether an address lies in the device half (11_translation.md R297). -/
def isDev (a : Nat) : Bool := decide (2 ^ 63 ≤ a)

/-- Where a byte of a request ends up (11_translation.md R297 to R307, R319). -/
inductive Xl where
  | dev (home pa : Nat) (pin : Bool)
  | fwd (home pa : Nat)      -- by a forwarding entry (11_translation.md R319)
  | host (hpa : Nat)
  | absent (home a : Nat)    -- and the address that finds its page not present
  | fail (home : Nat)
  | frozen (home : Nat)      -- in a migration hold
  | behind                   -- it waits for requests forwarded before it, or for a held write of a table (R320, R325)
  | remote (home : Nat)      -- in another module of the pod group
  deriving DecidableEq, Repr

/-- Whether another module of a stand's pod group is the device of an address (11_translation.md R298; 13_queues.md R367). -/
def State.podHas (s : State) (pgid dev : Nat) : Bool := decide (pgid ≠ 0) && (SMap.get s.sys.pod [] pgid).contains dev

/-- The edge die that serves a host-half address (11_translation.md R299). -/
def State.hostHome (s : State) (a : Nat) : Nat :=
  if s.sys.port0 = 0 then 2 else if s.sys.port2 = 0 then 0 else if bit a 12 then 2 else 0

/-- Translation of one byte address of a request of a stand of PGID pg that needs read or write permission or both; in the recovery
state main memory is not trained, and every access to it waits (11_translation.md R298 to R307, R319; 14_system.md R401). -/
def State.route (s : State) (pg asid a : Nat) (nr nw : Bool) (t : Option Nat) : Xl :=
  if isDev a then
    let e := homeOf a
    if s.sys.state = 2 then .behind
    else if a / 2 ^ 48 % 64 ≠ 0 then .fail e
    else if a / 2 ^ 56 % 128 ≠ s.sys.dev.toNat then (if s.podHas pg (a / 2 ^ 56 % 128) then .remote e else .fail e)
    else
      let h := s.home e
      match h.migs.find? (fun f => decide (f.asid = asid ∧ f.lo ≤ offOf a ∧ offOf a < f.hi)) with
      | some f => if f.published then .fwd f.dhome (f.dppa + (offOf a - f.lo)) else .frozen e
      | none =>
        match h.lookup asid (offOf a) t with
        | .absent => .absent e a
        | .bad => .fail e
        | .wait => .behind
        | .leaf l =>
          if (nr && !l.rd) || (nw && !l.w) then .fail e else .dev e (l.pa + (offOf a - l.lo)) l.pin
  else
    let e := s.hostHome a
    let pasid := SMap.get s.pasids 0 asid
    if a / 2 ^ 57 ≠ 0 ∨ pasid = 0 ∨ (s.sys.port0 = 0 ∧ s.sys.port2 = 0) then .fail e
    else
      match s.sys.ats.find? (fun x => decide (x.pasid + 1 = pasid ∧ x.page = a / 4096)) with
      | some x => if (nr && !x.rd) || (nw && !x.wr) then .fail e else .host (x.hpa + a % 4096)
      | none => .absent e a

/-- An address behind a forwarding entry as it is reached outside the queue of forwarded requests: after them
(11_translation.md R320). -/
def State.settle (s : State) (x : Xl) : Xl :=
  match x with
  | .fwd e pa => if (s.home e).fwded.isEmpty then .dev e pa false else .behind
  | y => y

/-- The presented frame that the tables of an ASID or a forwarding entry give for a device-half address, a freeze and permissions
not regarded (11_translation.md R318, R319). -/
def State.frameAt (s : State) (asid a : Nat) : Option (Nat × Nat) :=
  if isDev a && decide (a / 2 ^ 48 % 64 = 0 ∧ a / 2 ^ 56 % 128 = s.sys.dev.toNat) then
    let h := s.home (homeOf a)
    match h.migs.find? (fun f => f.published && decide (f.asid = asid ∧ f.lo ≤ offOf a ∧ offOf a < f.hi)) with
    | some f => some (f.dhome, f.dppa + (offOf a - f.lo))
    | none =>
      match h.lookup asid (offOf a) none with
      | .leaf l => some (homeOf a, l.pa + (offOf a - l.lo))
      | _ => none
  else none

/-- Translation of one byte address outside any view (11_translation.md R298 to R307). -/
def State.xlat (s : State) (asid a : Nat) (nr nw : Bool) (t : Option Nat) : Xl := s.settle (s.route 0 asid a nr nw t)

/-! ### Views -/

/-- The view that transforms a request of an ASID at an address (09_copy_collective.md R263). -/
def State.viewAt (s : State) (asid a : Nat) : Option View :=
  if isDev a then
    ((s.home (homeOf a)).views.find? (fun p =>
      p.2.valid && decide (p.2.asid = asid ∧ p.2.abase ≤ a ∧ a < p.2.abase + p.2.alen))).map (·.2)
  else none

/-- The target of an aperture byte under transforms 0, 1 and 4; none lies outside the tensor (09_copy_collective.md R263,
R264). -/
def View.target (v : View) (a : Nat) : Option Nat :=
  let o := a - v.abase
  match v.xform with
  | 1 =>
    let tw := max 1 ((v.extc + 31) / 32)
    let x := 32 * (o / 2048 / tw) + o % 64 / 2
    let y := 32 * (o / 2048 % tw) + o % 2048 / 64
    if v.extr ≤ x ∨ v.extc ≤ y then none else some ((v.tbase + x * v.tpitch + 2 * y + o % 2) % 2 ^ 64)
  | 4 => some ((v.tbase + 8 * (o / 8) + 7 - o % 8) % 2 ^ 64)
  | _ => some ((v.tbase + o) % 2 ^ 64)

/-- The 18 target addresses of the FA4 block behind an aperture address (09_copy_collective.md R263). -/
def View.block (v : View) (a : Nat) : List Nat :=
  (List.range 18).map (fun i => (v.tbase + 18 * ((a - v.abase) / 64) + i) % 2 ^ 64)

/-- An aperture byte of transforms 2 and 3 read from its block's bytes (09_copy_collective.md R263, R264). -/
def View.deqByte (v : View) (a : Nat) (blk : List Byte) : Byte :=
  let o := a - v.abase
  if v.extr ≤ 32 * (o / 64) + o % 64 / 2 then 0
  else BitVec.ofNat 8 ((dequant bf16 0 false blk (o % 64 / 2)).1 / 2 ^ (8 * (o % 2)))

/-- The block that 64 bytes written through transform 3 become, and its flags (09_copy_collective.md R263, R264). -/
def View.quant (v : View) (a : Nat) (data : List Byte) : List Byte × Byte :=
  let g := (a - v.abase) / 64
  let b := quantise false 0x1C ((List.range 32).map (fun e =>
    qElOf (decide (v.extr ≤ 32 * g + e)) (BitVec.ofNat 32 (leAt data (2 * e) 2 * 2 ^ 16)))) 0
  (fa4Bytes b, b.flags)

end Sys2Proof.Machine
end

