-- ==== Sys2Proof/Machine/Access.lean ====
section
/-! DEFINITION. A main-memory request at its home: translated, checked and performed, held, retired into the side log or
ended by a fault, and what its issuer learns (11_translation.md R299, R306 to R314, R321 to R325). -/

namespace Sys2Proof.Machine

/-- What becomes of a request. -/
inductive RRes where
  | data (l : List Byte)           -- bytes read, a non-empty prefix of those asked for
  | done (n : Nat) (flags : Byte) (logs : Nat)   -- bytes performed, a non-empty prefix, and the side-log entries among them
  | held                           -- held at the home
  | waiting                        -- in the expansion hold buffer, a migration hold, or forwarded
  | absent (home a : Nat)          -- not present at its first byte, not yet recorded
  | full (home : Nat)              -- a write for which the side log of its page's home is full, not yet recorded
  | fail (home : Nat)              -- unresolvable at its first byte
  | frozen (home : Nat)            -- to be placed in a migration hold
  | forward (home : Nat)           -- to be forwarded after a migration
  | remote (home : Nat)            -- in another module
  | stall                          -- it waits in the network
  deriving DecidableEq, Repr

/-- Whether a kind needs read and write permission (11_translation.md R306). -/
def RKind.needs : RKind → Bool × Bool
  | .read _ => (true, false)
  | .write _ | .cells _ => (false, true)
  | .atomic _ _ _ => (true, true)
  | .table _ => (true, true)

/-- Whether a request needs read and write permission (11_translation.md R306). -/
def Req.needs (r : Req) : Bool × Bool := if r.rw then (true, true) else r.kind.needs

/-- Bytes a request touches. -/
def RKind.len : RKind → Nat
  | .read n => n
  | .write l => l.length
  | .cells l => l.length
  | .atomic w _ _ => w
  | .table _ => 16

/-- Whether a request is held, not side-logged, at a page that is not present (11_translation.md R307, R308). -/
def RKind.isRead : RKind → Bool
  | .read _ => true
  | .table l => l.isEmpty
  | _ => false

/-- Kind codes of fault events (log entry 18): read, write, atomic, and a retirement into the side log. -/
def RKind.code : RKind → Nat
  | .read _ => 0
  | .write _ | .cells _ => 1
  | .table _ => 1
  | .atomic _ _ _ => 2

/-- The kind code of the event of a retirement into the side log (log entry 18). -/
abbrev slogCode : Nat := 3

/-- Whether a request's data go through blocks of 32 elements (09_copy_collective.md R263). -/
def Req.blocked (r : Req) : Bool :=
  match r.view with
  | some v => decide (v.xform = 2 ∨ v.xform = 3)
  | none => false

/-- The targets of a request's bytes, or of its block's bytes: none lies outside the tensor (09_copy_collective.md R263,
R264). -/
def Req.targets (r : Req) : List (Option Nat) :=
  let a := r.addr.toNat
  let plain : List (Option Nat) := (List.range r.kind.len).map (fun i => some ((a + i) % 2 ^ 64))
  match r.kind, r.view with
  | .cells l, _ => l.map (fun c => some ((a + c.1) % 2 ^ 64))
  | _, none => plain
  | _, some v =>
    if v.xform = 2 ∨ v.xform = 3 then
      (if v.extr ≤ (a - v.abase) / 64 * 32 then [] else (v.block a).map some)
    else (List.range r.kind.len).map (fun i => v.target (a + i))

/-- The bytes that a write puts at its targets, and their flags; none where its view permits no such write
(09_copy_collective.md R263, R264). -/
def Req.writes (r : Req) : Option (List Byte × Byte) :=
  match r.kind with
  | .write l =>
    (match r.view.filter (fun _ => r.blocked) with
     | some v =>
       if v.xform = 2 ∨ l.length ≠ 64 ∨ (r.addr.toNat - v.abase) % 64 ≠ 0 then none
       else if r.targets.isEmpty then some ([], 0)
       else some (v.quant r.addr.toNat l)
     | none => some (l, 0))
  | .cells l => some (l.map (·.2), 0)
  | .table l => if r.blocked then none else some (l, 0)
  | .atomic _ _ _ | .read _ => some ([], 0)

/-- A request as its home transforms it (09_copy_collective.md R263; 11_translation.md R299): by the view whose aperture
holds it when it first arrives. -/
def State.fix (s : State) (r : Req) : Req :=
  if r.fixed then r else { r with fixed := true, view := s.viewAt r.asid r.addr.toNat }

/-- Bytes that lie somewhere in main or host memory. -/
def State.xlByte (s : State) (x : Xl) : Byte :=
  match x with
  | .dev h pa _ => Mem.read (s.home h).mem pa
  | .host a => Mem.read s.hostMem a
  | _ => 0

/-- Whether a translated byte holds an uncorrectable error (14_system.md R405). -/
def State.xlBad (s : State) (x : Xl) : Bool :=
  match x with
  | .dev h pa _ => (s.home h).bad.contains pa
  | _ => false

/-- Whether a translated byte's leaf has a write in the expansion hold buffer (11_translation.md R325). -/
def State.leafHeld (s : State) (x : Xl) : Bool :=
  match x with
  | .dev h pa _ => (s.home h).leafHeld (pa / 4096)
  | _ => false

/-- Whether a translation succeeded. -/
def Xl.ok : Xl → Bool
  | .dev _ _ _ | .host _ => true
  | _ => false

/-- Whether a translation found its page not present. -/
def Xl.isAbsent : Xl → Bool
  | .absent _ _ => true
  | _ => false

/-- A translation that did not succeed as a result. -/
def Xl.res : Xl → RRes
  | .absent h a => .absent h a
  | .fail h => .fail h
  | .frozen h => .frozen h
  | .remote h => .remote h
  | _ => .stall

/-- The address of queue q's descriptor (13_queues.md R352; 14_system.md R392). -/
def State.qAddr (s : State) (q : Nat) : Nat := s.sys.qtab.toNat + 64 * q

/-- EN of every queue whose descriptor the write of a byte sets it to 0 in: the command processor sees each change of EN
(13_queues.md R353). -/
def State.watchEn (s : State) (xs : List (Xl × Byte)) : State :=
  { s with queues := s.queues.map (fun x =>
      if x.2.desc.en then
        (match s.xlat 0 (s.qAddr x.1 + 0x1F) true false none with
         | .dev h pa _ =>
           (match (xs.filter (fun p => match p.1 with | .dev e a _ => decide (e = h ∧ a = pa) | _ => false)).getLast? with
            | some p => if p.2.getLsbD 0 then x else (x.1, { x.2 with desc := { x.2.desc with en := false } })
            | none => x)
         | _ => x)
      else x) }

/-- The cells of a list of translated bytes that lie at a home. -/
def cellsAt (h : Nat) (xs : List (Xl × Byte)) : List (Nat × Byte) :=
  xs.filterMap (fun p => match p.1 with | .dev e pa _ => if e = h then some (pa, p.2) else none | _ => none)

/-- Bytes written where translations lead, and the homes whose pool cannot supply the chunks: nothing is written there
(11_translation.md R322). -/
def State.putXl (s : State) (xs : List (Xl × Byte)) : State × List Nat :=
  let host := xs.filterMap (fun p => match p.1 with | .host a => some (a, p.2) | _ => none)
  let r := (List.range 4).foldl (fun (o : State × List Nat) h =>
    let c := cellsAt h xs
    if c.isEmpty then o
    else
      let x := (o.1.home h).put c
      (o.1.setHome h x.1, if x.2 then o.2 else o.2 ++ [h])) ({ s with hostMem := putCells s.hostMem host }, [])
  (r.1.watchEn xs, r.2)

/-- Translated bytes without those of a root table, which only the command processor writes (11_translation.md R301; log entry
86). -/
def State.offRoot (s : State) (xs : List (Xl × Byte)) : List (Xl × Byte) :=
  xs.filter (fun p => match p.1 with | .dev h pa _ => !(s.home h).isRoot (pa / 4096) | _ => true)

/-- Translated bytes written: performed, or placed in the expansion hold buffer of a home that lacks chunks or has a write of
their leaf there, or waiting for room there (11_translation.md R325). -/
def writeXl (s : State) (req : Option Req) (xs0 : List (Xl × Byte)) (n : Nat) (fl : Byte) (logs : Nat) : State × RRes :=
  let xs := s.offRoot xs0
  let old := (List.range 4).filter (fun h => (cellsAt h xs).any (fun c => s.leafHeld (.dev h c.1 false)))
  let free := xs.filter (fun p => match p.1 with | .dev h _ _ => !old.contains h | _ => true)
  let t := s.putXl free
  match old ++ t.2 with
  | [] => (t.1, .done n fl logs)
  | [h] =>
    let o := t.1.home h
    if 256 ≤ o.exph.length then (s, .stall)
    else
      let s' := t.1.setHome h { o with exph := o.exph ++ [⟨req, cellsAt h xs, n, fl, logs, s.nowAt h⟩] }
      (if o.exph.isEmpty then s'.sendEvent 4 (stopOfEdge h) 9 (leBytes 8 h) else s', .waiting)
  | _ => (s, .stall)

/-- The pages of a home that requests of an ASID still wait for: a later request waits behind them as at a page that is not
present (11_translation.md R311, log entry 22). -/
def State.busyAt (s : State) (asid y : Nat) : Option Nat :=
  (List.range 4).find? (fun e =>
    let h := s.home e
    (h.held ++ h.slog).any (fun q => decide (q.asid = asid) && q.targets.any (fun z =>
      match z with | some z => decide (z / 4096 = y / 4096) | none => false)))

/-- The translations of a request's targets; busy: a page that recorded requests wait for counts as not present. -/
def State.routes (s : State) (r : Req) (t : Option Nat) (busy : Bool) : List (Option Xl) :=
  let recorded := busy && (List.range 4).any (fun e => let h := s.home e; !(h.held.isEmpty && h.slog.isEmpty))
  let one (y : Nat) : Xl := s.route r.pgid r.asid y r.needs.1 r.needs.2 t
  r.targets.map (fun o => o.map (fun y =>
    if recorded then (match s.busyAt r.asid y with | some e => .absent e y | none => one y) else one y))

/-- The home at which every translation of a list forwards, where they all do. -/
def forwardTo (xs : List (Option Xl)) : Option Nat :=
  match xs.filterMap id with
  | .fwd h _ :: _ => if xs.all (fun x => match x with | some (.fwd e _) => decide (e = h) | none => true | _ => false) then some h else none
  | _ => none

/-- A poison event of the first byte of a list with an uncorrectable error (14_system.md R405). -/
def State.poison (s : State) (xs : List Xl) : State :=
  match xs.find? (fun x => s.xlBad x) with
  | some (.dev h pa _) => s.sendEvent 9 (stopOfEdge h) 9 (leBytes 8 h ++ leBytes 8 pa)
  | _ => s

/-- A read at its translated targets (09_copy_collective.md R263, R264; 11_translation.md R325; 14_system.md R405): a prefix of
its bytes, up to the first that does not translate or is poisoned. -/
def readAt (s : State) (r : Req) (home : Nat) (xs : List (Option Xl)) : State × RRes :=
  let a := r.addr.toNat
  let ok (o : Option Xl) : Bool := match o with | some x => x.ok | none => true
  let pre := xs.takeWhile ok
  let stop : RRes := match xs.drop pre.length with | some x :: _ => x.res | _ => .stall
  let whole := r.blocked || (match r.kind with | .table _ => true | _ => false)
  let good := pre.takeWhile (fun o => match o with | some x => !s.xlBad x | none => true)
  let byteOf (o : Option Xl) : Byte := match o with | some x => s.xlByte x | none => 0
  if whole && decide (pre.length ≠ xs.length) then (s, stop)
  else if pre.isEmpty && !xs.isEmpty then (s, stop)
  else if pre.any (fun o => match o with | some x => s.leafHeld x | none => false) then (s, .stall)
  else if (whole && decide (good.length ≠ pre.length)) || (good.isEmpty && !pre.isEmpty) then (s.poison (pre.filterMap id), .fail home)
  else
    match r.view.filter (fun _ => r.blocked) with
    | some v =>
      (s, .data ((List.range r.kind.len).map (fun i => if xs.isEmpty then 0 else v.deqByte (a + i) (pre.map byteOf))))
    | none => (s, .data (good.map byteOf))

/-- CORE_ID and token that a request belongs to, for its event (11_translation.md R307). -/
def State.issuer (s : State) (o : Origin) : Nat × Nat :=
  match o with
  | .job c t | .coll c t =>
    (s.coreId c, match (s.core c).jobs.find? (fun j => decide (j.tag = t)) with | some j => j.tok.val | none => 0)
  | .pkt _ | .pod => (0xFFFF, 0)

/-- The event of a hold or an unresolvable fault (11_translation.md R307). -/
def State.reqEvent (s : State) (home : Nat) (r : Req) : State :=
  let i := s.issuer r.org
  s.faultEvent home r.asid r.kind.code i.1 i.2 r.addr

/-- Bytes of a request grouped into side-log entries, one for each line, with their places in the request
(11_translation.md R309). -/
def lineGroups (l : List (Nat × Nat × Byte)) : List (Nat × List (Nat × Nat × Byte)) :=
  ((l.map (fun c => c.2.1 / 64)).eraseDups).map (fun n => (n, l.filter (fun c => decide (c.2.1 / 64 = n))))

/-- Side-log entries of a write, at the homes of their lines, each with the permissions its request needs and the bytes of its job
that it stands for (11_translation.md R306, R309, R314). -/
def logLines (s : State) (r : Req) (l : List (Nat × Nat × Nat × Byte)) : State × Nat :=
  (List.range 4).foldl (fun (o : State × Nat) h =>
    let gs := lineGroups ((l.filter (fun c => decide (c.2.2.1 = h))).map (fun c => (c.1, c.2.1, c.2.2.2)))
    gs.foldl (fun (o : State × Nat) g =>
      let e : Req := { r with kind := .cells (g.2.map (fun c => (c.2.1 % 64, c.2.2))), addr := BitVec.ofNat 64 (64 * g.1), view := none,
                              replay := true, pos := r.pos + (g.2.map (·.1)).foldl min r.kind.len,
                              rw := (match r.kind with | .table _ => true | _ => r.rw),
                              n := if r.blocked then r.kind.len else g.2.length }
      let t := o.1.setHome h { o.1.home h with slog := (o.1.home h).slog ++ [e] }
      let i := t.issuer r.org
      (t.faultEvent h r.asid slogCode i.1 i.2 e.addr, o.2 + 1)) o) (s, 0)

/-- A job replaced, by its tag. -/
def Core.setJob (c : Core) (j : CJob) : Core :=
  { c with jobs := c.jobs.map (fun x => if x.tag = j.tag then j else x) }

/-- The job of a go. -/
def Core.job? (c : Core) (tag : Nat) : Option CJob := c.jobs.find? (fun j => decide (j.tag = tag))

/-- The job of a request's issuer changed, n bytes charged. -/
def State.onJob (s : State) (k tag n : Nat) (f : CJob → CJob) : State :=
  let c := s.core k
  match c.job? tag with
  | none => s
  | some j => s.setCore k ((c.setJob (f j)).charge n)

/-- A request of a job left k entries in side logs (11_translation.md R310). -/
def State.addLogs (s : State) (r : Req) (k : Nat) : State :=
  match r.org with
  | .job c tag | .coll c tag => s.onJob c tag 0 (fun j => { j with slog := j.slog + k })
  | .pkt _ | .pod => s

/-- A write at its translated targets: a prefix of its bytes, up to the first that does not translate; bytes of pages that are
not present retire into side logs (09_copy_collective.md R264; 11_translation.md R309, R312, R325). -/
def writeAt (s : State) (r : Req) (home : Nat) (xs : List (Option Xl)) (data : List Byte) (fl : Byte) : State × RRes :=
  let n := r.kind.len
  let whole := r.blocked || (match r.kind with | .table _ => true | _ => false)
  let pass (o : Option Xl) : Bool := match o with | some x => x.ok || x.isAbsent | none => true
  let pre := xs.takeWhile pass
  let stop : RRes := match xs.drop pre.length with | some x :: _ => x.res | _ => .stall
  let cellOf (p : (Option Xl × Byte) × Nat) : Option (Nat × Nat × Nat × Byte) :=
    match p.1.1 with | some (.absent h y) => some (p.2, y, h, p.1.2) | _ => none
  let items (k : Nat) : List ((Option Xl × Byte) × Nat) := ((pre.zip data).take k).zipIdx
  let logs (k : Nat) : List (Nat × Nat × Nat × Byte) := (items k).filterMap cellOf
  let fits (k : Nat) : Bool := (List.range 4).all (fun h =>
    decide ((lineGroups (((logs k).filter (fun c => decide (c.2.2.1 = h))).map (fun c => (c.1, c.2.1, c.2.2.2)))).length
      + (s.home h).slog.length ≤ 4096))
  let go (k m : Nat) : State × RRes :=
    let l := (logs k).map (fun c => if r.blocked then (0, c.2) else c)
    let t := logLines s r l
    let w := (items k).filterMap (fun p => match p.1.1 with | some x => if x.ok then some (x, p.1.2) else none | none => none)
    let x := writeXl t.1 (some r) w m fl 0
    match x.2 with
    | .stall => (s, .stall)
    | .waiting => (x.1.addLogs r t.2, .waiting)
    | _ => (x.1, .done m fl t.2)
  if xs.isEmpty then (s, .done n fl 0)
  else if whole && decide (pre.length ≠ xs.length) then (s, stop)
  else if pre.isEmpty then (s, stop)
  else if fits pre.length then go pre.length (if whole then n else pre.length)
  else
    match (items pre.length).find? (fun p => (cellOf p).isSome) with
    | some p => if whole || decide (p.2 = 0) then (s, .full ((cellOf p).elim home (·.2.2.1))) else go p.2 p.2
    | none => (s, .stall)

/-- A request at translated targets, nothing recorded yet beside its side-log entries; a view of blocks permits reads and
writes of whole groups alone (09_copy_collective.md R257, R263, R264; 11_translation.md R306, R309, R312; 14_system.md R405). -/
def performXl (s : State) (r : Req) (home : Nat) (xs : List (Option Xl)) : State × RRes :=
  match r.kind with
  | .read _ => readAt s r home xs
  | .table [] => if r.blocked then (s, .fail home) else readAt s r home xs
  | .atomic w op x =>
    let l := xs.filterMap id
    if r.blocked then (s, .fail home)
    else
      match l.find? (fun y => !y.ok) with
      | some (.absent h z) => (s, if 4096 ≤ (s.home h).slog.length then .full h else .absent h z)
      | some y => (s, y.res)
      | none =>
        if l.any (fun y => s.leafHeld y) then (s, .stall)
        else if l.any (fun y => s.xlBad y) then (s.poison l, .fail home)
        else
          let old := BitVec.ofNat 64 (ofLe (xs.map (fun o => match o with | some y => s.xlByte y | none => 0)))
          let new := leBytes w (amoOp op (8 * w) old x 0).toNat
          writeXl s (some r) ((xs.zip new).filterMap (fun p => p.1.map (fun y => (y, p.2)))) w 0 0
  | _ =>
    match r.writes with
    | some d => writeAt s r home xs d.1 d.2
    | none => (s, .fail home)

/-- A request translated at its home and performed there, nothing recorded yet (11_translation.md R299, R319). -/
def attempt (s : State) (r : Req) (t : Option Nat) (busy : Bool) : State × RRes :=
  let a := r.addr.toNat
  let xs := s.routes r t busy
  match forwardTo xs with
  | some h => (s, .forward h)
  | none => performXl s r (if isDev a then homeOf a else s.hostHome a) (xs.map (fun o => o.map s.settle))

/-- A request with a record of its own in the side log: an atomic (11_translation.md R309). -/
def logAtomic (s : State) (r : Req) (home : Nat) : State :=
  let t := s.setHome home { s.home home with slog := (s.home home).slog ++ [{ r with replay := true }] }
  let i := t.issuer r.org
  t.faultEvent home r.asid slogCode i.1 i.2 r.addr

/-- A request held at a home (11_translation.md R308, R309). -/
def holdReq (s : State) (r : Req) (home : Nat) : State :=
  (s.setHome home { s.home home with held := (s.home home).held ++ [r] }).reqEvent home r

/-- A page request to the host for a host-half page (11_translation.md R307). -/
def State.askHost (s : State) (asid a : Nat) : State :=
  let page := (SMap.get s.pasids 0 asid - 1, a / 4096)
  if isDev a || s.sys.pageReqs.contains page then s else { s with sys := { s.sys with pageReqs := s.sys.pageReqs ++ [page] } }

/-- The addresses of a request's targets that find no page. -/
def absentOf (xs : List (Option Xl)) : List Nat :=
  xs.filterMap (fun o => match o with | some (.absent _ a) => some a | _ => none)

/-- A request put into the queue of forwarded requests of its destination (11_translation.md R319, R320). -/
def forwardReq (s : State) (r : Req) (home : Nat) (xs : List (Option Xl)) : State :=
  let pas := xs.map (fun o => match o with | some (.fwd _ pa) => some pa | _ => none)
  s.setHome home { s.home home with fwded := (s.home home).fwded ++ [⟨r, pas⟩] }

/-- A request at its home: performed, held, side-logged, forwarded or failed, the event of it sent
(11_translation.md R299, R307 to R309, R319). -/
def accessMain (s : State) (r0 : Req) (t : Option Nat) : State × RRes :=
  let r := s.fix r0
  let xs := s.routes r t true
  let asked := (absentOf xs).foldl (fun u a => u.askHost r.asid a) s
  let x := attempt s r t true
  match x.2 with
  | .absent h _ =>
    (match r.kind with
     | .atomic w _ _ => (logAtomic asked r h, .done w 0 1)
     | _ => (holdReq asked r h, .held))
  | .full h => (holdReq asked r h, .held)
  | .fail h => (x.1.reqEvent h r, .fail h)
  | .frozen h => (x.1.setHome h { x.1.home h with mighold := (x.1.home h).mighold ++ [r] }, .waiting)
  | .forward h => (forwardReq s r h xs, .waiting)
  | .done n fl k => if k = 0 then x else ((absentOf xs).foldl (fun u a => u.askHost r.asid a) x.1, .done n fl k)
  | .waiting => ((absentOf xs).foldl (fun u a => u.askHost r.asid a) x.1, .waiting)
  | _ => x

/-! ### What the issuer learns -/

/-- The packet of queue q that has started has met a fault at its home: it will complete REJECTED (13_queues.md R364, R380). -/
def State.failPkt (s : State) (q : Nat) : State :=
  s.setQueue q { s.queue q with pkts := (s.queue q).pkts.map (fun p => if p.started then { p with failed := true } else p) }

/-- KIND of a card (09_copy_collective.md R253). -/
def cardKind (card : BitVec 512) : Nat := card.toNat % 16

/-- n bytes of the record of one block (09_copy_collective.md R258). -/
def deltaRecord : Nat := 4160

/-- n bytes of a request have been performed, k side-log entries among them: the job goes on (09_copy_collective.md R246, R256
to R258, R272); one that has ended counts no byte after its end (11_translation.md R310), a cancelled one keeps no bytes of its
next line (R249). -/
def CJob.wrote (j : CJob) (r : Req) (n : Nat) (fl : Byte) (k : Nat) : CJob :=
  let isOver : Bool := match j.ended with | some e => e ≠ 0 | none => false
  let j := { j with asked := false, held := false, flags := j.flags ||| fl, slog := j.slog + k }
  if isOver then j
  else
  match r.kind with
  | .atomic w _ _ => { j with pos := j.pos + 1, doneb := j.doneb + w }
  | .table _ => { j with pos := j.pos + 1, off := j.doneb, buf := none }
  | _ =>
    match j.card.map cardKind with
    | some 5 => { j with doneb := j.doneb + n }
    | _ => { j with pos := j.pos + n, doneb := j.doneb + n,
                    buf := match j.buf with
                      | some l => if j.cancel || decide (l.length ≤ n) then none else some (l.drop n)
                      | none => none }

/-- A request of a collective rank has failed: a source read ends the use, a destination write leaves out the bytes that fault
(11_translation.md R314, R429). -/
def CJob.skips (j : CJob) (r : Req) (st : Byte) : CJob :=
  let j := { j with asked := false, held := false }
  match r.kind with
  | .read _ => if j.ended.isSome then j else { j with ended := some st, faddr := r.addr }
  | k =>
    let n := if r.view.isSome && !r.blocked then 1 else k.len
    { j with pos := j.pos + n, nfault := 1, faddr := if j.nfault = 0 then r.addr else j.faddr,
             cause := if j.nfault = 0 then st else j.cause }

/-- A copy job's request has failed at its first byte: bytes that the job holds from before it are still written
(11_translation.md R312). -/
def CJob.fails (j : CJob) (r : Req) (st : Byte) : CJob :=
  let j := { j with asked := false, held := false }
  match r.kind, j.buf with
  | .read _, some (_ :: _) =>
    if (j.card.map cardKind) = some 5 then { j with ended := some st, faddr := r.addr } else { j with flush := some (st, r.addr) }
  | _, _ => { j with ended := some st, faddr := r.addr }

/-- Bytes that a performed request charges (09_copy_collective.md R272). -/
def Req.charges (r : Req) (n : Nat) : Nat :=
  match r.kind with
  | .read _ => 0
  | _ => n

/-- The issuer of a request learns its result (09_copy_collective.md R246; 11_translation.md R308 to R312, R314). -/
def reply (s : State) (r : Req) (x : RRes) : State :=
  match r.org with
  | .job k tag =>
    (match x with
     | .data l => s.onJob k tag 0 (fun j => { j with asked := false, held := false, buf := some (j.buf.getD [] ++ l) })
     | .done n fl e => s.onJob k tag (r.charges n) (fun j => j.wrote r n fl e)
     | .held => s.onJob k tag 0 (fun j => { j with held := true })
     | .fail _ => s.onJob k tag 0 (fun j => j.fails r 0x02)
     | _ => s)
  | .coll k tag =>
    (match x with
     | .data l => s.onJob k tag 0 (fun j => { j with asked := false, held := false, buf := some (j.buf.getD [] ++ l) })
     | .done n fl e => s.onJob k tag (r.charges n) (fun j =>
         { j with asked := false, held := false, flags := j.flags ||| fl, slog := j.slog + e, pos := j.pos + n, doneb := j.doneb + n })
     | .held => s.onJob k tag 0 (fun j => { j with held := true })
     | .fail _ => s.onJob k tag 0 (fun j => j.skips r 0x02)
     | _ => s)
  | .pkt q =>
    (match x with
     | .fail _ => s.failPkt q
     | _ => s)
  | .pod => s

/-- A side-log entry has been replayed: one entry fewer waits (11_translation.md R310). -/
def replayed (s : State) (r : Req) : State :=
  match r.org with
  | .job k tag | .coll k tag => s.onJob k tag 0 (fun j => { j with slog := j.slog - 1 })
  | .pkt _ | .pod => s

/-- Whether a status is that of a fault at a byte in job order (11_translation.md R310, R312, R325). -/
def faultEnd (o : Option Byte) : Bool :=
  match o with
  | some e => decide (e = 2 ∨ e = 3 ∨ e = 4)
  | none => false

/-- Whether a request of a copy job lies at or after the byte its job has faulted at: it is never performed (11_translation.md
R310, R312). -/
def State.afterFault (s : State) (r : Req) : Bool :=
  match r.org with
  | .job k tag => (match (s.core k).job? tag with | some j => faultEnd j.ended && decide (j.doneb ≤ r.pos) | none => false)
  | .coll _ _ | .pkt _ | .pod => false

/-- Requests that wait at the homes are dropped. -/
def State.purge (s : State) (gone : Req → Bool) : State :=
  (List.range 4).foldl (fun t e =>
    let h := t.home e
    t.setHome e { h with
      held := h.held.filter (fun r => !gone r), slog := h.slog.filter (fun r => !gone r), mighold := h.mighold.filter (fun r => !gone r),
      fwded := h.fwded.filter (fun f => !gone f.req),
      exph := h.exph.filter (fun x => match x.req with | some r => !gone r | none => true) }) s

/-- Requests in the network are dropped. -/
def State.recall (s : State) (gone : Req → Bool) : State :=
  let keep (f : Flit) : Bool := match f.load with | .req r => !gone r | _ => true
  { s with air := s.air.filter keep, stops := s.stops.map (fun x => (x.1, { x.2 with wait := x.2.wait.filter keep })) }

/-- Entries in side logs that a test selects. -/
def State.slogCount (s : State) (p : Req → Bool) : Nat := ((List.range 4).map (fun e => ((s.home e).slog.filter p).length)).sum

/-- A side-log entry is discarded with a status: a copy job's DONEB ends before it, and what its job still has waiting at the homes
after that byte goes too; a collective rank's DONEB counts the entry's bytes out, as at a fault of the write (11_translation.md R310,
R312, R314).  DESIGN CHOICE (log entry 88): a rank's first faulting address is the first in time. -/
def discarded (s : State) (r : Req) (st : Byte) : State :=
  match r.org with
  | .job k tag =>
    let late (q : Req) : Bool := decide (q.org = r.org ∧ r.pos < q.pos)
    let first : Bool := match (s.core k).job? tag with
      | some j => (match j.ended with | none => true | some e => e = 0 || decide (r.pos < j.doneb))
      | none => false
    let n := if first then s.slogCount late else 0
    let t := if first then (s.purge late).recall late else s
    t.onJob k tag 0 (fun j =>
      { (if first then { j with ended := some st, doneb := min r.pos j.doneb, faddr := r.addr, asked := false, held := false } else j) with
        slog := j.slog - 1 - n })
  | .coll k tag =>
    s.onJob k tag 0 (fun j =>
      { j with slog := j.slog - 1, doneb := if j.gone.contains r.pos then j.doneb else j.doneb - r.n, nfault := 1,
               gone := if r.n = r.kind.len then j.gone else r.pos :: j.gone,
               faddr := if j.nfault = 0 then r.addr else j.faddr, cause := if j.nfault = 0 then st else j.cause })
  | .pkt q => s.failPkt q
  | .pod => s

/-- A request that its home held is finished: a replayed one has been counted already, another's issuer learns its result
(11_translation.md R308 to R311, R319, R325). -/
def deliver (s : State) (r : Req) (x : RRes) : State :=
  if r.replay then
    match x with
    | .done _ _ _ | .data _ => replayed s r
    | .fail _ => discarded s r 0x02
    | _ => s
  else reply s r x

/-! ### Retries -/

/-- Whether a recorded request touches a range of addresses of an ASID. -/
def Req.touches (r : Req) (asid lo hi : Nat) : Bool :=
  decide (r.asid = asid) && (r.targets.filterMap id).any (fun a => decide (lo ≤ a ∧ a < hi))

/-- A recorded request after its retry: it waits on at home e, its retry still due unless its page is not present
(11_translation.md R311, R325). -/
def State.rest (s : State) (r : Req) : Req :=
  { r with due := match (attempt s r none false).2 with | .absent _ _ => false | _ => true }

/-- One side-log entry retried: applied, discarded, or kept behind one that has to wait (11_translation.md R310, R311). -/
def retryEntry (home : Nat) (p : State × Bool) (r : Req) : State × Bool :=
  let s := p.1
  let keep (t : State) (q : Req) : State := t.setHome home { t.home home with slog := (t.home home).slog ++ [q] }
  if s.afterFault r then (replayed s r, p.2)
  else if p.2 then (keep s { r with due := true }, true)
  else
    let x := attempt s r none false
    match x.2 with
    | .done _ _ _ => (replayed x.1 r, false)
    | .fail h => (discarded (x.1.reqEvent h r) r 0x02, false)
    | .waiting => (x.1, false)
    | .forward h => (forwardReq s r h (s.routes r none false), false)
    | .absent _ _ => (keep s { r with due := false }, false)
    | _ => (keep s { r with due := true }, true)

/-- One held request retried; what is left of one performed in part is the job's next request (11_translation.md R311). -/
def retryHeld (home : Nat) (s : State) (r : Req) : State :=
  let keep (t : State) (e : Nat) : State := t.setHome e { t.home e with held := (t.home e).held ++ [s.rest r] }
  let x := attempt s r none true
  if s.afterFault r then s
  else
    match x.2 with
    | .absent e _ | .full e => if e = home then keep s home else (keep s e).reqEvent e r
    | .stall | .remote _ => keep s home
    | .fail h => deliver (x.1.reqEvent h r) r x.2
    | .frozen h => x.1.setHome h { x.1.home h with mighold := (x.1.home h).mighold ++ [r] }
    | .forward h => forwardReq s r h (s.routes r none true)
    | .held | .waiting => x.1
    | _ => deliver x.1 r x.2

/-- A retry at a home of the recorded requests that p selects: side-log entries in arrival order, then held requests
(11_translation.md R311). -/
def retryAt (s : State) (home : Nat) (p : Req → Bool) : State :=
  let h := s.home home
  let s1 := s.setHome home { h with slog := h.slog.filter (fun r => !p r) }
  let s2 := ((h.slog.filter p).foldl (retryEntry home) (s1, false)).1
  let h2 := s2.home home
  let hs := h2.held.filter p
  hs.foldl (retryHeld home) (s2.setHome home { h2 with held := h2.held.filter (fun r => !p r) })

/-- The retries that were ordered and had to wait at the homes are made again (11_translation.md R311, R325). -/
def retryDue (s : State) : State :=
  (List.range 4).foldl (fun t e =>
    let h := t.home e
    if (h.slog ++ h.held).any (·.due) then retryAt t e (·.due) else t) s

/-- A recorded request declared unresolvable, with the event of its fault (11_translation.md R307, R308, R310, R314). -/
def failOne (home : Nat) (s : State) (r : Req) : State :=
  let t := s.reqEvent home r
  if s.afterFault r then (if r.replay then replayed s r else s)
  else if r.replay then discarded t r 0x03
  else
    match r.org with
    | .job k tag => t.onJob k tag 0 (fun j => j.fails r 0x03)
    | .coll k tag => t.onJob k tag 0 (fun j => j.skips r 0x03)
    | .pkt q => t.failPkt q
    | .pod => t

/-- The recorded requests that p selects are declared unresolvable (11_translation.md R308, R310; 13_queues.md R383). -/
def failAt (s : State) (home : Nat) (p : Req → Bool) : State :=
  let h := s.home home
  let s1 := s.setHome home { h with slog := h.slog.filter (fun r => !p r), held := h.held.filter (fun r => !p r) }
  ((h.slog ++ h.held).filter p).foldl (failOne home) s1

/-! ### Requests of the command processor -/

/-- A request of the command processor (11_translation.md R299). -/
def cpReq (o : Origin) (asid : Nat) (kind : RKind) (a : Nat) : Req :=
  { org := o, asid := asid, kind := kind, addr := BitVec.ofNat 64 a, ptag := false, prio := 0, pos := 0, replay := false, pgid := 0,
    view := none, fixed := false }

/-- The issuer of the command processor's own accesses: frames, descriptors and the journal. -/
def cpOwn : Origin := .pkt 8192

/-- Whether a request of an issuer is still recorded somewhere. -/
def State.pending (s : State) (o : Origin) : Bool :=
  let mine (r : Req) : Bool := decide (r.org = o)
  let flit (f : Flit) : Bool := match f.load with | .req r => mine r | _ => false
  (List.range 4).any (fun e =>
    let h := s.home e
    (h.held ++ h.slog ++ h.mighold).any mine || h.fwded.any (fun x => mine x.req)
      || h.exph.any (fun x => match x.req with | some r => mine r | none => false))
  || s.air.any flit || s.stops.any (fun x => x.2.wait.any flit)

/-- Whether an own write of the command processor to a range is still under way to its home: what follows it there waits. -/
def ownIn (l : List Flit) (asid a n : Nat) : Bool :=
  l.any (fun f => match f.load with
    | .req r => decide (r.org = cpOwn ∧ r.asid = asid ∧ r.addr.toNat < a + n ∧ a < r.addr.toNat + r.kind.len)
    | _ => false)

/-- An address at which an access of the command processor found no page: a read of it is held there (11_translation.md R307,
R308). -/
def holdAt (s : State) (o : Origin) (asid y : Nat) : State :=
  holdReq (s.askHost asid y) { cpReq o asid (.read 1) y with fixed := true } (if isDev y then homeOf y else s.hostHome y)

end Sys2Proof.Machine
end

