-- ==== Sys2Proof/Machine/Shake.lean ====
section
/-! DEFINITION. SHAKE256 of FIPS 202, which the spec names and does not define (log entry 12; 09_copy_collective.md R258;
14_system.md R403). -/

namespace Sys2Proof.Machine

/-- Lane (x, y) of a sponge state: 25 words, sheet after sheet, each of five lanes with rising y. -/
def spongeLane (st : List Word) (x y : Nat) : Word := st.getD (x % 5 * 5 + y % 5) 0

/-- A sponge state from its lanes. -/
def spongeOf (f : Nat → Nat → Word) : List Word := (List.range 5).flatMap (fun x => (List.range 5).map (f x))

/-- The parity word of sheet x. -/
def spongeParity (st : List Word) (x : Nat) : Word := (List.range 5).foldl (fun w y => w ^^^ spongeLane st x y) 0

/-- The step θ: each lane takes in the parities of the sheets beside its own. -/
def spongeMix (st : List Word) : List Word :=
  let par := (List.range 5).map (spongeParity st)
  let beside := (List.range 5).map (fun x => par.getD ((x + 4) % 5) 0 ^^^ BitVec.rotateLeft (par.getD ((x + 1) % 5) 0) 1)
  (List.range 5).flatMap (fun x => (List.range 5).map (fun y => beside.getD x 0 ^^^ spongeLane st x y))

/-- The rotation of lane (x, y) in the step ρ: the amounts, six bits each, in one number, that of lane (0, 0) lowest. -/
def spongeTurn (x y : Nat) : Nat := 0xE22751BE1567773D3EB1BE0AD2AC052A43900 / 64 ^ (5 * x + y) % 64

/-- The steps ρ and π: lane (y, 2x + 3y) becomes lane (x, y) turned. -/
def spongeStir (st : List Word) : List Word :=
  spongeOf (fun x y =>
    let u := (x + 3 * y) % 5
    BitVec.rotateLeft (spongeLane st u x) (spongeTurn u x))

/-- The step χ: a lane changes where the next one is clear and the one after it set. -/
def spongeBend (st : List Word) : List Word :=
  spongeOf (fun x y => (spongeLane st (x + 2) y &&& ~~~spongeLane st (x + 1) y) ^^^ spongeLane st x y)

/-- The constant of round k in the step ι: its bit 2^j - 1 is bit j of byte k of a number. -/
def spongeConst (k : Nat) : Word :=
  let b := 0x7421587966164852535D4F3F26350C0E5579211F705E1A01 / 256 ^ k
  BitVec.ofNat 64 ((List.range 7).foldl (fun a j => if b.testBit j then a + 2 ^ (2 ^ j - 1) else a) 0)

/-- Round k of the permutation. -/
def spongeRound (st : List Word) (k : Nat) : List Word :=
  (spongeBend (spongeStir (spongeMix st))).modifyHead (spongeConst k ^^^ ·)

/-- The permutation of 24 rounds on 1,600 bits. -/
def spongePermute (st : List Word) : List Word := (List.range 24).foldl spongeRound st

/-- A state that takes in a block: word i of the block, of which words past its end are 0, goes to the lane i mod 5, i / 5. -/
def spongeTake (st : List Word) (blk : List Byte) : List Word :=
  spongeOf (fun x y => spongeLane st x y ^^^ BitVec.ofNat 64 (leAt blk (8 * (x + 5 * y)) 8))

/-- The bytes of a state, lanes in the order of their numbers x + 5y. -/
def spongeBytes (st : List Word) : List Byte :=
  (List.range 25).flatMap (fun i => leBytes 8 (spongeLane st i (i / 5)).toNat)

/-- A message made up to whole blocks of 136 bytes: the suffix 1111, then the bits 1, zeros and 1. -/
def spongeFill (m : List Byte) : List Byte :=
  let z := m ++ 0x1F :: List.replicate (135 - m.length % 136) 0
  z.dropLast ++ [z.getLastD 0 ||| 0x80]

/-- The first n bytes of SHAKE256, n at most 136. -/
def shake256 (m : List Byte) (n : Nat) : List Byte :=
  let z := spongeFill m
  let st := (List.range (z.length / 136)).foldl (fun st i => spongePermute (spongeTake st ((z.drop (136 * i)).take 136))) []
  (spongeBytes st).take n

end Sys2Proof.Machine
end

