-- ==== Sys2Proof/Machine/Copy.lean ====
section
/-! DEFINITION. Job cards and copy jobs: the card read and its checks, footprints, the kinds COPY, FILL, GATHER, AMO and
DELTA, tokens, and the triggers of CPY and COL (09_copy_collective.md R241 to R260). -/

namespace Sys2Proof.Machine

/-! ### Cards (09_copy_collective.md R252 to R255, R265) -/

/-- n bytes of a card from an offset. -/
def cf (card : BitVec 512) (off n : Nat) : Nat := card.toNat / 2 ^ (8 * off) % 2 ^ (8 * n)

/-- A field of n bits of CTRL. -/
def ctrlF (card : BitVec 512) (lo n : Nat) : Nat := card.toNat / 2 ^ lo % 2 ^ n

/-- An I32 field. -/
def i32 (n : Nat) : Int := if n < 2 ^ 31 then (n : Int) else (n : Int) - 2 ^ 32

/-- An address of a card: its space and its number (09_copy_collective.md R254). -/
structure CAddr where
  main : Bool
  a : Nat
  deriving DecidableEq, Repr

/-- An address field read by its mode (09_copy_collective.md R254). -/
def Core.resolve (c : Core) (mode field : Nat) : CAddr :=
  match mode with
  | 0 => ⟨false, field % 2 ^ 32⟩
  | 1 => ⟨true, field⟩
  | _ => ⟨true, ((SMap.get c.ctx.bind 0 (field / 2 ^ 60)).toNat + field % 2 ^ 60) % 2 ^ 64⟩

/-- SRC of a card, its address mode applied. -/
def Core.srcOf (c : Core) (card : BitVec 512) : CAddr := c.resolve (ctrlF card 7 2) (cf card 8 8)
/-- DST of a card, its address mode applied. -/
def Core.dstOf (c : Core) (card : BitVec 512) : CAddr := c.resolve (ctrlF card 9 2) (cf card 16 8)

/-- An address of a space after arithmetic (09_copy_collective.md R256). -/
def wrapA (main : Bool) (x : Int) : Nat := (x % (if main then 2 ^ 64 else 2 ^ 32)).toNat

/-- The number of positions of a card in job order: bytes, or words for AMO (09_copy_collective.md R256). -/
def cardTotal (card : BitVec 512) : Nat :=
  if cf card 24 4 = 0 then 0
  else if cardKind card = 4 then cf card 28 4 * cf card 32 4
  else cf card 24 4 * cf card 28 4 * cf card 32 4

/-- Plane, row and byte of a position (09_copy_collective.md R256); AMO does not iterate the byte. -/
def posOf (card : BitVec 512) (p : Nat) : Nat × Nat × Nat :=
  let n0 := if cardKind card = 4 then 1 else cf card 24 4
  (p / (n0 * cf card 28 4), p / n0 % cf card 28 4, p % n0)

/-- The destination address of a position (09_copy_collective.md R256). -/
def dstAt (c : Core) (card : BitVec 512) (p : Nat) : Nat :=
  let b := c.dstOf card
  let i := posOf card p
  wrapA b.main ((b.a : Int) + i.1 * i32 (cf card 48 4) + i.2.1 * i32 (cf card 44 4) + i.2.2)

/-- The index of a gathered row (09_copy_collective.md R256). -/
def gatherIdx (s : State) (n : Nat) (card : BitVec 512) (row : Nat) : Nat :=
  ofLe (s.localBytes n ((cf card 52 4 + 4 * row) % 2 ^ 32) 4)

/-- The source address of a position, a gathered row's index being ix, its offset taken in its space; none where a gathered element
leaves [SRC, SRC + RLEN) (09_copy_collective.md R256). -/
def srcVia (c : Core) (card : BitVec 512) (ix p : Nat) : Option Nat :=
  let b := c.srcOf card
  let i := posOf card p
  if cardKind card = 3 then
    let o := wrapA b.main ((ix : Int) * i32 (cf card 36 4))
    if cf card 56 8 < o + cf card 24 4 then none else some (wrapA b.main ((b.a : Int) + o + i.2.2))
  else some (wrapA b.main ((b.a : Int) + i.1 * i32 (cf card 40 4) + i.2.1 * i32 (cf card 36 4) + i.2.2))

/-- The index of the gathered row of a position: of a row that has begun as it was read then, of a later row as it stands
(09_copy_collective.md R256; log entry 57). -/
def CJob.rowIdx (j : CJob) (s : State) (n : Nat) (card : BitVec 512) (p : Nat) : Nat :=
  match j.rows.find? (fun r => decide (r.1 = (posOf card p).2.1)) with
  | some r => r.2
  | none => gatherIdx s n card (posOf card p).2.1

/-- The source address of a position of a job; none where a gathered element leaves [SRC, SRC + RLEN)
(09_copy_collective.md R256). -/
def CJob.srcAt (j : CJob) (s : State) (n : Nat) (card : BitVec 512) (p : Nat) : Option Nat :=
  srcVia (s.core n) card (j.rowIdx s n card p) p

/-- The lowest and one past the highest of a strided box of a card, not wrapped (09_copy_collective.md R259). -/
def boxOf (card : BitVec 512) (a : Nat) (s1 s2 : Int) : Int × Int :=
  let e1 := ((cf card 28 4 : Int) - 1) * s1
  let e2 := ((cf card 32 4 : Int) - 1) * s2
  ((a : Int) + min 0 e1 + min 0 e2, (a : Int) + max 0 e1 + max 0 e2 + cf card 24 4)

/-- The OP and word size that an AMO card may name (09_copy_collective.md R257). -/
def amoOpOk (op n0 : Nat) : Bool :=
  decide ((0x20 ≤ op ∧ op ≤ 0x27 ∧ n0 = 8) ∨ (((0x30 ≤ op ∧ op ≤ 0x37) ∨ op = 0x3A) ∧ n0 = 4))

/-- Blocks of 32 elements (09_copy_collective.md R268). -/
def nblocks (card : BitVec 512) : Nat := (cf card 24 4 + 31) / 32

/-- Bytes of an element of ITYPE or OTYPE: 0 BF16, 1 FP32. -/
def elBytes (ty : Nat) : Nat := if ty = 0 then 2 else 4

/-- The dies of a DIEMASK in rank order (09_copy_collective.md R266). -/
def diesOf (mask : Nat) : List Nat := (List.range 64).filter (fun d => bit mask d)

/-- The fixed values that a copy kind requires (09_copy_collective.md R256 to R258).  DESIGN CHOICE (log entry 72): bits 7:1 of
byte 60 of a DELTA card, for which the spec gives nothing, must be zero, as its other KSP bytes must.  Safe. -/
def kindBad (c : Core) (card : BitVec 512) : Bool :=
  let zero (lo n : Nat) : Bool := decide (cf card lo n = 0)
  match cardKind card with
  | 1 | 2 => !zero 52 12
  | 3 => decide (cf card 32 4 ≠ 1) || !zero 40 4 || !zero 48 4
  | 4 => !amoOpOk (cf card 52 1) (cf card 24 4) || !zero 53 11
  | _ =>
    let src := c.srcOf card
    let dst := c.dstOf card
    !src.main || !dst.main || decide (src.a % 4096 ≠ 0 ∨ dst.a % 4096 ≠ 0 ∨ cf card 24 4 % 4096 ≠ 0)
      || decide (cf card 28 4 ≠ 1 ∨ cf card 32 4 ≠ 1) || !zero 36 16 || decide (cf card 52 8 % 16 ≠ 0)
      || decide (1 < cf card 60 1) || !zero 61 3

/-- CARD_INVALID for a card given to a CPY engine (09_copy_collective.md R253, R255 to R258). -/
def copyInvalid (c : Core) (card : BitVec 512) : Bool :=
  let k := cardKind card
  let noSam := decide (k = 2 ∨ k = 4)
  decide (ctrlF card 11 53 ≠ 0) || decide (ctrlF card 4 2 = 0 ∨ ctrlF card 4 2 = 3) || decide (k < 1 ∨ 5 < k)
    || decide (ctrlF card 9 2 = 3) || (!noSam && decide (ctrlF card 7 2 = 3))
    || (decide (ctrlF card 9 2 = 0) && decide (cf card 20 4 ≠ 0))
    || (!noSam && decide (ctrlF card 7 2 = 0) && decide (cf card 12 4 ≠ 0))
    || decide (2 ^ 40 ≤ cf card 24 4 * cf card 28 4 * cf card 32 4) || kindBad c card

/-- The modules in the group of a collective card of a core: those of its stand's pod group where its SCOPE is 1, else this one
(09_copy_collective.md R266). -/
def State.modules (s : State) (n : Nat) (card : BitVec 512) : Nat :=
  if ctrlF card 17 1 = 1 then
    1 + (match s.runOf (s.core n).part with
      | some r => if r.adm.pgid = 0 then 0 else (SMap.get s.sys.pod [] r.adm.pgid).length
      | none => 0)
  else 1

/-- CARD_INVALID for a collective card of a core whose group lies in g modules (09_copy_collective.md R253, R255, R266). -/
def collInvalid (pool n g : Nat) (card : BitVec 512) : Bool :=
  let k := cardKind card
  let red := decide (k = 9 ∨ k = 10)
  let ty := ctrlF card 11 4
  decide (ctrlF card 18 46 ≠ 0) || decide (ctrlF card 15 2 = 3) || decide (2 ≤ ctrlF card 13 2) || decide (2 ≤ ctrlF card 11 2)
    || decide (ctrlF card 9 2 = 3) || decide (ctrlF card 7 2 = 3) || decide (ctrlF card 4 2 = 0 ∨ ctrlF card 4 2 = 3)
    || decide (k < 8 ∨ 12 < k)
    || (decide (ctrlF card 9 2 = 0) && decide (cf card 20 4 ≠ 0)) || (decide (ctrlF card 7 2 = 0) && decide (cf card 12 4 ≠ 0))
    || decide (cf card 42 2 ≠ 0) || decide (cf card 48 16 ≠ 0)
    || (!decide (k = 9 ∨ k = 12) && decide (cf card 40 2 ≠ 0))
    || (!red && decide (cf card 44 4 ≠ 0))
    || (decide (k = 8) && decide (ctrlF card 13 4 ≠ 0)) || (decide (k = 11 ∨ k = 12) && decide (ty ≠ 0 ∨ ctrlF card 15 2 ≠ 0))
    || !bit (cf card 32 8) (dieOf n) || decide (g * (diesOf (cf card 32 8)).length ≤ cf card 40 2)
    || decide (2 ^ 32 - 31 ≤ cf card 24 4)
    || (red && (decide (cf card 44 4 % 2 ≠ 0) || decide (localWin pool (cf card 44 4) = .nowhere)))

/-! ### Footprints (09_copy_collective.md R259, R260, R270) -/

/-- Byte ranges of a space, the upper end not wrapped: what a card reads and writes, its group lying in mods modules. -/
def footBytes (c : Core) (mods : Nat) (card : BitVec 512) : List (Bool × Int × Int) × List (Bool × Int × Int) :=
  let src := c.srcOf card
  let dst := c.dstOf card
  let n0 := cf card 24 4
  let sb := boxOf card src.a (i32 (cf card 36 4)) (i32 (cf card 40 4))
  let db := boxOf card dst.a (i32 (cf card 44 4)) (i32 (cf card 48 4))
  let box (x : CAddr) (b : Int × Int) : Bool × Int × Int := if cardTotal card = 0 then (x.main, 0, 0) else (x.main, b.1, b.2)
  let run (x : CAddr) (n : Nat) : Bool × Int × Int := (x.main, (x.a : Int), (x.a : Int) + n)
  let idx : Bool × Int × Int := (false, (cf card 52 4 : Int), (cf card 52 4 : Int) + 4 * cf card 28 4)
  let ex : Bool × Int × Int := (false, (cf card 44 4 : Int), (cf card 44 4 : Int) + 2 * nblocks card)
  let tab : Bool × Int × Int := (true, (cf card 52 8 : Int), (cf card 52 8 : Int) + 16 * (n0 / 4096 : Nat))
  let g := mods * (diesOf (cf card 32 8)).length
  let isz := n0 * elBytes (ctrlF card 11 2)
  let osz := n0 * elBytes (ctrlF card 13 2)
  match cardKind card with
  | 1 => ([box src sb], [box dst db])
  | 2 => ([], [box dst db])
  | 3 => ([run src (cf card 56 8), idx], [box dst db])
  | 4 => ([box dst db], [box dst db])
  | 5 => ([run src n0, tab], [run dst (4160 * (n0 / 4096)), tab])
  | 8 => ([run src isz], [run dst (2 * nblocks card)])
  | 9 | 10 => ([run src isz, ex], [run dst osz])
  | 11 => ([run src n0], [run dst (g * n0)])
  | _ => ([run src n0], [run dst n0])

/-- Lines of a byte range that lies in its space (05_local_memory.md R156): pool lines are numbered by the pool. -/
def linesOf (pool n : Nat) (r : Bool × Int × Int) : FRange :=
  let lo := r.2.1.toNat
  let hi := r.2.2.toNat
  if r.1 then ⟨true, lo / 64, (hi + 63) / 64⟩
  else ⟨false, lineOf pool n lo, lineOf pool n (hi - 1) + 1⟩

/-- Whether a local byte range lies wholly in the scratchpad or wholly in the own partition (09_copy_collective.md R254). -/
def localOk (pool : Nat) (lo hi : Int) : Bool :=
  decide (0 ≤ lo ∧ lo < 2 ^ 32 ∧ hi ≤ 2 ^ 32) && (match localWin pool lo.toNat, localWin pool (hi - 1).toNat with
    | .scratch _, .scratch _ => true
    | .own _, .own _ => true
    | _, _ => false)

/-- Whether main-memory lines [lo, hi) lie in the union of declared ranges (09_copy_collective.md R260). -/
def covered (l : List FRange) : Nat → Nat → Nat → Bool
  | 0, lo, hi => decide (hi ≤ lo)
  | k + 1, lo, hi =>
    if hi ≤ lo then true
    else
      match l.find? (fun r => decide (r.main = true ∧ r.lo ≤ lo ∧ lo < r.hi)) with
      | none => false
      | some r => covered l k r.hi hi

/-- Whether a byte range of a footprint is invalid under the declared ranges (09_copy_collective.md R260). -/
def rangeBad (pool : Nat) (declared : List FRange) (r : Bool × Int × Int) : Bool :=
  if r.2.2 ≤ r.2.1 then false
  else if r.1 then
    decide (r.2.1 < 0 ∨ 2 ^ 64 < r.2.2) || !covered declared (declared.length + 1) (r.2.1.toNat / 64) ((r.2.2.toNat + 63) / 64)
  else !localOk pool r.2.1 r.2.2

/-- FOOTPRINT_INVALID of a card (09_copy_collective.md R260). -/
def footInvalid (s : State) (n : Nat) (card : BitVec 512) : Bool :=
  let f := footBytes (s.core n) (s.modules n card) card
  let r := s.runOf (s.core n).part
  let dr := match r with | some q => q.footR | none => []
  let dw := match r with | some q => q.footW | none => []
  f.1.any (rangeBad (s.poolOf n) (dr ++ dw)) || f.2.any (rangeBad (s.poolOf n) dw)

/-- The line ranges of non-empty byte ranges. -/
def lineRanges (pool n : Nat) (l : List (Bool × Int × Int)) : List FRange :=
  (l.filter (fun r => decide (r.2.1 < r.2.2))).map (linesOf pool n)

/-! ### The card read (09_copy_collective.md R244) -/

/-- The checks of R137 on the 64 bytes of a card: the cause and the first failing address. -/
def cardAccessFault (s : State) (n a : Nat) : Option (Byte × Nat) :=
  let pool := s.poolOf n
  let bytes := (List.range 64).map (fun i => a + i)
  let outside (y : Nat) : Option Byte := match localWin pool y with
    | .beyond => some Cause.POOL_BOUNDS
    | .nowhere => some Cause.LOCAL_BOUNDS
    | _ => none
  if a % 64 ≠ 0 then some (Cause.ALIGN, a)
  else if !s.exchOf n && inWholeWindow a then some (Cause.PHASE_COMPUTE, a)
  else
    match bytes.findSome? outside with
    | some k => some (k, a)
    | none =>
      if bytes.any (s.localBad n) then
        some (match localWin pool a with | .scratch _ => Cause.ECC_SCRATCH | _ => Cause.ECC_POOL, a)
      else none

/-- Whether older core accesses keep a job from reading rd and writing wr: a store or atomic to a line it reads or writes, a
load or push of a line it writes; an access whose address is not known yet counts as touching every line
(05_local_memory.md R157; 08_stream_ops.md R222). -/
def Core.memBlocks (c : Core) (pool n tag : Nat) (rd wr : List FRange) : Bool :=
  let ls (x : Access) : List Nat := (x.addrs.map (lineOf pool n)).eraseDups
  let meets (x : Access) (rs : List FRange) : Bool := (ls x).any (fun l => rs.any (·.hasLine false l))
  let store (x : Access) : Bool := decide (x.ent.tag < tag) && x.kind.store && meets x (rd ++ wr)
  let load (x : Access) : Bool := decide (x.ent.tag < tag) && meets x wr
  let writes := wr.any (fun r => !r.main)
  let any' := writes || rd.any (fun r => !r.main)
  c.stq.any store || c.sta.any store || c.ldq.any load || c.lda.any load
    || (c.q .mem).any (fun e => decide (e.tag < tag) && (match e.trig with
        | some i => (match memKind i with
            | .mark | .send | .sends => false
            | k => if k.store then any' else writes)
        | none => false))
    || (writes && c.pushReads pool n tag (fun l => wr.any (·.hasLine false l)))

/-- Whether an older job keeps a job waiting (05_local_memory.md R157): one not yet read counts as touching every line
(09_copy_collective.md R244). -/
def Core.jobBlocks (c : Core) (tag : Nat) (rd wr : List FRange) : Bool :=
  c.jobs.any (fun o => decide (o.tag < tag) && (match o.card with
    | none => !(rd ++ wr).isEmpty
    | some _ => o.wr.any (fun r => (rd ++ wr).any (·.meets r)) || o.rd.any (fun r => wr.any (·.meets r))))

/-- A card that is refused: the token fills with REFUSED, the entry faults and the core parks (09_copy_collective.md R244;
12_traps.md R335). -/
def Core.refuse (c : Core) (e : Eng) (en : Entry) (j : CJob) (cause : Byte) (a : Nat) : Core :=
  let w : Word := BitVec.ofNat 64 (cause.toNat * 256 + 9)
  ({ c with jobs := c.jobs.filter (fun x => decide (x.tag ≠ j.tag)), refused := c.refused ++ [j] }.fillReg (.s j.tok) (.s w)).trapHead
    e en cause a

/-- The go at the head of an engine queue with its value and its job, if the job's card has not been read. -/
def Core.goHead (c : Core) (e : Eng) : Option (Entry × Word × CJob) :=
  match c.q e with
  | en :: _ =>
    match en.trig, en.val with
    | some i, .ready v =>
      (match i with
       | .cpyGo _ _ | .colGo _ _ =>
         if c.serving && !en.faulted then (c.job? en.tag).map (fun j => (en, v.toScalar, j)) else none
       | _ => none)
    | _, _ => none
  | [] => none

/-- CARD_READ at an engine of a core: it waits for older stores to the card's line, then the card is read and validated, or
refused (09_copy_collective.md R244). -/
def readCard (s : State) (n : Nat) (e : Eng) : State :=
  let c := s.core n
  let pool := s.poolOf n
  match c.goHead e with
  | none => s
  | some (en, b, j) =>
    let a := (b.extractLsb' 0 32).toNat
    let line : List FRange := [⟨false, lineOf pool n a, lineOf pool n a + 1⟩]
    if j.card.isSome || j.ended.isSome || c.memBlocks pool n j.tag line [] || c.jobBlocks j.tag line [] then s
    else
      match cardAccessFault s n a with
      | some (k, y) => s.setCore n (c.refuse e en j k y)
      | none =>
        let card : BitVec 512 := BitVec.ofNat 512 (ofLe (s.localBytes n a 64))
        if (if e = .col then collInvalid pool n (s.modules n card) card else copyInvalid c card) then
          s.setCore n (c.refuse e en j Cause.CARD_INVALID 0)
        else if inWholeWindow a || footInvalid s n card then s.setCore n (c.refuse e en j Cause.FOOTPRINT_INVALID 0)
        else
          let f := footBytes c (s.modules n card) card
          s.setCore n (c.setJob { j with
            addr := b.extractLsb' 0 32, card := some card,
            rd := lineRanges pool n f.1 ++ line, wr := lineRanges pool n f.2 })

/-- CARD_READ (09_copy_collective.md R244): at the engine e of the current core. -/
def execCardRead (e : Eng) (s : State) : Res := .next (readCard s s.cur e)

/-! ### The triggers -/

/-- Jobs of an engine that have left its queue and not ended (09_copy_collective.md R245). -/
def Core.running (c : Core) (e : Eng) : Nat :=
  (c.jobs.filter (fun j => decide (j.eng = e) && j.card.isSome && !(c.q e).any (fun en => decide (en.tag = j.tag)))).length

/-- A go whose card is read and validated leaves its queue: to one of four job slots, or to the card queue
(09_copy_collective.md R245); the go of a job that was cancelled leaves without effect. -/
def goLeave (s : State) (n : Nat) (e : Eng) (i : Instr) : State :=
  let c := s.core n
  match c.headTrig e i with
  | none => s
  | some (en, _) =>
    match c.job? en.tag with
    | none => s.setCore n (c.popHead e)
    | some j =>
      if j.ended.isSome then s.setCore n (c.popHead e)
      else if j.card.isNone then s
      else if e = .col then
        (if c.cards.length < 4 then s.setCore n { c.popHead e with cards := c.cards ++ [(j.tag, s.fabric)] } else s)
      else if c.running e < 4 then s.setCore n (c.popHead e)
      else s

/-- A go at the head of its queue: its card is read, and it leaves once there is room (09_copy_collective.md R244, R245). -/
def goRun (s : State) (n : Nat) (e : Eng) (i : Instr) : State := goLeave (readCard s n e) n e i

/-- CPY_GO (09_copy_collective.md R243, R244, R245). -/
def execCpyGo (u : CUnit) (m : Mv) (s : State) : Res := .next (goRun s s.cur u.eng (.cpyGo u m))

/-- COL_GO (09_copy_collective.md R245). -/
def execColGo (k : CSlot) (m : Mv) (s : State) : Res := .next (goRun s s.cur .col (.colGo k m))

/-- A trigger that answers at once at the head of its queue. -/
def answer (s : State) (n : Nat) (e : Eng) (p : RPort) (i : Instr) (f : Core → Word → Core × Word) : State :=
  let c := s.core n
  match c.headTrig e i with
  | none => s
  | some (en, v) =>
    let r := f (c.popHead e) v.toScalar
    s.setCore n (r.1.launchResult en e (some p) (.s r.2) 0 false)

/-- The result port of a copy unit. -/
def copyPort : CUnit → RPort
  | .c0 => .cpy0R
  | .c1 => .cpy1R

/-- The incomplete job of an engine with a token (09_copy_collective.md R249, R250). -/
def Core.tokJob (c : Core) (e : Eng) (b : Word) : Option CJob :=
  c.jobs.find? (fun j => decide (j.eng = e ∧ j.tok.val = (b.extractLsb' 0 6).toNat))

/-- A cancelled copy job stops: at once if it has not started, else at the next line boundary (09_copy_collective.md
R249). -/
def CJob.cancelNow (j : CJob) : CJob :=
  if j.started then { j with cancel := true, ended := if j.ended = some 0 then some 5 else j.ended }
  else { j with cancel := true, ended := some (j.ended.getD 5) }

/-- CPY_CANCEL (09_copy_collective.md R249). -/
def execCpyCancel (u : CUnit) (m : Mv) (s : State) : Res :=
  .next (answer s s.cur u.eng (copyPort u) (.cpyCancel u m) (fun c b =>
    match c.tokJob u.eng b with
    | some j => (c.setJob j.cancelNow, 1)
    | none => (c, 0)))

/-- The progress word of a job (09_copy_collective.md R250). -/
def CJob.status (j : CJob) : Word :=
  BitVec.ofNat 64 (j.doneb * 2 ^ 24 + (if j.held then 3 else if j.started then 2 else 1))

/-- CPY_STATUS (09_copy_collective.md R250). -/
def execCpyStatus (u : CUnit) (m : Mv) (s : State) : Res :=
  .next (answer s s.cur u.eng (copyPort u) (.cpyStatus u m) (fun c b =>
    match c.tokJob u.eng b with
    | some j => (c, j.status)
    | none => (c, 0)))

/-- COL_CANCEL (09_copy_collective.md R249). -/
def execColCancel (k : CSlot) (m : Mv) (s : State) : Res :=
  .next (answer s s.cur .col .colR (.colCancel k m) (fun c b =>
    match c.tokJob .col b with
    | some j =>
      if c.cards.any (fun t => decide (t.1 = j.tag)) then
        ({ c.setJob { j with ended := some 5 } with cards := c.cards.filter (fun t => decide (t.1 ≠ j.tag)) }, 1)
      else (c, 0)
    | none => (c, 0)))

/-! ### Running a copy job -/

/-- Whether a job may start: its card read, its go out of its queue, every older job of its engine started, no older
conflict (05_local_memory.md R157; 09_copy_collective.md R245). -/
def canStart (s : State) (n : Nat) (j : CJob) : Bool :=
  let c := s.core n
  j.card.isSome && !(c.q j.eng).any (fun en => decide (en.tag = j.tag))
    && !c.memBlocks (s.poolOf n) n j.tag j.rd j.wr && !c.jobBlocks j.tag j.rd j.wr
    && c.jobs.all (fun o => !decide (o.eng = j.eng ∧ o.tag < j.tag) || o.started || o.ended.isSome)

/-- Whether a position is a 64-byte line boundary in job order (09_copy_collective.md R249).  DESIGN CHOICE (log entry 89): the lines
are those of the destination. -/
def atLine (c : Core) (card : BitVec 512) (p : Nat) : Bool :=
  decide (p = 0) || decide (dstAt c card p / 64 ≠ dstAt c card (p - 1) / 64)

/-- The PGID of the stand that runs on a core, 0 with none (13_queues.md R367). -/
def State.pgidOf (s : State) (n : Nat) : Nat :=
  match s.runOf (s.core n).part with
  | some r => r.adm.pgid
  | none => 0

/-- A request of a job put down at its die's stop (09_copy_collective.md R261; 11_translation.md R299). -/
def ask (s : State) (n : Nat) (j : CJob) (card : BitVec 512) (k : RKind) (a : Nat) : State :=
  let c := s.core n
  let r : Req := { org := .job n j.tag, asid := (c.standId.extractLsb' 0 16).toNat, kind := k, addr := BitVec.ofNat 64 a, ptag := j.ptag,
                   prio := ctrlF card 4 2, pos := j.doneb, replay := false, pgid := s.pgidOf n, view := none, fixed := false }
  (s.setCore n (c.setJob { j with asked := true })).putFlit (stopOfDie (dieOf n)) ⟨ctrlF card 4 2, .req r⟩

/-- A copy job ends. -/
def endJob (s : State) (n : Nat) (j : CJob) (st : Byte) : State := s.setCore n ((s.core n).setJob { j with ended := some st })

/-- The byte a position writes from its local source address or pattern. -/
def fillByte (s : State) (n : Nat) (card : BitVec 512) (src : Option Nat) (p : Nat) : Byte :=
  if cardKind card = 2 then BitVec.ofNat 8 (cf card (8 + (posOf card p).2.2 % 8) 1)
  else s.localByte n (src.getD 0)

/-- The positions from p to the next line boundary, at most lim (09_copy_collective.md R249). -/
def lineLen (c : Core) (card : BitVec 512) (p lim : Nat) : Nat :=
  min lim (1 + ((List.range 64).takeWhile (fun i => !atLine c card (p + 1 + i))).length)

/-- A gather job that takes len bytes from position p holds the index of each of their rows from then on
(09_copy_collective.md R256; log entry 57). -/
def CJob.hold (j : CJob) (s : State) (n : Nat) (card : BitVec 512) (p len : Nat) : CJob :=
  if cardKind card = 3 then
    let past := j.rows.filter (fun r => decide ((posOf card j.pos).2.1 ≤ r.1))
    let new := (((List.range len).map (fun i => (posOf card (p + i)).2.1)).eraseDups).filter (fun k => !past.any (fun r => decide (r.1 = k)))
    { j with rows := past ++ new.map (fun k => (k, gatherIdx s n card k)) }
  else j

/-- Up to k positions moved within local memory, byte by byte in job order (09_copy_collective.md R256): the state and the
job at its new place; it stops at a gathered element outside its region and, when cancelled, at a line boundary. -/
def moveLocal (n : Nat) (card : BitVec 512) (s : State) (j : CJob) : Nat → State × CJob
  | 0 => (s, j)
  | k + 1 =>
    let p := j.pos
    let j := j.hold s n card p (min 1 (cardTotal card - p))
    if cardTotal card ≤ p ∨ (j.srcAt s n card p).isNone ∨ (j.cancel && atLine (s.core n) card p) = true then (s, j)
    else moveLocal n card (s.setLocalByte n (dstAt (s.core n) card p) (fillByte s n card (j.srcAt s n card p) p))
      { j with pos := p + 1, doneb := j.doneb + 1 } k

/-- The positions from p that one request to main memory may cover: consecutive addresses of one 64-byte line, at most
lim. -/
def runLen (f : Nat → Option Nat) (p total lim : Nat) : Nat :=
  ((List.range (min lim 64)).takeWhile (fun k =>
    decide (p + k < total) && (match f p, f (p + k) with
      | some a, some y => decide (y = a + k ∧ y / 64 = a / 64)
      | _, _ => false))).length

/-- A chunk of a main-memory destination stops before a position whose source byte it would have written
(09_copy_collective.md R256). -/
def noOverlap (f g : Nat → Option Nat) (p len : Nat) : Nat :=
  ((List.range len).takeWhile (fun k => (List.range k).all (fun i => decide (f (p + k) ≠ g (p + i))))).length

/-- One step of a COPY, FILL or GATHER job (09_copy_collective.md R256): it moves up to k local bytes, or asks main memory
for the next bytes, or writes what main memory returned.  A cancelled job finishes the line it has begun to read; one whose
source has failed writes the bytes that came before (11_translation.md R312). -/
def moveStep (s : State) (n : Nat) (j : CJob) (card : BitVec 512) (k : Nat) : State :=
  let c := s.core n
  let total := cardTotal card
  let dst := c.dstOf card
  let mainSrc := decide (cardKind card ≠ 2) && (c.srcOf card).main
  let sAt (p : Nat) : Option Nat := j.srcAt s n card p
  let dAt (p : Nat) : Option Nat := some (dstAt c card p)
  let buf := j.buf.getD []
  if j.cancel && (decide (j.pos = total) || (atLine c card j.pos && buf.isEmpty)) then endJob s n j 5
  else if total ≤ j.pos then endJob s n j 0
  else
    match (if buf.isEmpty then j.flush else none) with
    | some f => endJob s n { j with faddr := f.2 } f.1
    | none =>
      if buf.isEmpty && (sAt j.pos).isNone then endJob s n j 8
      else if !dst.main then
        if !mainSrc then
          let r := moveLocal n card s j (max k 1)
          r.1.setCore n (((r.1.core n).setJob r.2).charge (r.2.pos - j.pos))
        else if buf.isEmpty then
          let d := runLen sAt j.pos total 64
          ask s n (j.hold s n card j.pos d) card (.read d) ((sAt j.pos).getD 0)
        else
          let buf := if j.cancel then buf.take (lineLen c card j.pos buf.length) else buf
          let t := buf.zipIdx.foldl (fun a b => State.setLocalByte a n (dstAt c card (j.pos + b.2)) b.1) s
          t.setCore n (((t.core n).setJob { j with pos := j.pos + buf.length, doneb := j.doneb + buf.length, buf := none }).charge
            buf.length)
      else
        let d0 := runLen dAt j.pos total 64
        let d1 := ((List.range d0).takeWhile (fun i => (sAt (j.pos + i)).isSome)).length
        let d := if mainSrc then noOverlap sAt dAt j.pos d1 else d1
        if d ≤ buf.length ∨ j.flush.isSome then ask s n j card (.write (buf.take d)) (dstAt c card j.pos)
        else if mainSrc then
          let p := j.pos + buf.length
          let r := runLen sAt p total (d - buf.length)
          ask s n (j.hold s n card p r) card (.read r) ((sAt p).getD 0)
        else
          let j := j.hold s n card j.pos d
          let l := (List.range d).map (fun i => fillByte s n card (sAt (j.pos + i)) (j.pos + i))
          ask s n { j with buf := some l } card (.write l) (dstAt c card j.pos)

/-- One step of an AMO job (09_copy_collective.md R257). -/
def amoStep (s : State) (n : Nat) (j : CJob) (card : BitVec 512) : State :=
  let c := s.core n
  let w := cf card 24 4
  let op := cf card 52 1 % 16
  let a := dstAt c card j.pos
  let x := BitVec.ofNat 64 (cf card 8 8 % 2 ^ (8 * w))
  let quiet := decide (j.doneb = j.pos * w)
  if j.cancel && (decide (j.pos = cardTotal card) || atLine c card j.pos) then (if quiet then endJob s n j 5 else s)
  else if cardTotal card ≤ j.pos then (if quiet then endJob s n j 0 else s)
  else if (c.dstOf card).main then ask s n j card (.atomic w op x) a
  else
    match locOf (s.poolOf n) n a with
    | none => s
    | some (pool, y) =>
      let p : PortAtomic := { core := n, tag := j.tag, job := true, addr := y, width := w, op := op, x := x, cmp := 0 }
      let s1 := s.setCore n (c.setJob { j with pos := j.pos + 1 })
      if pool then
        let q := s1.quad (quadOf n)
        s1.setQuad (quadOf n) { q with wq := q.wq ++ [p] }
      else
        let c1 := s1.core n
        s1.setCore n { c1 with wq := c1.wq ++ [p] }

/-- The record of a changed block (09_copy_collective.md R258). -/
def deltaRec (b : Nat) (h blk : List Byte) : List Byte := leBytes 8 b ++ h ++ List.replicate 40 0 ++ blk

/-- One step of a DELTA job (09_copy_collective.md R258): the block is read, then its table entry, then the record is
written line by line and the table entry after it. -/
def deltaStep (s : State) (n : Nat) (j : CJob) (card : BitVec 512) : State :=
  let c := s.core n
  let buf := j.buf.getD []
  let init := decide (cf card 60 1 = 1)
  let tab := cf card 52 8 + 16 * j.pos
  if j.cancel && decide (j.doneb - j.off < deltaRecord) then endJob s n j 5
  else if cf card 24 4 / 4096 ≤ j.pos then endJob s n j 0
  else if buf.length < 4096 then
    let a := (c.srcOf card).a + 4096 * j.pos + buf.length
    ask s n j card (.read (min (4096 - buf.length) (64 - a % 64))) a
  else if !init && decide (buf.length < 4112) then ask s n j card (.table []) tab
  else
    let blk := buf.take 4096
    let h := shake256 blk 16
    if !init && decide (buf.drop 4096 = h) then
      s.setCore n (c.setJob { j with pos := j.pos + 1, buf := none })
    else if j.doneb - j.off < deltaRecord then
      let o := j.doneb - j.off
      ask s n j card (.write ((((deltaRec j.pos h blk).drop o).take (64 - o % 64)))) ((c.dstOf card).a + j.doneb)
    else ask s n j card (.table h) tab

/-- A step of the job at a place of the current core's list, if it is of one of the given kinds and can go on. -/
def jobStep (s : State) (kinds : List Nat) (f : State → CJob → BitVec 512 → State) : State :=
  let n := s.cur
  match (s.core n).jobs[s.obj]? with
  | none => s
  | some j =>
    match j.card with
    | none => s
    | some card =>
      if !kinds.contains (cardKind card) || j.ended.isSome || j.asked || !(j.started || canStart s n j) then s
      else
        let j := { j with started := true }
        f (s.setCore n ((s.core n).setJob j)) j card

/-- JOB_COPY (09_copy_collective.md R256): job obj of the current core, up to k local bytes. -/
def execJobCopy (k : Nat) (s : State) : Res := .next (jobStep s [1] (fun t j card => moveStep t s.cur j card k))

/-- JOB_FILL (09_copy_collective.md R256). -/
def execJobFill (k : Nat) (s : State) : Res := .next (jobStep s [2] (fun t j card => moveStep t s.cur j card k))

/-- JOB_GATHER (09_copy_collective.md R256). -/
def execJobGather (k : Nat) (s : State) : Res := .next (jobStep s [3] (fun t j card => moveStep t s.cur j card k))

/-- JOB_AMO (09_copy_collective.md R257). -/
def execJobAmo (s : State) : Res := .next (jobStep s [4] (fun t j card => amoStep t s.cur j card))

/-- JOB_DELTA (09_copy_collective.md R258). -/
def execJobDelta (s : State) : Res := .next (jobStep s [5] (fun t j card => deltaStep t s.cur j card))

/-! ### Tokens (09_copy_collective.md R246 to R248) -/

/-- The cause that a status carries (09_copy_collective.md R247). -/
def causeOf (st : Byte) : Byte :=
  match st.toNat with
  | 1 => Cause.ASYNC_PARTIAL
  | 2 => Cause.ASYNC_PERM
  | 3 => Cause.ASYNC_NOTPRESENT
  | 4 => Cause.ASYNC_OUT_OF_SPACE
  | 6 => Cause.COLLECTIVE_MISMATCH
  | 7 => Cause.LINK_DOWN
  | 8 => Cause.FOOTPRINT_INVALID
  | _ => 0

/-- The status word of a job that ended (09_copy_collective.md R246). -/
def CJob.word (j : CJob) (st : Byte) : Word :=
  BitVec.ofNat 64 (j.doneb * 2 ^ 24 + j.flags.toNat * 2 ^ 16 + (causeOf st).toNat * 2 ^ 8 + st.toNat)

/-- A job that ended with its writes performed fills its token, and a fault it carries waits to be raised, with its first faulting
address where its cause is an ASYNC one (09_copy_collective.md R246, R248; 02_numbers.md R60; 11_translation.md R310; 12_traps.md
R330). -/
def Core.fillToken (c : Core) (j : CJob) (st : Byte) : Core :=
  let c := { c with jobs := c.jobs.filter (fun x => decide (x.tag ≠ j.tag)) }
  let k := causeOf st
  let c := if k = 0 then c
    else { c with deferred := insertDeferred { tag := j.tag, send := false, cause := k,
                                               faddr := if 0x10 ≤ k.toNat ∧ k.toNat ≤ 0x13 then j.faddr else 0,
                                               tok := j.tok.val, part := j.part, nfault := j.nfault, live := true } c.deferred }
  (c.fillReg (.s j.tok) (.s (j.word st))).orFlags j.flags

/-- TOKEN_FILL (09_copy_collective.md R246): of job obj of the current core. -/
def execTokenFill (s : State) : Res :=
  .next (match s.me.jobs[s.obj]? with
    | some j =>
      (match j.ended with
       | some st => if j.slog = 0 ∧ j.asked = false ∧ j.use = none then s.setMe (s.me.fillToken j st) else s
       | none => s)
    | none => s)

end Sys2Proof.Machine
end

