-- ==== Sys2Proof/Machine/Net.lean ====
section
/-! DEFINITION. The Girdle and the pod links: arbitration at a stop or port, the arrival of sends, of discard notices and of
requests (09_copy_collective.md R261; 10_phase_sync.md R284 to R287; 14_system.md R397, R398). -/

namespace Sys2Proof.Machine

/-- ARR of a flit of class 0; a notice waits for nothing (10_phase_sync.md R285). -/
def Flit.arr (f : Flit) : Nat :=
  match f.load with
  | .send x => x.arr
  | _ => 0

/-- The place of the flit of a class that goes first: smallest ARR in class 0, then the longest wait
(09_copy_collective.md R261; 10_phase_sync.md R285). -/
def firstOf (l : List Flit) (cls : Nat) : Option Nat :=
  let c := l.zipIdx.filter (fun p => decide (p.1.cls = cls))
  (c.find? (fun p => c.all (fun q => decide (cls ≠ 0 ∨ p.1.arr ≤ q.1.arr)))).map (·.2)

/-- The flit a stop sends next, and the counters after it: one lower flit in every 16 while class 0 waits, one of class 2 in
every 8 while class 1 waits (09_copy_collective.md R261). -/
def Stop.choose (x : Stop) : Option (Nat × Nat × Nat) :=
  let c0 := firstOf x.wait 0
  let c1 := firstOf x.wait 1
  let c2 := firstOf x.wait 2
  let low : Option (Nat × Nat × Nat) :=
    match c1, c2 with
    | some i, some j => if 7 ≤ x.run1 then some (j, 0, 0) else some (i, 0, x.run1 + 1)
    | some i, none => some (i, 0, 0)
    | none, some j => some (j, 0, 0)
    | none, none => none
  match c0, low with
  | some i, some y => if 15 ≤ x.run0 then some y else some (i, x.run0 + 1, x.run1)
  | some i, none => some (i, 0, x.run1)
  | none, y => y

/-- The stop of a pod link's port: ports stand behind the 68 stops of the Girdle (09_copy_collective.md R261). -/
def stopOfLink (l : Nat) : Nat := 68 + l

/-- A flit leaves the module: a send of a core of this module is in another one until it has landed, been held or been discarded
there (10_phase_sync.md R277). -/
def State.leaves (s : State) (f : Flit) : State :=
  match f.load with
  | .send x =>
    if (s.ownCore x.core).isSome && decide (x.part ≠ 64) then { s with sys := { s.sys with abroad := s.sys.abroad ++ [x] } } else s
  | .notice _ _ _ _ | .req _ | .coll _ => s

/-- FLIT_ARBITRATION (09_copy_collective.md R261): at the stop or port obj; what a port sends leaves the module. -/
def execFlitArbitration (s : State) : Res :=
  let x := s.stop s.obj
  .next (match x.choose with
    | some (i, r0, r1) =>
      (match x.wait[i]? with
       | some f =>
         let t := s.setStop s.obj { wait := dropAt x.wait i, run0 := r0, run1 := r1 }
         if s.obj < 68 then { t with air := s.air ++ [f] } else t.leaves f
       | none => s)
    | none => s)

/-- Whether the pod link is trained (14_system.md R397, R399). -/
def State.linkUp (s : State) (l : Nat) : Bool := SMap.get s.sys.links false l

/-- The pod switch that a pod link reaches (14_system.md R398; log entry 59). -/
def State.switchOf (s : State) (l : Nat) : Nat := SMap.get s.sys.switches 0 l

/-- The pod link that traffic of an edge die takes: the lowest trained one that reaches the same switch as the die's first link
(14_system.md R398; log entry 64). -/
def State.podLink (s : State) (e : Nat) : Option Nat :=
  ((List.range 4).map (fun i => 4 * e + i)).find? (fun l => s.linkUp l && decide (s.switchOf l = s.switchOf (4 * e)))

/-- Whether an edge die has a pod link left. -/
def State.edgeUp (s : State) (e : Nat) : Bool := (s.podLink e).isSome

/-- The edge die through which a die's traffic leaves the module (log entry 64). -/
def edgeOfDie (d : Nat) : Nat := d / 16

/-- Whether a stand has a way to the pod switch: its edge die is that of its lowest die (10_phase_sync.md R288; 14_system.md R398;
log entry 64). -/
def State.podPath (s : State) (r : Run) : Bool := s.edgeUp (edgeOfDie (dieOf (r.cores.headD 0)))

/-- Whether a stand's pod group has members in other modules (10_phase_sync.md R285). -/
def State.farGroup (s : State) (r : Run) : Bool := decide (r.adm.pgid ≠ 0) && !(SMap.get s.sys.pod [] r.adm.pgid).isEmpty

/-- What the sequencer of a core does, or did when it parked. -/
def Core.doing (c : Core) : Seq :=
  match c.seq with
  | .capture _ | .parked => c.was
  | x => x

/-- Whether a core has made its arrival at the boundary (04_scalar_control.md R125; 10_phase_sync.md R276). -/
def Core.arrived (c : Core) : Bool :=
  match c.doing with
  | .endph _ a | .halted a => a
  | _ => false

/-- The stand that a core belongs to now: its partition and its job. -/
def State.standOf (s : State) (n : Nat) : Option (Nat × Run) :=
  match s.runOf (s.core n).part with
  | some r => if r.cores.contains n then some ((s.core n).part, r) else none
  | none => none

/-- The phase that a core asks for at its boundary: none is a final arrival. -/
def Seq.asks : Seq → Option Bool
  | .endph e _ => some e
  | _ => none

/-- What the arrivals at a boundary ask for: none where they disagree (10_phase_sync.md R278). -/
def nextPhase (s : State) (r : Run) : Option (Option Bool) :=
  match r.cores.map (fun n => (s.core n).doing.asks) with
  | [] => none
  | x :: l => if l.all (fun y => decide (y = x)) then some x else none

/-- What a send meets at its target die (10_phase_sync.md R285, R287). -/
inductive Meet where
  | land
  | hold
  | wait                     -- the hold is full
  | drop                     -- discarded without a trap
  | bad (cause : Byte)       -- discarded with a notice
  | away                     -- it leaves for another module
  deriving DecidableEq, Repr

/-- The partition of a send whose stand has ended: there is none of that number. -/
abbrev noPart : Nat := 64

/-- The landing rules of a send (10_phase_sync.md R285, R287); a core that is being swapped in holds it for its next exchange
superstep, and one whose held sends have been released for it has its slots taken by them. -/
def meet (s : State) (x : Send) : Meet :=
  let n := x.dest % 512
  let c := s.core n
  let put (m : Meet) (full : Bool) : Meet := if full then .bad Cause.LANDING_OVERFLOW else m
  if x.dest / 512 ≠ s.sys.dev.toNat then (if s.podHas x.pgid (x.dest / 512) then .away else .bad Cause.ILLEGAL_OPERAND)
  else
    match s.standOf n with
    | none => .bad Cause.ILLEGAL_OPERAND
    | some (p, r) =>
      if p = x.part ∧ (s.ownCore x.core).isSome = true then
        (if r.phc = x.phc then put .land (SMap.get c.lnd none x.slot).isSome else .drop)
      else if x.pgid ≠ 0 ∧ r.adm.pgid = x.pgid then
        (if r.exch ∧ c.arrived = false ∧ r.st ≠ .swapping then put .land (SMap.get c.lnd none x.slot).isSome
         else if c.ctx.holds.any (fun h => decide (h.slot = x.slot))
             || (r.pend && (nextPhase s r).isSome && (SMap.get c.lnd none x.slot).isSome) then
           .bad Cause.LANDING_OVERFLOW
         else if 16 ≤ c.ctx.holds.length then .wait
         else .hold)
      else .bad Cause.ILLEGAL_OPERAND

/-- The core that a flit of class 0 is under way to. -/
def Flit.goal (s : State) (f : Flit) : Option Nat :=
  match f.load with
  | .send x => s.ownCore x.dest
  | .notice n _ _ _ => s.ownCore n
  | _ => none

/-- Whether flit i of class 0 has to wait for an earlier one: sends of equal ARR from one core to one target keep their order,
and a send that finds the hold full keeps the traffic behind it to its die waiting (10_phase_sync.md R285; log entry 65). -/
def behind (s : State) (i : Nat) (f : Flit) : Bool :=
  (s.air.take i).any (fun g =>
    match g.load, f.load with
    | .send y, .send x =>
      decide (y.core = x.core ∧ y.dest = x.dest ∧ y.arr = x.arr)
        || (decide (meet s y = .wait) && decide ((g.goal s).map dieOf = (f.goal s).map dieOf))
    | .send y, _ => decide (meet s y = .wait) && decide ((g.goal s).map dieOf = (f.goal s).map dieOf)
    | _, _ => false)

/-- A send lands in its slot (10_phase_sync.md R285, R286). -/
def Core.land (c : Core) (x : Send) : Core := { c with lnd := SMap.set c.lnd none x.slot (some ⟨x.arr, x.data⟩) }

/-- The held sends of a core are released into their slots (10_phase_sync.md R285). -/
def Core.release3 (c : Core) : Core :=
  c.ctx.holds.foldl (fun t x => t.land x) { c with ctx := { c.ctx with holds := [] } }

/-- A send at its target die, or at the port through which it leaves the module (10_phase_sync.md R285, R287); the sender of a
discarded send learns of it while its stand runs, one in another module through the port of the target's die. -/
def arriveSend (s : State) (i : Nat) (x : Send) : State :=
  let n := x.dest % 512
  let c := s.core n
  let t := { s with air := dropAt s.air i }
  match meet s x with
  | .land => t.setCore n (c.land x)
  | .hold => t.setCore n { c with ctx := { c.ctx with holds := c.ctx.holds ++ [x] } }
  | .wait => s
  | .drop => t
  | .away =>
    (match s.podLink (edgeOfDie (dieOf (x.core % 512))) with
     | some l => t.putFlit (stopOfLink l) ⟨0, .send x⟩
     | none => s)
  | .bad k =>
    if x.part = noPart then t
    else
      match if (s.ownCore x.core).isSome then some (stopOfDie (dieOf n)) else (s.podLink (edgeOfDie (dieOf n))).map stopOfLink with
      | some p => t.putFlit p ⟨0, .notice x.core x.badr x.tag k⟩
      | none => t

/-- SEND_ARRIVAL (10_phase_sync.md R285): of the flit obj in transit. -/
def execSendArrival (s : State) : Res :=
  .next (match s.air[s.obj]? with
    | some ⟨c, .send x⟩ => if behind s s.obj ⟨c, .send x⟩ then s else arriveSend s s.obj x
    | _ => s)

/-- The module's record of a send that is in another module; it is there no longer (10_phase_sync.md R277, R287). -/
def State.notAbroad (s : State) (x : Send → Bool) : State :=
  { s with sys := { s.sys with abroad := s.sys.abroad.filter (fun y => !x y) } }

/-- A discard notice reaches the sender, which records the fault (10_phase_sync.md R287). -/
def noteDiscard (s : State) (i core badr tag : Nat) (cause : Byte) : State :=
  let t : State := { s with air := dropAt s.air i }
  match s.ownCore core with
  | none => t
  | some n =>
    let c := s.core n
    (t.notAbroad (fun x => decide (x.core = core ∧ x.badr = badr ∧ x.tag = tag))).setCore n
    { c with deferred := insertDeferred { tag := tag, send := true, cause := cause, faddr := BitVec.ofNat 64 badr, tok := 0,
                                          part := [], nfault := 0, live := false } c.deferred }

/-- DISCARD_NOTICE (10_phase_sync.md R287): the flit obj in transit. -/
def execDiscardNotice (s : State) : Res :=
  .next (match s.air[s.obj]? with
    | some ⟨c, .notice core badr tag cause⟩ =>
      if behind s s.obj ⟨c, .notice core badr tag cause⟩ then s else noteDiscard s s.obj core badr tag cause
    | _ => s)

/-! ### Requests -/

/-- The edge die through which a request leaves the module (log entry 64). -/
def Req.exit (r : Req) : Nat :=
  match r.org with
  | .job n _ | .coll n _ => edgeOfDie (dieOf n)
  | .pkt _ | .pod => 0

/-- A request whose pod link has failed: its job, or its use, ends with LINKDOWN (14_system.md R398;
09_copy_collective.md R247). -/
def linkLost (s : State) (r : Req) : State :=
  match r.org with
  | .job k tag | .coll k tag =>
    s.onJob k tag 0 (fun j =>
      { j with asked := false, held := false, ended := if j.ended.isNone then some 7 else j.ended })
  | .pkt q => s.failPkt q
  | .pod => s

/-- A request for another module at its port, or lost without one (14_system.md R398). -/
def sendAway (s : State) (r : Req) : State :=
  match s.podLink r.exit with
  | some l => s.putFlit (stopOfLink l) ⟨r.prio, .req r⟩
  | none => linkLost s r

/-- A request at its home: performed or recorded, and its issuer told; one that has to wait stays in transit
(11_translation.md R299 to R314, R319). -/
def homeRequest (s : State) (i : Nat) (t : Option Nat) (r : Req) : State :=
  let x := accessMain { s with air := dropAt s.air i } r t
  match x.2 with
  | .stall => s
  | .remote _ => sendAway x.1 (s.fix r)
  | _ => deliver x.1 (s.fix r) x.2

/-- What another module answers to a request: st is 0 where it was performed, its data in l, else a status
(11_translation.md R299; log entry 59). -/
def podAnswer (s : State) (r : Req) (l : List Byte) (st : Byte) : State :=
  if st = 0 then deliver s r (match r.kind with | .read _ | .table [] => .data l | _ => .done r.kind.len 0 0)
  else deliver s r (.fail (homeOf r.addr.toNat))

/-- The caches after the walks that a request caused (11_translation.md R300). -/
def cacheWalk (s : State) (r : Req) : State :=
  ((((s.fix r).targets.filterMap id).map (fun a => a / 4096 * 4096)).eraseDups).foldl (fun t a =>
    if isDev a && decide (a / 2 ^ 56 % 128 = s.sys.dev.toNat) then t.setHome (homeOf a) ((t.home (homeOf a)).cached r.asid (offOf a))
    else t) s

/-- HOME_REQUEST (11_translation.md R299): the flit obj in transit, translated by cached entry t or by a fresh walk, which is
cached; the command processor's own writes to one place keep their order. -/
def execHomeRequest (t : Option Nat) (s : State) : Res :=
  .next (match s.air[s.obj]? with
    | some ⟨_, .req r⟩ =>
      if decide (r.org = cpOwn) && ownIn (s.air.take s.obj) r.asid r.addr.toNat r.kind.len then s
      else homeRequest (if t.isNone then cacheWalk s r else s) s.obj t r
    | _ => s)

/-! ### Collective uses of a job that is gone -/

/-- Who may share a use: the pod group of a job's stand, or the job alone (09_copy_collective.md R266; log entry 31). -/
def Adm.useKey (x : Adm) : Nat := if x.pgid ≠ 0 then 2 * x.pgid + 1 else 2 * (4096 * x.seq + x.q + 1)

/-- The uses, the counts and the flits of a key are dropped (09_copy_collective.md R266; 12_traps.md R341). -/
def State.dropUses (s : State) (key : Nat) : State :=
  let keep (f : Flit) : Bool := match f.load with | .coll x => decide (x.key ≠ key) | _ => true
  { s with
    uses := s.uses.filter (fun u => decide (u.key ≠ key)), taken := s.taken.filter (fun u => decide (u.key ≠ key)),
    air := s.air.filter keep, stops := s.stops.map (fun x => (x.1, { x.2 with wait := x.2.wait.filter keep })) }

end Sys2Proof.Machine
end

