-- ==== Sys2Proof/Machine/Job.lean ====
section
/-! DEFINITION. The command processor's own accesses to main memory, descriptors, frames, and how a job ends: completion,
kill and what is discarded (13_queues.md R350 to R353, R360, R377; 12_traps.md R329, R341). -/

namespace Sys2Proof.Machine

/-! ### The command processor's reads and writes -/

/-- A range split at 4 KiB pages: address and length of each piece. -/
def pagesOf (a n : Nat) : List (Nat × Nat) :=
  ((List.range ((a % 4096 + n + 4095) / 4096)).map (fun k =>
    let lo := if k = 0 then a else (a / 4096 + k) * 4096
    (lo, min (a + n) ((a / 4096 + k + 1) * 4096) - lo))).filter (fun p => decide (0 < p.2))

/-- The outcome of a read by the command processor. -/
inductive Look where
  | ok (l : List Byte)
  | absent (a : Nat)
  | fail (a : Nat)
  | wait                     -- it waits at its home (11_translation.md R319, R320, R325)
  deriving DecidableEq, Repr

/-- n bytes behind a translation. -/
def State.bytesAt (s : State) (x : Xl) (n : Nat) : List Byte :=
  match x with
  | .dev h pa _ => Mem.readN (s.home h).mem pa n
  | .host a => Mem.readN s.hostMem a n
  | _ => []

/-- n bytes read through a view, line by line (09_copy_collective.md R263), its targets reached as any address is
(11_translation.md R319). -/
def State.lookView (s : State) (asid : Nat) : Nat → Nat → Nat → List Byte → Look
  | 0, _, _, acc => .ok acc
  | f + 1, a, n, acc =>
    if n = 0 then .ok acc
    else
      let r := s.fix (cpReq (.pkt 0) asid (.read (min n (64 - a % 64))) a)
      match (performXl s r (homeOf a) ((s.routes r none false).map (fun o => o.map s.settle))).2 with
      | .data l =>
        if l.isEmpty || (r.targets.filterMap id).any (fun y => (s.busyAt asid y).isSome) then .wait
        else s.lookView asid f (a + l.length) (n - l.length) (acc ++ l)
      | .absent _ y => .absent y
      | .fail _ => .fail a
      | _ => .wait

/-- n bytes of one page outside every view; poison ends the read at its byte, and a page that earlier requests wait for keeps a
later one waiting (14_system.md R405; 11_translation.md R311). -/
def State.lookPage (s : State) (asid a n : Nat) : Look :=
  let x := s.xlat asid a true false none
  match x with
  | .dev h pa _ =>
    if s.leafHeld x || (s.busyAt asid a).isSome then .wait
    else
      (match (List.range n).find? (fun i => (s.home h).bad.contains (pa + i)) with
       | some i => .fail (a + i)
       | none => .ok (s.bytesAt x n))
  | .host _ => if (s.busyAt asid a).isSome then .wait else .ok (s.bytesAt x n)
  | .absent _ y => .absent y
  | .fail _ => .fail a
  | _ => .wait

/-- n bytes from a virtual address under an ASID (11_translation.md R299 to R307, R311, R325); poison ends the read
(14_system.md R405); it waits for own writes under way. -/
def State.look (s : State) (asid a n : Nat) : Look :=
  (pagesOf a n).foldl (fun r p =>
    match r with
    | .ok l =>
      if ownIn s.air asid p.1 p.2 then .wait
      else
        (match (if (s.viewAt asid p.1).isSome then s.lookView asid p.2 p.1 p.2 [] else s.lookPage asid p.1 p.2) with
         | .ok x => .ok (l ++ x)
         | e => e)
    | e => e) (.ok [])

/-- The bytes of a read that succeeded. -/
def Look.get? : Look → Option (List Byte)
  | .ok l => some l
  | _ => none

/-- A write by the command processor, line by line, each a request of its own that is performed, side-logged or held at its home
(11_translation.md R299 to R309); what is left waits where the network does not take it. -/
def storeLines (o : Origin) (asid : Nat) : Nat → State → Nat → List Byte → State × RRes
  | 0, s, _, _ => (s, .done 0 0 0)
  | f + 1, s, a, l =>
    if l.isEmpty then (s, .done 0 0 0)
    else
      let d := l.take (64 - a % 64)
      let x := accessMain s (cpReq o asid (.write d) a) none
      match x.2 with
      | .done n _ _ => storeLines o asid f x.1 (a + max 1 n) (l.drop (max 1 n))
      | .held | .waiting => storeLines o asid f x.1 (a + d.length) (l.drop d.length)
      | .fail h => (x.1, .fail h)
      | r => (s, r)

/-- A write by the command processor. -/
def State.store (s : State) (o : Origin) (asid a : Nat) (l : List Byte) : State × RRes := storeLines o asid l.length s a l

/-- The state after an own write of the command processor under ASID 0; none where some line would have to wait. -/
def State.poke (s : State) (a : Nat) (l : List Byte) : Option State :=
  if ownIn s.air 0 a l.length then none
  else
    match s.store cpOwn 0 a l with
    | (_, .stall) | (_, .remote _) => none
    | (t, _) => some t

/-- An own write of the command processor under ASID 0, line by line, which the command processor does not wait for: a line that
its home cannot take at once stands in the network, in order with others to its place (11_translation.md R322, R325). -/
def sendLines : Nat → State → Nat → List Byte → State
  | 0, s, _, _ => s
  | f + 1, s, a, l =>
    if l.isEmpty then s
    else
      let d := l.take (64 - a % 64)
      let r := cpReq cpOwn 0 (.write d) a
      let away : State := { s with air := s.air ++ [⟨0, .req r⟩] }
      if ownIn s.air 0 a d.length then sendLines f away (a + d.length) (l.drop d.length)
      else
        let x := accessMain s r none
        match x.2 with
        | .done n _ _ => sendLines f x.1 (a + max 1 n) (l.drop (max 1 n))
        | .stall | .remote _ => sendLines f away (a + d.length) (l.drop d.length)
        | _ => sendLines f x.1 (a + d.length) (l.drop d.length)

/-- An own write of the command processor that it does not wait for. -/
def State.send (s : State) (a : Nat) (l : List Byte) : State := sendLines l.length s a l

/-! ### Descriptors -/

/-- A queue descriptor from its 64 bytes (13_queues.md R352, R353). -/
def parseQueue (l : List Byte) : QDesc where
  pring := leAt l 0 8 / 128 * 128
  log2n := leAt l 0 8 % 32
  cring := leAt l 8 8 / 64 * 64
  wake := leAt l 0x10 8
  period := leAt l 0x18 6
  cls := leAt l 0x1E 1 % 4
  en := bit (leAt l 0x1F 1) 0
  killLate := bit (leAt l 0x1F 1) 1
  replayable := bit (leAt l 0x1F 1) 2
  priv := bit (leAt l 0x1F 1) 3
  dbg := bit (leAt l 0x1F 1) 4
  reldl := leAt l 0x20 6
  part := leAt l 0x26 1 % 64
  asid := leAt l 0x28 2
  capc := leAt l 0x30 5
  capb := leAt l 0x35 5
  capx := leAt l 0x3A 5
  ok := decide (leAt l 0 8 / 32 % 4 = 0 ∧ leAt l 8 8 % 64 = 0 ∧ leAt l 0x1E 1 / 4 = 0 ∧ leAt l 0x1F 1 / 32 = 0
    ∧ leAt l 0x26 1 / 64 = 0 ∧ leAt l 0x27 1 = 0 ∧ leAt l 0x3F 1 = 0)

/-- Queue q's descriptor as it stands in memory: as it was read last where the read has to wait, zeros where it fails. -/
def State.qdesc (s : State) (q : Nat) : QDesc :=
  match s.look 0 (s.qAddr q) 64 with
  | .ok l => parseQueue l
  | .absent _ | .wait => (s.queue q).desc
  | .fail _ => QDesc.zero

/-- CREAD of a queue (13_queues.md R352). -/
def State.cread (s : State) (q : Nat) : Nat :=
  match (s.look 0 (s.qAddr q + 0x2E) 2).get? with
  | some l => leAt l 0 2
  | none => 0

/-- An own read of the command processor that has to wait waits for itself: at a page that is not present it is held, and one that
fails sends its events (11_translation.md R307, R308; 14_system.md R405). -/
def State.noteRead (s : State) (x : Look) : State :=
  match x with
  | .absent y => if s.pending cpOwn then s else holdAt s cpOwn 0 y
  | .fail y => if isDev y then (accessMain s (cpReq cpOwn 0 (.read 1) y) none).1 else s
  | .ok _ | .wait => s

/-- Whether a read has to wait. -/
def Look.waits : Look → Bool
  | .absent _ | .wait => true
  | .ok _ | .fail _ => false

/-- A partition descriptor from its 64 bytes (13_queues.md R350). -/
def parsePart (l : List Byte) : PDesc where
  dmask := leAt l 0 8
  ctxb := leAt l 8 8
  nframe := leAt l 0x10 1
  valid := decide (leAt l 0x11 1 = 1 ∧ leAt l 0 8 ≠ 0 ∧ leAt l 0x14 44 = 0)
  admcap := if leAt l 0x12 2 = 0 then 0xF333 else leAt l 0x12 2

/-- Partition p's descriptor, other partitions not regarded. -/
def State.pdesc0 (s : State) (p : Nat) : PDesc :=
  match (s.look 0 (s.sys.ptab.toNat + 64 * p) 64).get? with
  | some l => parsePart l
  | none => ⟨0, 0, 0, false, 0xF333⟩

/-- The descriptor that a partition holds to while it holds an admitted entry; none once it holds none (13_queues.md R350). -/
def State.pdescKept (s : State) (p : Nat) : Option PDesc :=
  let t := s.part p
  if t.run.isSome || !t.adms.isEmpty then t.desc else none

/-- The dies of valid partitions below p, each by the descriptor in force (13_queues.md R350). -/
def State.diesBelow (s : State) (p : Nat) : Nat :=
  (List.range p).foldl (fun m k =>
    let d := (s.pdescKept k).getD (s.pdesc0 k)
    if d.valid ∧ m &&& d.dmask = 0 then m ||| d.dmask else m) 0

/-- The dies of partitions that hold to a descriptor (13_queues.md R350; log entry 77). -/
def State.diesKept (s : State) (p : Nat) : Nat :=
  s.parts.foldl (fun m x => if x.1 = p then m else match s.pdescKept x.1 with | some d => m ||| d.dmask | none => m) 0

/-- Partition p's descriptor as it stands in memory: valid only if no die belongs to a valid partition below
(13_queues.md R350), nor to one that still holds to an older descriptor. -/
def State.pdescNow (s : State) (p : Nat) : PDesc :=
  let d := s.pdesc0 p
  { d with valid := d.valid && decide ((s.diesBelow p ||| s.diesKept p) &&& d.dmask = 0) }

/-- Partition p's descriptor: read only while the partition holds no admitted entry (13_queues.md R350). -/
def State.pdesc (s : State) (p : Nat) : PDesc := (s.pdescKept p).getD (s.pdescNow p)

/-- The reads of the descriptors that decide whether partition p is valid, of partitions that hold to none
(13_queues.md R350). -/
def State.partLooks (s : State) (p : Nat) : List Look :=
  ((List.range (p + 1)).filter (fun k => (s.pdescKept k).isNone)).map (fun k => s.look 0 (s.sys.ptab.toNat + 64 * k) 64)

/-- Whether a partition is valid (13_queues.md R350). -/
def State.anyPart (s : State) : Bool := (List.range 64).any (fun p => ((s.pdescKept p).getD (s.pdesc0 p)).valid)

/-- Whether a queue is serviceable (13_queues.md R353). -/
def State.serviceable (s : State) (d : QDesc) : Bool :=
  d.en && d.ok && decide (d.cls ≠ 3) && !(decide (d.cls = 1 ∨ d.cls = 2) && decide (d.period = 0)) && decide (d.asid ≠ 0)
    && decide (1 ≤ d.log2n ∧ d.log2n ≤ 15) && (s.pdesc d.part).valid

/-! ### Frames (12_traps.md R329; 13_queues.md R350) -/

/-- The cores of a partition in CORE_ID order. -/
def partCores (d : PDesc) : List Nat := (diesOf d.dmask).flatMap (fun e => (List.range 8).map (fun i => 8 * e + i))

/-- The block of a core in its job's frame. -/
def frameBlock (d : PDesc) (frame n : Nat) : Nat :=
  d.ctxb + frame * 0x400000 * (partCores d).length
    + 0x400000 * ((partCores d).findIdx? (fun k => decide (k = n))).getD 0

/-- The cells of a 4 KiB page. -/
def pageCells (m : Mem) (page : Nat) : Mem := m.filter (fun p => decide (p.1 / 4096 = page))

/-- The lines of a page that is not present, each a write of its own: side-logged or held (11_translation.md R307, R309). -/
def frameLines (va : Nat) (c : Mem) (s : State) (k : Nat) : Option State :=
  (List.range 64).foldl (fun (o : Option State) i => o.bind (fun t =>
    let x := accessMain t (cpReq cpOwn 0 (.write (Mem.readN c (4096 * k + 64 * i) 64)) (va + 4096 * k + 64 * i)) none
    match x.2 with
    | .stall => none
    | _ => some x.1)) (some s)

/-- One page of a frame replaced by the cells of its place in an area, the root table excepted (11_translation.md R301): none where it
has to wait for chunks, for a held write of its leaf, or for a migration; at a page that is not present its lines wait, and one that
does not translate sends the event of a fault (11_translation.md R307, R309, R319, R322, R325). -/
def framePage (va : Nat) (cells : Mem) (s : State) (k : Nat) : Option State :=
  let x := s.xlat 0 (va + 4096 * k) false true none
  let c := pageCells cells k
  match x with
  | .dev h pa _ =>
    let o := s.home h
    if o.isRoot (pa / 4096) then some s
    else if c.isEmpty && (pageCells o.mem (pa / 4096)).isEmpty && !o.balloon.contains (pa / 4096) then some s
    else if s.leafHeld x then none
    else
      let r := o.renew (fun m => Mem.writeFn m (pa / 4096 * 4096) 4096 (fun i => Mem.read c (4096 * k + i))) [pa / 4096]
      if r.2 then some (s.setHome h r.1) else none
  | .frozen _ | .behind => none
  | .absent _ _ => frameLines va c s k
  | .fail h => some (s.reqEvent h (cpReq cpOwn 0 (.write []) (va + 4096 * k)))
  | _ => some s

/-- size bytes of a frame, from a 4 KiB-aligned address, written with the given cells (offset, byte), zero elsewhere; none where
some page has to wait. -/
def frameWrite (s : State) (va size : Nat) (cells : Mem) : Option State :=
  (List.range ((size + 4095) / 4096)).foldl (fun o k => o.bind (fun t => framePage va cells t k)) (some s)

/-- The cells of size bytes of a frame (offset, byte). -/
def frameRead (s : State) (va size : Nat) : Mem :=
  ((List.range ((size + 4095) / 4096)).flatMap (fun k =>
    match s.xlat 0 (va + 4096 * k) true false none with
    | .dev h pa _ => ((pageCells (s.home h).mem (pa / 4096)).filter (fun p => decide (pa ≤ p.1))).map (fun p => (p.1 - pa + 4096 * k, p.2))
    | _ => [])).filter (fun p => decide (p.1 < size))

/-- What keeps size bytes of a frame from being read: a page that is not present, or one that waits (11_translation.md R308, R319,
R325). -/
def frameLook (s : State) (va size : Nat) : Look :=
  (List.range ((size + 4095) / 4096)).foldl (fun o k =>
    match o with
    | .ok _ =>
      let a := va + 4096 * k
      let x := s.xlat 0 a true false none
      (match x with
       | .dev _ _ _ => if s.leafHeld x || (s.busyAt 0 a).isSome || ownIn s.air 0 a 4096 then .wait else o
       | .absent _ y => .absent y
       | .frozen _ | .behind => .wait
       | _ => o)
    | _ => o) (.ok [])

/-! ### Packets -/

/-- A packet of a queue rewritten. -/
def State.setPkt (s : State) (q seq : Nat) (f : Pkt → Pkt) : State :=
  s.setQueue q { s.queue q with pkts := (s.queue q).pkts.map (fun p => if p.seq = seq then f p else p) }

/-- A packet of a queue. -/
def State.pkt? (s : State) (q seq : Nat) : Option Pkt := (s.queue q).pkts.find? (fun p => decide (p.seq = seq))

/-- The 256 bytes of a journal record (13_queues.md R384; log entry 16): the packet, its queue and sequence number, its state, its
rejection code, D and ρ. -/
def JRec.bytes (r : JRec) : List Byte :=
  let l := (r.body ++ List.replicate 128 0).take 128 ++ leBytes 2 r.q ++ leBytes 2 r.seq
    ++ [flagIf true 1 ||| flagIf r.adm.isSome 2 ||| flagIf r.started 4 ||| flagIf r.performed 8 ||| flagIf r.complete 16, r.rej, 0, 0]
    ++ leBytes 8 r.d ++ leBytes 8 r.rho
  l ++ List.replicate (256 - l.length) 0

/-- The journal's record at a place written in main memory, once the command processor has placed the journal (13_queues.md R384;
14_system.md R392). -/
def State.putRec (s : State) (place : Nat) (l : List Byte) : State :=
  if isDev s.sys.jrnl.toNat then s.send (s.sys.jrnl.toNat + 256 * place) l else s

/-- The journal record of a packet rewritten (13_queues.md R384). -/
def State.setRec (s : State) (q seq : Nat) (f : JRec → JRec) : State :=
  let mine (r : JRec) : Bool := decide (r.q = q ∧ r.seq = seq)
  let t : State := { s with journal := s.journal.map (fun r => if mine r then f r else r) }
  (s.journal.filter mine).foldl (fun u r => u.putRec r.place (f r).bytes) t

/-- A packet's record becomes free (13_queues.md R384). -/
def State.freeRec (s : State) (q seq : Nat) : State :=
  let mine (r : JRec) : Bool := decide (r.q = q ∧ r.seq = seq)
  (s.journal.filter mine).foldl (fun u r => u.putRec r.place (List.replicate 256 0))
    { s with journal := s.journal.filter (fun r => !mine r) }

/-! ### The end of a job -/

/-- The bits of CFL (13_queues.md R360). -/
abbrev cflLate : Byte := 1
/-- KILLED (13_queues.md R360). -/
abbrev cflKilled : Byte := 2
/-- REPLAYED (13_queues.md R360). -/
abbrev cflReplayed : Byte := 4

/-- A core with the state of no job: what belongs to the die and to the command processor stays. -/
def Core.release (c : Core) : Core :=
  { Core.idle with code := c.code, nbundle := c.nbundle, consts := c.consts, codeGen := c.codeGen, slmap := c.slmap,
                   breakpt := c.breakpt, bad := c.bad, scratch := c.scratch, nextTag := c.nextTag }

/-- A core whose job has ended: its registers, local memory and STR state stand as the job left them until the next job starts
(03_encoding.md R77; 01_machine.md R21); nothing is under way any more. -/
def Core.retire (c : Core) : Core :=
  { c with seq := .idle, was := .idle, shadow := none, qs := [], ldq := [], stq := [], lda := [], sta := [], pends := [], flights := [],
           rep := none, repNext := none, jobs := [], cards := [], refused := [], deferred := [], arrivals := [], trap := none,
           capEmpty := [], beats := 0, bytes := 0 }

/-- The cores of a stand changed. -/
def State.mapCores (s : State) (l : List Nat) (f : Nat → Core → Core) : State :=
  l.foldl (fun t n => t.setCore n (f n (t.core n))) s

/-- Host writes of a home that no stand holds any more are applied in arrival order; one that has no room in the expansion hold
buffer waits, and later writes to its line with it (05_local_memory.md R164, R165; 11_translation.md R325). -/
def sweepIngress (s : State) (h : Nat) : State :=
  let r := (s.home h).ingress.foldl (fun (o : State × List Ingress) x =>
    if !x.parts.isEmpty || o.2.any (fun y => decide (y.pa / 64 = x.pa / 64)) then (o.1, o.2 ++ [x])
    else
      let w := writeXl o.1 none (x.data.zipIdx.map (fun b => (Xl.dev h (x.pa + b.2) false, b.1))) x.data.length 0 0
      match w.2 with
      | .stall => (o.1, o.2 ++ [x])
      | _ => (w.1, o.2)) (s, [])
  r.1.setHome h { r.1.home h with ingress := r.2 }

/-- Host writes held for a stand are applied once no other stand holds them (05_local_memory.md R164). -/
def applyIngress (s : State) (p : Nat) : State :=
  (List.range 4).foldl (fun t h =>
    let o := t.home h
    if o.ingress.isEmpty then t
    else
      sweepIngress (t.setHome h { o with ingress := o.ingress.map (fun x => { x with parts := x.parts.filter (fun k => decide (k ≠ p)) }) })
        h) s

/-- Whether a request belongs to a core of a list. -/
def Req.ofCores (r : Req) (l : List Nat) : Bool :=
  match r.org with
  | .job n _ | .coll n _ => l.contains n
  | .pkt _ | .pod => false

/-- The place of a request of a job among the flits of a stop or in transit. -/
def flitOf (l : List Flit) (n tag : Nat) : Option Nat :=
  l.findIdx? (fun f => match f.load with | .req r => decide (r.org = .job n tag) | _ => false)

/-- One step of a copy job that was stopped (09_copy_collective.md R249): its request under way is performed, or the job goes
on to its line boundary. -/
def stopStep (s : State) (n tag : Nat) : State :=
  let d := stopOfDie (dieOf n)
  let run (t : State) (f : Flit) : State :=
    match f.load with
    | .req r =>
      let x := accessMain t r none
      (match x.2 with
       | .stall => { t with air := t.air ++ [f] }
       | .remote _ => sendAway x.1 (t.fix r)
       | _ => deliver x.1 (t.fix r) x.2)
    | _ => t
  match flitOf s.air n tag with
  | some i => run { s with air := dropAt s.air i } (s.air.getD i ⟨0, .notice 0 0 0 0⟩)
  | none =>
    match flitOf (s.stop d).wait n tag with
    | some i => run (s.setStop d { s.stop d with wait := dropAt (s.stop d).wait i }) ((s.stop d).wait.getD i ⟨0, .notice 0 0 0 0⟩)
    | none =>
      match (s.core n).job? tag with
      | some j =>
        (match j.card with
         | some card =>
           if j.ended.isSome || j.asked then s
           else if cardKind card = 4 then amoStep s n j card
           else if cardKind card = 5 then deltaStep s n j card
           else moveStep s n j card 64
         | none => s)
      | none => s

/-- The started copy jobs of a core stop as by cancel: each finishes the line it has begun, a DELTA its record
(09_copy_collective.md R249; 12_traps.md R341). -/
def stopJobs (s : State) (n : Nat) : State :=
  let c := s.core n
  let t := s.setCore n { c with jobs := c.jobs.map (fun j => { j with cancel := true }) }
  (c.jobs.filter (fun j => j.started && decide (j.eng ≠ .col) && j.ended.isNone)).foldl (fun t j =>
    (List.range 160).foldl (fun t _ => stopStep t n j.tag) t) t

/-- The atomics of stopped jobs that stand in the write queue of a port are applied, with what stands before them
(05_local_memory.md R149). -/
def flushAtomics (s : State) (n : Nat) (pool : Bool) : State :=
  let q := if pool then (s.quad (quadOf n)).wq else (s.core n).wq
  let k := (q.zipIdx.filter (fun p => p.1.job && decide (p.1.core = n))).foldl (fun a p => max a (p.2 + 1)) 0
  (List.range k).foldl (fun t _ => applyAtomic t n pool) s

/-- What a killed job leaves behind is disposed of (12_traps.md R341): copy jobs stop as by cancel; cards not yet taken, side-log
entries and held requests, landing slots and hold entries go; the host writes held for the stand are applied.  A write of a
line that has begun stays under way, and so does a send to another stand; one to the job's own cores finds no receiver
(10_phase_sync.md R285). -/
def discardJob (s : State) (p : Nat) (l : List Nat) : State :=
  let s := l.foldl (fun t n => flushAtomics (flushAtomics (stopJobs t n) n false) n true) s
  let s := applyIngress (s.purge (fun r => r.ofCores l)) p
  let stays (f : Flit) : Bool :=
    match f.load with
    | .send x => !(s.among l x.core && s.among l x.dest)
    | .notice n _ _ _ => !s.among l n
    | .req r => !r.ofCores l || (match r.kind with | .read _ | .table [] => false | _ => true)
    | .coll _ => true
  let orphan (f : Flit) : Flit :=
    match f.load with
    | .send x => if s.among l x.core then { f with load := .send { x with part := noPart } } else f
    | _ => f
  let s := { s.notAbroad (fun x => s.among l x.core) with
    air := (s.air.filter stays).map orphan,
    stops := s.stops.map (fun (x : Nat × Stop) => (x.1, { x.2 with wait := (x.2.wait.filter stays).map orphan })),
    quads := s.quads.map (fun (x : Nat × Quad) => (x.1, { x.2 with wq := x.2.wq.filter (fun a => !l.contains a.core) })) }
  s.mapCores l (fun _ c =>
    { c with jobs := [], cards := [], refused := [], deferred := [], lnd := [], wq := [], ctx := { c.ctx with holds := [] } })

/-- AFLB of a completion: the OR of the stand's AFL (13_queues.md R360). -/
def aflOr (s : State) (l : List Nat) : Byte := l.foldl (fun b n => b ||| (s.core n).ctx.afl) 0

/-- EXIT of a completion: the exit word of the core of rank 0 (04_scalar_control.md R125; 13_queues.md R360). -/
def exitOf (s : State) (l : List Nat) : Word :=
  match l.find? (fun n => decide ((s.core n).lrank = 0) && (s.core n).exited) with
  | some n => (s.core n).exitw.setWidth 64
  | none => 0

/-- The job of a partition leaves it: its cores are parked, its packet completes (13_queues.md R360, R361). -/
def endRun (s : State) (p : Nat) (r : Run) (status cfl cause : Byte) : State :=
  let late := decide (r.adm.d < s.now)
  let x := r.adm
  let s1 := s.setPkt x.q x.seq (fun k =>
    { k with status := some (if status = 0 ∧ late = true then 1 else status),
             cfl := cfl ||| (if late then cflLate else 0) ||| (if x.replayed then cflReplayed else 0),
             cause := cause, exitw := exitOf s r.cores, aflb := aflOr s r.cores,
             usedC := x.usedC, usedB := x.usedB, usedX := x.usedX, dline := x.d })
  let s2 := ((s1.setRec x.q x.seq (fun k => { k with complete := true })).mapCores r.cores (fun _ c => c.retire)).setRun p none
  if x.pgid = 0 then s2.dropUses x.useKey else s2

/-- A job is killed (12_traps.md R341). -/
def killRun (s : State) (p : Nat) (status cfl cause : Byte) : State :=
  match s.runOf p with
  | none => s
  | some r => endRun (discardJob s p r.cores) p r status cfl cause

/-- An admitted job that starts again from its beginning, with its D and its effective budgets. -/
def Adm.again (x : Adm) : Adm :=
  { x with replayed := true, started := false, preempted := false, next := none,
           remC := x.budC, remB := x.budB, remX := x.budX, usedC := 0, usedB := 0, usedX := 0 }

/-- A job is replayed from its start (13_queues.md R379): it is ready again with its D and its effective budgets. -/
def replayRun (s : State) (p : Nat) : State :=
  match s.runOf p with
  | none => s
  | some r =>
    let s0 := ((discardJob s p r.cores).mapCores r.cores (fun _ c => c.retire)).setRun p none
    let s1 := if r.adm.pgid = 0 then s0.dropUses r.adm.useKey else s0
    s1.setPart p { s1.part p with adms := (s1.part p).adms ++ [r.adm.again] }

end Sys2Proof.Machine
end

