-- ==== Sys2Proof/Machine/Strm.lean ====
section
/-! DEFINITION. The STR engine: the stream array and its 27 triggers, each acting at its start in queue order
(07_stream_array.md R193 to R215; 08_stream_ops.md R216 to R240). -/

namespace Sys2Proof.Machine

/-! ### Edge banks, headers and digits -/

/-- The active A edge bank: 0 or 1 (07_stream_array.md R194, BSEL). -/
def Str.abank (t : Str) : Nat := (t.bsel.extractLsb' 0 1).toNat
/-- The active B edge bank: 2 or 3. -/
def Str.bbank (t : Str) : Nat := 2 + (t.bsel.extractLsb' 1 1).toNat
/-- The active counter bank: 0 or 1. -/
def Str.cbank (t : Str) : Nat := (t.bsel.extractLsb' 2 1).toNat

/-- The bank a push writes: TGT 1 names the inactive bank of the side (08_stream_ops.md R220). -/
def Str.target (t : Str) (sideB tgt : Bool) : Nat :=
  if sideB then (if tgt then 5 - t.bbank else t.bbank) else (if tgt then 1 - t.abank else t.abank)

/-- TAG of an A bank. -/
def Str.tags (t : Str) (bank : Nat) : List (BitVec 2) := if bank = 0 then t.tag0 else t.tag1

/-- TAG of an A bank replaced. -/
def Str.setTags (t : Str) (bank : Nat) (l : List (BitVec 2)) : Str := if bank = 0 then { t with tag0 := l } else { t with tag1 := l }

/-- The beat index of a counter bank. -/
def Str.bt (t : Str) (cb : Nat) : BitVec 32 := if cb = 0 then t.bt0 else t.bt1

/-- The beat index of a counter bank replaced. -/
def Str.setBt (t : Str) (cb : Nat) (v : BitVec 32) : Str := if cb = 0 then { t with bt0 := v } else { t with bt1 := v }

/-- A whole bank replaced by the entries listed in rising order of line · 128 + position; dead entries are not listed. -/
def Str.setBank (t : Str) (bank : Nat) (l : List (Nat × Dig)) : Str :=
  { t with edge := t.edge.filter (fun p => decide (p.1 < bank * 16384))
      ++ (l.filter (fun p => decide (p.2 ≠ Dig.dead))).map (fun p => (bank * 16384 + p.1, p.2))
      ++ t.edge.filter (fun p => decide ((bank + 1) * 16384 ≤ p.1)) }

/-- One line of a bank replaced. -/
def Str.setLine (t : Str) (bank ln : Nat) (f : Nat → Dig) : Str :=
  { t with edge := t.edge.fill Dig.dead (bank * 16384 + ln * 128) 128 f }

/-- All headers of a bank replaced: header of a line and a slot. -/
def Str.setHdrs (t : Str) (bank : Nat) (f : Nat → Nat → BitVec 16) : Str :=
  { t with hdr := t.hdr.fill 0 (bank * 512) 512 (fun x => f (x / 4) (x % 4)) }

/-- A header. -/
def Str.header (t : Str) (bank ln slot : Nat) : BitVec 16 := t.hdr.get 0 (bank * 512 + ln * 4 + slot)

/-- A digit as a push writes it: the clamp of R43 with QX, and zero-skip on the A side (02_numbers.md R43;
07_stream_array.md R211; 08_stream_ops.md R221). -/
def Str.digit (t : Str) (sideB : Bool) (s : Bool) (m : Nat) : Dig × Byte :=
  let lim := 2 ^ t.sprec.toNat - 1
  let m' := min m lim
  (if !sideB && !t.smode && decide (m' ≤ t.sthr.toNat) then ⟨true, false, 0⟩ else ⟨true, s, BitVec.ofNat 4 m'⟩,
    flagIf (decide (lim < m)) fQX)

/-- A digit from a vector lane (08_stream_ops.md R226). -/
def Str.laneDigit (t : Str) (sideB : Bool) (w : BitVec 32) : Dig × Byte :=
  if w.getLsbD 5 then (Dig.dead, 0) else t.digit sideB (w.getLsbD 4) (w.extractLsb' 0 4).toNat

/-- Element e of a block as sign and magnitude: the conversion of R43 under the side's DSEL bit (02_numbers.md R43). -/
def convEl (ib8 high : Bool) (blk : List Byte) (e : Nat) : Bool × Nat :=
  if ib8 then
    let x := ib8El blk e
    (x.1, if high then x.2 / 16 else x.2 % 16)
  else fa4El blk e

/-- The header a push stores for a block (07_stream_array.md R195; 08_stream_ops.md R221). -/
def blockHeader (ib8 high : Bool) (blk : List Byte) : BitVec 16 :=
  BitVec.ofNat 16 (leAt blk 0 2 % 1024 + (if ib8 then 0 else 1024) + (if ib8 && high then 2048 else 0))

/-! ### Pushes from local memory (08_stream_ops.md R220 to R225) -/

/-- The checks of R223 on the bytes of a push, in their order (08_stream_ops.md R223). -/
def pushFault (s : State) (core : Nat) (p : PushCtl) (qs : List Nat) : Option (Byte × Nat) :=
  let pool := s.poolOf core
  let as := p.bytes qs
  if p.base % 2 ≠ 0 ∨ p.stride % 2 ≠ 0 then some (Cause.ALIGN, p.base)
  else
    match (if s.exchOf core then none else as.find? inWholeWindow) with
    | some a => some (Cause.PHASE_COMPUTE, a)
    | none =>
      match as.find? (fun a => (locOf pool core a).isNone) with
      | some a => some (if localWin pool a = .beyond then Cause.POOL_BOUNDS else Cause.LOCAL_BOUNDS, a)
      | none =>
        match as.find? (s.localBad core) with
        | some a =>
          some (match localWin pool a with
            | .scratch _ => Cause.ECC_SCRATCH
            | _ => Cause.ECC_POOL, a)
        | none => none

/-- Whether an older access of the core that stores, or an older job that writes, still stands before a read of these lines;
a store in the engine queue has no address yet and counts as touching every line (05_local_memory.md R157;
08_stream_ops.md R222). -/
def Core.pushWaits (c : Core) (pool core tag : Nat) (ls : List Nat) : Bool :=
  let touches (x : Access) : Bool :=
    x.kind.store && decide (x.ent.tag < tag) && (x.addrs.map (lineOf pool core)).any (fun l => ls.contains l)
  c.stq.any touches || c.sta.any touches
    || (c.q .mem).any (fun e => decide (e.tag < tag) && (match e.trig with | some i => (memKind i).store | none => false))
    || c.jobs.any (fun j => decide (j.tag < tag) && (match j.card with
        | none => true
        | some _ => ls.any (fun l => j.wr.any (·.hasLine false l))))

/-- The bytes of the blocks of every line: line n, block q of the list. -/
def pushBlocks (s : State) (core : Nat) (p : PushCtl) (qs : List Nat) : List (List (List Byte)) :=
  (List.range p.nline).map (fun n => qs.map (fun q => s.localBytes core (p.blockAt n q) p.size))

/-- The entries a push writes, line by line: place k of a line takes element x of block index q where src k is
some (q, x) (08_stream_ops.md R221, R224, R225). -/
def Str.pushEntries (t : Str) (sideB high : Bool) (p : PushCtl) (blks : List (List (List Byte)))
    (src : Nat → Option (Nat × Nat)) (nplace : Nat) : List (Nat × Dig × Byte) :=
  (List.range p.nline).flatMap (fun n =>
    (List.range nplace).map (fun k =>
      match src k with
      | some (q, x) =>
        let e := convEl p.ib8 high ((blks.getD n []).getD q []) x
        let d := t.digit sideB e.1 e.2
        (n * 128 + k, d.1, d.2)
      | none => (n * 128 + k, Dig.dead, 0)))

/-- The bank, the headers and QX of a push; hsrc gives the block index of a slot (08_stream_ops.md R221). -/
def Str.pushWrite (t : Str) (sideB high : Bool) (p : PushCtl) (blks : List (List (List Byte)))
    (src : Nat → Option (Nat × Nat)) (nplace : Nat) (hsrc : Nat → Option Nat) : Str × Byte :=
  let bank := t.target sideB p.tgt
  let es := t.pushEntries sideB high p blks src nplace
  ((t.setBank bank (es.map (fun x => (x.1, x.2.1)))).setHdrs bank (fun n q =>
      match hsrc q with
      | some b => if n < p.nline then blockHeader p.ib8 high ((blks.getD n []).getD b []) else 0
      | none => 0),
    es.foldl (fun f x => f ||| x.2.2) 0)

/-- pusha, or pushb without a pending map (08_stream_ops.md R221). -/
def Str.push (t : Str) (sideB : Bool) (p : PushCtl) (blks : List (List (List Byte))) : Str × Byte :=
  let high := if sideB then t.dsel.getLsbD 0 else t.dsel.getLsbD 1
  let r := t.pushWrite sideB high p blks (fun k => some (k / 32, k % 32)) p.kext
    (fun q => if 32 * q < p.kext then some q else none)
  if sideB then r else ({ r.1.setTags (t.target false p.tgt) defaultTags with cmap := none }, r.2)

/-- pushb under a pending map (08_stream_ops.md R225): blks holds the blocks of the map's slots, in slot order. -/
def Str.pushMapped (t : Str) (m : CMap) (p : PushCtl) (blks : List (List (List Byte))) : Str × Byte :=
  let r := t.pushWrite true (t.dsel.getLsbD 0) p blks
    (fun k => match m.places[k]? with
      | some x => (m.slots.idxOf? (x / 32)).map (fun q => (q, x % 32))
      | none => none) m.places.length
    (fun q => if q < m.slots.length then some q else none)
  ({ r.1 with cmap := none }, r.2)

/-- The loop of R224 (08_stream_ops.md): the first position not consumed, the kept positions, the slots' blocks. -/
def akLoop (keep : Nat → Bool) (kext : Nat) : Nat → Nat → List Nat → List Nat → Nat × List Nat × List Nat
  | 0, x, places, slots => (x, places, slots)
  | n + 1, x, places, slots =>
    if kext ≤ x then (x, places, slots)
    else if keep x then
      (if !slots.contains (x / 32) && decide (slots.length = 4) then (x, places, slots)
       else
         let slots := if slots.contains (x / 32) then slots else slots ++ [x / 32]
         if places.length = 128 then (x, places, slots) else akLoop keep kext n (x + 1) (places ++ [x]) slots)
    else akLoop keep kext n (x + 1) places slots

/-- Whether pushak keeps a source position (08_stream_ops.md R224). -/
def Str.keeps (t : Str) (p : PushCtl) (blks : List (List (List Byte))) (x : Nat) : Bool :=
  t.smode || (List.range p.nline).any (fun n =>
    let e := convEl p.ib8 (t.dsel.getLsbD 1) ((blks.getD n []).getD (x / 32) []) (x % 32)
    (t.digit false e.1 e.2).1.m ≠ 0)

/-- QX of a pushak: of the digit of any line at any position it examines, kept or not, up to the one it stops at
(02_numbers.md R43; 08_stream_ops.md R224). -/
def Str.akFlags (t : Str) (p : PushCtl) (blks : List (List (List Byte))) (last : Nat) : Byte :=
  (List.range (last + 1 - p.kskip)).foldl (fun f i => (List.range p.nline).foldl (fun g n =>
    let e := convEl p.ib8 (t.dsel.getLsbD 1) ((blks.getD n []).getD ((p.kskip + i) / 32) []) ((p.kskip + i) % 32)
    g ||| (t.digit false e.1 e.2).2) f) 0

/-- pushak after its loop (08_stream_ops.md R224, R225). -/
def Str.pushak (t : Str) (p : PushCtl) (blks : List (List (List Byte))) (r : Nat × List Nat × List Nat) : Str × Byte :=
  let bank := t.target false p.tgt
  let w := t.pushWrite false (t.dsel.getLsbD 1) p blks
    (fun k => (r.2.1[k]?).map (fun x => (x / 32, x % 32))) r.2.1.length
    (fun q => r.2.2[q]?)
  let tags := (List.range 128).map (fun k =>
    match r.2.1[k]? with
    | some x => BitVec.ofNat 2 ((r.2.2.idxOf? (x / 32)).getD 0)
    | none => BitVec.ofNat 2 (k / 32))
  ({ w.1.setTags bank tags with cmap := some ⟨p.kext, r.2.1, r.2.2⟩ }, t.akFlags p blks (min r.1 (p.kext - 1)))

/-! ### Beats (07_stream_array.md R198 to R202) -/

/-- θA and θB for beat index t (07_stream_array.md R198). -/
def thresholds (p t : Nat) (sa sb : Nat) : Nat × Nat :=
  let rev (off : Nat) : Nat :=
    (List.range p).foldl (fun acc n => acc + ((t / 2 ^ (2 * n + off)) % 2) * 2 ^ (p - 1 - n)) 0
  (rev 0 ^^^ (sa % 2 ^ p), rev 1 ^^^ (sb % 2 ^ p))

/-- The contribution of one cell in a beat; m is limited to 2^P - 1 (07_stream_array.md R199, R200; 08_stream_ops.md
R239). -/
def cellBeat (bipolar : Bool) (lim thA thB : Nat) (a b : Dig) : Int :=
  let x := decide (thA < min a.m.toNat lim)
  let y := decide (thB < min b.m.toNat lim)
  if !(a.live && b.live) then 0
  else if bipolar then (if x = y then 1 else -1)
  else if x && y then (if a.s != b.s then -1 else 1)
  else 0

/-- The live entries of a line of a bank: position and digit. -/
def Str.line (t : Str) (bank ln : Nat) : List (Nat × Dig) :=
  (t.edge.filter (fun p => decide (p.1 / 128 = bank * 128 + ln))).map (fun p => (p.1 % 128, p.2))

/-- The lines of a bank that have a live entry. -/
def Str.lines (t : Str) (bank : Nat) : List Nat :=
  ((t.edge.filter (fun p => decide (p.1 / 16384 = bank))).map (fun p => p.1 / 128 % 128)).eraseDups

/-- The exact sum of a beat's contributions to one slot of an output (07_stream_array.md R202). -/
def slotSum (bipolar : Bool) (lim thA thB : Nat) (tags : List (BitVec 2)) (row col : List (Nat × Dig)) (slot : Nat) : Int :=
  row.foldl (fun acc p =>
    if (tags.getD p.1 0).toNat = slot then
      (match col.lookup p.1 with
       | some b => acc + cellBeat bipolar lim thA thB p.2 b
       | none => acc)
    else acc) 0

/-- A sum added to a sub-counter, saturating with ACO (07_stream_array.md R202). -/
def subAdd (c : BitVec 16) (d : Int) : BitVec 16 × Byte :=
  let y := c.toInt + d
  if 32767 < y then (32767, fACO) else if y < -32767 then (BitVec.ofInt 16 (-32767), fACO) else (BitVec.ofInt 16 y, 0)

/-- One beat into the active counter bank (07_stream_array.md R198 to R202).  DESIGN CHOICE (log entry 70): a beat at
BT = 2^32 - 1 leaves BT at 0; the spec says nothing of it.  Unsafe. -/
def Str.beat (t : Str) : Str × Byte :=
  let p := t.sprec.toNat
  let cb := t.cbank
  let th := thresholds p ((t.bt cb).toNat % 4 ^ p) t.seeda.toNat t.seedb.toNat
  let lim := 2 ^ p - 1
  let cols := (t.lines t.bbank).map (fun j => (j, t.line t.bbank j))
  let sums : List (Nat × Int) := (t.lines t.abank).flatMap (fun i =>
    let row := t.line t.abank i
    cols.flatMap (fun jc => (List.range 4).map (fun s =>
      (cb * 65536 + (128 * i + jc.1) * 4 + s, slotSum t.smode lim th.1 th.2 (t.tags t.abank) row jc.2 s))))
  let low := (t.cnt.filter (fun p => decide (p.1 / 65536 = cb ∧ p.2 = BitVec.ofInt 16 (-32768)))).map (fun p => (p.1, (0 : Int)))
  let r := (sums ++ low).foldl (fun (acc : SMap (BitVec 16) × Byte) x =>
    let n := subAdd (acc.1.get 0 x.1) x.2
    (acc.1.set 0 x.1 n.1, acc.2 ||| n.2)) (t.cnt, 0)
  ({ t with cnt := r.1 }.setBt cb (t.bt cb + 1), r.2)

/-- n beats. -/
def Str.beats (t : Str) : Nat → Str × Byte
  | 0 => (t, 0)
  | n + 1 => let r := t.beats n; let q := r.1.beat; (q.1, r.2 ||| q.2)

/-- C(x) of a counter bank (07_stream_array.md, "Sums, checkpoints and margins"). -/
def Str.count (t : Str) (cb x : Nat) : Int :=
  (List.range 4).foldl (fun acc s => acc + (t.cnt.get 0 (cb * 65536 + x * 4 + s)).toInt) 0

/-- The outputs pair0 and pair1 of CPAIR. -/
def Str.pair0 (t : Str) : Nat := (t.cpair.extractLsb' 0 14).toNat
/-- The output pair1. -/
def Str.pair1 (t : Str) : Nat := (t.cpair.extractLsb' 14 14).toNat

/-- Whether a checkpoint stops the run (08_stream_ops.md R231). -/
def Str.stopsHere (t : Str) : Bool :=
  let cb := t.cbank
  let bt := (t.bt cb).toNat
  let ck := t.ckint.toNat
  decide (ck ≠ 0 ∧ bt % ck = 0 ∧ bt < t.slen.toNat)
    && decide ((t.mgn.get 0 (min (bt / ck) 16 - 1)).toNat < (t.count cb t.pair0 - t.count cb t.pair1).natAbs)

/-- The loop of R231 (08_stream_ops.md), with at most fuel beats: the array, the flags, the beats made, whether it
stopped. -/
def Str.runLoop : Nat → Str → Str × Byte × Nat × Bool
  | 0, t => (t, 0, 0, false)
  | n + 1, t =>
    if (t.bt t.cbank).toNat < t.slen.toNat then
      let q := t.beat
      if q.1.stopsHere then (q.1, q.2, 1, true)
      else
        let r := Str.runLoop n q.1
        (r.1, q.2 ||| r.2.1, r.2.2.1 + 1, r.2.2.2)
    else (t, 0, 0, false)

/-- str.run after its range check (08_stream_ops.md R231): the array, the flags and the beats made. -/
def Str.runBeats (t : Str) : Str × Byte × Nat :=
  let r := Str.runLoop t.slen.toNat t
  let u := r.1
  ({ u with stop := r.2.2.2,
            tie := !r.2.2.2 && decide (t.ckint ≠ 0) && decide (u.count u.cbank u.pair0 = u.count u.cbank u.pair1),
            sbeat := u.bt u.cbank }, r.2.1, r.2.2.1)

/-- SLEN > 4^SPREC (07_stream_array.md R197). -/
def Str.slenBad (t : Str) : Bool := decide (4 ^ t.sprec.toNat < t.slen.toNat)

/-! ### The fold and the drain (07_stream_array.md R209 to R213) -/

/-- A scale's exponent field: 255 is a NaN block, 0 a zero block (02_numbers.md R38). -/
def hdrExp (h : BitVec 16) : Nat := (h.extractLsb' 2 8).toNat

/-- The rounded contribution of one sub-counter, and NX (07_stream_array.md R209). -/
def Str.contribution (t : Str) (c : Int) (ha hb : BitVec 16) : Int × Byte :=
  let w (h : BitVec 16) : Nat := (4 + (h.extractLsb' 0 2).toNat) * (if h.getLsbD 11 then 16 else 1)
  let num := c.natAbs * w ha * w hb * (if t.smode then 1 else 4 ^ t.sprec.toNat)
  let e : Int := (hdrExp ha + hdrExp hb : Nat) - 258 - (if ha.getLsbD 10 then 1 else 0) - (if hb.getLsbD 10 then 1 else 0)
    - t.refexp.toInt
  let q := pow2Frac e
  let r := roundDiv 0 false (num * q.1) (t.slen.toNat * q.2)
  (if c < 0 then - (r.1 : Int) else (r.1 : Int), flagIf r.2 fNX)

/-- sat64 with ACO (07_stream_array.md R209). -/
def sat64 (x : Int) : Word × Byte :=
  if x < -(2 ^ 63) then (BitVec.ofInt 64 (-(2 ^ 63)), fACO)
  else if 2 ^ 63 - 1 < x then (BitVec.ofInt 64 (2 ^ 63 - 1), fACO)
  else (BitVec.ofInt 64 x, 0)

/-- One slot of one output folded (07_stream_array.md R209): entry, ANAN, flags. -/
def Str.foldSlot (t : Str) (x : Nat) (st : Word × Bool × Byte) (s : Nat) : Word × Bool × Byte :=
  let c := (t.cnt.get 0 (t.cbank * 65536 + x * 4 + s)).toInt
  let ha := t.header t.abank (x / 128) s
  let hb := t.header t.bbank (x % 128) s
  if hdrExp ha = 255 ∨ hdrExp hb = 255 then (st.1, true, st.2.2)
  else if c = 0 ∨ hdrExp ha = 0 ∨ hdrExp hb = 0 then st
  else
    let n := t.contribution c ha hb
    let a := sat64 (st.1.toInt + n.1)
    (a.1, st.2.1, st.2.2 ||| n.2 ||| a.2)

/-- One output folded. -/
def Str.foldOut (t : Str) (x : Nat) : Word × Bool × Byte :=
  (List.range 4).foldl (t.foldSlot x) (t.acc.get 0 x, t.anan.get false x, 0)

/-- The outputs a fold can change: all of them when a NaN header stands in an active bank, else those with a count. -/
def Str.foldOutputs (t : Str) : List Nat :=
  if t.hdr.any (fun p => decide ((p.1 / 512 = t.abank ∨ p.1 / 512 = t.bbank) ∧ hdrExp p.2 = 255)) then List.range 16384
  else ((t.cnt.filter (fun p => decide (p.1 / 65536 = t.cbank))).map (fun p => p.1 % 65536 / 4)).eraseDups

/-- The sub-counters and the beat index of a counter bank cleared (08_stream_ops.md R236). -/
def Str.clearBank (t : Str) (cb : Nat) : Str :=
  { t with cnt := t.cnt.filter (fun p => decide (p.1 / 65536 ≠ cb)) }.setBt cb 0

/-- str.fold after its range check (07_stream_array.md R209; 08_stream_ops.md R234). -/
def Str.fold (t : Str) : Str × Byte :=
  let r := t.foldOutputs.foldl (fun (acc : SMap Word × SMap Bool × Byte) x =>
    let n := t.foldOut x
    (acc.1.set 0 x n.1, acc.2.1.set false x n.2.1, acc.2.2 ||| n.2.2)) (t.acc, t.anan, 0)
  ({ t with acc := r.1, anan := r.2.1 }.clearBank t.cbank, r.2.2)

/-- n · 2^REFEXP in a format, one RNE rounding; UF when the result is zero or subnormal and inexact (02_numbers.md
R49). -/
def fxConv (f : Fmt) (n : Word) (refexp : Int) : Nat × Byte :=
  if n = 0 then (0, 0)
  else
    let r := f.round 0 (decide (n.toInt < 0)) n.toInt.natAbs refexp false
    (r.1, (r.2 &&& ~~~fUF) ||| flagIf (decide ((r.1 / 2 ^ f.mb) % 256 = 0) && decide (r.2 &&& fNX ≠ 0)) fUF)

/-- Entry (i, j) drained (07_stream_array.md R213). -/
def Str.drainEl (t : Str) (f : Fmt) (row j : Nat) : Nat × Byte :=
  if t.anan.get false (128 * row + j) then (f.nan, 0) else fxConv f (t.acc.get 0 (128 * row + j)) t.refexp.toInt

/-! ### Faults of STR storage (08_stream_ops.md R238) -/

/-- Whether a beat reads an error: in an active edge bank, in the TAG of the A bank, or in the active counter bank. -/
def Core.beatBad (c : Core) : Bool :=
  let t := c.ctx.str
  c.bad.edge.any (fun k => decide (k / 16384 = t.abank ∨ k / 16384 = t.bbank))
    || c.bad.tag.any (fun k => decide (k / 128 = t.abank))
    || c.bad.cnt.any (fun k => decide (k / 65536 = t.cbank))

/-- Whether a run reads an error: in its beats, or, where it makes none, in the sums that decide TIE
(08_stream_ops.md R231, R238). -/
def Core.runBad (c : Core) : Bool :=
  let t := c.ctx.str
  if (t.bt t.cbank).toNat < t.slen.toNat then c.beatBad
  else decide (t.ckint ≠ 0) && c.bad.cnt.any (fun k =>
    decide (k / 4 = t.cbank * 16384 + t.pair0 ∨ k / 4 = t.cbank * 16384 + t.pair1))

/-- Whether a fold reads an error: in the accumulator store, the active counter bank, or a header of an active edge bank.
DESIGN CHOICE (log entry 90): it reads every accumulator entry, one that it adds nothing to as well. -/
def Core.foldBad (c : Core) : Bool :=
  let t := c.ctx.str
  !c.bad.acc.isEmpty || c.bad.cnt.any (fun k => decide (k / 65536 = t.cbank))
    || c.bad.hdr.any (fun k => decide (k / 512 = t.abank ∨ k / 512 = t.bbank))

/-- Whether a shift reads an error: every position of the active A bank moves down, but for position 0, which it drops
(08_stream_ops.md R228). -/
def Core.shiftBad (c : Core) : Bool :=
  c.bad.edge.any (fun k => decide (k / 16384 = c.ctx.str.abank ∧ k % 128 ≠ 0))

/-- Whether str.cnt reads an error: the sub-counter it names, or all four (08_stream_ops.md R237). -/
def Core.cntBad (c : Core) (b : Word) : Bool :=
  let x := c.ctx.str.cbank * 65536 + (b.extractLsb' 0 14).toNat * 4
  c.bad.cnt.any (fun k => if b.getLsbD 16 then decide (k / 4 = x / 4) else decide (k = x + (b.extractLsb' 14 2).toNat))

/-- Whether a drain reads an error in its row (08_stream_ops.md R235). -/
def Core.drainBad (c : Core) (b : Word) : Bool := c.bad.acc.any (fun k => decide (k / 128 = (b.extractLsb' 0 7).toNat))

/-- The error sites after a trigger: what it writes anew holds no error any more (log entry 71). -/
def BadSites.after (x : BadSites) (t : Str) (i : Instr) (o b : Word) : BadSites :=
  let bank (sideB : Bool) : Nat := t.target sideB (o.getLsbD 1)
  let whole (k : Nat) : BadSites :=
    { x with edge := x.edge.filter (fun e => decide (e / 16384 ≠ k)), hdr := x.hdr.filter (fun e => decide (e / 512 ≠ k)),
             tag := x.tag.filter (fun e => decide (e / 128 ≠ k)) }
  let line (k ln : Nat) : BadSites :=
    { x with edge := x.edge.filter (fun e => decide (e / 128 ≠ k * 128 + ln)),
             hdr := x.hdr.filter (fun e => decide (e / 4 ≠ k * 128 + ln)),
             tag := x.tag.filter (fun e => decide (e / 128 ≠ k)) }
  let counters (cb : Nat) : BadSites := { x with cnt := x.cnt.filter (fun e => decide (e / 65536 ≠ cb)) }
  match i with
  | .strPusha _ | .strPushak _ => whole (bank false)
  | .strPushb _ => whole (bank true)
  | .strPushav _ => line (bank false) (o.extractLsb' 8 7).toNat
  | .strPushbv _ => line (bank true) (o.extractLsb' 8 7).toNat
  | .strShift _ => { x with edge := x.edge.filter (fun e => decide (e / 16384 ≠ t.abank)) }
  | .strFold _ => counters t.cbank
  | .strClra _ => { x with acc := [] }
  | .strClrc _ => counters (if b.getLsbD 0 then 1 - t.cbank else t.cbank)
  | _ => x

/-! ### Running a trigger -/

/-- What a STR trigger does: a cause, or the new array, the result, the flags and the beats charged. -/
inductive StrRes where
  | trap (cause : Byte) (faddr : Nat)
  | wait
  | ok (t : Str) (v : Option Val) (f : Byte) (beats : Nat)
  deriving DecidableEq, Repr

/-- Beats charged to the beat budget: none while the core is parked (08_stream_ops.md R217; 12_traps.md R327). -/
def Core.beatsPlus (c : Core) (b : Nat) : Nat := if c.trap.isSome then c.beats else c.beats + b

/-- A STR trigger at the head of the queue of core n starts (08_stream_ops.md R217, R218): f has the operands o, o2, the
value, and the entry. -/
def strStart (s : State) (n : Nat) (i : Instr) (p : Option RPort) (f : Word → Word → Val → Entry → StrRes) : State :=
  let c := s.core n
  match c.headTrig .str i with
  | none => s
  | some (en, v) =>
    if !strRange c.ctx.str.sprec i v.toScalar then s.setCore n (c.trapHead .str en Cause.ILLEGAL_OPERAND 0)
    else
      match f (c.op .str).o.toScalar (c.op .str).o2.toScalar v en with
      | .wait => s
      | .trap k a => s.setCore n (c.trapHead .str en k a)
      | .ok t r fl b =>
        s.setCore n ({ c.popHead .str with
            ctx := { (c.popHead .str).ctx with str := t }, beats := c.beatsPlus b,
            bad := c.bad.after c.ctx.str i (c.op .str).o.toScalar v.toScalar }.launchResult
          en .str (match r with | some _ => p | none => none) (r.getD (.s 0)) fl false)

/-- A STR trigger at the current core. -/
def strRun (i : Instr) (p : Option RPort) (f : Str → Word → Word → Val → Entry → StrRes) (s : State) : Res :=
  .next (strStart s s.cur i p (f s.me.ctx.str))

/-- A configuration trigger: a field of R194 (08_stream_ops.md R239). -/
def strCfg (i : Instr) (f : Str → Word → Str) (s : State) : Res :=
  strRun i none (fun t _ _ v _ => .ok (f t v.toScalar) none 0 0) s

/-- A memory push: its waits, its checks, then what it writes (08_stream_ops.md R220 to R225).  qs: the blocks it reads. -/
def pushRun (s : State) (p : PushCtl) (qs : List Nat) (tag : Nat) (f : List (List (List Byte)) → StrRes) : StrRes :=
  if s.me.pushWaits (s.poolOf s.cur) s.cur tag (p.lines (s.poolOf s.cur) s.cur qs) then .wait
  else
    match pushFault s s.cur p qs with
    | some (k, a) => .trap k a
    | none => f (pushBlocks s s.cur p qs)

/-- pusha and pushb (08_stream_ops.md R221, R225). -/
def pushMem (s : State) (sideB : Bool) (t : Str) (o o2 : Word) (v : Val) (en : Entry) : StrRes :=
  match (if sideB then t.cmap else none) with
  | some m =>
    (match pushCtl false (some m.kext) o o2 v.toScalar with
     | none => .trap Cause.ILLEGAL_OPERAND 0
     | some p => pushRun s p m.slots en.tag (fun bl => .ok (t.pushMapped m p bl).1 none (t.pushMapped m p bl).2 0))
  | none =>
    match pushCtl false none o o2 v.toScalar with
    | none => .trap Cause.ILLEGAL_OPERAND 0
    | some p =>
      pushRun s p (List.range ((p.kext + 31) / 32)) en.tag (fun bl => .ok (t.push sideB p bl).1 none (t.push sideB p bl).2 0)

/-- pushak (08_stream_ops.md R224): it examines the blocks up to the one it stops in.  While a line of these blocks waits for
an older store (R222) the loop is not settled and the push waits; once none does, no other block can be examined. -/
def pushCompact (s : State) (t : Str) (o o2 : Word) (v : Val) (en : Entry) : StrRes :=
  match pushCtl true none o o2 v.toScalar with
  | none => .trap Cause.ILLEGAL_OPERAND 0
  | some p =>
    let all := pushBlocks s s.cur p (List.range ((p.kext + 31) / 32))
    let r := akLoop (t.keeps p all) p.kext 513 p.kskip [] []
    let last := min r.1 (p.kext - 1) / 32
    let qs := (List.range (last + 1)).filter (fun q => decide (p.kskip / 32 ≤ q))
    pushRun s p qs en.tag (fun _ => .ok (t.pushak p all r).1 (some (.s (BitVec.ofNat 64 r.1))) (t.pushak p all r).2 0)

/-- pushav and pushbv (08_stream_ops.md R226, R227). -/
def pushVec (sideB : Bool) (t : Str) (o : Word) (v : Val) : StrRes :=
  let bank := t.target sideB (o.getLsbD 1)
  let ln := (o.extractLsb' 8 7).toNat
  let b := v.toVec
  let u := t.setLine bank ln (fun k => (t.laneDigit sideB (lane b k)).1)
  let u := { u with hdr := u.hdr.fill 0 (bank * 512 + ln * 4) 4 (fun _ => 0x01FC) }
  let u := if sideB then u else { u.setTags bank defaultTags with cmap := none }
  .ok u none (orAll 128 (fun k => (t.laneDigit sideB (lane b k)).2)) 0

/-- shift (08_stream_ops.md R228). -/
def shiftA (t : Str) (v : Val) : Str × Byte :=
  let b := v.toVec
  let bank := t.abank
  ({ t with cmap := none, edge := t.edge.fill Dig.dead (bank * 16384) 16384 (fun x =>
      if x % 128 = 127 then (t.laneDigit false (lane b (x / 128))).1 else t.edge.get Dig.dead (bank * 16384 + x + 1)) },
    orAll 128 (fun i => (t.laneDigit false (lane b i)).2))

/-- The status word of str.stat (08_stream_ops.md R233). -/
def Str.status (t : Str) : Word :=
  BitVec.ofNat 64 (t.sbeat.toNat + (if t.stop then 2 ^ 32 else 0) + (if t.tie then 2 ^ 33 else 0)
    + (if t.cmap.isSome then 2 ^ 34 else 0) + t.bsel.toNat * 2 ^ 35)

/-- The value of str.cnt (08_stream_ops.md R237). -/
def Str.cntValue (t : Str) (b : Word) : Word :=
  let x := (b.extractLsb' 0 14).toNat
  if b.getLsbD 16 then BitVec.ofInt 64 (t.count t.cbank x)
  else (t.cnt.get 0 (t.cbank * 65536 + x * 4 + (b.extractLsb' 14 2).toNat)).signExtend 64

/-- STR_PUSHA (08_stream_ops.md R221). -/
def execStrPusha (m : Mv) (s : State) : Res :=
  strRun (.strPusha m) none (fun t o o2 v en => pushMem s false t o o2 v en) s

/-- STR_PUSHB (08_stream_ops.md R221). -/
def execStrPushb (m : Mv) (s : State) : Res :=
  strRun (.strPushb m) none (fun t o o2 v en => pushMem s true t o o2 v en) s

/-- STR_PUSHAV (08_stream_ops.md R227). -/
def execStrPushav (m : Mv) (s : State) : Res :=
  strRun (.strPushav m) none (fun t o _ v _ => pushVec false t o v) s

/-- STR_PUSHBV (08_stream_ops.md R227). -/
def execStrPushbv (m : Mv) (s : State) : Res :=
  strRun (.strPushbv m) none (fun t o _ v _ => pushVec true t o v) s

/-- STR_PUSHAK (08_stream_ops.md R224). -/
def execStrPushak (m : Mv) (s : State) : Res :=
  strRun (.strPushak m) (some .strR) (fun t o o2 v en => pushCompact s t o o2 v en) s

/-- STR_BANK (08_stream_ops.md R229). -/
def execStrBank (m : Mv) (s : State) : Res :=
  strCfg (.strBank m) (fun t b => { t with bsel := b.extractLsb' 0 3 }) s

/-- STR_BEAT (08_stream_ops.md R230). -/
def execStrBeat (m : Mv) (s : State) : Res :=
  strRun (.strBeat m) none (fun t _ _ _ _ =>
    if t.slenBad then .trap Cause.SLEN_RANGE 0
    else if s.me.beatBad then .trap Cause.ECC_ACC 0
    else .ok t.beat.1 none t.beat.2 1) s

/-- STR_RUN (08_stream_ops.md R231). -/
def execStrRun (m : Mv) (s : State) : Res :=
  strRun (.strRun m) none (fun t _ _ _ _ =>
    if t.slenBad then .trap Cause.SLEN_RANGE 0
    else if s.me.runBad then .trap Cause.ECC_ACC 0
    else .ok t.runBeats.1 none t.runBeats.2.1 t.runBeats.2.2) s

/-- STR_SHIFT (08_stream_ops.md R228). -/
def execStrShift (m : Mv) (s : State) : Res :=
  strRun (.strShift m) none (fun t _ _ v _ =>
    if s.me.shiftBad then .trap Cause.ECC_ACC 0
    else .ok (shiftA t v).1 none (shiftA t v).2 0) s

/-- STR_FOLD (08_stream_ops.md R234). -/
def execStrFold (m : Mv) (s : State) : Res :=
  strRun (.strFold m) none (fun t _ _ _ _ =>
    if t.slenBad then .trap Cause.SLEN_RANGE 0
    else if s.me.foldBad then .trap Cause.ECC_ACC 0
    else .ok t.fold.1 none t.fold.2 0) s

/-- STR_DRAIN (08_stream_ops.md R235). -/
def execStrDrain (m : Mv) (s : State) : Res :=
  strRun (.strDrain m) (some .strVr) (fun t _ _ v _ =>
    let row := (v.toScalar.extractLsb' 0 7).toNat
    if s.me.drainBad v.toScalar then .trap Cause.ECC_ACC 0
    else .ok t (some (.v (ofLanes (fun j => BitVec.ofNat 32 (t.drainEl fp32 row j).1))))
      (orAll 128 (fun j => (t.drainEl fp32 row j).2)) 0) s

/-- STR_DRAINBF (08_stream_ops.md R235). -/
def execStrDrainbf (m : Mv) (s : State) : Res :=
  strRun (.strDrainbf m) (some .strVr) (fun t _ _ v _ =>
    let row := (v.toScalar.extractLsb' 0 7).toNat
    if s.me.drainBad v.toScalar then .trap Cause.ECC_ACC 0
    else .ok t (some (.v (ofHalves (fun j => if j < 128 then BitVec.ofNat 16 (t.drainEl bf16 row j).1 else 0))))
      (orAll 128 (fun j => (t.drainEl bf16 row j).2)) 0) s

/-- STR_CLRA (08_stream_ops.md R236). -/
def execStrClra (m : Mv) (s : State) : Res :=
  strRun (.strClra m) none (fun t _ _ _ _ => .ok { t with acc := [], anan := [] } none 0 0) s

/-- STR_CLRC (08_stream_ops.md R236). -/
def execStrClrc (m : Mv) (s : State) : Res :=
  strRun (.strClrc m) none (fun t _ _ v _ => .ok (t.clearBank (if v.toScalar.getLsbD 0 then 1 - t.cbank else t.cbank)) none 0 0) s

/-- STR_CNT (08_stream_ops.md R237). -/
def execStrCnt (m : Mv) (s : State) : Res :=
  strRun (.strCnt m) (some .strR) (fun t _ _ v _ =>
    if s.me.cntBad v.toScalar then .trap Cause.ECC_ACC 0
    else .ok t (some (.s (t.cntValue v.toScalar))) 0 0) s

/-- STR_SLEN (08_stream_ops.md R239). -/
def execStrSlen (m : Mv) (s : State) : Res :=
  strCfg (.strSlen m) (fun t b => { t with slen := b.extractLsb' 0 9 }) s

/-- STR_SPREC (08_stream_ops.md R239). -/
def execStrSprec (m : Mv) (s : State) : Res :=
  strCfg (.strSprec m) (fun t b => { t with sprec := b.extractLsb' 0 3 }) s

/-- STR_SEEDA (08_stream_ops.md R239). -/
def execStrSeeda (m : Mv) (s : State) : Res :=
  strCfg (.strSeeda m) (fun t b => { t with seeda := b.extractLsb' 0 4 }) s

/-- STR_SEEDB (08_stream_ops.md R239). -/
def execStrSeedb (m : Mv) (s : State) : Res :=
  strCfg (.strSeedb m) (fun t b => { t with seedb := b.extractLsb' 0 4 }) s

/-- STR_SMODE (08_stream_ops.md R239). -/
def execStrSmode (m : Mv) (s : State) : Res :=
  strCfg (.strSmode m) (fun t b => { t with smode := b.getLsbD 0 }) s

/-- STR_STHR (08_stream_ops.md R239). -/
def execStrSthr (m : Mv) (s : State) : Res :=
  strCfg (.strSthr m) (fun t b => { t with sthr := b.extractLsb' 0 4 }) s

/-- STR_REFEXP (08_stream_ops.md R239). -/
def execStrRefexp (m : Mv) (s : State) : Res :=
  strCfg (.strRefexp m) (fun t b => { t with refexp := b.extractLsb' 0 10 }) s

/-- STR_DIGIT (08_stream_ops.md R239). -/
def execStrDigit (m : Mv) (s : State) : Res :=
  strCfg (.strDigit m) (fun t b => { t with dsel := b.extractLsb' 0 2 }) s

/-- STR_CKINT (08_stream_ops.md R239). -/
def execStrCkint (m : Mv) (s : State) : Res :=
  strCfg (.strCkint m) (fun t b => { t with ckint := b.extractLsb' 0 9 }) s

/-- STR_MGN (08_stream_ops.md R239). -/
def execStrMgn (m : Mv) (s : State) : Res :=
  strRun (.strMgn m) none (fun t o _ v _ =>
    if 15 < o.toNat then .trap Cause.ILLEGAL_OPERAND 0
    else .ok { t with mgn := t.mgn.set 0 o.toNat (v.toScalar.extractLsb' 0 17) } none 0 0) s

/-- STR_CPAIR (08_stream_ops.md R239). -/
def execStrCpair (m : Mv) (s : State) : Res :=
  strCfg (.strCpair m) (fun t b => { t with cpair := b.extractLsb' 0 28 }) s

/-- STR_STAT (08_stream_ops.md R233). -/
def execStrStat (m : Mv) (s : State) : Res :=
  strRun (.strStat m) (some .strR) (fun t _ _ _ _ => .ok t (some (.s t.status)) 0 0) s

end Sys2Proof.Machine
end

