-- ==== Sys2Proof/Machine/Trap.lean ====
section
/-! DEFINITION. Parking, capture, the trap record and the context image, and resumption (12_traps.md R326 to R341, R345;
13_queues.md R379; 14_system.md R395). -/

namespace Sys2Proof.Machine

/-! ### What is held (12_traps.md R331, R335) -/

/-- Every entry that stands unperformed, by queue, each queue in its order with the places of its entries; a mark that stands in both
inner queues of MEM counts in the store queue (12_traps.md R335). -/
def Core.heldQueues (c : Core) : List (Eng × List (Entry × Nat)) :=
  let marks := c.stq.map (fun x => x.ent.tag)
  [Eng.sca, .vec0, .vec1, .str, .cpy0, .cpy1, .col].map (fun e => (e, (c.q e).zipIdx))
    ++ [(.mem, ((c.ldq.map (·.ent)).zipIdx).filter (fun x => !marks.contains x.1.tag)), (.mem, (c.stq.map (·.ent)).zipIdx),
        (.mem, (c.q .mem).zipIdx)]

/-- Whether a wait ends at a token, followed through pending transfers (12_traps.md R331). -/
def Core.waitsToken (c : Core) : Nat → Wait → Bool
  | 0, _ => true
  | k + 1, .reg r =>
    match c.pends.find? (fun p => decide (p.dst = r)) with
    | some p => (match p.val with | .wait w => waitsToken c k w | .ready _ => false)
    | none => true
  | _, .tag _ => false

/-- STATE of a held entry: faulting, behind another, waiting for a held result, waiting for a token (12_traps.md R331). An
entry that waits for an older job's lines waits for its token; a mark, and a MEM entry that waits only for room in an inner
queue, stands behind the accesses before it.  DESIGN CHOICE (log entry 93): a store or job that waits only for a held push of another
queue, which none of the four names, is given 3. -/
def Core.heldState (c : Core) (first engineMem : Bool) (en : Entry) : Nat :=
  if en.faulted then 0
  else if !first || (match en.trig with | some (.memMark _) => true | _ => false) then 1
  else
    match en.val with
    | .wait w => if c.waitsToken 17 w then 3 else 2
    | .ready _ => if engineMem then 1 else 3

/-- Insertion into a list in issue order. -/
def insertTag (x : Entry × Eng × Nat) : List (Entry × Eng × Nat) → List (Entry × Eng × Nat)
  | [] => [x]
  | y :: r => if x.1.tag < y.1.tag then x :: y :: r else y :: insertTag x r

/-- The held entries, oldest first in issue order, with engine and STATE (12_traps.md R331). -/
def Core.heldList (c : Core) : List (Entry × Eng × Nat) :=
  (c.heldQueues.zipIdx.flatMap (fun q => q.1.2.map (fun p =>
    (p.1, q.1.1, c.heldState (decide (p.2 = 0)) (decide (q.2 = 9)) p.1)))).foldl (fun l x => insertTag x l) []

/-- A held entry as 8 bytes (12_traps.md R331). -/
def heldWord (x : Entry × Eng × Nat) : Nat :=
  (match x.1.rep with | some k => k % 2 ^ 16 | none => 0xFFFF) * 2 ^ 48 + x.1.move.toNat * 2 ^ 24 + x.2.2 * 2 ^ 22
    + (if x.1.trig.isSome then 2 ^ 21 else 0) + x.2.1.code * 2 ^ 17 + x.1.slot * 2 ^ 14 + x.1.badr % 2 ^ 14

/-- The port index of a register and whether it is of the vector file (03_encoding.md R70, R71). -/
def regIndex : RegId → Bool × Nat
  | .s i => (false, i.val)
  | .o i => (false, 64 + i.val)
  | .a i => (false, 80 + i.val)
  | .g i => (false, 88 + i.val)
  | .v i => (true, i.val)
  | .vm i => (true, 32 + i.val)

/-- The held entry whose result a wait ends at, followed through pending transfers; none for a token. -/
def Core.waitTag (c : Core) : Nat → Wait → Option Nat
  | 0, _ => none
  | _, .tag t => some t
  | k + 1, .reg r =>
    match c.pends.find? (fun p => decide (p.dst = r)) with
    | some p => (match p.val with | .wait w => waitTag c k w | .ready _ => none)
    | none => none

/-- A pending transfer as 4 bytes (12_traps.md R331). -/
def pendWord (c : Core) (held : List (Entry × Eng × Nat)) (p : Pend) : Nat :=
  let on := match p.val with
    | .ready _ => 0xFFFF
    | .wait w =>
      (match (c.waitTag 17 w).bind (fun t => held.findIdx? (fun x => decide (x.1.tag = t))) with
       | some i => i
       | none => 0xFFFF)
  let r := regIndex p.dst
  on * 2 ^ 16 + (if r.1 then 2 ^ 8 else 0) + r.2

/-! ### The trap record (12_traps.md R330 to R332) -/

/-- The partial record of ASYNC_PARTIAL (12_traps.md R332). -/
def partBytes (t : Trap) : List Byte :=
  let e (i : Nat) : List Byte := match t.part[i]? with
    | some x => leBytes 2 x.1 ++ [x.2.1] ++ List.replicate 5 0 ++ leBytes 8 x.2.2.toNat
    | none => List.replicate 16 0
  leBytes 2 t.nfault ++ List.replicate 6 0 ++ e 0 ++ e 1 ++ e 2 ++ e 3 ++ List.replicate 56 0

/-- The 256 bytes of a core's trap record (12_traps.md R330). -/
def trapRecord (s : State) (n : Nat) : List Byte :=
  let c := s.core n
  match c.trap with
  | none => List.replicate 256 0
  | some t =>
    let held := c.heldList
    let fill (k : Nat) (l : List Nat) : List Byte := (List.range 16).flatMap (fun i => leBytes k (l.getD i 0))
    [t.cause, t.prec, t.slotEng,
      flagIf t.repv 1 ||| flagIf t.second 2 ||| flagIf (decide (16 < held.length)) 4 ||| flagIf t.incomplete 8]
    ++ leBytes 2 t.badr ++ leBytes 2 t.arg.toNat ++ leBytes 8 t.faddr.toNat ++ leBytes 8 (s.phcOf n) ++ leBytes 4 c.ssc.toNat
    ++ leBytes 4 (match c.rep with | some r => r.left | none => 0) ++ leBytes 8 (s.dtcOf n).toNat
    ++ leBytes 2 (s.coreId n) ++ leBytes 1 t.tok ++ leBytes 1 (held.length + c.pends.length) ++ leBytes 2 t.next
    ++ leBytes 1 c.pends.length ++ List.replicate 17 0
    ++ fill 4 (c.pends.map (pendWord c held))
    ++ (if t.cause = Cause.ASYNC_PARTIAL then partBytes t else fill 8 (held.map heldWord))

/-! ### The context image (12_traps.md R345) -/

/-- A cell's content, 0 while it is empty. -/
def Cell.val {α : Type} (x : Cell α) (d : α) : α :=
  match x with
  | .full v => v
  | .empty => d

/-- Where a result port lies in a context image, and its bytes (12_traps.md R345; log entry 15). -/
def portRoom (i : Nat) : Nat × Nat :=
  if i ≤ 10 then (0x800 + 8 * i, 8)
  else if i ≤ 14 then (0x1800 + 512 * (i - 11), 512)
  else if i ≤ 16 then (0x860 + 16 * (i - 15), 16)
  else (0x2000 + 512 * (i - 17), 512)

/-- Where the o or o2 port of the engine of a code lies, and its bytes; w and m stand behind the scalar places of the engine. -/
def oportRoom (e : Nat) (second : Bool) : Nat × Nat :=
  if e = 2 ∨ e = 3 then (0x1000 + 1024 * (e - 2) + (if second then 512 else 0), 512)
  else (0x890 + 40 * e + (if second then 8 else 0), 8)

/-- The bytes of a value in a place of 8, 16 or 512 bytes. -/
def valBytes (n : Nat) (v : Val) : List Byte :=
  leBytes n (if n = 8 then v.toScalar.toNat else if n = 16 then v.toMask.toNat else v.toVec.toNat)

/-- The value in a place of 8, 16 or 512 bytes. -/
def valAt (m : Mem) (r : Nat × Nat) : Val :=
  if r.2 = 8 then .s (BitVec.ofNat 64 (m.le r.1 8))
  else if r.2 = 16 then .m (BitVec.ofNat 128 (m.le r.1 16))
  else .v (BitVec.ofNat 4096 (m.le r.1 512))

/-- Bits as a number, bit i being f i. -/
def bitsOf (n : Nat) (f : Nat → Bool) : Nat := packN 1 (fun i => (f i).toNat) n

/-- Whether a cell is full. -/
def Cell.isFull {α : Type} (x : Cell α) : Bool :=
  match x with
  | .full _ => true
  | .empty => false

/-- The STR fields of a context image from 0x1_2C00 (12_traps.md R345; log entry 15). -/
def strRuns (t : Str) : List (Nat × List Byte) :=
  let flag (b : Bool) (k : Nat) : Nat := if b then k else 0
  let map := t.cmap.getD ⟨0, [], []⟩
  [(0x12C00, leBytes 1 t.sprec.toNat ++ leBytes 2 t.slen.toNat ++ leBytes 1 t.seeda.toNat ++ leBytes 1 t.seedb.toNat
      ++ leBytes 1 t.smode.toNat ++ leBytes 1 t.sthr.toNat ++ leBytes 1 t.dsel.toNat ++ leBytes 2 t.refexp.toNat
      ++ leBytes 2 t.ckint.toNat ++ leBytes 4 t.cpair.toNat ++ leBytes 1 t.bsel.toNat
      ++ leBytes 3 (flag t.stop 1 + flag t.tie 2 + flag t.cmap.isSome 4)
      ++ leBytes 4 t.sbeat.toNat ++ leBytes 4 t.bt0.toNat ++ leBytes 4 t.bt1.toNat),
   (0x12C80, leBytes 2 map.kext ++ leBytes 1 map.places.length ++ leBytes 1 map.slots.length),
   (0x12C84, map.slots.flatMap (leBytes 2)), (0x12C90, map.places.flatMap (leBytes 2)),
   (0x12E00, (t.tag0 ++ t.tag1).map (fun x => x.setWidth 8))]
  ++ t.mgn.map (fun p => (0x12C40 + 4 * p.1, leBytes 4 p.2.toNat))
  ++ t.hdr.map (fun p => (0x13C00 + 2 * p.1, leBytes 2 p.2.toNat))
  ++ t.edge.map (fun p => (0x14C00 + p.1, [(p.2.m.setWidth 8) ||| flagIf p.2.s 16 ||| flagIf p.2.live 32]))
  ++ t.cnt.map (fun p => (0x24C00 + 2 * p.1, leBytes 2 p.2.toNat))
  ++ t.acc.map (fun p => (0x64C00 + 8 * p.1, leBytes 8 p.2.toNat))
  ++ (List.range 2048).map (fun i => (0x84C00 + i, [BitVec.ofNat 8 (bitsOf 8 (fun b => SMap.get t.anan false (8 * i + b)))]))

/-- The bytes of a context image by runs (offset, bytes), zero elsewhere (12_traps.md R345). Where the fields of an area
stand inside it is the model's layout (log entry 15). -/
def imageRuns (x : Ctx) : List (Nat × List Byte) :=
  let w64 (f : Nat → Word) (n : Nat) : List Byte := (List.range n).flatMap (fun i => leBytes 8 (f i).toNat)
  let full {α : Type} (m : SMap (Cell α)) (d : α) (n : Nat) : List Byte := leBytes (n / 8) (bitsOf n (fun i => (m.get (.full d) i).isFull))
  [(0, w64 (fun i => if i = 0 then 0 else (x.s.get (.full 0) i).val 0) 64),
   (0x200, w64 (fun i => (x.o.get (.full 0) i).val 0) 16),
   (0x280, w64 (fun i => (x.a.get (.full 0) i).val 0) 8),
   (0x2C0, w64 (fun i => SMap.get x.bind 0 i) 16),
   (0x340, (List.range 7).map (fun i => if (x.g.get (.full false) i).val false then 1 else 0)),
   (0x348, full x.s 0 64 ++ full x.o 0 16 ++ full x.a 0 8 ++ full x.g false 8 ++ full x.v 0 32 ++ full x.vm 0 8),
   (0x400, [x.afl, x.afm, x.qcfg.setWidth 8, x.rmode.setWidth 8] ++ leBytes 1 x.loops.length ++ leBytes 1 x.links.length),
   (0x408, x.loops.flatMap (fun l => leBytes 2 l.lstart ++ leBytes 2 l.lend ++ leBytes 4 0 ++ leBytes 8 l.lcnt)),
   (0x428, x.links.flatMap (leBytes 2)),
   (0x880, leBytes 3 (bitsOf 21 (fun i => match x.ports.get (.full (.s 0)) i with | .full _ => true | .pend _ => false))),
   (0x2800, (List.range 32).flatMap (fun i => leBytes 512 ((x.v.get (.full 0) i).val 0).toNat)),
   (0x6800, (List.range 8).flatMap (fun i => leBytes 16 ((x.vm.get (.full 0) i).val 0).toNat))]
  ++ x.ports.filterMap (fun p => match p.2 with
      | .full v => some ((portRoom p.1).1, valBytes (portRoom p.1).2 v)
      | .pend _ => none)
  ++ x.oports.flatMap (fun p =>
      [((oportRoom p.1 false).1, valBytes (oportRoom p.1 false).2 p.2.o), ((oportRoom p.1 true).1, valBytes (oportRoom p.1 true).2 p.2.o2),
       (0x8A0 + 40 * p.1, leBytes 8 p.2.w.toNat), (0x8A8 + 40 * p.1, leBytes 16 p.2.m.toNat)])
  ++ x.wide.map (fun p => (0x6C00 + 48 * p.1, leBytes 40 p.2.x.toNat ++
      [flagIf p.2.nanf 1 ||| flagIf p.2.pinf 2 ||| flagIf p.2.ninf 4 ||| flagIf p.2.satf 8]))
  ++ strRuns x.str
  ++ x.holds.zipIdx.map (fun p => (0x85400 + 520 * p.2, leBytes 8 p.1.desc.toNat ++ leBytes 512 p.1.data.toNat))

/-- The size of a context image (12_traps.md R345). -/
abbrev imageSize : Nat := 0x87500

/-- A context image as cells (offset, byte), zeros left out. -/
def imageCells (x : Ctx) : Mem := (imageRuns x).foldl (fun m r => Mem.writeL m r.1 r.2) []

/-- A core's block of its running job's frame (12_traps.md R329). -/
def State.blockOf (s : State) (n : Nat) : Nat :=
  let p := (s.core n).part
  frameBlock (s.pdesc p) (match s.runOf p with | some r => r.adm.frame | none => 0) n

/-- A core's trap record goes to its mailbox, where it is performed or held as any write under ASID 0; none where it has to wait
(12_traps.md R329, R330). -/
def mailbox (s : State) (n : Nat) : Option State := s.poke (s.blockOf n) (trapRecord s n)

/-- A core writes its trap record to its mailbox and its context to its frame; none where it has to wait (12_traps.md R326,
R329). -/
def writeRecord (s : State) (n : Nat) : Option State :=
  (mailbox s n).bind (fun t => frameWrite t (s.blockOf n + 0x1000) imageSize (imageCells (s.core n).ctx))

/-- A captured core is parked, with its trap event where it has one to send (12_traps.md R326). -/
def parkCaptured (s : State) (n : Nat) (event : Bool) (cause : Byte) : State :=
  let c := s.core n
  let t := s.setCore n { c with seq := .parked, capEmpty := c.pends.map (·.dst) }
  if !event then t
  else t.sendEvent 2 (stopOfDie (dieOf n)) (n % 8) (leBytes 2 c.part ++ leBytes 2 (s.coreId n) ++ [cause])

/-! ### Parking and capture -/

/-- A core of a stand whose trap event was received parks without a trap of its own (12_traps.md R326). -/
def Core.park (c : Core) : Core := c.takeTrap (Trap.plain Cause.NONE 2 c.pc c.pc)

/-- CORE_PARK (12_traps.md R326). -/
def execCorePark (s : State) : Res :=
  .next (match s.standOf s.cur with
    | some (_, r) => if r.st = .parking ∧ s.me.trap = none ∧ s.me.serving = true then s.setMe s.me.park else s
    | none => s)

/-- Whether a ready STR head only waits (08_stream_ops.md R222). -/
def strBlocked (s : State) (n : Nat) : Bool :=
  let t := { s with cur := n }
  let same (r : Res) : Bool := match r with | .next u => decide (u = t) | _ => false
  match (s.core n).q .str with
  | en :: _ =>
    (match en.trig with
     | some (.strPusha m) => same (execStrPusha m t)
     | some (.strPushb m) => same (execStrPushb m t)
     | some (.strPushak m) => same (execStrPushak m t)
     | _ => false)
  | [] => false

/-- Whether the head of an engine's queue cannot advance (12_traps.md R335). -/
def headStuck (s : State) (n : Nat) (e : Eng) : Bool :=
  let c := s.core n
  match c.q e with
  | [] => true
  | en :: _ =>
    en.faulted || en.val.pending || (match en.trig with
      | none => false
      | some i =>
        match e with
        | .mem =>
          let k := memKind i
          decide (k = .mark ∧ (8 ≤ c.ldq.length ∨ 8 ≤ c.stq.length)) || (decide (k ≠ .mark) && k.store && decide (8 ≤ c.stq.length))
            || (decide (k ≠ .mark) && !k.store && decide (8 ≤ c.ldq.length))
        | .str => strBlocked s n
        | .cpy0 | .cpy1 | .col =>
          (match i with
           | .cpyGo _ _ | .colGo _ _ => decide (goRun s n e i = s)
           | _ => false)
        | _ => false)

/-- Whether capture of a core has nothing left that can advance (12_traps.md R335). -/
def captureDone (s : State) (n : Nat) : Bool :=
  let c := s.core n
  c.flights.isEmpty && c.lda.isEmpty && c.sta.isEmpty && c.pends.all (fun p => p.val.pending)
    && [Eng.sca, .vec0, .vec1, .str, .mem, .cpy0, .cpy1, .col].all (headStuck s n)
    && decide (startAccess s n true = s) && decide (startAccess s n false = s)

/-- CAPTURE_END (12_traps.md R326, R335): the record is written; a core with a cause of its own sends its trap event. -/
def execCaptureEnd (s : State) : Res :=
  .next (match s.me.seq, s.me.trap with
    | .capture _, some t =>
      if captureDone s s.cur then
        (match writeRecord s s.cur with
         | some s1 => parkCaptured s1 s.cur (decide (t.cause ≠ Cause.NONE)) t.cause
         | none => s)
      else s
    | _, _ => s)

/-- WATCHDOG (12_traps.md R336): capture has not ended after 65,536 cc. -/
def execWatchdog (s : State) : Res :=
  .next (match s.me.seq, s.me.trap with
    | .capture k, some t =>
      if 65536 ≤ k then
        let s0 := s.setMe { s.me with trap := some { t with cause := Cause.WATCHDOG, incomplete := true } }
        (match writeRecord s0 s.cur with
         | some s1 => parkCaptured s1 s.cur true t.cause
         | none => s)
      else s
    | _, _ => s)

/-! ### What becomes of a parked stand -/

/-- Whether every core of a running stand has ended its capture. -/
def allParked (s : State) (r : Run) : Bool := r.cores.all (fun n => decide ((s.core n).seq = .parked))

/-- The ECC causes of 13_queues.md R379. -/
def eccCause (c : Byte) : Bool := decide (0x17 ≤ c.toNat ∧ c.toNat ≤ 0x1B)

/-- CP_TRAP_DISPOSITION (13_queues.md R379): of the stand of partition obj. -/
def execCpTrapDisposition (s : State) : Res :=
  .next (match s.runOf s.obj with
    | some r =>
      if r.st = .parking ∧ r.late = false ∧ !(r.chosen && !r.adm.desc.dbg) = true ∧ s.sys.takeover = false
          ∧ allParked s r = true then
        let k := r.first.getD 0
        if r.adm.desc.dbg then s.setRun s.obj (some { r with st := .held })
        else if eccCause k && r.adm.desc.replayable && !r.adm.replayed then replayRun s s.obj
        else killRun s s.obj 3 0 k
      else s
    | none => s)

/-- Whether SKIPM asks skip for a core (14_system.md R395). -/
def skipAsked (s : State) (p n : Nat) : Bool :=
  match (partCores (s.pdesc p)).findIdx? (fun k => decide (k = n)) with
  | some i => (SMap.get (s.part p).skipm 0 (i / 64)).getLsbD (i % 64)
  | none => false

/-- The value of a result port in a parked image (12_traps.md R339). -/
def portValue (p : RPort) (image : Mem) : Val := valAt image (portRoom (portIdx p))

/-- The result port of an entry's trigger. -/
def Entry.result (en : Entry) (e : Eng) : Option RPort :=
  if en.trig.isSome then resPort e (en.move.extractLsb' 11 7).toNat else none

/-- A faulting entry treated as performed: it leaves its queue, and its result is the value in the image
(12_traps.md R339, skip). -/
def Core.skip (c : Core) (t : Trap) (image : Mem) : Core :=
  let hit (e : Eng) (en : Entry) : Bool :=
    en.faulted && decide (e.code = t.slotEng.toNat / 16 ∧ en.badr = t.badr)
  let done (c : Core) (e : Eng) (en : Entry) : Core :=
    let c := { c with refused := c.refused.filter (fun j => decide (j.tag ≠ en.tag)) }
    match en.result e with
    | some p => c.arrive en.tag (portValue p image)
    | none => c
  let c := [Eng.sca, .vec0, .vec1, .str, .mem, .cpy0, .cpy1, .col].foldl (fun c e =>
    match c.q e with
    | en :: _ => if hit e en then done (c.popHead e) e en else c
    | [] => c) c
  let c := match c.ldq with
    | x :: r => if hit .mem x.ent then done { c with ldq := r } .mem x.ent else c
    | [] => c
  match c.stq with
  | x :: r => if hit .mem x.ent then done { c with stq := r } .mem x.ent else c
  | [] => c

/-- Held entries restart: none is faulting, and a refused go has its job again, its token emptied (12_traps.md R339;
09_copy_collective.md R244). -/
def Core.reissue (c : Core) : Core :=
  let clr (en : Entry) : Entry := { en with faulted := false }
  let clrA (x : Access) : Access := { x with ent := clr x.ent }
  let c := { c with
    qs := c.qs.map (fun (p : Nat × List Entry) => (p.1, p.2.map clr)), ldq := c.ldq.map clrA, stq := c.stq.map clrA,
    jobs := c.refused.foldl (fun (l : List CJob) (j : CJob) =>
      l.filter (fun (x : CJob) => decide (x.tag < j.tag)) ++ [j] ++ l.filter (fun (x : CJob) => decide (j.tag < x.tag))) c.jobs }
  { c with refused := [], ctx := c.refused.foldl (fun (x : Ctx) (j : CJob) => x.emptyReg (.s j.tok)) c.ctx }

/-- The keys of an array of w-byte entries at [lo, hi) of an image that hold a byte other than 0, rising. -/
def imageKeys (m : Mem) (lo hi w : Nat) : List Nat :=
  ((m.filter (fun p => decide (lo ≤ p.1 ∧ p.1 < hi))).foldl (fun l p =>
    match l with
    | k :: r => if k = (p.1 - lo) / w then k :: r else (p.1 - lo) / w :: k :: r
    | [] => [(p.1 - lo) / w]) []).reverse

/-- An array of an image as a sparse map with default d, entry k read by f. -/
def imageMap {α : Type} [DecidableEq α] (m : Mem) (lo hi w : Nat) (d : α) (f : Nat → α) : SMap α :=
  ((imageKeys m lo hi w).map (fun k => (k, f (lo + w * k)))).filter (fun p => decide (p.2 ≠ d))

/-- The STR state of a core as an image holds it (12_traps.md R345). -/
def loadStr (m : Mem) : Str :=
  let n (off k : Nat) : Nat := m.le (0x12C00 + off) k
  let fl := n 0x11 1
  let map : CMap := ⟨n 0x80 2, (List.range (n 0x82 1)).map (fun i => n (0x90 + 2 * i) 2),
    (List.range (n 0x83 1)).map (fun i => n (0x84 + 2 * i) 2)⟩
  let tags (off : Nat) : List (BitVec 2) := (List.range 128).map (fun i => BitVec.ofNat 2 (n (off + i) 1))
  { edge := imageMap m 0x14C00 0x24C00 1 Dig.dead (fun a =>
      let b := m.read a
      ⟨b.getLsbD 5, b.getLsbD 4, b.extractLsb' 0 4⟩),
    hdr := imageMap m 0x13C00 0x14C00 2 0 (fun a => BitVec.ofNat 16 (m.le a 2)), tag0 := tags 0x200, tag1 := tags 0x280,
    cnt := imageMap m 0x24C00 0x64C00 2 0 (fun a => BitVec.ofNat 16 (m.le a 2)), bt0 := BitVec.ofNat 32 (n 0x18 4),
    bt1 := BitVec.ofNat 32 (n 0x1C 4), acc := imageMap m 0x64C00 0x84C00 8 0 (fun a => BitVec.ofNat 64 (m.le a 8)),
    anan := ((imageKeys m 0x84C00 0x85400 1).flatMap (fun k =>
      ((List.range 8).filter (fun b => (m.read (0x84C00 + k)).getLsbD b)).map (fun b => (8 * k + b, true)))),
    sprec := BitVec.ofNat 3 (n 0 1), slen := BitVec.ofNat 9 (n 1 2), seeda := BitVec.ofNat 4 (n 3 1),
    seedb := BitVec.ofNat 4 (n 4 1), smode := bit (n 5 1) 0, sthr := BitVec.ofNat 4 (n 6 1), dsel := BitVec.ofNat 2 (n 7 1),
    refexp := BitVec.ofNat 10 (n 8 2), ckint := BitVec.ofNat 9 (n 0x0A 2), cpair := BitVec.ofNat 28 (n 0x0C 4),
    bsel := BitVec.ofNat 3 (n 0x10 1), stop := bit fl 0, tie := bit fl 1, cmap := if bit fl 2 then some map else none,
    sbeat := BitVec.ofNat 32 (n 0x14 4), mgn := imageMap m 0x12C40 0x12C80 4 0 (fun a => BitVec.ofNat 17 (m.le a 4)) }

/-- The context of a core as its image holds it: an empty register or port stays empty, and held sends stay
(12_traps.md R339, R345). -/
def loadImage (x : Ctx) (m : Mem) : Ctx :=
  let w (a : Nat) : Word := BitVec.ofNat 64 (m.le a 8)
  let keep {α : Type} (o : Cell α) (v : α) : Cell α := match o with | .full _ => .full v | .empty => .empty
  { x with
    s := (List.range 63).foldl (fun t i => t.set (.full 0) (i + 1) (keep (x.s.get (.full 0) (i + 1)) (w (8 * (i + 1))))) x.s,
    o := (List.range 16).foldl (fun t i => t.set (.full 0) i (keep (x.o.get (.full 0) i) (w (0x200 + 8 * i)))) x.o,
    a := (List.range 8).foldl (fun t i => t.set (.full 0) i (keep (x.a.get (.full 0) i) (w (0x280 + 8 * i)))) x.a,
    bind := (List.range 16).foldl (fun t i => SMap.set t 0 i (w (0x2C0 + 8 * i))) x.bind,
    g := (List.range 7).foldl (fun t i =>
      t.set (.full false) i (keep (x.g.get (.full false) i) ((m.read (0x340 + i)).getLsbD 0))) x.g,
    v := (List.range 32).foldl (fun t i =>
      t.set (.full 0) i (keep (x.v.get (.full 0) i) (BitVec.ofNat 4096 (m.le (0x2800 + 512 * i) 512)))) x.v,
    vm := (List.range 8).foldl (fun t i =>
      t.set (.full 0) i (keep (x.vm.get (.full 0) i) (BitVec.ofNat 128 (m.le (0x6800 + 16 * i) 16)))) x.vm,
    ports := (List.range 21).foldl (fun t i => match x.ports.get (.full (.s 0)) i with
      | .full _ => t.set (.full (.s 0)) i (.full (valAt m (portRoom i)))
      | .pend _ => t) x.ports,
    oports := (List.range 9).foldl (fun t e => SMap.set t OPorts.zero e
      ⟨valAt m (oportRoom e false), valAt m (oportRoom e true), BitVec.ofNat 128 (m.le (0x8A8 + 40 * e) 16), w (0x8A0 + 40 * e)⟩) x.oports,
    loops := ((List.range (min 2 (m.le 0x404 1))).map (fun i =>
      ⟨m.le (0x408 + 16 * i) 2, m.le (0x40A + 16 * i) 2, m.le (0x410 + 16 * i) 8⟩)),
    links := (List.range (min 16 (m.le 0x405 1))).map (fun i => m.le (0x428 + 2 * i) 2),
    afl := m.read 0x400, afm := m.read 0x401, qcfg := (m.read 0x402).extractLsb' 0 5, rmode := (m.read 0x403).extractLsb' 0 2,
    wide := imageMap m 0x6C00 0x12C00 48 WLane.zero (fun a =>
      let b := m.read (a + 40)
      ⟨BitVec.ofNat 320 (m.le a 40), b.getLsbD 0, b.getLsbD 1, b.getLsbD 2, b.getLsbD 3⟩),
    str := loadStr m }

/-- Whether the image of a core's frame block can be read back. -/
def State.imageMapped (s : State) (b : Nat) : Bool :=
  (List.range 0x88).all (fun k => (s.xlat 0 (b + 0x1000 + 4096 * k) true false none).ok)

/-- One core resumes, by skip where asked: its context as system software left it in the frame, errors rewritten
(12_traps.md R339; log entry 30). -/
def resumeCore (p : Nat) (s : State) (n : Nat) : State :=
  let b := s.blockOf n
  let c := s.core n
  let image := frameRead s (b + 0x1000) imageSize
  let c := if s.imageMapped b then { c with ctx := loadImage c.ctx image } else c
  let c := match c.trap with
    | some t => if skipAsked s p n then c.skip t image else c
    | none => c
  let q := s.quad (quadOf n)
  (s.setCore n { c.reissue.resume with bad := BadSites.none }).setQuad (quadOf n) { q with bad := [] }

/-- The causes whose Resume column offers skip (12_traps.md R333). -/
def skipCause (c : Byte) : Bool :=
  [Cause.LOCAL_BOUNDS, Cause.POOL_BOUNDS, Cause.ALIGN, Cause.FOOTPRINT_INVALID, Cause.CARD_INVALID, Cause.ECC_SCRATCH,
    Cause.ECC_POOL, Cause.SLEN_RANGE].contains c

/-- Whether a held stand may resume: no cause refuses it, and skip is asked only at a trap precise at the move with a cause
that offers it (12_traps.md R333; 14_system.md R395). -/
def mayResume (s : State) (p : Nat) (r : Run) : Bool :=
  r.cores.all (fun n => match (s.core n).trap with
    | some t => !killOnly t.cause && (!skipAsked s p n || (decide (t.prec = 1) && skipCause t.cause))
    | none => true)

/-- SCMD 1: a held stand resumes, every core or none (14_system.md R395). -/
def standResume (s : State) (p : Nat) : State :=
  match s.runOf p with
  | some r =>
    if r.st = .held ∧ mayResume s p r = true then
      (r.cores.foldl (resumeCore p) s).setRun p (some { r with st := .running, first := none })
    else s
  | none => s

/-- SCMD 2: a held stand is killed (14_system.md R395). -/
def standKill (s : State) (p : Nat) : State :=
  match s.runOf p with
  | some r => if r.st = .held then killRun s p 3 0 (r.first.getD 0) else s
  | none => s

/-- SCMD 3: a held stand's job is replayed; ignored for a queue that is not REPLAYABLE (14_system.md R395). -/
def standReplay (s : State) (p : Nat) : State :=
  match s.runOf p with
  | some r => if r.st = .held ∧ r.adm.desc.replayable = true then replayRun s p else s
  | none => s

/-- STAND_RESUME (14_system.md R395): SCMD 1 at partition obj. -/
def execStandResume (s : State) : Res := .next (standResume s s.obj)

/-- STAND_KILL (14_system.md R395): SCMD 2 at partition obj. -/
def execStandKill (s : State) : Res := .next (standKill s s.obj)

/-- STAND_REPLAY (14_system.md R395): SCMD 3 at partition obj. -/
def execStandReplay (s : State) : Res := .next (standReplay s s.obj)

end Sys2Proof.Machine
end

