-- ==== Sys2Proof/Machine/Image.lean ====
section
/-! DEFINITION. The kernel image of a resident slot: its header and sections, the checks of SLOTLOAD, declared footprints
and the ingress filter, discardable regions and local data (03_encoding.md R102 to R105; 11_translation.md R318;
13_queues.md R368, R372). -/

namespace Sys2Proof.Machine

/-! ### Header and sections (03_encoding.md R102, R103) -/

/-- The DET flag of an image. -/
def imgDet (m : Mem) : Bool := bit (m.le 0x06 2) 0
/-- NCORES of an image. -/
def imgCores (m : Mem) : Nat := m.le 0x08 2
/-- DIES of an image. -/
def imgDies (m : Mem) : Nat := m.le 0x0A 1
/-- CPD of an image. -/
def imgCpd (m : Mem) : Nat := m.le 0x0B 1
/-- POOL of an image. -/
def imgPool (m : Mem) : Nat := m.le 0x0C 4
/-- SCAP of an image. -/
def imgCap (m : Mem) : Nat := m.le 0x10 4
/-- NBUNDLE of an image. -/
def imgBundles (m : Mem) : Nat := m.le 0x38 4
/-- IMGLEN of an image. -/
def imgLen (m : Mem) : Nat := m.le 0x58 4

/-- A number rounded up to a multiple of 8. -/
def up8 (n : Nat) : Nat := (n + 7) / 8 * 8

/-- Local-data records from an offset: local address, length, and where the data starts; and where they end. -/
def initRecs (m : Mem) : Nat → Nat → List (Nat × Nat × Nat) × Nat
  | 0, off => ([], off)
  | k + 1, off =>
    let n := m.le (off + 4) 4
    let r := initRecs m k (off + 8 + up8 n)
    ((m.le off 4, n, off + 8) :: r.1, r.2)

/-- Where each section starts by R103: split table, footprints, discards, local data, constants, code. -/
def splitTab : Nat := 0x80
/-- The offset of the footprint table by R103. -/
def footAt (m : Mem) : Nat := up8 (splitTab + 32 * m.le 0x30 2)
/-- The offset of the discard table by R103. -/
def discAt (m : Mem) : Nat := up8 (footAt m + 24 * m.le 0x32 2)
/-- The offset of the local-data records by R103. -/
def initAt (m : Mem) : Nat := up8 (discAt m + 8 * m.le 0x34 2)
/-- The local-data records of an image. -/
def imgRecs (m : Mem) : List (Nat × Nat × Nat) × Nat := initRecs m (m.le 0x36 2) (initAt m)
/-- The offset of the constant bank by R103. -/
def constAt (m : Mem) : Nat := up8 (imgRecs m).2
/-- The offset of the code by R103. -/
def codeAt (m : Mem) : Nat := constAt m + 2048

/-- The discards of an image: local address and length. -/
def imgDiscs (m : Mem) : List (Nat × Nat) :=
  (List.range (m.le 0x34 2)).map (fun i => (m.le (discAt m + 8 * i) 4, m.le (discAt m + 8 * i + 4) 4))

/-- The footprints of an image: kind, bind index, offset, length. -/
def imgFoots (m : Mem) : List (Nat × Nat × Nat × Nat) :=
  (List.range (m.le 0x32 2)).map (fun i =>
    let o := footAt m + 24 * i
    (m.le o 1, m.le (o + 1) 1, m.le (o + 8) 8, m.le (o + 16) 8))

/-- Whether a local range lies in the scratchpad or in the own partition (03_encoding.md R104).  DESIGN CHOICE (log entry 68): a
range of length 0 is taken wherever its address lies. -/
def localRange (pool a n : Nat) : Bool :=
  decide (n = 0 ∨ a + n ≤ Config.scratchBytes ∨ (Config.ownBase ≤ a ∧ a + n ≤ Config.ownBase + pool))

/-- The names of the split table and their factors. -/
def imgSplits (m : Mem) : List (Nat × Nat) :=
  (List.range (m.le 0x30 2)).map (fun i => (m.le (splitTab + 32 * i) 24, m.le (splitTab + 32 * i + 24) 4))

/-- Whether SLOTLOAD rejects an image (03_encoding.md R104). -/
def imageBad (m : Mem) : Bool :=
  decide (m.le 0 4 ≠ 0x4B565246 ∨ m.le 4 2 ≠ 0x0100)
    || decide (m.le 0x06 2 / 2 ≠ 0 ∨ m.le 0x14 4 ≠ 0 ∨ m.le 0x3C 4 ≠ 0 ∨ m.le 0x5C 4 ≠ 0 ∨ m.le 0x78 8 ≠ 0)
    || decide (imgCores m < 1 ∨ 512 < imgCores m ∨ imgDies m < 1 ∨ 64 < imgDies m ∨ imgCpd m < 1 ∨ 8 < imgCpd m ∨ imgCap m = 0)
    || decide (imgCores m ≠ imgDies m * imgCpd m)
    || decide (imgPool m % 4096 ≠ 0 ∨ 0x800000 < imgPool m)
    || decide (m.le 0x40 4 ≠ splitTab ∨ m.le 0x44 4 ≠ footAt m ∨ m.le 0x48 4 ≠ discAt m ∨ m.le 0x4C 4 ≠ initAt m
        ∨ m.le 0x50 4 ≠ constAt m ∨ m.le 0x54 4 ≠ codeAt m ∨ imgLen m ≠ codeAt m + 24 * imgBundles m)
    || (imgSplits m).any (fun p => decide (p.2 = 0)) || decide (¬ ((imgSplits m).map (·.1)).Nodup)
    || (imgFoots m).any (fun f => decide (1 < f.1 ∨ 15 < f.2.1))
    || (imgDiscs m).any (fun d => !localRange (imgPool m) d.1 d.2 || decide (d.1 % 64 ≠ 0 ∨ d.2 % 64 ≠ 0))
    || (imgRecs m).1.any (fun r => !localRange (imgPool m) r.1 r.2.1)
    || decide (imgBundles m = 0 ∨ 16384 < imgBundles m)

/-! ### Discardable regions -/

/-- Bloc of a core: its local bytes minus the discarded ones (13_queues.md R372). -/
def imgBloc (m : Mem) : Nat :=
  0x80000 + imgPool m - unionSize ((imgDiscs m).map (fun d => (d.1, d.1 + d.2)))

/-- Whether a local address lies in a discardable region. -/
def discarded? (m : Mem) (a : Nat) : Bool := (imgDiscs m).any (fun d => decide (d.1 ≤ a ∧ a < d.1 + d.2))

/-! ### Footprints -/

/-- The bytes of a declared footprint (13_queues.md R368). -/
def footSpan (binds : List Word) (f : Nat × Nat × Nat × Nat) : Nat × Nat :=
  let lo := (binds.getD f.2.1 0).toNat + f.2.2.1
  (lo, lo + f.2.2.2)

/-- Whether every address of [lo, hi) is valid for a stand (11_translation.md R298). -/
def State.spanOk (s : State) (pgid : Nat) (pasid : Option Nat) (lo hi : Nat) : Bool :=
  let last := max lo (hi - 1)
  if 2 ^ 64 ≤ last ∨ 2 ^ 64 < hi then false
  else if isDev lo then
    decide (lo / 2 ^ 48 % 64 = 0 ∧ lo / 2 ^ 48 = last / 2 ^ 48)
      && (decide (lo / 2 ^ 56 % 128 = s.sys.dev.toNat) || s.podHas pgid (lo / 2 ^ 56 % 128))
  else decide (last < 2 ^ 57) && pasid.isSome && decide (s.sys.port0 ≠ 0 ∨ s.sys.port2 ≠ 0)

/-- The lines of a footprint. -/
def footLines (binds : List Word) (f : Nat × Nat × Nat × Nat) : FRange :=
  let p := footSpan binds f
  ⟨true, p.1 / 64, if p.2 = p.1 then p.1 / 64 else (p.2 + 63) / 64⟩

/-- Declared footprints of a kind, resolved: 0 read, 1 write. -/
def resolved (m : Mem) (binds : List Word) (kind : Nat) : List FRange :=
  ((imgFoots m).filter (fun f => decide (f.1 = kind))).map (footLines binds)

/-- Whether a LAUNCH's footprints fail R368: the kernel's own, and for a REPLAYABLE queue a line both read and written. -/
def footBad (s : State) (m : Mem) (nbind pgid : Nat) (pasid : Option Nat) (binds : List Word) (replayable : Bool) : Bool :=
  (imgFoots m).any (fun f =>
    let p := footSpan binds f
    decide (nbind ≤ f.2.1 ∨ 2 ^ 64 ≤ p.1) || !s.spanOk pgid pasid p.1 p.2)
  || (replayable && (resolved m binds 0).any (fun r => (resolved m binds 1).any (fun w => decide (max r.lo w.lo < min r.hi w.hi))))

/-- The device-half targets of an aperture line under an ASID (09_copy_collective.md R263). -/
def lineTargets (s : State) (asid a : Nat) : List Nat :=
  (s.fix (cpReq .pod asid (.read 64) a)).targets.filterMap id

/-- Presented ranges behind the addresses from a to hi under an ASID: page by page, and in an aperture line by line at the
lines of their targets (11_translation.md R299, R318). -/
def frameRanges (s : State) (asid hi : Nat) : Nat → Nat → List (Nat × Nat × Nat)
  | 0, _ => []
  | k + 1, a =>
    if hi ≤ a then []
    else if (s.viewAt asid a).isSome then
      (((lineTargets s asid a).map (fun y => y / 64 * 64)).eraseDups).filterMap (fun y =>
        (s.frameAt asid y).map (fun x => (x.1, x.2, x.2 + 64))) ++ frameRanges s asid hi k (a + 64)
    else
      let z := min hi ((a / 4096 + 1) * 4096)
      match s.frameAt asid a with
      | some x => (x.1, x.2, x.2 + (z - a)) :: frameRanges s asid hi k z
      | none => frameRanges s asid hi k z

/-- The ingress filter of a stand: the presented lines of its declared footprints (11_translation.md R318). -/
def filterOf (s : State) (asid : Nat) (l : List FRange) : List (Nat × Nat × Nat) :=
  l.flatMap (fun f =>
    if isDev (64 * f.lo) then frameRanges s asid (64 * f.hi) (f.hi - f.lo + 1) (64 * f.lo) else [])

/-- Whether a range of an ASID touches footprints: an address of them, or a target of one that lies in an aperture
(11_translation.md R318). -/
def footTouched (s : State) (asid lo hi : Nat) (l : List FRange) : Bool :=
  l.any (fun f => decide (max lo (64 * f.lo) < min hi (64 * f.hi))
    || (List.range (f.hi - f.lo)).any (fun k =>
        let a := 64 * (f.lo + k)
        (s.viewAt asid a).isSome && (lineTargets s asid a).any (fun y => decide (lo ≤ y ∧ y < hi))))

/-- The ingress filters of the running stands whose footprints a range of an ASID touches, formed anew (11_translation.md
R318). -/
def reform (s : State) (asid lo hi : Nat) : State :=
  { s with parts := s.parts.map (fun (p : Nat × Part) => (p.1, { p.2 with run := p.2.run.map (fun r =>
      let foot := r.footR ++ r.footW
      if r.adm.desc.asid = asid ∧ footTouched s asid lo hi foot = true then { r with filter := filterOf s asid foot } else r) })) }

/-! ### Local data (03_encoding.md R105) -/

/-- The bytes that an image's records place in a local range [base, base + size), as cells from its start.  DESIGN CHOICE (log
entry 69): of records that overlap, the later one of the image is written last. -/
def recCells (m : Mem) (base size : Nat) : Mem :=
  (imgRecs m).1.foldl (fun t r =>
    if base ≤ r.1 ∧ r.1 + r.2.1 ≤ base + size then Mem.writeL t (r.1 - base) (Mem.readN m r.2.2 r.2.1) else t) []

/-- The places in a local range of the bytes that an image's records fill from bytes with an uncorrectable error
(12_traps.md R346). -/
def recErrors (m : Mem) (bad : List Nat) (base size : Nat) : List Nat :=
  (imgRecs m).1.flatMap (fun r =>
    if base ≤ r.1 ∧ r.1 + r.2.1 ≤ base + size then
      (bad.filter (fun a => decide (r.2.2 ≤ a ∧ a < r.2.2 + r.2.1))).map (fun a => r.1 - base + (a - r.2.2))
    else [])

/-- The cells of one core's share of its quad pool, from its start. -/
def shareCells (q : Mem) (pool c : Nat) : Mem :=
  (q.filter (fun p => decide (pool * c ≤ p.1 ∧ p.1 < pool * (c + 1)))).map (fun p => (p.1 - pool * c, p.2))

/-- A pool with one core's share replaced. -/
def setShare (q : Mem) (pool c : Nat) (x : Mem) : Mem :=
  q.filter (fun p => decide (p.1 < pool * c)) ++ x.map (fun p => (p.1 + pool * c, p.2))
    ++ q.filter (fun p => decide (pool * (c + 1) ≤ p.1))

/-- s with the local memory of core n replaced: its scratchpad and its share of the pool, with their uncorrectable errors. -/
def setLocal (s : State) (pool n : Nat) (scratch own : Mem) (bad ownBad : List Nat) : State :=
  let q := s.quad (quadOf n)
  let c := s.core n
  (s.setCore n { c with scratch := scratch, bad := { c.bad with scratch := bad } }).setQuad (quadOf n)
    { q with mem := setShare q.mem pool (n % 4) own,
             bad := q.bad.filter (fun a => decide (a / pool ≠ n % 4)) ++ ownBad.map (· + pool * (n % 4)) }

/-- s with the code and constants of a slot in the instruction memory of core n, unless it holds them already
(12_traps.md R344; 13_queues.md R371). -/
def loadCode (s : State) (slot n : Nat) : State :=
  let x := s.slot slot
  let c := s.core n
  if c.codeGen = some (slot, x.gen) then s
  else
    s.setCore n { c with
      code := (x.image.filter (fun p => decide (codeAt x.image ≤ p.1))).map (fun p => (p.1 - codeAt x.image, p.2)),
      nbundle := imgBundles x.image,
      consts := (List.range 256).foldl (fun t i =>
        SMap.set t 0 i (BitVec.ofNat 64 (x.image.le (constAt x.image + 8 * i) 8))) [],
      codeGen := some (slot, x.gen),
      bad := { c.bad with imem := ((x.bad.filter (fun a => decide (codeAt x.image ≤ a))).map (fun a => (a - codeAt x.image) / 24)).eraseDups } }

end Sys2Proof.Machine
end

