-- ==== Sys2Proof/Machine/Canopy.lean ====
section
/-! DEFINITION. The Canopy unit: stands, job start, dispatch, pre-emption by the shadow bank swap, spill and refill, the end
of a parked job chosen for pre-emption, budgets and deadlines (12_traps.md R328, R343 to R347; 13_queues.md R351, R371 to
R378). -/

namespace Sys2Proof.Machine

/-! ### The stand of a job -/

/-- Whether a core is usable: no missing engine excludes it (01_machine.md R21; 03_encoding.md R88). -/
def Core.usable (c : Core) : Bool :=
  let has (i : Nat) : Bool := c.slmap.getLsbD i
  has 0 && has 1 && has 4 && has 5 && has 8 && (has 2 || has 3) && (has 6 || has 7)

/-- The usable cores of a die. -/
def State.usableIn (s : State) (e : Nat) : List Nat :=
  ((List.range 8).map (fun i => 8 * e + i)).filter (fun n => (s.core n).usable)

/-- The stand of a kernel on a partition in rank order; none where DET finds too few ranked dies (13_queues.md R351). -/
def formStand (s : State) (d : PDesc) (m : Mem) : Option (List Nat) :=
  if imgDet m then
    let dies := ((diesOf d.dmask).filter (fun e => decide (imgCpd m ≤ (s.usableIn e).length))).take (imgDies m)
    if dies.length < imgDies m then none else some (dies.flatMap (fun e => (s.usableIn e).take (imgCpd m)))
  else some ((diesOf d.dmask).flatMap s.usableIn)

/-- The image of an admitted LAUNCH. -/
def State.imageOf (s : State) (x : Adm) : Mem := (s.slot x.slot).image

/-- The context a job starts with (03_encoding.md R77; 13_queues.md R371 step 2). -/
def jobCtx (x : Adm) : Ctx :=
  { Ctx.start with bind := (List.range 16).foldl (fun t i => SMap.set t 0 i (x.binds.getD i 0)) [] }

/-- A core as it belongs to a stand, with a context live (13_queues.md R371 step 1). -/
def Core.join (c : Core) (x : Adm) (p rank size : Nat) (det : Bool) (ctx : Ctx) (q : Seq) : Core :=
  { c.release with
    ctx := { ctx with next := 0 }, pc := ctx.next, seq := q, standId := BitVec.ofNat 64 (p * 2 ^ 16 + x.desc.asid), ncores := size, lrank := rank, det := det,
    part := p, bad := { BadSites.none with imem := c.bad.imem, scratch := c.bad.scratch } }

/-- The run of a job on its stand, its superstep not yet started. -/
def newRun (s : State) (x : Adm) (cores : List Nat) (st : RunSt) : Run :=
  let m := s.imageOf x
  let next := x.next.getD (0, false)
  { adm := { x with started := true, preempted := false }, cores := cores, phc := next.1, exch := next.2,
    pool := imgPool m, ccSince := 0, strag := none, quiet := [], ids := [], episodes := [], chosen := false, incoming := none,
    spill := none, st := st, first := none, footR := resolved m x.binds 0, footW := resolved m x.binds 1,
    filter := filterOf s x.desc.asid (resolved m x.binds 0 ++ resolved m x.binds 1), killed := false, late := false,
    pend := false, exhausted := false }

/-- A job takes its partition: it leaves the admitted entries, its packet and journal record say it has started, its PASID
is bound (13_queues.md R371, R384; 11_translation.md R297). -/
def takePart (s : State) (p : Nat) (x : Adm) (r : Run) : State :=
  let s1 := s.setPart p { s.part p with
    run := some r, adms := (s.part p).adms.filter (fun y => !decide (y.q = x.q ∧ y.seq = x.seq)),
    saved := (s.part p).saved.filter (fun y => !decide (y.1 = x.q ∧ y.2.1 = x.seq)) }
  let s2 : State := { s1 with pasids := SMap.set s1.pasids 0 x.desc.asid (match x.pasid with | some v => v + 1 | none => 0) }
  let s3 := if x.started then s2 else s2.setPkt x.q x.seq (fun k => { k with started := true, startDtc := s.now })
  s3.setRec x.q x.seq (fun k => { k with started := true, adm := some r.adm })

/-- The ranks of a stand applied to its cores. -/
def joinAll (s : State) (p : Nat) (x : Adm) (cores : List Nat) (ctx : Nat → Ctx) (q : Seq) : State :=
  cores.zipIdx.foldl (fun t i =>
    t.setCore i.1 ((t.core i.1).join x p i.2 cores.length (imgDet (s.imageOf x)) (ctx i.1) q)) s

/-- The local data of a job that starts, at one core (03_encoding.md R105). -/
def startLocal (x : RSlot) (s : State) (n : Nat) : State :=
  let m := x.image
  let pool := imgPool m
  setLocal s pool n (recCells m 0 Config.scratchBytes) (recCells m Config.ownBase pool)
    (recErrors m x.bad 0 Config.scratchBytes) (recErrors m x.bad Config.ownBase pool)

/-- JOB START of a LAUNCH that has not run (13_queues.md R371).  DESIGN CHOICE (log entry 73): the share of a quad pool that
belongs to a core outside the stand keeps the bytes it holds. -/
def startJob (s : State) (p : Nat) (x : Adm) : State :=
  match formStand s (s.pdesc p) (s.imageOf x) with
  | none => s
  | some cores =>
    let s1 := takePart s p x (newRun s x cores .running)
    let s2 := joinAll s1 p x cores (fun _ => jobCtx x) .run
    cores.foldl (fun t n => startLocal (s.slot x.slot) (loadCode t x.slot n) n) s2

/-- The contexts of a pre-empted job that have been written out, by core in rank order. -/
def savedOf (s : State) (p : Nat) (x : Adm) : List (Nat × Ctx) :=
  ((s.part p).saved.filter (fun y => decide (y.1 = x.q ∧ y.2.1 = x.seq))).map (fun y => (y.2.2.1, y.2.2.2))

/-- A list's entry for a core. -/
def ctxFor (l : List (Nat × Ctx)) (n : Nat) : Ctx :=
  match l.find? (fun p => decide (p.1 = n)) with
  | some p => p.2
  | none => Ctx.start

/-- A pre-empted job takes an idle partition again, by the form of R344 (13_queues.md R371). -/
def resumeJob (s : State) (p : Nat) (x : Adm) : State :=
  let l := savedOf s p x
  let cores := l.map (·.1)
  if l.isEmpty then s
  else joinAll (takePart s p x (newRun s x cores .swapping)) p x cores (ctxFor l) .idle

/-! ### The choice -/

/-- Whether an admitted LAUNCH is ready (13_queues.md R372). -/
def State.ready (s : State) (x : Adm) : Bool :=
  match (s.queue x.q).pkts with
  | k :: _ => decide (k.seq = x.seq ∧ k.status = none ∧ x.rho ≤ s.now)
  | [] => false

/-- Earliest D, then earlier ρ, then lower queue number (13_queues.md R376). -/
def Adm.before (x y : Adm) : Bool :=
  decide (x.d < y.d ∨ (x.d = y.d ∧ (x.rho < y.rho ∨ (x.rho = y.rho ∧ x.q < y.q))))

/-- The ready LAUNCH of a partition that goes first. -/
def State.pick (s : State) (p : Nat) : Option Adm :=
  ((s.part p).adms.filter (fun x => decide (s.sys.state = 1) && s.ready x)).foldl (fun o x =>
    match o with
    | none => some x
    | some y => if x.before y then some x else o) none

/-- The Canopy unit dispatches a LAUNCH to a partition that holds no job. -/
def dispatchTo (s : State) (p : Nat) (x : Adm) : State := if x.preempted then resumeJob s p x else startJob s p x

/-- DISPATCH (13_queues.md R376): at partition obj. -/
def execDispatch (s : State) : Res :=
  .next (match s.runOf s.obj, s.pick s.obj with
    | none, some x => dispatchTo s s.obj x
    | _, _ => s)

/-- LAUNCH (13_queues.md R367, R371): the LAUNCH at the head of queue obj starts its job where the Canopy unit dispatches
it. -/
def execLaunch (s : State) : Res :=
  .next (match (s.queue s.obj).pkts with
    | k :: _ =>
      let p := k.desc.part
      (match s.runOf p, s.pick p with
       | none, some x => if x.q = s.obj ∧ x.seq = k.seq then dispatchTo s p x else s
       | _, _ => s)
    | [] => s)

/-! ### Pre-emption -/

/-- The stand and the contexts a LAUNCH would bring into the shadow banks. -/
def incomingCtx (s : State) (p : Nat) (x : Adm) : Option (List (Nat × Ctx)) :=
  if x.preempted then
    let l := savedOf s p x
    if l.isEmpty then none else some l
  else (formStand s (s.pdesc p) (s.imageOf x)).map (fun l => l.map (fun n => (n, jobCtx x)))

/-- SHADOW_PREPARE (12_traps.md R344): at partition obj, of the next job there, once the previous outgoing context has been
written out. -/
def execShadowPrepare (s : State) : Res :=
  .next (match s.runOf s.obj, s.pick s.obj with
    | some r, some x =>
      if x.d < r.adm.d ∧ (s.part s.obj).outgoing = none ∧ r.chosen = false ∧ r.st ≠ .swapping then
        (match incomingCtx s s.obj x with
         | some l =>
           let s1 := s.mapCores (partCores (s.pdesc s.obj)) (fun _ c => { c with shadow := none })
           (l.foldl (fun t q => t.setCore q.1 { t.core q.1 with shadow := some q.2 }) s1).setRun s.obj
             (some { r with incoming := some x })
         | none => s)
      else s
    | _, _ => s)

/-- PREEMPT_DECISION (13_queues.md R376; 12_traps.md R344): of the running job of partition obj, for the job the shadow
banks hold. -/
def execPreemptDecision (s : State) : Res :=
  .next (match s.runOf s.obj with
    | some r =>
      (match r.incoming with
       | some x =>
         if r.chosen = false ∧ (r.pend = false ∨ r.adm.desc.dbg = false) ∧ (r.st = .running ∨ r.st = .parking) ∧ x.d < r.adm.d
             ∧ s.ready x = true then
           s.setRun s.obj (some { r with chosen := true })
         else s
       | none => s)
    | none => s)

/-- THE SHADOW BANK SWAP at a partition (12_traps.md R343, R344 step 1): the shadow banks' contexts come in; the outgoing
job, if one stays, is admitted again with its contexts in the shadow banks and its local lines still to be written out. -/
def swapIn (s : State) (p : Nat) (x : Adm) (shadows : List (Nat × Ctx)) (out : Option (Adm × List (Nat × Ctx))) : State :=
  let cores := shadows.map (·.1)
  let s1 := s.mapCores (partCores (s.pdesc p)) (fun _ c => c.release)
  let r := newRun s x cores .swapping
  let s2 := takePart s1 p x { r with spill := out.map (fun o => (o.1, o.2.map (·.1))) }
  let s3 := s2.setPart p { s2.part p with
    outgoing := out, adms := (s2.part p).adms ++ (match out with | some o => [o.1] | none => []) }
  joinAll s3 p x cores (ctxFor shadows) .idle

/-- The contexts in the shadow banks of a partition's cores, in the rank order of the incoming job's stand. -/
def shadowsOf (s : State) (p : Nat) (x : Adm) : List (Nat × Ctx) :=
  match incomingCtx s p x with
  | some l => l.map (fun q => (q.1, (s.core q.1).shadow.getD q.2))
  | none => []

/-- The pre-emption of case 5 of R279 (12_traps.md R344; 13_queues.md R376). -/
def preempt (s : State) (p : Nat) : State :=
  match s.runOf p with
  | none => s
  | some r =>
    match r.incoming with
    | none => s
    | some x =>
      let out : Adm := { r.adm with preempted := true, next := some (r.phc, r.exch) }
      swapIn s p x (shadowsOf s p x) (some (out, r.cores.map (fun n => (n, { (s.core n).ctx with next := (s.core n).pc }))))

/-! ### Spill, refill, and writing out -/

/-- Cells outside a kernel's discardable regions; base is the local address of the first. -/
def keptCells (m : Mem) (base : Nat) (x : Mem) : Mem := x.filter (fun p => !discarded? m (base + p.1))

/-- One core's non-discardable local lines are written to its frame block, and its lines are cleared (12_traps.md R344
step 2); none where it has to wait. -/
def spillCore (p : Nat) (x : Adm) (s : State) (n : Nat) : Option State :=
  let m := s.imageOf x
  let b := frameBlock (s.pdesc p) x.frame n
  let own := shareCells (s.quad (quadOf n)).mem (imgPool m) (n % 4)
  ((frameWrite s (b + 0x90000) Config.scratchBytes (keptCells m 0 (s.core n).scratch)).bind (fun t =>
    frameWrite t (b + 0x110000) (imgPool m) (keptCells m Config.ownBase own))).map (fun t => setLocal t (imgPool m) n [] [] [] [])

/-- The cause that an uncorrectable error in a line written out gives (12_traps.md R346). -/
def spillError (s : State) (m : Mem) (n : Nat) : Option Byte :=
  let pool := imgPool m
  if (s.core n).bad.scratch.any (fun a => !discarded? m a) then some Cause.ECC_SCRATCH
  else if (s.quad (quadOf n)).bad.any (fun a => decide (a / pool = n % 4) && !discarded? m (Config.ownBase + a % pool)) then
    some Cause.ECC_POOL
  else none

/-- The places of a frame area with an uncorrectable error, the first of each page (12_traps.md R346). -/
def frameErrors (s : State) (va size : Nat) : List Nat :=
  (pagesOf va size).filterMap (fun p =>
    match s.xlat 0 p.1 true false none with
    | .dev h pa _ =>
      if (s.home h).bad.isEmpty then none
      else ((List.range p.2).find? (fun i => (s.home h).bad.contains (pa + i))).map (p.1 + ·)
    | _ => none)

/-- Whether a frame area holds an uncorrectable error (12_traps.md R346). -/
def frameError (s : State) (va size : Nat) : Bool := !(frameErrors s va size).isEmpty

/-- The areas of a core's frame block that are read when its job comes in: its context, its scratchpad and its share of the pool
(12_traps.md R329, R344). -/
def frameAreas (s : State) (p : Nat) (r : Run) (n : Nat) : List (Nat × Nat) :=
  let b := frameBlock (s.pdesc p) r.adm.frame n
  if r.adm.next.isNone then [] else [(b + 0x1000, imageSize), (b + 0x90000, Config.scratchBytes), (b + 0x110000, r.pool)]

/-- What keeps the frames of a job that comes in from being read (11_translation.md R308, R319, R325). -/
def refillLook (s : State) (p : Nat) (r : Run) : Look :=
  (r.cores.flatMap (frameAreas s p r)).foldl (fun o x =>
    match o with
    | .ok _ => frameLook s x.1 x.2
    | e => e) (.ok [])

/-- The events of the errors and faults that the reads of those frames meet (11_translation.md R307; 14_system.md R405). -/
def refillEvents (s : State) (p : Nat) (r : Run) : State :=
  let l := r.cores.flatMap (frameAreas s p r)
  let unmapped (x : Nat × Nat) : List Nat := ((pagesOf x.1 x.2).filter (fun q =>
    match s.xlat 0 q.1 true false none with
    | .fail _ => true
    | _ => false)).map (·.1)
  (l.flatMap (fun x => frameErrors s x.1 x.2 ++ unmapped x)).foldl (fun t y => t.noteRead (.fail y)) s

/-- The cause that an error met while a core's context, local lines and code are loaded gives it (12_traps.md R346): out is that of
the lines written out at the same core.  DEDUCED (log entry 78): of several, one in the registers goes first, then one in the STR
state, in the lines written out, in the scratchpad, in the pool and in the code. -/
def refillError (s : State) (p : Nat) (r : Run) (out : Option Byte) (n : Nat) : Option Byte :=
  let x := s.slot r.adm.slot
  let m := x.image
  let b := frameBlock (s.pdesc p) r.adm.frame n
  let fresh := r.adm.next.isNone
  if !fresh && frameError s (b + 0x1000) 0x12C00 then some Cause.ECC_REGFILE
  else if !fresh && frameError s (b + 0x13C00) 0x74900 then some Cause.ECC_ACC
  else if out.isSome then out
  else if (if fresh then !(recErrors m x.bad 0 Config.scratchBytes).isEmpty else frameError s (b + 0x90000) Config.scratchBytes) then
    some Cause.ECC_SCRATCH
  else if (if fresh then !(recErrors m x.bad Config.ownBase r.pool).isEmpty else frameError s (b + 0x110000) r.pool) then
    some Cause.ECC_POOL
  else if decide ((s.core n).codeGen ≠ some (r.adm.slot, x.gen)) && x.bad.any (fun a => decide (constAt m ≤ a)) then
    some Cause.ECC_IMEM
  else none

/-- One core's local lines are refilled: from its frame, or from the local-data records (12_traps.md R344 step 2). -/
def refillCore (p : Nat) (x : Adm) (fresh : Bool) (s : State) (n : Nat) : State :=
  let m := s.imageOf x
  if fresh then startLocal (s.slot x.slot) s n
  else
    let b := frameBlock (s.pdesc p) x.frame n
    setLocal s (imgPool m) n (frameRead s (b + 0x90000) Config.scratchBytes) (frameRead s (b + 0x110000) (imgPool m)) [] []

/-- A core starts its first superstep after a start or a resumption, its held sends released where it is an exchange superstep;
an error found while its context was loaded traps at its first bundle (12_traps.md R346, R347; 10_phase_sync.md R278 step 7,
R285). -/
def Core.begin (c : Core) (disc exch : Bool) (err : Option Byte) : Core :=
  let c := { c with seq := .run, ssc := 0, lnd := [], disc := disc }
  let c := if exch then c.release3 else c
  match err with
  | some k => c.takeTrap (Trap.plain k 0 c.pc c.pc)
  | none => c

/-- The errors met while lines are written out, by the core of the incoming stand that traps with them: the same core, else that
of rank 0 (12_traps.md R346; log entry 78). -/
def spillErrors (s : State) (r : Run) : List (Nat × Byte) :=
  match r.spill with
  | some o => o.2.filterMap (fun n => (spillError s (s.imageOf o.1) n).map (fun k => (if r.cores.contains n then n else r.cores.headD n, k)))
  | none => []

/-- The outgoing lines of a swap are written out, core by core (12_traps.md R344 step 2); none where one has to wait. -/
def spillAll (s : State) (p : Nat) (r : Run) : Option State :=
  match r.spill with
  | some o => o.2.foldl (fun t n => t.bind (fun u => spillCore p o.1 u n)) (some s)
  | none => some s

/-- Steps 3 and 4 of R344, and step 2's refill, after the outgoing lines have been written out; out holds their errors
(12_traps.md R344, R346). -/
def refillAll (s : State) (p : Nat) (r : Run) (out : List (Nat × Byte)) : State :=
  let fresh := r.adm.next.isNone
  let t := r.cores.foldl (fun t n => refillCore p r.adm fresh (loadCode t r.adm.slot n) n) s
  let disc := !fresh && (imgDiscs (s.imageOf r.adm)).any (fun d => decide (0 < d.2))
  let u := t.mapCores r.cores (fun n c =>
    c.begin disc r.exch (refillError s p r ((out.find? (fun x => decide (x.1 = n))).map (·.2)) n))
  u.setRun p (some { r with adm := { r.adm with next := none }, st := .running, spill := none, ccSince := 0 })

/-- SPILL_REFILL_COMPLETE (12_traps.md R344 steps 2 to 4): at partition obj, once the frames can be read and written. -/
def execSpillRefillComplete (s : State) : Res :=
  .next (match s.runOf s.obj with
    | some r =>
      if r.st = .swapping then
        (match refillLook s s.obj r with
         | .ok _ =>
           (match spillAll s s.obj r with
            | some t => refillAll (refillEvents t s.obj r) s.obj r (spillErrors s r)
            | none => s)
         | x => s.noteRead x)
      else s
    | none => s)

/-- CONTEXT_WRITEBACK (12_traps.md R344 step 5): of the outgoing context of partition obj. -/
def execContextWriteback (s : State) : Res :=
  .next (match (s.part s.obj).outgoing with
    | some (x, l) =>
      (match l.foldl (fun t q => t.bind (fun u =>
          frameWrite u (frameBlock (s.pdesc s.obj) x.frame q.1 + 0x1000) imageSize (imageCells q.2))) (some s) with
       | some s1 =>
         s1.setPart s.obj { s1.part s.obj with
           outgoing := none, saved := (s1.part s.obj).saved ++ l.map (fun q => (x.q, x.seq, q.1, q.2)) }
       | none => s)
    | none => s)

/-- A core that stops capture at once writes its record as captured so far; none where it has to wait (12_traps.md R328
step 1). -/
def stopCapture (s : State) (n : Nat) : Option State :=
  let c := s.core n
  if c.seq = .parked then some s
  else
    let t := match c.trap with
      | some t => t
      | none => Trap.plain Cause.NONE 2 c.pc c.pc
    mailbox (s.setCore n { c with trap := some { t with incomplete := true } }) n

/-- PARKED_PREEMPT_END (12_traps.md R328): at partition obj. -/
def execParkedPreemptEnd (s : State) : Res :=
  .next (match s.runOf s.obj with
    | some r =>
      (match r.incoming with
       | some x =>
         if r.chosen = true ∧ r.st = .parking ∧ r.late = false ∧ r.adm.desc.dbg = false then
           let sh := shadowsOf s s.obj x
           let k := r.first.getD 0
           (match r.cores.foldl (fun t n => t.bind (fun u => stopCapture u n)) (some s) with
            | some s1 =>
              let s2 := if eccCause k && r.adm.desc.replayable && !r.adm.replayed then replayRun s1 s.obj
                else killRun s1 s.obj 3 cflKilled k
              swapIn s2 s.obj x sh none
            | none => s)
         else s
       | none => s)
    | none => s)

/-! ### Budgets (13_queues.md R377) -/

/-- Beats and bytes of a stand since the last charge. -/
def chargeOf (s : State) (l : List Nat) (f : Core → Nat) : Nat := l.foldl (fun a n => a + f (s.core n)) 0

/-- BUDGET_CHARGE (13_queues.md R377): step 5 of R278. -/
def chargeRun (s : State) (p : Nat) : State :=
  match s.runOf p with
  | none => s
  | some r =>
    let b := chargeOf s r.cores (·.beats)
    let x := chargeOf s r.cores (·.bytes)
    let a := r.adm
    let gone (n rem : Nat) : Bool := decide (n ≠ 0 ∧ rem ≤ n)
    let a' : Adm := { a with remC := a.remC - r.ccSince, remB := a.remB - b, remX := a.remX - x,
                             usedC := a.usedC + r.ccSince, usedB := a.usedB + b, usedX := a.usedX + x }
    (s.mapCores r.cores (fun _ c => { c with beats := 0, bytes := 0 })).setRun p
      (some { r with adm := a', ccSince := 0, exhausted := gone r.ccSince a.remC || gone b a.remB || gone x a.remX })

/-! ### Deadlines (13_queues.md R378) -/

/-- The contexts of an admitted LAUNCH that was pre-empted: written out, or in the shadow banks. -/
def ctxsOf (s : State) (p : Nat) (x : Adm) : List Ctx :=
  (savedOf s p x ++ (match (s.part p).outgoing with
    | some o => if o.1.q = x.q ∧ o.1.seq = x.seq then o.2 else []
    | none => [])).map (·.2)

/-- AFLB of an admitted LAUNCH that does not run (13_queues.md R360). -/
def aflSaved (s : State) (p : Nat) (x : Adm) : Byte := (ctxsOf s p x).foldl (fun b c => b ||| c.afl) 0

/-- An admitted LAUNCH that is not running is ended late. -/
def expireAdm (s : State) (p : Nat) (x : Adm) : State :=
  let pt := s.part p
  let same (y : Adm) : Bool := decide (y.q = x.q ∧ y.seq = x.seq)
  let s1 := s.setPart p { pt with
    adms := pt.adms.filter (fun y => !same y),
    saved := pt.saved.filter (fun y => !decide (y.1 = x.q ∧ y.2.1 = x.seq)),
    outgoing := (match pt.outgoing with | some o => if same o.1 then none else some o | none => none),
    run := pt.run.map (fun r =>
      { r with incoming := r.incoming.filter (fun y => !same y),
               chosen := r.chosen && (match r.incoming with | some y => !same y | none => false),
               spill := r.spill.filter (fun o => !same o.1) }) }
  (s1.setPkt x.q x.seq (fun k =>
    { k with status := some 1, cfl := cflLate ||| cflKilled ||| (if x.replayed then cflReplayed else 0),
             aflb := aflSaved s p x, usedC := x.usedC, usedB := x.usedB, usedX := x.usedX,
             dline := x.d })).setRec x.q x.seq (fun r => { r with complete := true })

/-- DEADLINE_EXPIRY (13_queues.md R378): of the job n of partition obj, 0 the running one, which is parked first and killed
once its cores have captured; k + 1 the admitted LAUNCH k. -/
def execDeadlineExpiry (n : Nat) (s : State) : Res :=
  .next (match n with
    | 0 =>
      (match s.runOf s.obj with
       | some r =>
         if r.adm.desc.killLate = true ∧ r.adm.d < s.now then
           if r.late = false ∧ r.st ≠ .swapping then s.setRun s.obj (some { r with st := .parking, late := true })
           else if r.late = true ∧ allParked s r = true then killRun s s.obj 1 cflKilled 0
           else s
         else s
       | none => s)
    | k + 1 =>
      (match (s.part s.obj).adms[k]? with
       | some x => if x.desc.killLate = true ∧ x.d < s.now then expireAdm s s.obj x else s
       | none => s))

end Sys2Proof.Machine
end

