-- ==== Sys2Proof/Machine/Phase.lean ====
section
/-! DEFINITION. Phases: the releases of a frozen bundle, barriers, arrivals, quiet, the boundary with its steps and its stop
decision, and the limits of a superstep (05_local_memory.md R160, R161, R163; 10_phase_sync.md R276 to R294). -/

namespace Sys2Proof.Machine

/-! ### Frozen bundles -/

/-- The CTL trigger's value of the bundle a core is frozen at. -/
def Core.frozenWord (c : Core) : Word :=
  match c.ctlTrig c.fetch with
  | some (_, b) => b.scalar
  | none => 0

/-- The bundle a core waits at after its checks is performed, unless its stand no longer issues (12_traps.md R326). -/
def performFrozen (s : State) (n : Nat) : State := if s.issuing n then performBundle s n (s.core n).fetch else s

/-- The bundle a core is frozen at is issued again: its wait has ended. -/
def reissueFrozen (s : State) (n : Nat) : State :=
  let s1 := s.setCore n { s.core n with seq := .run }
  issue s1 n (s1.core n).fetch

/-- SLOT_READABLE (10_phase_sync.md R286). -/
def execSlotReadable (s : State) : Res :=
  .next (match s.me.seq with
    | .frozen .slot k => if slotsReady s.me s.me.fetch && decide (k ≤ s.limOf s.cur) then reissueFrozen s s.cur else s
    | _ => s)

/-- The slot of the move that waits for a landing slot. -/
def Core.waitingSlot (c : Core) : Option Nat :=
  (c.fetch.find? (fun b => c.performs b &&
    (match b.src.bind srcLanding with | some n => !c.slotReadable n | none => false))).map (·.slot)

/-- The straggler trap of a core whose freeze lasted more than LIM cc (10_phase_sync.md R281, R286). -/
def Core.freezeTrap (c : Core) : Core :=
  c.takeTrap { Trap.plain Cause.STRAGGLER 0 c.pc c.pc with arg := 3, slotEng := trapSlotEng c.fetch c.waitingSlot }

/-- FREEZE_TIMEOUT (10_phase_sync.md R286): a freeze of more than LIM cc; its count stands still once the slot is
readable. -/
def execFreezeTimeout (s : State) : Res :=
  .next (match s.me.seq with
    | .frozen .slot k => if s.limOf s.cur < k then s.setMe s.me.freezeTrap else s
    | _ => s)

/-- WAITT_RELEASE (10_phase_sync.md R294). -/
def execWaittRelease (s : State) : Res :=
  .next (match s.me.seq with
    | .frozen .waitt _ => if s.me.frozenWord.toNat ≤ (s.dtcOf s.cur).toNat then reissueFrozen s s.cur else s
    | _ => s)

/-! ### Barriers (10_phase_sync.md R288 to R291) -/

/-- Every MEM access of earlier bundles is performed (05_local_memory.md R163). -/
def Core.accessesDone (c : Core) : Bool :=
  c.ldq.isEmpty && c.stq.isEmpty && c.lda.isEmpty && c.sta.isEmpty && (c.q .mem).all (fun e => e.trig.isNone)

/-- The group of a core that shares an episode of a scope (10_phase_sync.md R288). -/
def barGroup (scope n : Nat) : Nat := if scope = 1 then quadOf n else if scope = 2 then dieOf n else 0

/-- An arrival in a stand's episodes. -/
def addArrival (id scope group n : Nat) : List Episode → List Episode
  | [] => [⟨id, scope, group, [n]⟩]
  | e :: r =>
    if e.id = id ∧ e.scope = scope ∧ e.group = group then { e with arrived := e.arrived ++ [n] } :: r
    else e :: addArrival id scope group n r

/-- A barrier mismatch precise at the barrier bundle (10_phase_sync.md R291). -/
def Core.mismatch (c : Core) : Core :=
  c.takeTrap { Trap.plain Cause.BARRIER_MISMATCH 0 c.pc c.pc with slotEng := slotEngByte (some .ctl) (some 0) }

/-- The running stands that share a barrier scope with the stand of partition p: its pod group at scope 4
(10_phase_sync.md R285, R288). -/
def podOf (s : State) (p : Nat) (r : Run) (scope : Nat) : List (Nat × Run) :=
  if scope = 4 ∧ r.adm.pgid ≠ 0 then
    s.parts.filterMap (fun x => match x.2.run with
      | some y => if y.adm.pgid = r.adm.pgid then some (x.1, y) else none
      | none => none)
  else [(p, r)]

/-- The participants of an episode. -/
def participants (e : Episode) (stands : List (Nat × Run)) : List Nat :=
  (stands.flatMap (fun x => x.2.cores)).filter (fun n =>
    decide (e.scope = 3 ∨ e.scope = 4 ∨ barGroup e.scope n = e.group))

/-- A participant learns that the episode has completed, and its bundle issues if it waits for it; a bundle whose episode completes
within its limit while its core does not issue has met it (10_phase_sync.md R289, R290). -/
def episodeDone (id : Nat) (s : State) (n : Nat) : State :=
  let c := s.core n
  let c1 := { c with arrivals := c.arrivals.map (fun (a : Arrival) => if a.id = id then { a with done := true } else a) }
  let s1 := s.setCore n c1
  let here := decide (barId c.frozenWord = id)
  match c.seq with
  | .frozen (.bar true) _ => if here then performFrozen s1 n else s1
  | .frozen .bwait _ => if here then performFrozen s1 n else s1
  | .frozen (.bwaitt k) t =>
    if here && decide (t ≤ k) then
      (if s.issuing n then performFrozen s1 n else s1.setCore n { c1 with seq := .frozen .bwait t })
    else s1
  | .capture _ | .parked =>
    (match c.was with
     | .frozen (.bwaitt k) t => if here && decide (t ≤ k) then s1.setCore n { c1 with was := .frozen .bwait t } else s1
     | _ => s1)
  | _ => s1

/-- Whether cores of other modules take part in an episode of a stand (10_phase_sync.md R288). -/
def farOf (s : State) (r : Run) (e : Episode) : Bool := decide (e.scope = 4) && s.farGroup r

/-- The episode e of the stand of partition p completes if every participant has arrived (10_phase_sync.md R289); far: those of
other modules have. -/
def settleEpisode (s : State) (p : Nat) (r : Run) (e : Episode) (far : Bool) : State :=
  let stands := podOf s p r e.scope
  let same (x : Episode) : Bool := decide (x.id = e.id ∧ x.scope = e.scope ∧ x.group = e.group)
  let arrived := stands.flatMap (fun x => (x.2.episodes.filter same).flatMap (·.arrived))
  let all := participants e stands
  if all.all (fun n => arrived.contains n) && (far || !farOf s r e) then
    let s1 := stands.foldl (fun (t : State) (x : Nat × Run) =>
      t.setRun x.1 (some { x.2 with episodes := x.2.episodes.filter (fun y => !same y) })) s
    all.foldl (episodeDone e.id) s1
  else s

/-- EPISODE_COMPLETE (10_phase_sync.md R289): the episode obj of the current core's stand. An episode completes with its last
arrival; the step completes one whose missing participants have left the pod group. -/
def execEpisodeComplete (s : State) : Res :=
  .next (match s.standOf s.cur with
    | some (p, r) =>
      (match r.episodes[s.obj]? with
       | some e => settleEpisode s p r e false
       | none => s)
    | none => s)

/-- The arrivals of the other modules of a pod group at a barrier reach the module, over a link (10_phase_sync.md R289; 14_system.md
R398; log entry 59): an episode that only waits for them completes. -/
def podArrive (s : State) (pgid id : Nat) : State :=
  match s.parts.findSome? (fun x => (x.2.run.filter (fun r => decide (r.adm.pgid = pgid) && s.podPath r)).bind (fun r =>
    (r.episodes.find? (fun e => decide (e.scope = 4 ∧ e.id = id))).map (fun e => (x.1, r, e)))) with
  | some x => settleEpisode s x.1 x.2.1 x.2.2 true
  | none => s

/-- The episode of core n's latest arrival at an id completes if every participant has arrived. -/
def settle (s : State) (n id scope : Nat) : State :=
  match s.standOf n with
  | some (p, r) =>
    (match r.episodes.find? (fun e => decide (e.id = id ∧ e.scope = scope ∧ e.group = barGroup scope n)) with
     | some e => settleEpisode s p r e false
     | none => s)
  | none => s

/-- An arrival of core n is registered (10_phase_sync.md R289, R291): the first arrival at an id fixes its scope; the last
arrival completes the episode. In one fabric cycle arrivals are registered by ascending CORE_ID: after a higher core's one waits for
the next. -/
def register (s : State) (n p : Nat) (r0 : Run) (wait : Bool) : State :=
  let c := s.core n
  let b := c.frozenWord
  let id := barId b
  let scope := barScope b
  let r := { r0 with barAt := (s.fabric, n) }
  if r0.barAt.1 = s.fabric ∧ n < r0.barAt.2 then s
  else if r.ids.any (fun x => decide (x.1 = id ∧ x.2 ≠ scope)) then (s.setRun p (some r)).setCore n c.mismatch
  else
    let c1 := { c with arrivals := c.arrivals.filter (fun a => decide (a.id ≠ id)) ++ [⟨id, scope, false⟩] }
    let r1 := { r with ids := if r.ids.any (fun x => decide (x.1 = id)) then r.ids else r.ids ++ [(id, scope)],
                       episodes := addArrival id scope (barGroup scope n) n r.episodes }
    let s1 := s.setRun p (some r1)
    if wait then settle (s1.setCore n { c1 with seq := .frozen (.bar true) 0 }) n id scope
    else settle (performBundle (s1.setCore n c1) n c1.fetch) n id scope

/-- BARRIER_ARRIVAL (10_phase_sync.md R289): the arrival of a core frozen at ctl.bar or ctl.arrive; a core whose episode
completed while it was parked goes on. -/
def execBarrierArrival (s : State) : Res :=
  .next (match s.me.seq, s.standOf s.cur with
    | .frozen (.bar false) _, some (p, r) => if s.me.accessesDone && s.issuing s.cur then register s s.cur p r true else s
    | .frozen .arrive _, some (p, r) => if s.me.accessesDone && s.issuing s.cur then register s s.cur p r false else s
    | .frozen (.bar true) _, _ => if s.me.barDone s.me.frozenWord then performFrozen s s.cur else s
    | .frozen .bwait _, _ => if s.me.barDone s.me.frozenWord then performFrozen s s.cur else s
    | .frozen (.bwaitt k) t, _ =>
      if s.me.barDone s.me.frozenWord = true ∧ t ≤ k then performFrozen s s.cur else s
    | _, _ => s)

/-- BWAITT_TIMEOUT (10_phase_sync.md R290): the bundle issues one cc after the limit and writes 1 to ctl.r. -/
def execBwaittTimeout (s : State) : Res :=
  .next (match s.me.seq with
    | .frozen (.bwaitt k) t =>
      if k < t ∧ s.issuing s.cur = true then
        let s1 := performBundle s s.cur s.me.fetch
        s1.setMe (s1.me.setCtlR 1)
      else s
    | _ => s)

/-! ### Arrivals and quiet -/

/-- The straggler timer of a stand starts with its first arrival (10_phase_sync.md R281). -/
def startTimer (s : State) (n : Nat) : State :=
  match s.standOf n with
  | some (p, r) => if r.strag = none then s.setRun p (some { r with strag := some 0 }) else s
  | none => s

/-- LOCAL_ARRIVAL (10_phase_sync.md R276). -/
def execLocalArrival (s : State) : Res :=
  .next (match s.me.seq with
    | .endph e false => if s.me.quiesced then startTimer (s.setMe { s.me with seq := .endph e true }) s.cur else s
    | _ => s)

/-- FINAL_ARRIVAL (04_scalar_control.md R125). -/
def execFinalArrival (s : State) : Res :=
  .next (match s.me.seq with
    | .halted false => if s.me.drained then startTimer (s.setMe { s.me with seq := .halted true }) s.cur else s
    | _ => s)

/-- Whether a request belongs to a stand and carries a phase tag. -/
def Req.tagged (q : Req) (cores : List Nat) (tag : Bool) : Bool := q.ofCores cores && decide (q.ptag = tag)

/-- Whether a flit is traffic of a stand's phase tag (05_local_memory.md R160). -/
def Flit.tagged (f : Flit) (cores : List Nat) (tag : Bool) : Bool :=
  match f.load with
  | .req q => q.tagged cores tag
  | _ => false

/-- Whether a stop holds no traffic of a tag and serves no job of it (05_local_memory.md R160). -/
def stopQuiet (s : State) (r : Run) (st : Nat) (tag : Bool) : Bool :=
  let own := r.cores.filter (fun n => decide (stopOfDie (dieOf n) = st))
  let q (x : Req) : Bool := x.tagged r.cores tag
  own.all (fun n => (s.core n).jobs.all (fun j => decide (j.ptag ≠ tag)))
    && !(s.stop st).wait.any (fun f => f.tagged r.cores tag) && !s.air.any (fun f => f.tagged r.cores tag)
    && (List.range 4).all (fun e => decide (stopOfEdge e ≠ st) ||
        (let h := s.home e
         !(h.held ++ h.slog ++ h.mighold).any q && !h.fwded.any (fun x => q x.req)
           && !h.exph.any (fun x => match x.req with | some y => q y | none => false)))

/-- The stops on a stand's paths: those of its dies and of the edge dies. -/
def Run.stops (r : Run) : List Nat :=
  ((r.cores.map (fun n => stopOfDie (dieOf n))) ++ (List.range 4).map stopOfEdge).eraseDups

/-- Whether every core of a stand waits at the boundary, none of them parked. -/
def allArrived (s : State) (r : Run) : Bool :=
  r.cores.all (fun n => match (s.core n).seq with | .endph _ a => a | .halted a => a | _ => false)

/-- QUIET_REPORT (05_local_memory.md R160): stop st reports quiet for a tag of the stand of partition obj; for the current
superstep's tag only once every core has arrived. -/
def execQuietReport (st : Nat) (tag : Bool) (s : State) : Res :=
  .next (match s.runOf s.obj with
    | some r =>
      if r.stops.contains st = true ∧ stopQuiet s r st tag = true ∧ (tag ≠ decide (r.phc % 2 = 1) ∨ allArrived s r = true)
          ∧ r.quiet.contains (st, tag) = false then
        s.setRun s.obj (some { r with quiet := r.quiet ++ [(st, tag)] })
      else s
    | none => s)

/-! ### The boundary (10_phase_sync.md R277 to R279) -/

/-- Whether every stop of the module has reported quiet for a tag. -/
def Run.quietHere (r : Run) (tag : Bool) : Bool := r.stops.all (fun st => r.quiet.contains (st, tag))

/-- The number under which the pod switch reports quiet (05_local_memory.md R160): behind those of the stops and ports. -/
abbrev podStop : Nat := 84

/-- Whether every stop on a stand's paths has reported quiet for a tag: for a pod group over several modules the pod switch too
(05_local_memory.md R160; 14_system.md R397). -/
def State.quietFor (s : State) (r : Run) (tag : Bool) : Bool :=
  r.quietHere tag && (!s.farGroup r || r.quiet.contains (podStop, tag))

/-- The pod switch returns quiet for a tag to the stands of a pod group: to one whose own stops are quiet, over a link
(05_local_memory.md R160; 14_system.md R397, R398; log entry 59). -/
def podQuiet (s : State) (pgid : Nat) (tag : Bool) : State :=
  { s with parts := s.parts.map (fun (x : Nat × Part) => (x.1, { x.2 with run := x.2.run.map (fun r =>
      if r.adm.pgid = pgid ∧ s.farGroup r = true ∧ s.podPath r = true ∧ r.quietHere tag = true ∧ r.quiet.contains (podStop, tag) = false then
        { r with quiet := r.quiet ++ [(podStop, tag)] }
      else r) })) }

/-- PHB of a job's card (09_copy_collective.md R253; 05_local_memory.md R161). -/
def CJob.phb (j : CJob) : Bool :=
  match j.card with
  | some card => bit card.toNat 6
  | none => false

/-- Conditions 2, 3 and 5 of R277: quiet of the phase tags, and phase-bound tokens. -/
def tokensQuiet (s : State) (r : Run) : Bool :=
  (decide (r.phc = 0) || s.quietFor r (decide ((r.phc - 1) % 2 = 1)))
    && r.cores.all (fun n => (s.core n).jobs.all (fun j => !(decide (j.step = r.phc) && j.phb)))
    && (!r.chosen || s.quietFor r (decide (r.phc % 2 = 1)))

/-- Condition 4 of R277: no send of the stand is under way, here or in another module, and no notice to it, where the boundary has
to wait for it. -/
def sendsQuiet (s : State) (r : Run) : Bool :=
  let due := match nextPhase s r with
    | some (some e) => e || r.chosen
    | some none => true
    | none => r.chosen
  let own (f : Flit) : Bool :=
    match f.load with
    | .send x => s.among r.cores x.core && decide (x.part ≠ noPart)
    | .notice n _ _ _ => s.among r.cores n
    | .req _ | .coll _ => false
  !due || (!s.air.any own && !s.stops.any (fun x => x.2.wait.any own) && !s.sys.abroad.any (fun x => s.among r.cores x.core))

/-- Steps 1 to 4 of R278, where the cores agree. At a boundary chosen for pre-emption the held sends stay in the context, and
are released as the job's next exchange superstep starts, here or when it resumes (12_traps.md R343, R347; log entry 42). -/
def boundarySteps (s : State) (p : Nat) (r : Run) (ask : Option Bool) : State :=
  let r1 := { r with phc := r.phc + 1, exch := ask.getD r.exch }
  let s1 := s.setRun p (some r1)
  let s2 := s1.mapCores r.cores (fun _ c =>
    let c := { c with lnd := [] }
    if ask = some true ∧ r.chosen = false then c.release3 else c)
  applyIngress s2 p

/-- The cores that step 6 traps with BARRIER_MISMATCH (10_phase_sync.md R278, R279, R291). -/
def mismatched (s : State) (r : Run) : List Nat :=
  let asks (n : Nat) : Option Bool := (s.core n).seq.asks
  let halted := r.cores.any (fun n => (asks n).isNone)
  let waiting := r.cores.filter (fun n => (asks n).isSome)
  let differ := waiting.any (fun n => waiting.any (fun k => decide (asks n ≠ asks k)))
  r.cores.filter (fun n =>
    differ || (halted && (asks n).isSome) || r.episodes.any (fun e => e.arrived.contains n))

/-- A boundary trap of a core (10_phase_sync.md R279; 12_traps.md R330). -/
def Core.boundaryTrap (c : Core) (k : Byte) : Core := c.takeTrap (Trap.plain k 4 c.pc c.pc)

/-- Case 3 of R279: the job stops with OVERRUN, its records written to the mailboxes (10_phase_sync.md R279; 13_queues.md R377);
the decision waits where a record has to. -/
def overrun (s : State) (p : Nat) (r : Run) : State :=
  let s1 := s.mapCores r.cores (fun _ c => c.boundaryTrap Cause.OVERRUN)
  match r.cores.foldl (fun t n => t.bind (fun u => mailbox u n)) (some s1) with
  | some t => killRun t p 2 0 Cause.OVERRUN
  | none => s.setRun p (some { r with pend := true })

/-- Step 7 of R278: the next superstep starts (10_phase_sync.md R278, R280, R288; 12_traps.md R347). -/
def nextSuperstep (s : State) (p : Nat) : State :=
  match s.runOf p with
  | none => s
  | some r =>
    (s.mapCores r.cores (fun _ c =>
      let c := { c with seq := .run, ssc := 0, disc := false, arrivals := [] }
      if r.exch then c.release3 else c)).setRun p
      (some { r with strag := none, quiet := [], ids := [], episodes := [], pend := false, exhausted := false })

/-- Cases 2 to 6 of R279; host writes held while the stand was parked at this boundary are applied where it does not go on
(05_local_memory.md R164). -/
def decideRest (s : State) (p : Nat) (ask : Option (Option Bool)) : State :=
  match s.runOf p with
  | none => s
  | some r =>
    let bad := mismatched s r
    if !bad.isEmpty then
      (s.mapCores bad (fun _ c => c.boundaryTrap Cause.BARRIER_MISMATCH)).setRun p (some { r with strag := none, pend := true })
    else if r.exhausted then overrun s p r
    else
      let t := if r.pend then applyIngress s p else s
      match ask with
      | some none => endRun t p r 0 0 0
      | _ => if r.chosen = true ∧ r.incoming.isSome = true then preempt t p else nextSuperstep s p

/-- Step 6 of R278, the stop decision of R279: of several faults of a core the first is raised; the decision is taken again where
the stand resumes (log entry 87). -/
def decide6 (s : State) (p : Nat) (ask : Option (Option Bool)) : State :=
  match s.runOf p with
  | none => s
  | some r =>
    let hit := r.cores.filter (fun n => !(s.core n).deferred.isEmpty)
    if hit.isEmpty then decideRest s p ask
    else
      (s.mapCores hit (fun _ c => match c.deferred with | d :: _ => c.raiseDeferred d | [] => c)).setRun p
        (some { r with strag := none, pend := true })

/-- The run with its boundary chosen where the shadow banks hold a ready job of an earlier D: pre-emption takes place at the
first boundary after they are prepared (13_queues.md R376). -/
def chooseBoundary (s : State) (r : Run) : Run :=
  match r.incoming with
  | some x => if r.pend = false ∧ x.d < r.adm.d ∧ s.ready x = true then { r with chosen := true } else r
  | none => r

/-- Whether the boundary of a stand has nothing to wait for (10_phase_sync.md R277). -/
def boundaryDue (s : State) (r : Run) : Bool :=
  decide (r.st = .running) && allArrived s r && (r.pend || (tokensQuiet s (chooseBoundary s r) && sendsQuiet s (chooseBoundary s r)))

/-- BOUNDARY_COMPLETE (10_phase_sync.md R277 to R279): of the stand of partition obj; after a resumption from the trap of a
boundary only the stop decision is left (12_traps.md R340). -/
def execBoundaryComplete (s : State) : Res :=
  .next (match s.runOf s.obj with
    | some r0 =>
      let p := s.obj
      let r := chooseBoundary s r0
      if r.st = .running ∧ allArrived s r = true then
        let s := s.setRun p (some r)
        let ask := nextPhase s r
        if r.pend then decide6 s p ask
        else if tokensQuiet s r = true ∧ sendsQuiet s r = true then
          let s1 := match ask with
            | some x => boundarySteps s p r x
            | none => s
          decide6 (chargeRun s1 p) p ask
        else s
      else s
    | none => s)

/-! ### Limits (10_phase_sync.md R280, R281) -/

/-- The trap of a core whose SSC has reached CAP (10_phase_sync.md R280). -/
def Core.capTrap (c : Core) : Core := c.takeTrap (Trap.plain Cause.SCAP_EXCEEDED 0 c.pc c.pc)

/-- SCAP_EXCEEDED (10_phase_sync.md R280): at the current core. -/
def execScapExceeded (s : State) : Res :=
  .next (match s.standOf s.cur with
    | some _ =>
      let late := decide (s.capOf s.cur ≤ s.me.ssc.toNat)
      let due : Bool := match s.me.seq with
        | .run => true
        | .frozen _ _ => true
        | .endph _ a => !a
        | .halted a => !a
        | _ => false
      if late && due then s.setMe s.me.capTrap else s
    | none => s)

/-- The argument of a straggler trap where every core has arrived (10_phase_sync.md R281): none where nothing is missing. -/
def stragglerArg (s : State) (r : Run) : Option (BitVec 16) :=
  if !tokensQuiet s r then some 1 else if !sendsQuiet s r then some 2 else none

/-- The straggler traps of a stand whose timer has exceeded LIM (10_phase_sync.md R281). -/
def stragglerTraps (s : State) (r : Run) : State :=
  let hit (arg : BitVec 16) (l : List Nat) : State :=
    s.mapCores l (fun _ c =>
      if c.trap.isSome then c else c.takeTrap { Trap.plain Cause.STRAGGLER 0 c.pc c.pc with arg := arg })
  let missing := r.cores.filter (fun n => !(s.core n).arrived)
  if !missing.isEmpty then hit 0 missing
  else
    match stragglerArg s (chooseBoundary s r) with
    | some a => hit a r.cores
    | none => s

/-- STRAGGLER (10_phase_sync.md R281): at the stand of partition obj. -/
def execStraggler (s : State) : Res :=
  .next (match s.runOf s.obj with
    | some r =>
      let due := match r.strag with
        | some t => decide (r.adm.lim < t)
        | none => false
      if due && decide (r.st = .running) then stragglerTraps s r else s
    | none => s)

end Sys2Proof.Machine
end

