-- ==== Sys2Proof/Machine/Coll.lean ====
section
/-! DEFINITION. Collective uses: taking cards, assembly, injection, the flits of the transport and the exact sums at the hops,
results, destinations and endings (01_machine.md R20; 09_copy_collective.md R265 to R272, R428, R429; 11_translation.md R314;
16_programs_exchange.md R420, R421). -/

namespace Sys2Proof.Machine

/-! ### Cards and uses (01_machine.md R20; 09_copy_collective.md R245, R266) -/

/-- NELEM of a card. -/
def nelem (card : BitVec 512) : Nat := cf card 24 4
/-- SCOPE of a card. -/
def cardScope (card : BitVec 512) : Nat := ctrlF card 17 1
/-- W_in of a card. -/
def cardWin (card : BitVec 512) : Nat := 8 + 8 * ctrlF card 15 2
/-- ROOT of a card. -/
def cardRoot (card : BitVec 512) : Nat := cf card 40 2

/-- Whether the cards of a use name die d of module v, each in its scope (09_copy_collective.md R266). -/
def Use.names (u : Use) (v d : Nat) : Bool :=
  u.cards.any (fun k => bit (cf k.card 32 8) d && decide (cardScope k.card = 1 ∨ v = u.dev))
    || u.far.any (fun k => bit (cf k.card 32 8) d && decide (cardScope k.card = 1 ∨ v = k.core / 512))

/-- The dies that the cards of a use name, in rank order: those of this module, and in a group of several modules each numbered
64·device + die (09_copy_collective.md R266). -/
def Use.dies (u : Use) : List Nat :=
  if u.devs.isEmpty then diesOf (u.cards.foldl (fun a k => a ||| cf k.card 32 8) 0)
  else u.devs.flatMap (fun v => ((List.range 64).filter (u.names v)).map (64 * v + ·))

/-- The number of a die of this module among the dies of a use. -/
def Use.dieNo (u : Use) (d : Nat) : Nat := if u.devs.isEmpty then d else 64 * u.dev + d

/-- This module's card of a die in a use. -/
def Use.cardAt (u : Use) (d : Nat) : Option CCard := u.cards.find? (fun k => decide (u.dieNo (dieOf k.core) = d))

/-- Whether a card of a die is held, of whichever module. -/
def Use.holds (u : Use) (d : Nat) : Bool := (u.cardAt d).isSome || (!u.devs.isEmpty && u.far.any (fun k => decide (k.core / 8 = d)))

/-- Whether a die of a use lies in another module. -/
def Use.isFar (u : Use) (d : Nat) : Bool := !u.devs.isEmpty && decide (d / 64 ≠ u.dev)

/-- This module's card of a rank: dies in ascending order (09_copy_collective.md R266). -/
def Use.rankCard (u : Use) (r : Nat) : Option CCard := (u.dies[r]?).bind u.cardAt

/-- A card of the use, the first held. -/
def Use.head (u : Use) : BitVec 512 :=
  match u.cards with
  | k :: _ => k.card
  | [] => 0

/-- Whether a use has pod scope; a stand of PGID 0 is a group of its own (09_copy_collective.md R266). -/
def Use.pod (u : Use) : Bool := decide (u.key % 2 = 1 ∧ u.key ≠ 1) && (u.cards ++ u.far).any (fun k => decide (cardScope k.card = 1))

/-- Whether dies of other modules belong to the group of a use (09_copy_collective.md R266). -/
def State.useFar (s : State) (u : Use) : Bool := u.pod && !(SMap.get s.sys.pod [] (u.key / 2)).isEmpty

/-- A use with the modules of its group as they stand (09_copy_collective.md R266). -/
def State.grouped (s : State) (u : Use) : Use :=
  let l := SMap.get s.sys.pod [] (u.key / 2)
  let dev := s.sys.dev.toNat
  if s.useFar u then { u with dev := dev, devs := (List.range 128).filter (fun v => decide (v = dev) || l.contains v) } else u

/-- Who shares the uses of a core's cards: the pod group of its stand, or its job alone (09_copy_collective.md R266; log entry
31). -/
def State.useKey (s : State) (n : Nat) : Nat :=
  match s.standOf n with
  | some (_, r) => r.adm.useKey
  | none => 1

/-- The cards of an identifier that a die's engine has taken. -/
def takenOf (l : List Taken) (key cid die : Nat) : Nat :=
  match l.find? (fun t => decide (t.key = key ∧ t.cid = cid ∧ t.die = die)) with
  | some t => t.n
  | none => 0

/-- One card more. -/
def countTaken (key cid die : Nat) : List Taken → List Taken
  | [] => [⟨key, cid, die, 1⟩]
  | t :: r => if t.key = key ∧ t.cid = cid ∧ t.die = die then { t with n := t.n + 1 } :: r else t :: countTaken key cid die r

/-- The k-th card of an identifier joins its k-th use, as f puts it there (09_copy_collective.md R266). -/
def joinUse (key cid k : Nat) (f : Use → Use) : List Use → List Use
  | [] => [f { key := key, cid := cid, k := k, cards := [], assembled := false, done := [], sums := [], results := [], flags := [],
               clash := false }]
  | u :: r =>
    if u.assembled = false ∧ u.key = key ∧ u.cid = cid ∧ u.k = k then f u :: r else u :: joinUse key cid k f r

/-- A card of another module joins its use (09_copy_collective.md R266; log entry 59): its die's cards are counted behind this
module's. -/
def podCard (s : State) (pgid : Nat) (x : CCard) : State :=
  let key := 2 * pgid + 1
  let cid := cf x.card 28 4
  let d := 64 + x.core / 8
  { s with uses := joinUse key cid (takenOf s.taken key cid d) (fun u => { u with far := u.far ++ [x] }) s.uses,
           taken := countTaken key cid d s.taken }

/-- How the ranks of other modules ended in a use (09_copy_collective.md R429; log entry 59). -/
def podRanks (s : State) (pgid cid k : Nat) (st : Byte) (faults : List (Nat × Byte × Word)) : State :=
  { s with uses := s.uses.map (fun u =>
      if u.key = 2 * pgid + 1 ∧ u.cid = cid ∧ u.k = k ∧ u.assembled = true then { u with farEnd := some (st, faults) } else u) }

/-- The order in which a die's engine takes the cards at the heads of its cores' card queues: by fabric cycle, then by
CORE_ID 2:0; those of a fabric cycle once it is over (01_machine.md R20; log entry 84). -/
def State.cardTurn (s : State) (n : Nat) : Bool :=
  match (s.core n).cards with
  | t :: _ => decide (t.2 < s.fabric) && (List.range 8).all (fun i =>
      match (s.core (8 * dieOf n + i)).cards with
      | x :: _ => decide (t.2 < x.2 ∨ (t.2 = x.2 ∧ n % 8 ≤ i))
      | [] => true)
  | [] => false

/-- Cards of a die's engine whose groups have not assembled (09_copy_collective.md R245). -/
def State.cardsHeld (s : State) (d : Nat) : Nat :=
  (s.uses.filter (fun u => !u.assembled)).foldl (fun a u => a + (u.cards.filter (fun k => decide (dieOf k.core = d))).length) 0

/-- COL_CARD_TAKE (01_machine.md R20; 09_copy_collective.md R245): the current core's oldest card, where it is the next of its
die, while the engine holds fewer than 32 cards of groups that have not assembled. -/
def execColCardTake (s : State) : Res :=
  .next (match s.me.cards with
    | t :: rest =>
      (match (s.me.job? t.1).bind (·.card) with
       | some card =>
         let d := dieOf s.cur
         let key := s.useKey s.cur
         let cid := cf card 28 4
         if s.cardTurn s.cur = true ∧ s.cardsHeld d < 32 then
           { s.setMe { s.me with cards := rest } with
             uses := joinUse key cid (takenOf s.taken key cid d) (fun u => { u with cards := u.cards ++ [⟨s.cur, t.1, card⟩] }) s.uses,
             taken := countTaken key cid d s.taken }
         else s
       | none => s.setMe { s.me with cards := rest })
    | [] => s)

/-- A job of the card of a use. -/
def useJob (s : State) (k : CCard) : Option CJob := (s.core k.core).job? k.tag

/-- Whether no older access or job holds back a card's job (05_local_memory.md R157); that of a killed job holds nothing back
(12_traps.md R341). -/
def collReady (s : State) (k : CCard) : Bool :=
  match useJob s k with
  | some j =>
    let c := s.core k.core
    !c.memBlocks (s.poolOf k.core) k.core j.tag j.rd j.wr && !c.jobBlocks j.tag j.rd j.wr
  | none => true

/-- One job of a use changed. -/
def setUseJob (s : State) (k : CCard) (f : CJob → CJob) : State :=
  match useJob s k with
  | some j => s.setCore k.core ((s.core k.core).setJob (f j))
  | none => s

/-- Faulting ranks of a use: rank, status, first faulting address (11_translation.md R314). -/
def faultsOf (s : State) (u : Use) : List (Nat × Byte × Word) :=
  (List.range u.dies.length).filterMap (fun r =>
    match (u.rankCard r).bind (useJob s) with
    | some j => if j.nfault ≠ 0 then some (r, j.cause, j.faddr) else none
    | none => (u.farEnd.map (·.2)).bind (fun l => l.find? (fun x => decide (x.1 = r))))

/-- Whether a flit belongs to a use. -/
def Use.owns (u : Use) (x : CFlit) : Bool := decide (x.key = u.key ∧ x.cid = u.cid ∧ x.k = u.k)

/-- The flits of a use are gone. -/
def dropFlits (s : State) (u : Use) : State :=
  let keep (f : Flit) : Bool := match f.load with | .coll x => !u.owns x | _ => true
  { s with air := s.air.filter keep, stops := s.stops.map (fun x => (x.1, { x.2 with wait := x.2.wait.filter keep })) }

/-- A use ends: every rank's token will fill with the status, a rank's that ran out of space excepted; where a result was written
its rounding flags are returned (09_copy_collective.md R270, R429; 11_translation.md R314, R325). -/
def finishUse (s : State) (i : Nat) (st : Byte) (fl : Byte) : State :=
  match s.uses[i]? with
  | none => s
  | some u =>
    let fs := faultsOf s u
    let s1 := (List.range u.dies.length).foldl (fun t r =>
      match u.rankCard r with
      | some k => setUseJob t k (fun j =>
          { j with use := none, held := false, ended := if j.ended = some 4 then some 4 else some st,
                   flags := j.flags ||| (if cardKind k.card = 10 ∨ r = cardRoot k.card then fl else 0),
                   part := if st = 1 then fs.take 4 else [], nfault := if st = 1 then fs.length else 0 })
      | none => t) s
    dropFlits { s1 with uses := dropAt s1.uses i } u

/-- The fields that the cards of an assembled use have to agree in (09_copy_collective.md R267). -/
def agreeKey (card : BitVec 512) : List Nat :=
  [cardKind card, ctrlF card 11 2, ctrlF card 13 2, ctrlF card 15 2, cardScope card, cf card 32 8, cardRoot card, nelem card]

/-- Whether a rank of a use has no pod link left on its way to other modules (14_system.md R398). -/
def State.useCut (s : State) (u : Use) : Bool :=
  s.useFar u && u.cards.any (fun k => !s.edgeUp (edgeOfDie (dieOf k.core)))

/-- COLLECTIVE_ASSEMBLE (09_copy_collective.md R266, R267): of the use obj. -/
def execCollectiveAssemble (s : State) : Res :=
  .next (match s.uses[s.obj]? with
    | some u0 =>
      let u := s.grouped u0
      if u.assembled = true ∨ u.cards = [] then s
      else if s.useCut u then finishUse { s with uses := setAt s.uses s.obj u } s.obj 7 0
      else if u.dies.all u.holds && u.cards.all (collReady s) then
        let s1 := u.cards.foldl (fun t k => setUseJob t k (fun j => { j with started := true, use := some u.cid })) s
        let s2 := { s1 with uses := setAt s1.uses s.obj { u with assembled := true } }
        if !(u.cards ++ u.far).all (fun k => decide (agreeKey k.card = agreeKey u.head)) then finishUse s2 s.obj 6 0
        else if nelem u.head = 0 then finishUse s2 s.obj 0 0
        else s2
      else s
    | none => s)

/-! ### The IQ transport (09_copy_collective.md R268, R269) -/

/-- An element taken apart by ITYPE. -/
def collEl (ty : Nat) (l : List Byte) (e : Nat) : Fp :=
  if ty = 0 then bf16.unpack (leAt l (2 * e) 2) else fp32.unpack (leAt l (4 * e) 4)

/-- ex(x) of a finite element (09_copy_collective.md, "The IQ transport format"). -/
def exOf : Fp → Option Int
  | .fin _ m e => some (if m = 0 then -149 else (m.log2 : Int) + 1 + e)
  | _ => none

/-- The largest ex of a block's elements, −149 where none is finite (09_copy_collective.md R268). -/
def blockMax (l : List Fp) : Int :=
  (l.filterMap exOf).foldl (fun a x => max a x) (-149)

/-- Injection of one element: class, integer and flags (09_copy_collective.md R269). -/
def inject (win : Nat) (eb : Int) (x : Fp) : (Nat × Int) × Byte :=
  match x with
  | .nan sig => ((3, 0), flagIf sig fNV)
  | .inf neg => ((if neg then 2 else 1, 0), 0)
  | .fin neg m e =>
    let d := e - (eb - (win : Int) + 2)
    let fr := pow2Frac d
    let r := roundDiv 0 false (m * fr.1) fr.2
    let top := 2 ^ (win - 2)
    let q := min r.1 top
    ((0, if neg then - (q : Int) else q), flagIf r.2 fNX ||| flagIf (decide (top < r.1)) fQX)

/-- ⌈log2 n⌉. -/
def clog2 (n : Nat) : Nat := if n ≤ 1 then 0 else (n - 1).log2 + 1

/-- The class of a combined element (09_copy_collective.md R269). -/
def joinClass (a b : Nat) : Nat :=
  if a = 3 ∨ b = 3 then 3 else if a = 0 then b else if b = 0 then a else if a = b then a else 3

/-- Two contributions to one block combined exactly; class 3 throughout where their E(b) differ (09_copy_collective.md R269). -/
def combine (win : Nat) (x y : Contrib) : Contrib :=
  let n := x.n + y.n
  { block := x.block, e := x.e, n := n, w := win + clog2 n,
    els := (x.els.zip y.els).map (fun p => if x.e = y.e then (joinClass p.1.1 p.2.1, p.1.2 + p.2.2) else (3, 0)) }

/-- R(e) of an element of the final sum, and its rounding flags (09_copy_collective.md R270). -/
def finalEl (f : Fmt) (win : Nat) (eb : Int) (x : Nat × Int) : Nat × Byte :=
  match x.1 with
  | 0 => f.roundInt 0 x.2 (eb - (win : Int) + 2)
  | 1 => (f.infinity false, 0)
  | 2 => (f.infinity true, 0)
  | _ => (f.nan, 0)

/-! ### Flits (09_copy_collective.md R269, R428) -/

/-- The 256 bytes of a flit that l fills from its start. -/
def flitBytes (l : List Byte) : List Byte := l ++ List.replicate (256 - l.length) 0

/-- A signed field of w bits. -/
def sxField (w v : Nat) : Int := if 2 * v < 2 ^ w then (v : Int) else (v : Int) - 2 ^ w

/-- The wire form of a contribution (09_copy_collective.md R269). -/
def Contrib.wire (k : Contrib) : List Byte :=
  flitBytes (leBytes 2 (BitVec.ofInt 16 k.e).toNat ++ leBytes 2 k.w ++ leBytes 4 k.block ++ leBytes 2 k.n ++ List.replicate 6 0
    ++ leBytes (4 * (k.w + 2)) (packN (k.w + 2) (fun i =>
        let x := k.els.getD i (0, 0)
        x.1 + 4 * (x.2 % 2 ^ k.w).toNat) 32))

/-- The contribution of a flit (09_copy_collective.md R269). -/
def iqRead (l : List Byte) : Contrib :=
  let w := leAt l 2 1
  let body := ofLe (l.drop 16)
  { block := leAt l 4 4, e := sxField 16 (leAt l 0 2), n := leAt l 8 2, w := w,
    els := (List.range 32).map (fun i =>
      let x := body / 2 ^ ((w + 2) * i) % 2 ^ (w + 2)
      (x % 4, sxField w (x / 4))) }

/-- A MAXSCALE flit of exponents from a block on (09_copy_collective.md R428). -/
def maxFlit (first : Nat) (es : List Int) : List Byte :=
  flitBytes (leBytes 4 first ++ leBytes 2 es.length ++ [0, 0] ++ es.flatMap (fun e => leBytes 2 (BitVec.ofInt 16 e).toNat))

/-- The exponents of a MAXSCALE flit. -/
def maxRead (l : List Byte) : List Int := (List.range (leAt l 4 2)).map (fun i => sxField 16 (leAt l (8 + 2 * i) 2))

/-- A flit of source bytes (09_copy_collective.md R428). -/
def chunkFlit (r off : Nat) (l : List Byte) : List Byte :=
  flitBytes (leBytes 4 r ++ leBytes 4 off ++ leBytes 2 l.length ++ List.replicate 6 0 ++ l)

/-- The number of a flit among those of its rank and kind: its blocks or its chunk (09_copy_collective.md R428). -/
def unitOf (kind : Nat) (l : List Byte) : Nat :=
  match kind with
  | 8 => leAt l 0 4 / 124
  | 9 | 10 => leAt l 4 4
  | _ => leAt l 4 4 / 240

/-- Sums of ranks combined at a hop (09_copy_collective.md R268, R269). -/
def Sum.join (card : BitVec 512) (x y : Sum) : Sum :=
  let a := iqRead x.bytes
  let b := iqRead y.bytes
  if cardKind card = 8 then
    { unit := x.unit, ranks := x.ranks ++ y.ranks, clash := false,
      bytes := maxFlit (leAt x.bytes 0 4) (((maxRead x.bytes).zip (maxRead y.bytes)).map (fun p => max p.1 p.2)) }
  else
    { unit := x.unit, ranks := x.ranks ++ y.ranks, bytes := (combine (cardWin card) a b).wire,
      clash := x.clash || y.clash || decide (a.e ≠ b.e) }

/-! ### Units -/

/-- Chunks of 240 bytes of a source (09_copy_collective.md R428). -/
def chunks240 (card : BitVec 512) : Nat := (nelem card + 239) / 240

/-- The flits a rank injects (09_copy_collective.md R428). -/
def unitsIn (card : BitVec 512) (r : Nat) : Nat :=
  match cardKind card with
  | 8 => (nblocks card + 123) / 124
  | 9 | 10 => nblocks card
  | 11 => chunks240 card
  | _ => if r = cardRoot card then chunks240 card else 0

/-- The bytes written at a rank of a group of g (09_copy_collective.md R270). -/
def outLen (card : BitVec 512) (g r : Nat) : Nat :=
  let osz := elBytes (ctrlF card 13 2)
  match cardKind card with
  | 8 => 2 * nblocks card
  | 9 => if r = cardRoot card then nelem card * osz else 0
  | 10 => nelem card * osz
  | 11 => g * nelem card
  | _ => nelem card

/-- The elements of block b that are not padding. -/
def blockCount (card : BitVec 512) (b : Nat) : Nat := min 32 (nelem card - 32 * b)

/-- The source bytes of a flit: offset and length (09_copy_collective.md R428). -/
def unitBytes (card : BitVec 512) (b : Nat) : Nat × Nat :=
  let sz := elBytes (ctrlF card 11 2)
  match cardKind card with
  | 8 => (3968 * b * sz, min 3968 (nelem card - 3968 * b) * sz)
  | 9 | 10 => (32 * b * sz, blockCount card b * sz)
  | _ => (240 * b, min 240 (nelem card - 240 * b))

/-- The flit b that a rank injects for its source bytes l, eb the block exponent at EXPADDR, and the flags of injection
(09_copy_collective.md R268, R269, R428). -/
def unitFlit (card : BitVec 512) (r b : Nat) (eb : Int) (l : List Byte) : List Byte × Byte :=
  let el (i : Nat) : Fp := collEl (ctrlF card 11 2) l i
  match cardKind card with
  | 8 =>
    (maxFlit (124 * b) ((List.range (min 124 (nblocks card - 124 * b))).map (fun k =>
      blockMax ((List.range (blockCount card (124 * b + k))).map (fun i => el (32 * k + i))))), 0)
  | 9 | 10 =>
    let q := (List.range (blockCount card b)).map (fun i => inject (cardWin card) eb (el i))
    ((⟨b, eb, 1, cardWin card, q.map (·.1)⟩ : Contrib).wire, q.foldl (fun a x => a ||| x.2) 0)
  | _ => (chunkFlit r (240 * b) l, 0)

/-- The bytes that a complete sum gives, rounded once, and the rounding flags (09_copy_collective.md R268, R270). -/
def Sum.result (card : BitVec 512) (y : Sum) : List Byte × Byte :=
  if cardKind card = 8 then ((y.bytes.drop 8).take (2 * leAt y.bytes 4 2), 0)
  else
    let k := iqRead y.bytes
    let sz := elBytes (ctrlF card 13 2)
    let f : Fmt := if ctrlF card 13 2 = 0 then bf16 else fp32
    let q := (k.els.take (blockCount card k.block)).map (finalEl f (cardWin card) k.e)
    (q.flatMap (fun x => leBytes sz x.1), q.foldl (fun a x => a ||| x.2) 0)

/-- The result, and its place there, that holds byte p of a destination (09_copy_collective.md R268, R270). -/
def outPlace (card : BitVec 512) (p : Nat) : Nat × Nat :=
  let sz := elBytes (ctrlF card 13 2)
  match cardKind card with
  | 8 => (p / 248, p % 248)
  | 9 | 10 => (p / (32 * sz), p % (32 * sz))
  | 11 => (p / nelem card * 2 ^ 32 + p % nelem card / 240, p % nelem card % 240)
  | _ => (cardRoot card * 2 ^ 32 + p / 240, p % 240)

/-- Byte p of a destination, once its result has been received. -/
def Use.outByte (u : Use) (p : Nat) : Option Byte :=
  let x := outPlace u.head p
  (u.results.find? (fun y => decide (y.1 = x.1))).bind (fun y => y.2[x.2]?)

/-! ### The hops (09_copy_collective.md R269; 16_programs_exchange.md R420) -/

/-- The ranks of a package-scope use in the order in which its contributions are combined: ascending stops, descending where
CID[0] is 1 (16_programs_exchange.md R420). -/
def Use.path (u : Use) : List Nat := if bit u.cid 0 then (List.range u.dies.length).reverse else List.range u.dies.length

/-- The die whose engine rounds and multicasts: that of the last rank of this module on the path (16_programs_exchange.md R420). -/
def Use.last (u : Use) : Nat := ((u.path.filterMap (fun r => u.dies[r]?)).filter (fun d => !u.isFar d)).getLast?.getD 0 % 64

/-- The injection of a flit of a rank of another module is noted (09_copy_collective.md R429). -/
def Use.noted (u : Use) (x : CFlit) : Use :=
  if !x.result && (u.dies[x.rank]?).any u.isFar then { u with done := u.done ++ [(x.rank, unitOf (cardKind u.head) x.bytes)] } else u

/-- A flit of a use that belongs to a rank of this module goes on to the other modules of the group, through the pod link of its
die (09_copy_collective.md R269, R270). -/
def goFar (s : State) (u : Use) (f : Flit) : State :=
  match f.load with
  | .coll x =>
    if u.devs.isEmpty || x.result then s
    else
      (match u.rankCard x.rank with
       | some k => (match s.podLink (edgeOfDie (dieOf k.core)) with
         | some l => s.putFlit (stopOfLink l) f
         | none => s)
       | none => s)
  | .send _ | .notice _ _ _ _ | .req _ => s

/-- A contribution received: in package scope at the next rank's hop of its block, in pod scope by itself; none where it has to
wait (09_copy_collective.md R269; 16_programs_exchange.md R420). -/
def Use.receive (u : Use) (x : CFlit) : Option Use :=
  let y : Sum := ⟨unitOf (cardKind u.head) x.bytes, [x.rank], x.bytes, false⟩
  let before := u.path.takeWhile (fun r => decide (r ≠ x.rank))
  if u.pod || before.isEmpty then some { u with sums := u.sums ++ [y] }
  else
    match u.sums.findIdx? (fun z => decide (z.unit = y.unit ∧ z.ranks = before)) with
    | some i => some { u with sums := setAt u.sums i ((u.sums.getD i y).join u.head y) }
    | none => none

/-- Sums i and j of a pod-scope use combined at a switch (09_copy_collective.md R269). -/
def Use.merge (u : Use) (i j : Nat) : Use :=
  match u.sums[i]?, u.sums[j]? with
  | some x, some y =>
    if u.pod = true ∧ i ≠ j ∧ x.unit = y.unit then
      { u with sums := x.join u.head y :: dropAt (dropAt u.sums (max i j)) (min i j) }
    else u
  | _, _ => u

/-- A flit that has reached the ranks: a result of a sum with its flags in front, or the bytes of a chunk (log entry 79). -/
def Use.accept (u : Use) (x : CFlit) : Use :=
  if x.result then
    { u with results := u.results ++ [(x.rank, x.bytes.drop 1)], flags := u.flags ++ [(x.rank, x.bytes.getD 0 0)] }
  else
    { u with results := u.results ++ [(x.rank * 2 ^ 32 + unitOf 11 x.bytes, (x.bytes.drop 16).take (leAt x.bytes 8 2))] }

/-- A sum over every rank is rounded and multicast from the last hop (09_copy_collective.md R270; 16_programs_exchange.md
R420). -/
def emitSum (s : State) (i : Nat) (u : Use) : State :=
  match u.sums.findIdx? (fun y => decide (y.ranks.length = u.dies.length)) with
  | some k =>
    let y := u.sums.getD k ⟨0, [], [], false⟩
    let r := y.result u.head
    let x : CFlit := ⟨u.key, u.cid, u.k, y.unit, true, r.2 :: r.1⟩
    ({ s with uses := setAt s.uses i { u with sums := dropAt u.sums k, clash := u.clash || y.clash } } : State).putFlit
      (stopOfDie u.last) ⟨ctrlF u.head 4 2, .coll x⟩
  | none => { s with uses := setAt s.uses i u }

/-- HOP_COMBINE (09_copy_collective.md R269, R270): of the use obj. Place i in transit holds a flit of it that reaches its next
hop or its ranks; i counted on from there, sums i and j combine at a switch. -/
def execHopCombine (i j : Nat) (s : State) : Res :=
  .next (match s.uses[s.obj]? with
    | some u =>
      if u.assembled then
        match s.air[i]? with
        | some ⟨c, .coll x⟩ =>
          if u.owns x then
            let u := u.noted x
            let t : State := goFar { s with air := dropAt s.air i } u ⟨c, .coll x⟩
            if x.result || decide (11 ≤ cardKind u.head) then { t with uses := setAt t.uses s.obj (u.accept x) }
            else
              (match u.receive x with
               | some v => emitSum t s.obj v
               | none => s)
          else s
        | some _ => s
        | none => emitSum s s.obj (u.merge (i - s.air.length) j)
      else s
    | none => s)

/-! ### Running a use -/

/-- The flits that a rank has injected. -/
def Use.injected (u : Use) (r : Nat) : Nat := (u.done.filter (fun p => decide (p.1 = r))).length

/-- Whether a rank of another module is known to have injected its flit b: it has arrived, or a result that holds it. -/
def Use.hasUnit (u : Use) (r b : Nat) : Bool :=
  u.done.contains (r, b) || (decide (cardKind u.head < 11) && u.results.any (fun y => decide (y.1 = b)))

/-- Whether every rank has injected all its flits: no destination is written before (09_copy_collective.md R429). -/
def Use.ready (u : Use) : Bool :=
  u.dies.zipIdx.all (fun p =>
    if u.isFar p.1 then (List.range (unitsIn u.head p.2)).all (u.hasUnit p.2) else decide (unitsIn u.head p.2 ≤ u.injected p.2))

/-- Whether a rank has nothing more to write, or cannot (11_translation.md R310, R325; 12_traps.md R341). -/
def rankDone (s : State) (u : Use) (r : Nat) : Bool :=
  match (u.rankCard r).bind (useJob s) with
  | some j => decide (j.ended = some 4) || (decide (outLen u.head u.dies.length r ≤ j.pos ∧ j.slog = 0) && !j.asked && !j.held)
  | none => true

/-- The ending of a use whose destinations have all been written (09_copy_collective.md R429). -/
def endingOf (s : State) (u : Use) : Byte := if u.clash then 6 else if !(faultsOf s u).isEmpty then 1 else 0

/-- A request of a rank, put down at its die's stop (09_copy_collective.md R261; 11_translation.md R299). -/
def collAsk (s : State) (k : CCard) (j : CJob) (kind : RKind) (a : Nat) : State :=
  let n := k.core
  let prio := ctrlF k.card 4 2
  let r : Req := { org := .coll n j.tag, asid := ((s.core n).standId.extractLsb' 0 16).toNat, kind := kind, addr := BitVec.ofNat 64 a,
                   ptag := j.ptag, prio := prio, pos := j.doneb, replay := false, pgid := s.pgidOf n, view := none, fixed := false }
  (s.setCore n ((s.core n).setJob { j with asked := true })).putFlit (stopOfDie (dieOf n)) ⟨prio, .req r⟩

/-- Rank r injects its next flit b, once its source bytes are at hand (09_copy_collective.md R268 to R272, R428). -/
def injectStep (s : State) (i : Nat) (u : Use) (k : CCard) (j : CJob) (r b : Nat) : State :=
  let c := s.core k.core
  let src := c.srcOf k.card
  let sp := unitBytes k.card b
  let buf := j.buf.getD []
  if src.main && decide (buf.length < sp.2) then
    let a := (src.a + sp.1 + buf.length) % 2 ^ 64
    collAsk s k j (.read (min (sp.2 - buf.length) (64 - a % 64))) a
  else
    let l := if src.main then buf.take sp.2 else s.localBytes k.core ((src.a + sp.1) % 2 ^ 32) sp.2
    let eb := sxField 16 (ofLe (s.localBytes k.core ((cf k.card 44 4 + 2 * b) % 2 ^ 32) 2))
    let x := unitFlit k.card r b eb l
    let s1 := s.setCore k.core ((c.setJob { j with buf := none, off := j.off + 1, flags := j.flags ||| x.2 }).charge 256)
    ({ s1 with uses := setAt s1.uses i { u with done := u.done ++ [(r, b)] } } : State).putFlit (stopOfDie (dieOf k.core))
      ⟨ctrlF k.card 4 2, .coll ⟨u.key, u.cid, u.k, r, false, x.1⟩⟩

/-- Rank r writes the next line of its destination, once its results have been received (09_copy_collective.md R270). -/
def writeStep (s : State) (u : Use) (k : CCard) (j : CJob) (r : Nat) : State :=
  let c := s.core k.core
  let dst := c.dstOf k.card
  let a := (dst.a + j.pos) % (if dst.main then 2 ^ 64 else 2 ^ 32)
  let n := min (64 - a % 64) (outLen u.head u.dies.length r - j.pos)
  let l := (List.range n).filterMap (fun i => u.outByte (j.pos + i))
  if l.length < n then s
  else if dst.main then collAsk s k j (.write l) a
  else
    let t := l.zipIdx.foldl (fun t b => State.setLocalByte t k.core ((a + b.2) % 2 ^ 32) b.1) s
    t.setCore k.core (((t.core k.core).setJob { j with pos := j.pos + n, doneb := j.doneb + n }).charge n)

/-- The lines of its destination that a rank has done with. -/
def CJob.lines (j : CJob) (c : Core) (card : BitVec 512) : Nat := ((c.dstOf card).a % 64 + j.pos) / 64

/-- One turn of a use of a kind at rank r: it injects its flit b until every rank has injected, then writes line b of its
destination.  An unresolvable fault on a read ends the use with PERM, a link that failed with LINKDOWN, a rank that was killed
before it had injected with MISMATCH (09_copy_collective.md R267, R429; 11_translation.md R314; 12_traps.md R341). -/
def collStep (kind r b : Nat) (s : State) : State :=
  match s.uses[s.obj]? with
  | none => s
  | some u =>
    match u.rankCard r with
    | none => s
    | some k =>
      let jobs := u.cards.filterMap (useJob s)
      let gone := u.dies.zipIdx.any (fun p =>
        !u.isFar p.1 && ((u.rankCard p.2).bind (useJob s)).isNone && decide (u.injected p.2 < unitsIn u.head p.2))
      let lost := s.useCut u || jobs.any (fun j => decide (j.ended = some 7)) || decide (u.farEnd.map (·.1) = some 7)
      if !u.assembled || decide (cardKind k.card ≠ kind) then s
      else if jobs.any (fun j => decide (j.ended = some 2 ∨ j.ended = some 3)) || decide (u.farEnd.map (·.1) = some 2) then
        finishUse s s.obj 2 0
      else if lost then finishUse s s.obj 7 0
      else if gone || decide (u.farEnd.map (·.1) = some 6) then finishUse s s.obj 6 0
      else if u.ready && (List.range u.dies.length).all (rankDone s u) && (u.devs.isEmpty || u.farEnd.isSome) then
        finishUse s s.obj (endingOf s u) (u.flags.foldl (fun a x => a ||| x.2) 0)
      else
        match useJob s k with
        | some j =>
          if j.asked || j.held || j.ended.isSome then s
          else if !u.ready then
            (if b = u.injected r ∧ b < unitsIn k.card r ∧ jobs.all (fun x => !x.held) = true then injectStep s s.obj u k j r b else s)
          else if b = j.lines (s.core k.core) k.card ∧ j.pos < outLen u.head u.dies.length r then writeStep s u k j r
          else s
        | none => s

/-- JOB_MAXSCALE (09_copy_collective.md R268): rank r of the use obj, its flit or line b. -/
def execJobMaxscale (r b : Nat) (s : State) : Res := .next (collStep 8 r b s)

/-- JOB_REDUCE (09_copy_collective.md R270). -/
def execJobReduce (r b : Nat) (s : State) : Res := .next (collStep 9 r b s)

/-- JOB_ALLREDUCE (09_copy_collective.md R270). -/
def execJobAllreduce (r b : Nat) (s : State) : Res := .next (collStep 10 r b s)

/-- JOB_ALLGATHER (09_copy_collective.md R270). -/
def execJobAllgather (r b : Nat) (s : State) : Res := .next (collStep 11 r b s)

/-- JOB_BCAST (09_copy_collective.md R270). -/
def execJobBcast (r b : Nat) (s : State) : Res := .next (collStep 12 r b s)

end Sys2Proof.Machine
end

