-- ==== Sys2Proof/Machine/Ctl.lean ====
section
/-! DEFINITION. The meanings of the CTL triggers: each is the issue of the bundle that holds the trigger alone, with the checks
and the act of its rule (Issue.ctlCheck, issueChecked, ctlAct). -/

namespace Sys2Proof.Machine

/-- CTL_JMP (04_scalar_control.md R114). -/
def execCtlJmp (m : Mv) (s : State) : Res := issueOne (.ctlJmp m) s

/-- CTL_JREL (04_scalar_control.md R114). -/
def execCtlJrel (m : Mv) (s : State) : Res := issueOne (.ctlJrel m) s

/-- CTL_CALL (04_scalar_control.md R114). -/
def execCtlCall (m : Mv) (s : State) : Res := issueOne (.ctlCall m) s

/-- CTL_RET (04_scalar_control.md R114). -/
def execCtlRet (m : Mv) (s : State) : Res := issueOne (.ctlRet m) s

/-- CTL_LOOP (04_scalar_control.md R118). -/
def execCtlLoop (m : Mv) (s : State) : Res := issueOne (.ctlLoop m) s

/-- CTL_REP (04_scalar_control.md R122). -/
def execCtlRep (m : Mv) (s : State) : Res := issueOne (.ctlRep m) s

/-- CTL_HALT (04_scalar_control.md R125). -/
def execCtlHalt (m : Mv) (s : State) : Res := issueOne (.ctlHalt m) s

/-- CTL_TRAP (04_scalar_control.md R127). -/
def execCtlTrap (m : Mv) (s : State) : Res := issueOne (.ctlTrap m) s

/-- CTL_TFENCE (04_scalar_control.md R128). -/
def execCtlTfence (m : Mv) (s : State) : Res := issueOne (.ctlTfence m) s

/-- CTL_CSRR (04_scalar_control.md R130). -/
def execCtlCsrr (m : Mv) (s : State) : Res := issueOne (.ctlCsrr m) s

/-- CTL_CSRW (04_scalar_control.md R130). -/
def execCtlCsrw (m : Mv) (s : State) : Res := issueOne (.ctlCsrw m) s

/-- CTL_GSET (04_scalar_control.md R116). -/
def execCtlGset (m : Mv) (s : State) : Res := issueOne (.ctlGset m) s

/-- CTL_GNOT (04_scalar_control.md R116). -/
def execCtlGnot (m : Mv) (s : State) : Res := issueOne (.ctlGnot m) s

/-- CTL_GAND (04_scalar_control.md R116). -/
def execCtlGand (m : Mv) (s : State) : Res := issueOne (.ctlGand m) s

/-- CTL_GOR (04_scalar_control.md R116). -/
def execCtlGor (m : Mv) (s : State) : Res := issueOne (.ctlGor m) s

/-- CTL_DRAIN (04_scalar_control.md R129). -/
def execCtlDrain (m : Mv) (s : State) : Res := issueOne (.ctlDrain m) s

/-- CTL_ENDPH (10_phase_sync.md R275). -/
def execCtlEndph (m : Mv) (s : State) : Res := issueOne (.ctlEndph m) s

/-- CTL_BAR (10_phase_sync.md R289). -/
def execCtlBar (m : Mv) (s : State) : Res := issueOne (.ctlBar m) s

/-- CTL_ARRIVE (10_phase_sync.md R289). -/
def execCtlArrive (m : Mv) (s : State) : Res := issueOne (.ctlArrive m) s

/-- CTL_BWAIT (10_phase_sync.md R289). -/
def execCtlBwait (m : Mv) (s : State) : Res := issueOne (.ctlBwait m) s

/-- CTL_BWAITT (10_phase_sync.md R290). -/
def execCtlBwaitt (m : Mv) (s : State) : Res := issueOne (.ctlBwaitt m) s

/-- CTL_WAITT (10_phase_sync.md R294). -/
def execCtlWaitt (m : Mv) (s : State) : Res := issueOne (.ctlWaitt m) s

/-- CTL_TIME (10_phase_sync.md R295). -/
def execCtlTime (m : Mv) (s : State) : Res := issueOne (.ctlTime m) s

end Sys2Proof.Machine
end

