-- ==== Sys2Proof/Machine/Engine.lean ====
section
/-! DEFINITION. The steps inside a core that no move names: captures, arrivals, transfers and repetitions
(02_numbers.md R60; 03_encoding.md R69, R78, R79; 04_scalar_control.md R122, R125; 12_traps.md R335). -/

namespace Sys2Proof.Machine

/-- A pending transfer whose source has filled writes its register (03_encoding.md R79). -/
def Core.transfer (c : Core) (i : Nat) : Core :=
  match c.pends[i]? with
  | some p =>
    match p.val with
    | .ready v => if c.serving then { c with pends := dropAt c.pends i }.fillReg p.dst v else c
    | .wait _ => c
  | none => c

/-- PENDING_TRANSFER_COMPLETE (03_encoding.md R79): pending transfer obj of the current core. -/
def execPendingTransferComplete (s : State) : Res := .next (s.setMe (s.me.transfer s.obj))

/-- The operand entry at the head of a queue captures its value and leaves (03_encoding.md R69). -/
def Core.capture (c : Core) (e : Eng) : Core :=
  match c.q e with
  | en :: _ =>
    match en.trig, en.val with
    | none, .ready v =>
      if c.serving then (c.popHead e).setOp e ((c.op e).write (isVecEng e) en.port v) else c
    | _, _ => c
  | [] => c

/-- OPERAND_ENTRY_CAPTURE (03_encoding.md R69). -/
def execOperandEntryCapture (e : Eng) (s : State) : Res := .next (s.setMe (s.me.capture e))

/-- Flight i delivers its result to its port and its flags to AFL (02_numbers.md R60; 03_encoding.md R78). -/
def Core.deliver (c : Core) (i : Nat) : Core :=
  match c.flights[i]? with
  | some f =>
    if f.port.isSome then ({ c with flights := dropAt c.flights i }.arrive f.tag f.val).orFlags f.flags else c
  | none => c

/-- RESULT_ARRIVAL (03_encoding.md R78): result obj in flight at the current core. -/
def execResultArrival (s : State) : Res := .next (s.setMe (s.me.deliver s.obj))

/-- Flight i, of a trigger without a result port, is complete: its flags are set (04_scalar_control.md R125). -/
def Core.complete (c : Core) (i : Nat) : Core :=
  match c.flights[i]? with
  | some f => if f.port.isSome then c else { c with flights := dropAt c.flights i }.orFlags f.flags
  | none => c

/-- TRIGGER_FULL_EFFECT (04_scalar_control.md R125): trigger obj in flight at the current core. -/
def execTriggerFullEffect (s : State) : Res := .next (s.setMe (s.me.complete s.obj))

/-- A further repetition enters its queue once there is room: its source is read anew, an address register advances, a
result port is claimed (04_scalar_control.md R121, R122); a parked core's repetitions do not enter (12_traps.md R335). An
address register stands as advanced by every repetition that has entered, also by those behind one that faults (R124; log
entry 61). -/
def Core.repeatEntry (c : Core) : Core :=
  match c.rep with
  | none => c
  | some r =>
    let e := repEng r.instr
    let b : BMove := ⟨4, r.move, some r.instr⟩
    if c.trap.isSome || !c.serving || decide (depthOf e ≤ (c.q e).length) then c
    else
      match b.src with
      | none => c
      | some x =>
        let next : Option Rep := if r.left ≤ 1 then none else some { r with left := r.left - 1, index := r.index + 1 }
        let mk (trig : Option Instr) (p : OPort) : Entry :=
          { mkEntry c b x trig p c.nextTag (some r.index) c.nextTag with badr := r.badr, rmode := r.rmode, qcfg := r.qcfg }
        let put (en : Entry) : Core :=
          advanceAreg c { c.setQ e (c.q e ++ [en]) with nextTag := c.nextTag + 1, rep := next } b
        match b.dest with
        | .trig _ p =>
          (match resPort e p with
           | some q => (put (mk (some r.instr) .o)).claimPort q c.nextTag
           | none => put (mk (some r.instr) .o))
        | .oport _ p => put (mk none p)
        | _ => c

/-- REPEAT_ENTRY (04_scalar_control.md R122). -/
def execRepeatEntry (s : State) : Res := .next (s.setMe s.me.repeatEntry)

end Sys2Proof.Machine
end

