-- ==== Sys2Proof/Machine/Home.lean ====
section
/-! DEFINITION. Events at the homes: forwarded requests, the expansion hold buffer, the Clearing engine, answers of the host,
and host accesses by CXL.mem (05_local_memory.md R164, R165; 11_translation.md R307 to R325; 14_system.md R389). -/

namespace Sys2Proof.Machine

/-! ### Forwarded requests (11_translation.md R319, R320) -/

/-- A forwarded request performed at its presented addresses, not translated again (11_translation.md R319). -/
def performAt (s : State) (home : Nat) (f : Fwded) : State × RRes :=
  performXl s f.req home (f.pas.map (fun o => o.map (fun pa => Xl.dev home pa false)))

/-- Whether the homes serve requests: main memory is not trained in the recovery state (14_system.md R401). -/
def State.served (s : State) : Bool := decide (s.sys.state ≠ 2)

/-- FORWARDED_REQUEST (11_translation.md R320): the i-th request forwarded to the home obj; only the first is due, and retries that
waited for it follow. -/
def execForwardedRequest (i : Nat) (s : State) : Res :=
  .next (match i, (if s.served then (s.home s.obj).fwded else []) with
    | 0, f :: rest =>
      let x := performAt s s.obj f
      (match x.2 with
       | .stall => s
       | _ =>
         let t := x.1.setHome s.obj { x.1.home s.obj with fwded := rest }
         let t := match x.2 with | .fail h => t.reqEvent h f.req | _ => t
         retryDue (deliver t f.req x.2))
    | _, _ => s)

/-! ### The expansion hold buffer (11_translation.md R325) -/

/-- EXPANSION_HOLD_RELEASE (11_translation.md R325): the oldest held write of home obj is applied if its chunks are free; host
writes and retries that waited behind it follow (05_local_memory.md R165; 11_translation.md R311). -/
def execExpansionHoldRelease (s : State) : Res :=
  .next (match (if s.served then (s.home s.obj).exph else []) with
    | e :: rest =>
      let h := s.home s.obj
      let r := ({ h with exph := rest } : Home).put e.cells
      if r.2 then
        let t := (s.setHome s.obj r.1).watchEn (e.cells.map (fun c => (Xl.dev s.obj c.1 false, c.2)))
        let t := match e.req with
          | some q => deliver t q (.done e.n e.flags e.logs)
          | none => t
        retryDue (sweepIngress t s.obj)
      else s.setHome s.obj { r.1 with exph := h.exph }
    | [] => s)

/-- The job a held write belongs to. -/
def ExpHold.job (e : ExpHold) : Option (Nat × Nat) :=
  match e.req with
  | some r => (match r.org with | .job k t | .coll k t => some (k, t) | .pkt _ | .pod => none)
  | none => none

/-- A job's held write is discarded because no chunks came free: the job stops there (11_translation.md R310, R312, R325). -/
def outOfSpace (s : State) (e : ExpHold) : State :=
  match e.req with
  | some r =>
    if r.replay then discarded s r 0x04
    else
      (match r.org with
       | .job k tag | .coll k tag =>
         s.onJob k tag 0 (fun j =>
           { j with asked := false, held := false, slog := j.slog + e.logs, ended := if j.ended.isSome then j.ended else some 0x04,
                    faddr := r.addr })
       | .pkt _ | .pod => s)
  | none => s

/-- HOLDLIM in ns: 0 reads as 1 µs (11_translation.md R323). -/
def Home.holdNs (h : Home) : Nat := 1000 * max 1 h.holdlim

/-- EXPANSION_HOLD_TIMEOUT (11_translation.md R325): held write i of home obj, with every later write of its job. -/
def execExpansionHoldTimeout (i : Nat) (s : State) : Res :=
  let h := s.home s.obj
  .next (match h.exph[i]? with
    | some e =>
      (match e.job with
       | some k =>
         if s.served = true ∧ e.since + h.holdNs ≤ s.nowAt s.obj then
           let gone (p : ExpHold × Nat) : Bool := decide (i ≤ p.2 ∧ p.1.job = some k)
           let t := s.setHome s.obj { h with exph := (h.exph.zipIdx.filter (fun p => !gone p)).map (·.1) }
           retryDue (sweepIngress (((h.exph.zipIdx.filter gone).map (·.1)).foldl outOfSpace t) s.obj)
         else s
       | none => s)
    | none => s)

/-- BALLOON_INFLATE (11_translation.md R324): the Clearing engine of home obj, when FREEC is below LOWW. -/
def execBalloonInflate (s : State) : Res :=
  let h := s.home s.obj
  .next (if h.free < h.loww then s.setHome s.obj (h.inflate (max h.highw (h.loww + 1)) h.balloon.length) else s)

/-! ### Answers of the host (11_translation.md R307, R308, R315) -/

/-- ATS_PAGE_RESPONSE (11_translation.md R308, R311): success retries the page's requests, failure is unresolvable. -/
def execAtsPageResponse (pasid page : Nat) (ok : Bool) (hpa : Nat) (rd wr : Bool) (s : State) : Res :=
  .next (if s.sys.pageReqs.contains (pasid, page) then
      let rest := s.sys.pageReqs.filter (fun p => decide (p ≠ (pasid, page)))
      let mine (r : Req) : Bool :=
        decide (SMap.get s.pasids 0 r.asid = pasid + 1) && r.touches r.asid (4096 * page) (4096 * page + 4096)
      if ok then
        let ats := s.sys.ats.filter (fun x => !decide (x.pasid = pasid ∧ x.page = page)) ++
          [⟨pasid, page, hpa / 4096 * 4096, rd, wr⟩]
        let t : State := { s with sys := { s.sys with ats := ats, pageReqs := rest } }
        retryAt (retryAt t 0 mine) 2 mine
      else
        let t : State := { s with sys := { s.sys with pageReqs := rest } }
        failAt (failAt t 0 mine) 2 mine
    else s)

/-- ATS_INVALIDATION (11_translation.md R315): of a host-half range of a PASID. -/
def execAtsInvalidation (pasid lo len : Nat) (s : State) : Res :=
  .next { s with sys := { s.sys with ats := s.sys.ats.filter (fun x =>
    !decide (x.pasid = pasid ∧ 4096 * x.page < lo + len ∧ lo < 4096 * x.page + 4096)) } }

/-! ### Host accesses (05_local_memory.md R164, R165; 14_system.md R389) -/

/-- Whether main memory is trained (14_system.md R400, R401). -/
def State.trained (s : State) : Bool := decide (s.sys.state = 1)

/-- Whether a CXL port is trained: the port of edge die 0, or of edge die 2. -/
def State.portUp (s : State) (port : Bool) : Bool := decide ((if port then s.sys.port2 else s.sys.port0) ≠ 0)

/-- Home and presented byte of a host physical address in the CXL.mem window (14_system.md R389). -/
def State.window (s : State) (hpa : Nat) : Option (Nat × Nat) :=
  if s.sys.hdmb ≤ hpa ∧ hpa < s.sys.hdmb + 2 ^ 46 then some ((hpa - s.sys.hdmb) / 2 ^ 44, (hpa - s.sys.hdmb) % 2 ^ 44) else none

/-- The partitions whose running stands' ingress filters hold a presented line (05_local_memory.md R164; 11_translation.md
R318).  DESIGN CHOICE (log entry 75): a write to a line of two footprints is held for both stands' boundaries. -/
def State.holders (s : State) (home line : Nat) : List Nat :=
  (s.parts.filter (fun p => match p.2.run with
    | some r => r.filter.any (fun f => decide (f.1 = home ∧ f.2.1 / 64 ≤ line ∧ line < (f.2.2 + 63) / 64))
    | none => false)).map (·.1)

/-- Ingress lines held for a port (05_local_memory.md R165).  DESIGN CHOICE (log entry 74): each held write takes one, also two
writes to one line. -/
def State.ingressUsed (s : State) (port : Bool) : Nat :=
  ((List.range 4).map (fun e => ((s.home e).ingress.filter (fun x => decide (x.port = port))).length)).sum

/-- A fault event of a host access (14_system.md R389; log entry 18). -/
def State.hostFault (s : State) (home kind hpa : Nat) : State := s.faultEvent home 0 kind 0xFFFF 0 (BitVec.ofNat 64 hpa)

/-- One line's part of a host write: held, for the stands whose footprints hold its line or behind an earlier write to it, or
applied; none where it has to wait at the port, as every write does while its ingress lines are used up (05_local_memory.md R164,
R165). -/
def hostLine (s : State) (port : Bool) (home pa : Nat) (l : List Byte) : Option State :=
  let h := s.home home
  let ps := s.holders home (pa / 64)
  if 4096 ≤ s.ingressUsed port then none
  else if !ps.isEmpty || h.ingress.any (fun x => decide (x.pa / 64 = pa / 64)) then
    some (s.setHome home { h with ingress := h.ingress ++ [⟨ps, port, pa, l⟩] })
  else
    let x := writeXl s none (l.zipIdx.map (fun b => (Xl.dev home (pa + b.2) false, b.1))) l.length 0 0
    match x.2 with
    | .stall => none
    | _ => some x.1

/-- A host write line by line. -/
def hostLines (port : Bool) (home : Nat) : Nat → State → Nat → List Byte → Option State
  | 0, s, _, _ => some s
  | f + 1, s, pa, l =>
    if l.isEmpty then some s
    else
      let k := 64 - pa % 64
      (hostLine s port home pa (l.take k)).bind (fun t => hostLines port home f t (pa + k) (l.drop k))

/-- HOST_WRITE (05_local_memory.md R164; 14_system.md R389): through the port of edge die 0 or 2; outside the window the
host writes its own memory (log entry 32). -/
def execHostWrite (port : Bool) (hpa : Nat) (data : List Byte) (s : State) : Res :=
  .next (match s.window hpa with
    | none => { s with hostMem := putCells s.hostMem (data.zipIdx.map (fun b => (hpa + b.2, b.1))) }
    | some (home, pa) =>
      if !s.portUp port then s
      else if s.trained = false ∨ (s.home home).commit < pa + data.length then s.hostFault home 1 hpa
      else (hostLines port home data.length s pa data).getD s)

/-- A byte as the host reads it: the newest held write, or memory (05_local_memory.md R165). -/
def State.hostByte (s : State) (home pa : Nat) : Byte :=
  let h := s.home home
  match (h.ingress.filter (fun x => decide (x.pa ≤ pa ∧ pa < x.pa + x.data.length))).getLast? with
  | some x => x.data.getD (pa - x.pa) 0
  | none => Mem.read h.mem pa

/-- HOST_READ (05_local_memory.md R165; 14_system.md R389, R405): the data the host receives stands in lastRead, with its
poison. -/
def execHostRead (port : Bool) (hpa len : Nat) (s : State) : Res :=
  let got (t : State) (l : List Byte) (poison : Bool) : State :=
    { t with sys := { t.sys with lastRead := l, lastPoison := poison } }
  .next (match s.window hpa with
    | none => got s (Mem.readN s.hostMem hpa len) false
    | some (home, pa) =>
      if !s.portUp port then s
      else if s.trained = false ∨ (s.home home).commit < pa + len then got (s.hostFault home 0 hpa) [] true
      else
        let h := s.home home
        let bytes := List.range len
        if bytes.any (fun i => s.leafHeld (.dev home (pa + i) false)) then s
        else if bytes.any (fun i => h.bad.contains (pa + i) && !h.ingress.any (fun x => decide (x.pa ≤ pa + i ∧ pa + i < x.pa + x.data.length))) then
          got (s.sendEvent 9 (stopOfEdge home) 9 (leBytes 8 home ++ leBytes 8 pa)) [] true
        else got s (bytes.map (fun i => s.hostByte home (pa + i))) false)

end Sys2Proof.Machine
end

