-- ==== Sys2Proof/Machine/Moves.lean ====
section
/-! DEFINITION. The meanings of the moves that are no trigger: each is the issue of the bundle that holds the move alone
(03_encoding.md R84); a bundle of several moves is BUNDLE_ISSUE. -/

namespace Sys2Proof.Machine

/-- MOVE_SREG (03_encoding.md R70). -/
def execMoveSreg (slot : Fin 8) (d : SDest) (m : Mv) (s : State) : Res := issueOne (.moveSreg slot d m) s

/-- MOVE_VREG (03_encoding.md R71). -/
def execMoveVreg (slot : Fin 8) (d : VDest) (m : Mv) (s : State) : Res := issueOne (.moveVreg slot d m) s

/-- MOVE_VREG_SLOT7 (03_encoding.md R71). -/
def execMoveVregSlot7 (d : VDest) (m : Mv) (s : State) : Res := issueOne (.moveVregSlot7 d m) s

/-- MOVE_OPERAND_PORT (03_encoding.md R69). -/
def execMoveOperandPort (slot : Fin 8) (p : OPort) (m : Mv) (s : State) : Res := issueOne (.moveOperandPort slot p m) s

/-- MOVE_COL_OPERAND (09_copy_collective.md R241). -/
def execMoveColOperand (c : CSlot) (p : OPort) (m : Mv) (s : State) : Res := issueOne (.moveColOperand c p m) s

/-- MOVE_XPORT (03_encoding.md R67). -/
def execMoveXport (slot : Fin 8) (e : Eng) (p : OPort) (m : Mv) (s : State) : Res := issueOne (.moveXport slot e p m) s

end Sys2Proof.Machine
end

