-- ==== Sys2Proof/Machine/Admit.lean ====
section
/-! DEFINITION. Decoding a packet: its fields, the rejection codes in their order, release time and deadline, and the admission
of a LAUNCH (13_queues.md R355 to R375, R380, R382). -/

namespace Sys2Proof.Machine

/-! ### Fields -/

/-- TYPE of a packet (13_queues.md R355). -/
def pktType (b : List Byte) : Nat := leAt b 0 1
/-- NOTIFY (13_queues.md R355). -/
def pktNotify (b : List Byte) : Bool := bit (leAt b 1 1) 0
/-- STOPERR (13_queues.md R355). -/
def pktStoperr (b : List Byte) : Bool := bit (leAt b 1 1) 1
/-- SEQ (13_queues.md R355). -/
def pktSeq (b : List Byte) : Nat := leAt b 2 2

abbrev REJ_UTIL : Byte := 0x01
abbrev REJ_DEMAND : Byte := 0x02
abbrev REJ_PAST : Byte := 0x03
abbrev REJ_SLOT : Byte := 0x04
abbrev REJ_SHAPE : Byte := 0x05
abbrev REJ_BUDGET : Byte := 0x06
abbrev REJ_QUEUE : Byte := 0x07
abbrev REJ_FOOT : Byte := 0x08
abbrev REJ_CAP : Byte := 0x09
abbrev REJ_DET : Byte := 0x0A
abbrev REJ_FORMAT : Byte := 0x0B
abbrev REJ_PRIV : Byte := 0x0C

/-- n bytes from an offset are zero. -/
def zeros (b : List Byte) (off n : Nat) : Bool := decide (leAt b off n = 0)

/-- NBIND of a LAUNCH (13_queues.md R367). -/
def nbind (b : List Byte) : Nat := leAt b 0x11 1

/-- The reserved header and body fields of a packet are zero (13_queues.md R355, R359, R363, R365, R367, R380, R382). -/
def reservedOk (b : List Byte) : Bool :=
  decide (leAt b 1 1 / 4 = 0) && zeros b 4 4 &&
  match pktType b with
  | 0x01 =>
    let n := nbind b
    decide (leAt b 0x34 4 / 2 ^ 20 % 2 ^ 11 = 0) && (decide (8 < n) || zeros b 0x38 8)
      && zeros b (0x40 + 8 * min n 8) (64 - 8 * min n 8)
  | 0x02 => zeros b 0x11 3 && zeros b 0x25 3 && zeros b 0x30 80
  | 0x03 => zeros b 0x11 3 && zeros b 0x18 104
  | 0x04 => zeros b 0x29 7 && zeros b 0x38 72
  | 0x05 => zeros b 0x22 94
  | 0x06 => zeros b 0x10 112
  | 0x07 => zeros b 0x14 4 && zeros b 0x20 96
  | 0x08 => zeros b 0x18 104
  | 0x09 => zeros b 0x13 5 && zeros b 0x28 88
  | 0x0A => zeros b 0x13 5 && zeros b 0x30 80
  | 0x0B => zeros b 0x12 2 && zeros b 0x20 96
  | 0x0D => zeros b 0x16 2 && zeros b 0x25 3 && zeros b 0x3C 68
  | _ => true

/-- A range of an INVAL or MIGRATE packet: device half, this module, whole pages, within one OFF space
(13_queues.md R382). -/
def rangeOk (s : State) (va len : Nat) : Bool :=
  isDev va && decide (va / 2 ^ 56 % 128 = s.sys.dev.toNat ∧ va / 2 ^ 48 % 64 = 0 ∧ va % 4096 = 0 ∧ len % 4096 = 0 ∧ len ≠ 0
    ∧ offOf va + len ≤ 2 ^ 48)

/-- The largest page of an ASID's tables in a range. -/
def largestPage (h : Home) (asid hi : Nat) : Nat → Nat → Nat → Nat
  | 0, _, best => best
  | k + 1, off, best =>
    if hi ≤ off then best
    else
      match h.walk asid off with
      | .leaf l => largestPage h asid hi k (l.lo + l.size) (max best l.size)
      | _ => largestPage h asid hi k (off + 4096) best

/-- Whether two apertures overlap. -/
def aperturesMeet (v : View) (a n : Nat) : Bool := decide (v.abase < a + n ∧ a < v.abase + v.alen)

/-- The type's own field checks at decode; those of LAUNCH come with its admission (13_queues.md R356 step 4, R370, R380,
R382). -/
def fieldsOk (s : State) (b : List Byte) : Bool :=
  match pktType b with
  | 0x04 => decide (leAt b 0x10 8 % 8 = 0 ∧ leAt b 0x28 1 ≤ 5)
  | 0x05 => decide ((leAt b 0x20 1 = 4 ∨ leAt b 0x20 1 = 8) ∧ leAt b 0x21 1 ≤ 1 ∧ leAt b 0x10 8 % leAt b 0x20 1 = 0)
  | 0x08 => decide (leAt b 0x10 8 % 8 = 0)
  | 0x09 => decide (leAt b 0x12 1 ≤ 2) && rangeOk s (leAt b 0x18 8) (leAt b 0x20 8)
  | 0x0A =>
    let va := leAt b 0x18 8
    let len := leAt b 0x20 8
    decide (leAt b 0x12 1 ≤ 3) && rangeOk s va len
      && decide (leAt b 0x28 8 % largestPage (s.home (homeOf va)) (leAt b 0x10 2) (offOf va + len) (len / 4096) (offOf va) 4096 = 0)
  | 0x0B => decide (leAt b 0x10 1 ≤ 3 ∧ leAt b 0x11 1 ≤ 1 ∧ 1 ≤ leAt b 0x14 4 ∧ leAt b 0x14 4 ≤ 4096)
  | 0x0D =>
    let a := leAt b 0x18 8
    let n := leAt b 0x20 8
    decide (leAt b 0x10 1 ≤ 3 ∧ leAt b 0x11 1 ≤ 15 ∧ leAt b 0x12 1 ≤ 1 ∧ leAt b 0x13 1 ≤ 4) && isDev a
      && decide (homeOf a = leAt b 0x10 1 ∧ a / 2 ^ 56 % 128 = s.sys.dev.toNat ∧ a / 2 ^ 48 % 64 = 0 ∧ a % 4096 = 0 ∧ n % 4096 = 0
        ∧ (leAt b 0x13 1 = 1 → leAt b 0x30 4 % 64 = 0) ∧ (leAt b 0x13 1 ≠ 1 → leAt b 0x38 4 = 0))
      && !(decide (leAt b 0x12 1 = 1) && (s.home (leAt b 0x10 1)).views.any (fun p =>
            decide (p.1 ≠ leAt b 0x11 1) && p.2.valid && aperturesMeet p.2 a n))
  | _ => true

/-- Steps 1 to 3 of R356, and the type's own field checks; 0 passes (13_queues.md R356). -/
def basicReject (s : State) (q seq : Nat) (f : Fetched) : Byte :=
  let b := f.body
  if !s.serviceable { f.desc with en := (s.queue q).desc.en } || decide (s.sys.state ≠ 1 ∨ pktSeq b ≠ seq) then REJ_QUEUE
  else if decide (pktType b = 0 ∨ 0x0D < pktType b) || !reservedOk b then REJ_FORMAT
  else if [0x09, 0x0A, 0x0B, 0x0D].contains (pktType b) && !f.desc.priv then REJ_PRIV
  else 0

/-! ### Release and deadline (13_queues.md R372) -/

/-- ρ of a LAUNCH decoded now, ρ0 being given. -/
def releaseOf (d : QDesc) (now rho0 : Nat) (prev : Option Nat) : Nat :=
  match d.cls with
  | 1 =>
    let goal := match prev with
      | some p => max now (p + 1)
      | none => now
    rho0 + (goal - rho0 + d.period - 1) / d.period * d.period
  | 2 => (match prev with | some p => max now (p + d.period) | none => now)
  | _ => now

/-- D of a LAUNCH. -/
def deadlineOf (d : QDesc) (b : List Byte) (rho : Nat) : Nat := if leAt b 8 8 ≠ 0 then leAt b 8 8 else rho + d.reldl

/-! ### Admission quantities (13_queues.md R372 to R374) -/

/-- cvt: cc to ns at 1.5 GHz. -/
def cvt (x : Nat) : Nat := (2 * x + 2) / 3
/-- ⌈Bloc / 512⌉. -/
def blocCc (x : Adm) : Nat := (x.bloc + 511) / 512
/-- A_i. -/
def allowance (x : Adm) : Nat := 64 + blocCc x
/-- Crem_i. -/
def cRem (x : Adm) : Nat := cvt (x.budC + allowance x - x.usedC)
/-- K_i. -/
def kOf (x : Adm) : Nat := cvt (x.cap + x.lim + blocCc x)

/-- The admitted incomplete LAUNCHes of a partition, the running one included. -/
def State.admitted (s : State) (p : Nat) : List Adm :=
  (match s.runOf p with | some r => [r.adm] | none => []) ++ (s.part p).adms

/-- The latest admitted LAUNCH of a queue among some, by sequence numbers counted back from FIDX. -/
def latest (l : List Adm) (fidx : Nat) : Option Adm :=
  l.foldl (fun o x =>
    match o with
    | none => some x
    | some y => if (y.seq + 65536 - fidx) % 65536 < (x.seq + 65536 - fidx) % 65536 then some x else o) none

/-- One summand of the utilisation test: numerator and period. -/
def utilTerm (x : Adm) : Nat × Nat := (cvt (x.desc.capc + allowance x), x.desc.period)

/-- The utilisation test, exactly, with the allowance of each queue's most recent admitted LAUNCH (13_queues.md R373). -/
def utilOk (s : State) (p : Nat) (cap : Nat) (x : Adm) : Bool :=
  let l := s.admitted p
  let timed (y : Adm) : Bool := decide (y.desc.cls = 1 ∨ y.desc.cls = 2)
  let qs := ((l.filter timed).map (·.q)).eraseDups
  let others := (qs.filter (fun q => decide (q ≠ x.q))).filterMap (fun q =>
    ((s.queue q).recent).or (latest (l.filter (fun y => decide (y.q = q))) (s.queue q).fidx))
  let terms := (others ++ (if timed x then [x] else [])).map utilTerm
  let u := terms.foldl (fun a t => (a.1 * t.2 + t.1 * a.2, a.2 * t.2)) (0, 1)
  decide (u.1 * 65536 ≤ cap * u.2)

/-- The demand test (13_queues.md R374). -/
def demandOk (s : State) (p : Nat) (x : Adm) : Bool :=
  let l := s.admitted p ++ [x]
  l.all (fun j =>
    let need := ((l.filter (fun i => decide (i.d ≤ j.d))).map cRem).sum
    let block := ((l.filter (fun i => decide (j.d < i.d))).map kOf).foldl max 0
    decide (s.now + need + block ≤ j.d))

/-! ### The checks of a LAUNCH (13_queues.md R366 to R371) -/

/-- The first context frame of a partition that no admitted LAUNCH holds. -/
def freeFrame (s : State) (p n : Nat) : Option Nat :=
  (List.range n).find? (fun f => !(s.admitted p).any (fun x => decide (x.frame = f)))

/-- A LAUNCH as it would be admitted (13_queues.md R367, R369, R372). -/
def admOf (s : State) (q seq : Nat) (d : QDesc) (b : List Byte) (binds : List Word) (rho frame : Nat) : Adm :=
  let m := (s.slot (leAt b 0x10 1)).image
  let eff (off hdr : Nat) : Nat := if leAt b off 8 ≠ 0 then leAt b off 8 else m.le hdr 8
  { q := q, seq := seq, desc := d, slot := leAt b 0x10 1, gen := leAt b 0x14 4, d := deadlineOf d b rho, rho := rho,
    budC := eff 0x18 0x18, budB := eff 0x20 0x20, budX := eff 0x28 0x28,
    lim := if leAt b 0x30 4 ≠ 0 then leAt b 0x30 4 else imgCap m, cap := imgCap m, bloc := imgBloc m, pgid := leAt b 0x12 2,
    pasid := if bit (leAt b 0x34 4) 31 then some (leAt b 0x34 4 % 2 ^ 20) else none, binds := binds, frame := frame,
    started := false, preempted := false, replayed := false, remC := eff 0x18 0x18, remB := eff 0x20 0x20,
    remX := eff 0x28 0x28, usedC := 0, usedB := 0, usedX := 0, next := none }

/-- The bind registers of a LAUNCH from its packet and the bytes behind BINDX. -/
def bindsOf (b ext : List Byte) : List Word :=
  (List.range (min (nbind b) 8)).map (fun i => BitVec.ofNat 64 (leAt b (0x40 + 8 * i) 8))
    ++ (List.range (nbind b - 8)).map (fun i => BitVec.ofNat 64 (leAt ext (8 * i) 8))

/-- The checks of R370 in order: 0 admits (13_queues.md R366 to R374). -/
def launchReject (s : State) (d : QDesc) (b : List Byte) (ext : Option (List Byte)) (x : Adm) : Byte :=
  let sl := s.slot x.slot
  let m := sl.image
  let p := d.part
  let pd := s.pdesc p
  if !sl.valid || decide (sl.gen ≠ x.gen ∨ sl.asid ≠ d.asid) then REJ_SLOT
  else if decide (0x800000 < 4 * imgPool m) || decide ((diesOf pd.dmask).length < imgDies m)
      || (!imgDet m && decide (((diesOf pd.dmask).flatMap s.usableIn).length < imgCores m)) then REJ_SHAPE
  else if (formStand s pd m).isNone then REJ_DET
  else if decide (d.capc < x.budC ∨ d.capb < x.budB ∨ d.capx < x.budX ∨ x.budC = 0) then REJ_BUDGET
  else if ext.isNone || footBad s m (nbind b) x.pgid x.pasid x.binds d.replayable then REJ_FOOT
  else if x.d ≤ s.now then REJ_PAST
  else if decide (64 ≤ (s.admitted p).length) || (freeFrame s p pd.nframe).isNone then REJ_CAP
  else if !utilOk s p pd.admcap x then REJ_UTIL
  else if !demandOk s p x then REJ_DEMAND
  else 0

end Sys2Proof.Machine
end

