-- ==== Sys2Proof/Machine/Queue.lean ====
section
/-! DEFINITION. Queues: wake words, fetch, decode, the packets and their completion entries (13_queues.md R352 to R366,
R380 to R384; 11_translation.md R315 to R320). -/

namespace Sys2Proof.Machine

/-! ### Reads of the command processor -/

/-- The outcome of a read that may have to wait. -/
inductive CRead where
  | ok (l : List Byte)
  | wait
  | fail
  deriving DecidableEq, Repr

/-- A read on behalf of a packet or a ring: a page that is not present holds it; an unresolvable fault and an uncorrectable error
send their events (11_translation.md R307, R308; 13_queues.md R354, R364, R380; 14_system.md R405). -/
def pktRead (s : State) (o : Origin) (asid a n : Nat) : State × CRead :=
  if s.pending o then (s, .wait)
  else
    match s.look asid a n with
    | .ok l => (s, .ok l)
    | .absent y => (holdAt s o asid y, .wait)
    | .fail y => ((accessMain s (cpReq o asid (.read 1) y) none).1, .fail)
    | .wait => (s, .wait)

/-- The issuer of a queue's accesses to its own rings and wake word. -/
def ringOf (q : Nat) : Origin := .pkt (q + 4096)

/-- A write to a queue's completion ring: a page that is not present holds it as a read is held; it counts once it is performed
(13_queues.md R354, R360). -/
def ringWrite (s : State) (q asid a : Nat) (l : List Byte) : State × CRead :=
  let r := s.fix (cpReq (ringOf q) asid (.write l) a)
  if s.pending (ringOf q) then (s, .wait)
  else
    match ((s.routes r none true).filterMap id).find? (fun x => !x.ok) with
    | some (.absent _ y) => (holdAt s (ringOf q) asid y, .wait)
    | some (.fail h) => (s.reqEvent h r, .fail)
    | some _ => (s, .wait)
    | none =>
      let x := accessMain s r none
      match x.2 with
      | .done _ _ _ => (x.1, .ok [])
      | .fail _ => (x.1, .fail)
      | .waiting => (x.1, .wait)
      | _ => (s, .wait)

/-- A field of queue q's descriptor written by the device (13_queues.md R352). -/
def writeDesc (s : State) (q off : Nat) (l : List Byte) : State := s.send (s.qAddr q + off) l

/-- QFL of a descriptor with EN = 0 (13_queues.md R352). -/
def QDesc.flags (d : QDesc) : Byte := flagIf d.killLate 2 ||| flagIf d.replayable 4 ||| flagIf d.priv 8 ||| flagIf d.dbg 16

/-- EN of a queue is cleared; its other flags stay, as they stand in memory or were read last (13_queues.md R354, R355). -/
def clearEn (s : State) (q : Nat) : State :=
  let b : List Byte := match (s.look 0 (s.qAddr q + 0x1F) 1).get? with
    | some [x] => [x &&& 0xFE]
    | _ => [(s.queue q).desc.flags]
  let t := writeDesc s q 0x1F b
  t.setQueue q { t.queue q with desc := { (t.queue q).desc with en := false } }

/-- A queue whose ring or wake word cannot be translated loses EN and stops: its packets stay in the ring
(13_queues.md R354). -/
def stopQueue (s : State) (q : Nat) : State :=
  let t := clearEn s q
  t.setQueue q { t.queue q with stopped := true }

/-- The descriptor is read again when EN goes to 1; a read that has to wait leaves it as it was read last, one that fails gives a
descriptor of zeros (13_queues.md R353, R372; 14_system.md R405). -/
def refresh (s0 : State) (q : Nat) : State :=
  let x := s0.look 0 (s0.qAddr q) 64
  let s := s0.noteRead x
  let k := s.queue q
  match x with
  | .absent _ | .wait => s
  | _ =>
    let d := s0.qdesc q
    if d.en && !k.desc.en then s.setQueue q { k with desc := d, rho0 := none, prevRho := none, stopped := false, cstop := false }
    else if !d.en && k.desc.en then s.setQueue q { k with desc := { k.desc with en := false } }
    else s

/-- The wake word of a queue whose EN is 0, by its descriptor as it stands: its packets will be rejected; one that cannot be
translated is held or faults as another queue's is, and EN is 0 already (13_queues.md R353, R354). -/
def readWakeOff (s : State) (q : Nat) : State :=
  let d := s.qdesc q
  if (s.queue q).stopped ∨ d.asid = 0 then s
  else
    let x := pktRead s (ringOf q) d.asid d.wake 8
    match x.2 with
    | .ok l => x.1.setQueue q { x.1.queue q with desc := { d with en := false }, producer := leAt l 0 2 }
    | .wait => x.1
    | .fail => x.1.setQueue q { x.1.queue q with stopped := true }

/-- The producer index is read afresh (13_queues.md R354). -/
def readWake (s : State) (q : Nat) : State :=
  let s := refresh s q
  let k := s.queue q
  if k.desc.en then
    let x := pktRead s (ringOf q) k.desc.asid k.desc.wake 8
    match x.2 with
    | .ok l => x.1.setQueue q { x.1.queue q with producer := leAt l 0 2 }
    | .wait => x.1
    | .fail => stopQueue x.1 q
  else readWakeOff s q

/-- WAKE_WORD_WRITE (13_queues.md R354): of queue obj. -/
def execWakeWordWrite (s : State) : Res := .next (readWake s s.obj)

/-- The twig core that serves a queue: q mod 6, or the next that works (13_queues.md R349). -/
def State.twigOf (s : State) (q : Nat) : Option Nat :=
  ((List.range 6).map (fun i => (q + i) % 6)).find? (fun t => !SMap.get s.sys.twigs false t)

/-! ### Fetch and decode (13_queues.md R356 to R358) -/

/-- The sequence number of the next packet to fetch. -/
def Queue.nextSeq (k : Queue) : Nat := (k.fidx + k.fetched.length) % 65536

/-- Whether that packet is available (13_queues.md R354). -/
def Queue.available (k : Queue) : Bool :=
  let n := (k.producer + 65536 - k.nextSeq) % 65536
  decide (1 ≤ n ∧ n ≤ 2 ^ k.desc.log2n)

/-- Whether an FFENCE holds the fetch: a packet before it has not completed (13_queues.md R358). -/
def Queue.fenced (k : Queue) : Bool :=
  ((k.pkts.map (fun p => pktType p.body) ++ k.fetched.map (fun p => pktType p.body)).drop 1).any (fun t => decide (t = 0x06))

/-- Packets fetched beyond the one that is running (13_queues.md R356). -/
def Queue.ahead (k : Queue) : Nat :=
  k.fetched.length + k.pkts.length - (match k.pkts with | p :: _ => if p.started then 1 else 0 | [] => 0)

/-- PACKET_FETCH (13_queues.md R356): the next packet of queue obj. -/
def execPacketFetch (s : State) : Res :=
  .next (let s := refresh s s.obj
    let k := s.queue s.obj
    if s.sys.state ≠ 0 ∧ k.stopped = false ∧ k.available = true ∧ k.fenced = false ∧ k.ahead < 8 ∧ (s.twigOf s.obj).isSome = true then
      let n := k.nextSeq
      let x := pktRead s (ringOf s.obj) k.desc.asid (k.desc.pring + 128 * (n % 2 ^ k.desc.log2n)) 128
      (match x.2 with
       | .ok l => x.1.setQueue s.obj { x.1.queue s.obj with fetched := k.fetched ++ [⟨n, l, k.desc⟩] }
       | .wait => x.1
       | .fail => stopQueue x.1 s.obj)
    else s)

/-- Whether an earlier slot change of the queue keeps decoding waiting (13_queues.md R357). -/
def Queue.slotChange (k : Queue) : Bool := k.pkts.any (fun p => decide (pktType p.body = 2 ∨ pktType p.body = 3))

/-- A decoded packet. -/
def newPkt (f : Fetched) (rej : Byte) (dline : Nat) : Pkt where
  seq := f.seq
  body := f.body
  desc := f.desc
  rej := rej
  started := false
  startDtc := 0
  status := if rej = 0 then none else some 0x05
  cfl := 0
  cause := 0
  exitw := 0
  aflb := 0
  usedC := 0
  usedB := 0
  usedX := 0
  result := 0
  dline := dline
  acks := []
  failed := false
  image := none
  since := none
  old := none

/-- The first free place of the journal (13_queues.md R384). -/
def State.freePlace (s : State) : Nat := ((List.range 8192).find? (fun k => !s.journal.any (fun r => decide (r.place = k)))).getD 0

/-- A journal record as it is written before FIDX advances: none where its home cannot take it yet, or where the journal has not
been placed; in the recovery state, where main memory is not trained, it waits in the network (13_queues.md R384; 14_system.md
R401). -/
def State.record (s : State) (r : JRec) : Option State :=
  let t : State := { s with journal := s.journal ++ [r] }
  if s.sys.state = 2 then some (t.putRec r.place r.bytes)
  else if isDev s.sys.jrnl.toNat then t.poke (s.sys.jrnl.toNat + 256 * r.place) r.bytes
  else none

/-- The decoded packet is journalled, what was decided about it takes effect, FIDX advances, and the packet joins its queue; d and
rho are those of a LAUNCH whose D was fixed; none where the journal record has to wait (13_queues.md R356, R384). -/
def acceptPkt (s : State) (q : Nat) (f : Fetched) (rej : Byte) (d rho : Nat) (x : Option Adm) (decide' : State → State) :
    Option State :=
  (s.record ⟨s.freePlace, q, f.seq, f.body, rej, d, rho, x, false, false, decide (rej ≠ 0)⟩).map (fun t =>
    let u := decide' t
    let k := u.queue q
    writeDesc (u.setQueue q { k with fidx := (k.fidx + 1) % 65536, fetched := k.fetched.drop 1, pkts := k.pkts ++ [newPkt f rej d] })
      q 0x2A (leBytes 2 ((k.fidx + 1) % 65536)))

/-- Whether the Canopy unit may decide a candidate now: it decides one in each fabric cycle (13_queues.md R375; log entry 84). -/
def State.turnOf (s : State) : Bool := decide (s.sys.decided ≤ s.fabric)

/-- A LAUNCH is decoded: ρ and D are fixed, the checks of R370 are made, and it is admitted or rejected (13_queues.md R367, R370,
R372, R375); none where it has to wait. -/
def decodeLaunch (s : State) (q : Nat) (f : Fetched) : Option State :=
  let k := s.queue q
  let b := f.body
  let d := f.desc
  let look := if nbind b ≤ 8 ∨ 16 < nbind b then .ok [] else s.look d.asid (leAt b 0x38 8) (8 * (nbind b - 8))
  match look with
  | .wait => none
  | _ =>
    let s0 := match look with
      | .fail y => (accessMain s (cpReq (ringOf q) d.asid (.read 1) y) none).1
      | _ => s
    let rho0 := k.rho0.getD s.now
    let rho := releaseOf d s.now rho0 k.prevRho
    let frame := (freeFrame s d.part (s.pdesc d.part).nframe).getD 0
    let x := admOf s q f.seq d b (bindsOf b (look.get?.getD [])) rho frame
    let rej := if 16 < nbind b then REJ_FORMAT else launchReject s d b look.get? x
    acceptPkt s0 q f rej x.d rho (if rej = 0 then some x else none) (fun t =>
      let u := ({ t with sys := { t.sys with decided := s.fabric + 1 } } : State).setQueue q
        { t.queue q with rho0 := some rho0, prevRho := if rej = 0 then some rho else k.prevRho,
                         recent := if rej = 0 then some x else k.recent }
      if rej = 0 then
        u.setPart d.part { u.part d.part with desc := some (s.pdesc d.part), adms := (u.part d.part).adms ++ [x] }
      else u)

/-- What keeps a packet's checks from being made: a descriptor of its partition, or of one below, that cannot be read yet, or a page
table of a MIGRATE's range with a held write (11_translation.md R325; 13_queues.md R350, R382). -/
def State.checksWait (s : State) (f : Fetched) : Bool :=
  decide (s.sys.state = 1) && ((s.partLooks f.desc.part).any (·.waits)
    || (decide (pktType f.body = 0x0A) && (let h := s.home (homeOf (leAt f.body 0x18 8)); h.tables.any h.leafHeld)))

/-- The oldest fetched packet f of queue q decoded; none where it has to wait (13_queues.md R356). -/
def decodePkt (s : State) (q : Nat) (f : Fetched) : Option State :=
  let r0 := basicReject s q f.seq f
  if r0 ≠ 0 then acceptPkt s q f r0 0 0 none id
  else if !fieldsOk s f.body then acceptPkt s q f REJ_FORMAT 0 0 none id
  else if pktType f.body = 0x01 then (if s.turnOf then decodeLaunch s q f else none)
  else acceptPkt s q f 0 0 0 none id

/-- PACKET_DECODE (13_queues.md R356, R357, R384): the oldest fetched packet of queue obj, while no take-over is in progress,
no earlier slot change of the queue waits, the queue is not stopped, and the journal has a free record. -/
def execPacketDecode (s : State) : Res :=
  .next (let s := refresh s s.obj
    let k := s.queue s.obj
    match k.fetched with
    | f :: _ =>
      if s.sys.takeover = false ∧ k.slotChange = false ∧ k.stopped = false ∧ s.journal.length < 8192 then
        let t := (s.partLooks f.desc.part).foldl State.noteRead s
        if s.checksWait f then t else (decodePkt t s.obj f).getD s
      else s
    | [] => s)

/-! ### Packets in their queue -/

/-- The packet of a type that may run: the head of queue q, not complete, main memory being trained (13_queues.md R357;
14_system.md R401). -/
def State.running (s : State) (q ty : Nat) : Option Pkt :=
  match (s.queue q).pkts with
  | p :: _ => if p.status = none ∧ pktType p.body = ty ∧ s.sys.state ≠ 2 then some p else none
  | [] => none

/-- A packet starts (13_queues.md R384). -/
def startPkt (s : State) (q : Nat) (p : Pkt) : State :=
  if p.started then s
  else (s.setPkt q p.seq (fun k => { k with started := true, startDtc := s.now })).setRec q p.seq (fun r => { r with started := true })

/-- A packet completes with a status. -/
def endPkt (s : State) (q : Nat) (p : Pkt) (st : Byte) : State :=
  (s.setPkt q p.seq (fun k => { k with status := some st })).setRec q p.seq (fun r => { r with complete := true })

/-- A packet completes REJECTED after its decode (13_queues.md R364, R365, R380). -/
def rejectPkt (s : State) (q : Nat) (p : Pkt) (rej : Byte) : State :=
  (s.setPkt q p.seq (fun k => { k with status := some 0x05, rej := rej })).setRec q p.seq
    (fun r => { r with complete := true, rej := rej })

/-- FFENCE (13_queues.md R358, R359): at the head of queue obj. -/
def execFfence (s : State) : Res :=
  .next (match s.running s.obj 0x06 with
    | some p => endPkt (startPkt s s.obj p) s.obj p 0
    | none => s)

/-- NOP (13_queues.md R359). -/
def execNop (s : State) : Res :=
  .next (match s.running s.obj 0x0C with
    | some p => endPkt (startPkt s s.obj p) s.obj p 0
    | none => s)

/-! ### Stream-ordered packets (13_queues.md R380, R381) -/

/-- The condition of a WAITV on the masked word. -/
def waitvHolds (op : Nat) (v value : Word) : Bool :=
  match op with
  | 0 => decide (v = value)
  | 1 => decide (v ≠ value)
  | 2 => decide (value.toInt ≤ v.toInt)
  | 3 => decide (value.toInt < v.toInt)
  | 4 => decide (value.toNat ≤ v.toNat)
  | _ => decide (value.toNat < v.toNat)

/-- The time-out of a packet: none for 0. -/
def timeLeft (p : Pkt) (tmo now : Nat) : Bool := decide (tmo = 0 ∨ now ≤ p.startDtc + tmo)

/-- One evaluation of a WAITV (13_queues.md R381). -/
def evalWaitv (s : State) (q : Nat) (p : Pkt) : State :=
  if p.failed then rejectPkt s q p REJ_FOOT
  else
    let x := pktRead s (.pkt q) p.desc.asid (leAt p.body 0x10 8) 8
    match x.2 with
    | .ok l =>
      let v : Word := BitVec.ofNat 64 (ofLe l) &&& BitVec.ofNat 64 (leAt p.body 0x18 8)
      let t := x.1.setPkt q p.seq (fun k => { k with result := v })
      if waitvHolds (leAt p.body 0x28 1) v (BitVec.ofNat 64 (leAt p.body 0x20 8)) && timeLeft p (leAt p.body 0x30 8) s.now then
        endPkt t q p 0
      else t
    | .wait => x.1
    | .fail => rejectPkt x.1 q p REJ_FOOT

/-- WAITV (13_queues.md R381): at the head of queue obj it starts, with its first evaluation. -/
def execWaitv (s : State) : Res :=
  .next (match s.running s.obj 0x04 with
    | some p => if p.started then s else evalWaitv (startPkt s s.obj p) s.obj { p with started := true, startDtc := s.now }
    | none => s)

/-- WAITV_EVALUATE (13_queues.md R381). -/
def execWaitvEvaluate (s : State) : Res :=
  .next (match s.running s.obj 0x04 with
    | some p => if p.started then evalWaitv s s.obj p else s
    | none => s)

/-- WAITV_REREAD (13_queues.md R381): of a host-half word. -/
def execWaitvReread (s : State) : Res :=
  .next (match s.running s.obj 0x04 with
    | some p => if p.started && !isDev (leAt p.body 0x10 8) then evalWaitv s s.obj p else s
    | none => s)

/-- WAITV_TIMEOUT (13_queues.md R381): an evaluation at the limit that holds still gives DONE. -/
def execWaitvTimeout (s : State) : Res :=
  .next (match s.running s.obj 0x04 with
    | some p =>
      let tmo := leAt p.body 0x30 8
      if p.started = true ∧ tmo ≠ 0 ∧ p.startDtc + tmo ≤ s.now then
        let t := evalWaitv s s.obj p
        (match t.running s.obj 0x04 with
         | some p' => endPkt t s.obj p' 0x07
         | none => t)
      else s
    | none => s)

/-- A packet's write goes to its home; the packet completes, and its record with it, once nothing of it is outstanding
(13_queues.md R360, R380, R384). -/
def pktWrite (s : State) (q : Nat) (p : Pkt) (kind : RKind) (a : Nat) (result : Word) : State :=
  let t := startPkt s q p
  let x := accessMain t (cpReq (.pkt q) p.desc.asid kind a) none
  match x.2 with
  | .stall => s
  | .fail _ => rejectPkt x.1 q p REJ_FOOT
  | _ =>
    let there := !(x.1.pending (.pkt q))
    (x.1.setPkt q p.seq (fun k => { k with status := some 0, result := result })).setRec q p.seq
      (fun k => { k with performed := there, complete := there })

/-- WRITEV_STORE (13_queues.md R381): OP 0 at the head of queue obj. -/
def execWritevStore (s : State) : Res :=
  .next (match s.running s.obj 0x05 with
    | some p =>
      if p.started = false ∧ leAt p.body 0x21 1 = 0 then
        pktWrite s s.obj p (.write (leBytes (leAt p.body 0x20 1) (leAt p.body 0x18 8))) (leAt p.body 0x10 8) 0
      else s
    | none => s)

/-- WRITEV_ADD (13_queues.md R381): OP 1, an atomic add modulo 2^(8·SIZE). -/
def execWritevAdd (s : State) : Res :=
  .next (match s.running s.obj 0x05 with
    | some p =>
      if p.started = false ∧ leAt p.body 0x21 1 = 1 then
        pktWrite s s.obj p (.atomic (leAt p.body 0x20 1) 0 (BitVec.ofNat 64 (leAt p.body 0x18 8))) (leAt p.body 0x10 8) 0
      else s
    | none => s)

/-- TIMESTAMP (13_queues.md R381). -/
def execTimestamp (s : State) : Res :=
  .next (match s.running s.obj 0x08 with
    | some p =>
      if p.started then s
      else pktWrite s s.obj p (.write (leBytes 8 s.now)) (leAt p.body 0x10 8) (BitVec.ofNat 64 s.now)
    | none => s)

/-- Whether a queue has written the completion entry of a sequence number (13_queues.md R381).  DESIGN CHOICE (log entry 94): of a
queue above 4,095, which the spec leaves open, the condition never holds. -/
def dependHolds (s : State) (p : Pkt) : Bool :=
  let q := leAt p.body 0x10 2
  decide (q < 4096) && decide (((s.queue q).cidx + 2 * 65536 - 1 - leAt p.body 0x12 2) % 65536 < 32768)

/-- DEPEND (13_queues.md R381): at the head of queue obj it starts, with its first evaluation. -/
def execDepend (s : State) : Res :=
  .next (match s.running s.obj 0x07 with
    | some p =>
      if p.started then s
      else
        let t := startPkt s s.obj p
        if dependHolds s p then endPkt t s.obj p 0 else t
    | none => s)

/-- DEPEND_EVALUATE (13_queues.md R381). -/
def execDependEvaluate (s : State) : Res :=
  .next (match s.running s.obj 0x07 with
    | some p =>
      if p.started && dependHolds s p && timeLeft p (leAt p.body 0x18 8) s.now then endPkt s s.obj p 0 else s
    | none => s)

/-- DEPEND_TIMEOUT (13_queues.md R381): completion wins at the limit. -/
def execDependTimeout (s : State) : Res :=
  .next (match s.running s.obj 0x07 with
    | some p =>
      let tmo := leAt p.body 0x18 8
      if p.started = true ∧ tmo ≠ 0 ∧ p.startDtc + tmo ≤ s.now then
        endPkt s s.obj p (if dependHolds s p && timeLeft p tmo s.now then 0 else 0x07)
      else s
    | none => s)

/-! ### Slots (13_queues.md R363 to R365) -/

/-- Whether an admitted incomplete LAUNCH names a slot. -/
def State.slotInUse (s : State) (n : Nat) : Bool :=
  s.parts.any (fun p => (s.admitted p.1).any (fun x => decide (x.slot = n)))

/-- Locked translations that no valid slot's weight region needs are released (11_translation.md R300). -/
def releaseLocks (s : State) : State :=
  let kept (e : Nat) (x : Tlb) : Bool := !x.locked || s.slots.any (fun p =>
    p.2.valid && decide (p.2.asid = x.asid) && p.2.regions.any (fun r =>
      decide (homeOf r.1 = e ∧ offOf r.1 < x.lo + x.size ∧ x.lo < offOf r.1 + r.2)))
  (List.range 4).foldl (fun t e => t.setHome e { t.home e with tlb := (t.home e).tlb.filter (kept e) }) s

/-- Instruction memories no longer hold a slot's image (13_queues.md R365). -/
def forgetCode (s : State) (n : Nat) : State :=
  { s with cores := s.cores.filterMap (fun (p : Nat × Core) =>
      let c : Core := { p.2 with codeGen := p.2.codeGen.filter (fun g => decide (g.1 ≠ n)) }
      if c = Core.idle then none else some (p.1, c)) }

/-- Whether a page of a weight region cannot be walked yet: it lies in a migration hold, or a table of it has a held write
(11_translation.md R319, R325). -/
def weightsWait (s : State) (asid lo hi : Nat) : Bool :=
  (List.range ((hi - lo) / 4096)).any (fun k => match s.xlat asid (lo + 4096 * k) true false none with
    | .frozen _ | .behind => true
    | _ => false)

/-- The pinned leaves behind a weight region: none where a page is not present, lacks PIN or RD, or faults (13_queues.md
R364 step 4). -/
def weightLeaves (s : State) (asid hi : Nat) : Nat → Nat → Option (List (Nat × Leaf))
  | 0, _ => some []
  | k + 1, a =>
    if hi ≤ a then some []
    else
      match s.xlat asid a true false none with
      | .dev e _ true =>
        (match (s.home e).walk asid (offOf a) with
         | .leaf l =>
           if l.rd && l.pin then (weightLeaves s asid hi k (a + (l.lo + l.size - offOf a))).map ((e, l) :: ·) else none
         | _ => none)
      | _ => none

/-- Whether the pools of the homes of walked pages hold the chunks of their pinned leaves, the Clearing engine having taken what it
needs; none where a pool cannot (11_translation.md R321, R322, R324; 13_queues.md R364 step 5). -/
def pinRegions (s : State) (l : List (Nat × Leaf)) : Option State :=
  (List.range 4).foldl (fun (o : Option State) e => o.bind (fun t =>
    let h := t.home e
    if !l.any (fun p => decide (p.1 = e)) ∨ h.used ≤ Config.poolChunks then some t
    else
      let h1 := h.inflate 1 h.balloon.length
      if h1.used ≤ Config.poolChunks then some (t.setHome e h1) else none)) (some s)

/-- The translations of walked pages locked (11_translation.md R300).  DESIGN CHOICE (log entry 91): locked translations are added
also where they go beyond the 65,536 entries. -/
def lockLeaves (s : State) (asid : Nat) (l : List (Nat × Leaf)) : State :=
  l.foldl (fun (t : State) p =>
    let h := t.home p.1
    t.setHome p.1 { h with tlb := { p.2.tlb asid with locked := true } :: h.tlb }) s

/-- Steps 3 to 5 of R364 and the load, for an image and a table that have been read; a region that cannot be walked yet keeps the
packet waiting.  DESIGN CHOICE (log entry 96): more than 64 regions, or a region that is misaligned or empty, fail step 3. -/
def loadSlot (s : State) (q : Nat) (p : Pkt) (image table : List Byte) : State :=
  let b := p.body
  let n := leAt b 0x10 1
  let asid := p.desc.asid
  let m := Mem.writeL [] 0 image
  let regions := (List.range (leAt b 0x24 1)).map (fun i => (leAt table (16 * i) 8, leAt table (16 * i + 8) 8))
  let bad := decide (64 < leAt b 0x24 1 ∨ leAt b 0x20 4 < 128 ∨ 0x400000 < leAt b 0x20 4 ∨ leAt b 0x20 4 ≠ imgLen m)
    || imageBad m || regions.any (fun r => decide (r.1 % 4096 ≠ 0 ∨ r.2 % 4096 ≠ 0 ∨ r.2 = 0))
  if bad then rejectPkt s q p REJ_FORMAT
  else if regions.any (fun r => weightsWait s asid r.1 (r.1 + r.2)) then s
  else
    let walks := regions.map (fun r => weightLeaves s asid (r.1 + r.2) (r.2 / 4096 + 1) r.1)
    if walks.any (·.isNone) then rejectPkt s q p REJ_FOOT
    else
      let leaves := walks.flatMap (fun w => w.getD [])
      match pinRegions s leaves with
      | none =>
        let since := p.since.getD s.now
        let limit := (leaves.map (fun x => (s.home x.1).holdNs)).foldl max 0
        if since + limit < s.now then rejectPkt s q p REJ_CAP
        else s.setPkt q p.seq (fun k => { k with since := some since })
      | some t =>
        let t1 := (forgetCode t n).setSlot n ⟨true, leAt b 0x14 4, asid, m, leAt b 0x20 4, regions, []⟩
        endPkt (lockLeaves (releaseLocks t1) asid leaves) q p 0

/-- The table of a SLOTLOAD whose image has been read is read, and the rest follows (13_queues.md R364). -/
def loadTable (s : State) (q : Nat) (p : Pkt) (image : List Byte) : State :=
  let y := pktRead s (.pkt q) p.desc.asid (leAt p.body 0x28 8) (16 * min (leAt p.body 0x24 1) 64)
  match y.2 with
  | .wait => y.1
  | .fail => rejectPkt y.1 q p REJ_FOOT
  | .ok table => loadSlot y.1 q p image table

/-- SLOTLOAD (13_queues.md R364): at the head of queue obj; a page of the image or of the table that is not present keeps it
waiting, with the image as it was read. -/
def execSlotload (s : State) : Res :=
  .next (match s.running s.obj 0x02 with
    | some p =>
      let q := s.obj
      let b := p.body
      let n := leAt b 0x10 1
      let sl := s.slot n
      let t := startPkt s q p
      if leAt b 0x14 4 = 0 ∨ leAt b 0x14 4 = sl.gen ∨ s.slotInUse n = true ∨ (sl.valid = true ∧ sl.asid ≠ p.desc.asid) then
        rejectPkt t q p REJ_SLOT
      else if p.failed then rejectPkt t q p REJ_FOOT
      else
        match p.image with
        | some image => loadTable t q p image
        | none =>
          let x := pktRead t (.pkt q) p.desc.asid (leAt b 0x18 8) (min (leAt b 0x20 4) 0x400000)
          match x.2 with
          | .wait => x.1
          | .fail => rejectPkt x.1 q p REJ_FOOT
          | .ok image => loadTable (x.1.setPkt q p.seq (fun k => { k with image := some image })) q p image
    | none => s)

/-- SLOTDROP (13_queues.md R365): at the head of queue obj. -/
def execSlotdrop (s : State) : Res :=
  .next (match s.running s.obj 0x03 with
    | some p =>
      let n := leAt p.body 0x10 1
      let sl := s.slot n
      let t := startPkt s s.obj p
      if sl.valid = false ∨ sl.gen ≠ leAt p.body 0x14 4 ∨ sl.asid ≠ p.desc.asid ∨ s.slotInUse n = true then
        rejectPkt t s.obj p REJ_SLOT
      else endPkt (releaseLocks ((forgetCode t n).setSlot n { sl with valid := false })) s.obj p 0
    | none => s)

/-! ### Memory-management packets (13_queues.md R382, R383; 11_translation.md R315 to R320) -/

/-- The range of an INVAL or MIGRATE packet: ASID, home, OFF range and VA range. -/
structure MmRange where
  asid : Nat
  home : Nat
  lo : Nat
  hi : Nat
  va : Nat
  vaHi : Nat
  deriving DecidableEq, Repr

/-- The range that a packet names. -/
def mmRange (b : List Byte) : MmRange :=
  let va := leAt b 0x18 8
  ⟨leAt b 0x10 2, homeOf va, offOf va, offOf va + leAt b 0x20 8, va, va + leAt b 0x20 8⟩

/-- INVAL_INVALIDATE (11_translation.md R315): at the head of queue obj; the home accepts, and removes what it has cached
and any forwarding entry.  DESIGN CHOICE (log entry 92): one that it overlaps in part goes whole. -/
def execInvalInvalidate (s : State) : Res :=
  .next (match s.running s.obj 0x09 with
    | some p =>
      if p.started = false ∧ leAt p.body 0x12 1 = 0 then
        let g := mmRange p.body
        let t := startPkt s s.obj p
        let h := t.home g.home
        let t1 := t.setHome g.home { h with
          tlb := h.tlb.filter (fun x => !decide (x.asid = g.asid ∧ x.lo < g.hi ∧ g.lo < x.lo + x.size)),
          walks := h.walks.filter (fun x => !decide (x.asid = g.asid ∧ x.lo < g.hi ∧ g.lo < x.lo + x.size)),
          migs := h.migs.filter (fun f => !(f.published && decide (f.asid = g.asid ∧ f.lo < g.hi ∧ g.lo < f.hi))) }
        t1.setPkt s.obj p.seq (fun k => { k with acks := [g.home] })
      else s
    | none => s)

/-- Whether requests of a range that were translated before are all performed: none waits in an expansion hold buffer or a queue of
forwarded requests, at its home or where a migration took it (11_translation.md R315, R317, R319). -/
def drained (s : State) (g : MmRange) : Bool :=
  let hit (r : Req) : Bool := r.touches g.asid g.va g.vaHi
  (List.range 4).all (fun e =>
    !(s.home e).exph.any (fun x => match x.req with | some r => hit r | none => false) && !(s.home e).fwded.any (fun f => hit f.req))

/-- An INVAL completes, and the ingress filters that its range touches are formed anew (11_translation.md R318). -/
def endInval (s : State) (q : Nat) (p : Pkt) : State :=
  let g := mmRange p.body
  endPkt (reform s g.asid g.va g.vaHi) q p 0

/-- INVAL_ACKNOWLEDGE (11_translation.md R315): home h acknowledges the INVAL at the head of queue obj. -/
def execInvalAcknowledge (h : Nat) (s : State) : Res :=
  .next (match s.running s.obj 0x09 with
    | some p =>
      if p.acks.contains h = true ∧ drained s (mmRange p.body) = true then
        let left := p.acks.filter (fun x => decide (x ≠ h))
        let t := s.setPkt s.obj p.seq (fun k => { k with acks := left })
        if left.isEmpty then endInval t s.obj p else t
      else s
    | none => s)

/-- The pages of a range that recorded requests of a home name. -/
def recordedPages (s : State) (g : MmRange) : List Nat :=
  let h := s.home g.home
  ((h.slog ++ h.held).flatMap (fun r =>
    if r.asid = g.asid then (r.targets.filterMap id).filterMap (fun a => if g.va ≤ a ∧ a < g.vaHi then some (a / 4096) else none)
    else [])).eraseDups

/-- INVAL_RETRY (11_translation.md R311; 13_queues.md R383): page by page. -/
def execInvalRetry (s : State) : Res :=
  .next (match s.running s.obj 0x09 with
    | some p =>
      if p.started = false ∧ leAt p.body 0x12 1 = 1 then
        let g := mmRange p.body
        let t := (recordedPages s g).foldl (fun (t : State) n =>
          retryAt t g.home (fun r => r.touches g.asid (4096 * n) (4096 * n + 4096))) (startPkt s s.obj p)
        endInval t s.obj p
      else s
    | none => s)

/-- INVAL_FAIL (13_queues.md R383): the recorded requests of the range are unresolvable; a queue whose own ring or wake word
is among them loses EN (13_queues.md R354). -/
def execInvalFail (s : State) : Res :=
  .next (match s.running s.obj 0x09 with
    | some p =>
      if p.started = false ∧ leAt p.body 0x12 1 = 2 then
        let g := mmRange p.body
        let hit (r : Req) : Bool := r.touches g.asid g.va g.vaHi
        let rings := ((s.home g.home).held.filter hit).filterMap (fun r =>
          match r.org with | .pkt k => if 4096 ≤ k ∧ k < 8192 then some (k - 4096) else none | _ => none)
        let t := failAt (startPkt s s.obj p) g.home hit
        endInval (rings.foldl stopQueue t) s.obj p
      else s
    | none => s)

/-- MIGRATE (11_translation.md R319 step 1): at the head of queue obj; the range freezes at its old home. -/
def execMigrate (s : State) : Res :=
  .next (match s.running s.obj 0x0A with
    | some p =>
      if p.started then s
      else
        let g := mmRange p.body
        let t := startPkt s s.obj p
        let h := t.home g.home
        t.setHome g.home { h with migs := ⟨g.asid, g.lo, g.hi, leAt p.body 0x12 1, leAt p.body 0x28 8, false, s.obj⟩ :: h.migs }
    | none => s)

/-- Held requests of a cancelled migration are performed at the old frames in arrival order; one that has to wait goes back to
the network (11_translation.md R319). -/
def releaseHeld (s : State) (l : List Req) : State :=
  l.foldl (fun (t : State) r =>
    let x := accessMain t r none
    match x.2 with
    | .stall => { t with air := t.air ++ [⟨r.prio, .req r⟩] }
    | _ => deliver x.1 r x.2) s

/-- The requests of a range in a home's migration hold. -/
def heldIn (s : State) (g : MmRange) : List Req := (s.home g.home).mighold.filter (fun r => r.touches g.asid g.va g.vaHi)

/-- s with a migration's entry and its held requests taken out of the old home. -/
def unfreeze (s : State) (g : MmRange) (q : Nat) : State :=
  let h := s.home g.home
  s.setHome g.home { h with
    migs := h.migs.filter (fun f => !decide (f.q = q ∧ f.published = false)),
    mighold := h.mighold.filter (fun r => !r.touches g.asid g.va g.vaHi) }

/-- One 4 KiB page copied to its new frame; none where chunks are wanting (11_translation.md R319 step 3, R322). -/
def copyPage (src : State) (g : MmRange) (dhome dppa : Nat) (t : State) (k : Nat) : Option State :=
  match src.xlat g.asid (g.va + 4096 * k) false false none with
  | .dev e pa _ =>
    let bytes := Mem.readN (src.home e).mem pa 4096
    let x := (t.home dhome).put (bytes.zipIdx.map (fun b => (dppa + 4096 * k + b.2, b.1)))
    if x.2 then some (t.setHome dhome x.1) else none
  | _ => some t

/-- The held requests of a migrated range are forwarded with the new frames of their targets, in arrival order; one that reaches
beyond the range goes back to the network (11_translation.md R319 step 4). -/
def forwardHeld (s : State) (g : MmRange) (dhome dppa : Nat) (l : List Req) : State :=
  l.foldl (fun (t : State) r =>
    let d := t.home dhome
    if (r.targets.filterMap id).all (fun y => decide (g.va ≤ y ∧ y < g.vaHi)) then
      t.setHome dhome { d with fwded := d.fwded ++ [⟨r, r.targets.map (fun o => o.map (fun y => dppa + (offOf y - g.lo)))⟩] }
    else { t with air := t.air ++ [⟨r.prio, .req r⟩] }) s

/-- Whether a page of a range cannot be translated yet (11_translation.md R325). -/
def pagesWait (s : State) (g : MmRange) : Bool :=
  (List.range ((g.hi - g.lo) / 4096)).any (fun k => decide (s.xlat g.asid (g.va + 4096 * k) false false none = .behind))

/-- MIGRATE_PUBLISH (11_translation.md R319 steps 2 to 4; R320): of the MIGRATE at the head of queue obj, after its drain; it
completes once the requests it forwarded have been performed at the destination. -/
def execMigratePublish (s : State) : Res :=
  .next (match s.running s.obj 0x0A with
    | some p =>
      let g := mmRange p.body
      if p.started = true ∧ p.acks ≠ [] then
        (if drained s g then endInval s s.obj p else s)
      else if p.started = true ∧ drained s g = true then
        let dhome := leAt p.body 0x12 1
        let dppa := leAt p.body 0x28 8
        let src := unfreeze s g s.obj
        let pages := List.range ((g.hi - g.lo) / 4096)
        let movable := pages.all (fun k => match src.xlat g.asid (g.va + 4096 * k) false false none with
          | .dev _ _ pin => !pin
          | _ => false)
        let cancel : State := endPkt (reform (releaseHeld src (heldIn s g)) g.asid g.va g.vaHi) s.obj p 0x06
        if pagesWait src g then s
        else if !movable || decide (256 ≤ ((s.home g.home).migs.filter (·.published)).length) then cancel
        else
          match pages.foldl (fun (o : Option State) k => o.bind (fun t => copyPage src g dhome dppa t k)) (some src) with
          | none =>
            let since := p.since.getD s.now
            if since + (s.home dhome).holdNs < s.now then cancel
            else s.setPkt s.obj p.seq (fun k => { k with since := some since })
          | some t =>
            let h := t.home g.home
            let t1 := t.setHome g.home { h with migs := ⟨g.asid, g.lo, g.hi, dhome, dppa, true, s.obj⟩ :: h.migs }
            let t2 := forwardHeld t1 g dhome dppa (heldIn s g)
            if drained t2 g then endInval t2 s.obj p else t2.setPkt s.obj p.seq (fun k => { k with acks := [dhome] })
      else s
    | none => s)

/-- The leaves a BALLOON packet lists, read under the queue's ASID. -/
def balloonRead (s : State) (q : Nat) (p : Pkt) : State × CRead :=
  pktRead (startPkt s q p) (.pkt q) p.desc.asid (leAt p.body 0x18 8) (8 * leAt p.body 0x14 4)

/-- RESULT of a BALLOON: accepted and skipped leaves (13_queues.md R360). -/
def balloonResult (n skipped : Nat) : Word := BitVec.ofNat 64 (skipped * 2 ^ 32 + (n - skipped))

/-- One listed leaf donated (13_queues.md R383).  DESIGN CHOICE (log entry 95): an address that is not that of a leaf is skipped. -/
def donate (x : Home × Nat) (a : Nat) : Home × Nat :=
  let h := x.1
  let l := a / 4096
  if a % 4096 ≠ 0 ∨ h.isPinned l = true ∨ h.commit ≤ a ∨ h.balloon.contains l = true ∨ 2 ^ 24 ≤ h.balloon.length then
    (h, x.2 + 1)
  else ({ h with balloon := h.balloon ++ [l] }, x.2)

/-- One listed leaf withdrawn (13_queues.md R383). -/
def withdraw (x : Home × Nat) (a : Nat) : Home × Nat :=
  let h := x.1
  let l := a / 4096
  if a % 4096 ≠ 0 ∨ h.isPinned l = true ∨ h.commit ≤ a ∨ h.balloon.contains l = false then (h, x.2 + 1)
  else ({ h with balloon := h.balloon.filter (fun b => decide (b ≠ l)) }, x.2)

/-- A BALLOON packet with its step for one leaf. -/
def balloonRun (s : State) (op : Nat) (f : Home × Nat → Nat → Home × Nat) : State :=
  match s.running s.obj 0x0B with
  | some p =>
    if leAt p.body 0x11 1 ≠ op then s
    else if p.failed then rejectPkt s s.obj p REJ_FOOT
    else
      let x := balloonRead s s.obj p
      let n := leAt p.body 0x14 4
      (match x.2 with
       | .wait => x.1
       | .fail => rejectPkt x.1 s.obj p REJ_FOOT
       | .ok l =>
         let e := leAt p.body 0x10 1
         let r := ((List.range n).map (fun i => leAt l (8 * i) 8)).foldl f (x.1.home e, 0)
         (endPkt (x.1.setHome e r.1) s.obj p 0).setPkt s.obj p.seq (fun k => { k with result := balloonResult n r.2 }))
  | none => s

/-- BALLOON_DONATE (13_queues.md R383; 11_translation.md R324): at the head of queue obj. -/
def execBalloonDonate (s : State) : Res := .next (balloonRun s 0 donate)

/-- BALLOON_WITHDRAW (13_queues.md R383). -/
def execBalloonWithdraw (s : State) : Res := .next (balloonRun s 1 withdraw)

/-- The view register that a VIEWSET packet writes (09_copy_collective.md R262; 13_queues.md R382). -/
def viewOf (b : List Byte) : View :=
  ⟨decide (leAt b 0x12 1 = 1), leAt b 0x14 2, leAt b 0x13 1, leAt b 0x18 8, leAt b 0x20 5, leAt b 0x28 8, leAt b 0x30 4,
    leAt b 0x34 4, leAt b 0x38 4⟩

/-- VIEWSET (13_queues.md R383): at the head of queue obj. -/
def execViewset (s : State) : Res :=
  .next (match s.running s.obj 0x0D with
    | some p =>
      if p.started then s
      else
        let e := leAt p.body 0x10 1
        let i := leAt p.body 0x11 1
        let t := startPkt s s.obj p
        let h := t.home e
        let old := SMap.get h.views View.off i
        (t.setHome e { h with views := SMap.set h.views View.off i (viewOf p.body) }).setPkt s.obj p.seq
          (fun k => { k with old := some old })
    | none => s)

/-- VIEWSET_DRAIN_COMPLETE (13_queues.md R383): every request that the old contents transformed has been performed. -/
def execViewsetDrainComplete (s : State) : Res :=
  .next (match s.running s.obj 0x0D with
    | some p =>
      (match p.old with
       | some v =>
         let old (r : Req) : Bool := v.valid && decide (r.view = some v)
         let waits := (List.range 4).any (fun h =>
           (s.home h).exph.any (fun e => match e.req with | some r => old r | none => false)
             || (s.home h).fwded.any (fun f => old f.req))
         if waits then s else endPkt s s.obj p 0
       | none => s)
    | none => s)

/-! ### Completion entries (13_queues.md R360, R361, R384) -/

/-- The 64 bytes of a completion entry. -/
def entryBytes (s : State) (q : Nat) (p : Pkt) (st rej : Byte) : List Byte :=
  leBytes 2 (pktSeq p.body) ++ [BitVec.ofNat 8 (pktType p.body), st, if st = 0x05 then rej else 0, p.aflb, p.cfl, p.cause]
    ++ leBytes 4 p.exitw.toNat ++ leBytes 2 q ++ leBytes 2 0 ++ leBytes 8 s.now ++ leBytes 8 p.usedC ++ leBytes 8 p.usedB
    ++ leBytes 8 p.usedX ++ leBytes 8 p.result.toNat ++ leBytes 8 p.dline

/-- The journal record of a completed packet whose effects have all been performed says so (13_queues.md R384). -/
def markDone (s : State) (q : Nat) : State :=
  match (s.queue q).pkts with
  | p :: _ =>
    if p.status.isSome && !s.pending (.pkt q) && s.journal.any (fun r => decide (r.q = q ∧ r.seq = p.seq) && !r.complete) then
      s.setRec q p.seq (fun r => { r with performed := true, complete := true })
    else s
  | [] => s

/-- The completion entry of the completed packet at the head of a queue, once its effects are performed, there is room in the
ring, its ring can be translated, and no take-over holds it back (13_queues.md R354, R360, R384, R385). -/
def writeEntry (s0 : State) (q : Nat) : State :=
  let s := markDone s0 q
  let c := s.look 0 (s.qAddr q + 0x2E) 2
  match (s.queue q).pkts with
    | p :: rest =>
      let k := s.queue q
      let d := p.desc
      (match p.status with
       | some st0 =>
         let st : Byte := if p.failed ∧ st0 = 0 then 0x05 else st0
         let rej : Byte := if p.failed ∧ st0 = 0 then REJ_FOOT else p.rej
         if s.sys.takeover = true ∨ k.cstop = true ∨ s.pending (.pkt q) = true then s
         else if c.waits then s.noteRead c
         else if (k.cidx + 65536 - s.cread q) % 65536 = 2 ^ d.log2n then s
         else
           let x := ringWrite s q d.asid (d.cring + 64 * (p.seq % 2 ^ d.log2n)) (entryBytes s q p st rej)
           (match x.2 with
            | .wait => x.1
            | .fail =>
              let t := stopQueue x.1 q
              t.setQueue q { t.queue q with cstop := true }
            | .ok _ =>
              let t1 := x.1.setQueue q { x.1.queue q with pkts := rest, cidx := (k.cidx + 1) % 65536 }
              let t2 := writeDesc (t1.freeRec q p.seq) q 0x2C (leBytes 2 ((k.cidx + 1) % 65536))
              let t3 := if pktStoperr p.body && decide (st ≠ 0) then clearEn t2 q else t2
              if pktNotify p.body then t3.sendEvent 1 0xFF 16 (leBytes 2 q ++ leBytes 2 (pktSeq p.body)) else t3)
       | none => s)
    | [] => s

/-- COMPLETION_WRITE (13_queues.md R360): of queue obj. -/
def execCompletionWrite (s : State) : Res := .next (writeEntry s s.obj)

/-- QUEUE_RESET (13_queues.md R361): the packets of queue obj that are not decoded complete with CANCELLED. -/
def execQueueReset (s : State) : Res :=
  .next (let q := s.obj
    let k := s.queue q
    let n := (k.producer + 65536 - k.fidx) % 65536
    let d := k.desc
    let body (i : Nat) : List Byte :=
      match k.fetched[i]? with
      | some f => f.body
      | none =>
        (match (s.look d.asid (d.pring + 128 * ((k.fidx + i) % 2 ^ d.log2n)) 128).get? with
         | some l => l
         | none => leBytes 2 0 ++ leBytes 2 ((k.fidx + i) % 65536) ++ List.replicate 124 0)
    let gone := (List.range (min n (2 ^ d.log2n))).map (fun i =>
      { newPkt ⟨(k.fidx + i) % 65536, body i, d⟩ 0 0 with status := some 0x06 })
    let fidx := (k.fidx + gone.length) % 65536
    writeDesc (s.setQueue q { k with fetched := [], pkts := k.pkts ++ gone, fidx := fidx }) q 0x2A (leBytes 2 fidx))

end Sys2Proof.Machine
end

