-- ==== Sys2Proof/Machine/Sca.lean ====
section
/-! DEFINITION. The SCA engine and its 37 triggers (04_scalar_control.md R106 to R110). -/

namespace Sys2Proof.Machine

/-- A truth value as a result. -/
def ofBool64 (p : Bool) : Word := if p then 1 else 0

/-- mask(n): n ones, all ones for 64 (04_scalar_control.md R109). -/
def maskOf (n : Nat) : Word := BitVec.ofNat 64 (2 ^ n - 1)

/-- divs (04_scalar_control.md R109). -/
def scaDivS (a b : Word) : Word := if b = 0 then BitVec.allOnes 64 else BitVec.ofInt 64 (a.toInt.tdiv b.toInt)

/-- divn (04_scalar_control.md R109). -/
def scaDivN (a b : Word) : Word := if b = 0 then BitVec.allOnes 64 else BitVec.ofNat 64 (a.toNat / b.toNat)

/-- rems: a - b · divs(a, b) (04_scalar_control.md R109). -/
def scaRemS (a b : Word) : Word := if b = 0 then a else BitVec.ofInt 64 (a.toInt.tmod b.toInt)

/-- remn (04_scalar_control.md R109). -/
def scaRemN (a b : Word) : Word := if b = 0 then a else BitVec.ofNat 64 (a.toNat % b.toNat)

/-- Leading zero bits (04_scalar_control.md R109). -/
def scaClz (b : Word) : Word := if b = 0 then 64 else BitVec.ofNat 64 (63 - b.toNat.log2)

/-- Trailing zero bits (04_scalar_control.md R109). -/
def scaCtz (b : Word) : Word := if b = 0 then 64 else BitVec.ofNat 64 (b &&& -b).toNat.log2

/-- The one bits among the lowest n of a number. -/
def popNat (x : Nat) : Nat → Nat
  | 0 => 0
  | n + 1 => popNat x n + (x / 2 ^ n) % 2

/-- One bits (04_scalar_control.md R109). -/
def scaPopc (b : Word) : Word := BitVec.ofNat 64 (popNat b.toNat 64)

/-- sext from bit t = a[5:0] (04_scalar_control.md R109). -/
def scaSext (a b : Word) : Word :=
  (b <<< (63 - (a.extractLsb' 0 6).toNat)).sshiftRight (63 - (a.extractLsb' 0 6).toNat)

/-- The length of a field descriptor (04_scalar_control.md R109). -/
def fieldLen (a : Word) : Nat := (a.extractLsb' 8 6).toNat + 1

/-- bfx (04_scalar_control.md R109). -/
def scaBfx (a b : Word) : Word := (b >>> (a.extractLsb' 0 6)) &&& maskOf (fieldLen a)

/-- bfi (04_scalar_control.md R109). -/
def scaBfi (a b c : Word) : Word :=
  (c &&& ~~~(maskOf (fieldLen a) <<< (a.extractLsb' 0 6))) ||| ((b &&& maskOf (fieldLen a)) <<< (a.extractLsb' 0 6))

/-- An SCA trigger starts at the head of its queue and its result sets out for sca.r; a divide waits for the divider
(04_scalar_control.md R106, R107); no flag, no trap (R108). -/
def Core.scaStart (k : Core) (i : Instr) (div : Bool) (f : Word → Word → Word → Word) : Core :=
  match k.headTrig .sca i with
  | some (en, v) =>
    if div && k.flights.any (·.div) then k
    else
      (k.popHead .sca).launchResult en .sca (some .scaR)
        (.s (f (k.op .sca).o.toScalar v.toScalar (k.op .sca).o2.toScalar)) 0 div
  | none => k

/-- An SCA trigger at the current core: f a b c. -/
def scaRun (i : Instr) (div : Bool) (f : Word → Word → Word → Word) (s : State) : Res :=
  .next (s.setMe (s.me.scaStart i div f))

/-- SCA_ADD (04_scalar_control.md R109). -/
def execScaAdd (m : Mv) (s : State) : Res := scaRun (.scaAdd m) false (fun a b _ => a + b) s

/-- SCA_SUB (04_scalar_control.md R109). -/
def execScaSub (m : Mv) (s : State) : Res := scaRun (.scaSub m) false (fun a b _ => a - b) s

/-- SCA_MUL (04_scalar_control.md R109). -/
def execScaMul (m : Mv) (s : State) : Res := scaRun (.scaMul m) false (fun a b _ => a * b) s

/-- SCA_MULHS (04_scalar_control.md R109). -/
def execScaMulhs (m : Mv) (s : State) : Res := scaRun (.scaMulhs m) false (fun a b _ => BitVec.ofInt 64 (a.toInt * b.toInt / 2 ^ 64)) s

/-- SCA_MULHN (04_scalar_control.md R109). -/
def execScaMulhn (m : Mv) (s : State) : Res := scaRun (.scaMulhn m) false (fun a b _ => BitVec.ofNat 64 (a.toNat * b.toNat / 2 ^ 64)) s

/-- SCA_DIVS (04_scalar_control.md R109). -/
def execScaDivs (m : Mv) (s : State) : Res := scaRun (.scaDivs m) true (fun a b _ => scaDivS a b) s

/-- SCA_DIVN (04_scalar_control.md R109). -/
def execScaDivn (m : Mv) (s : State) : Res := scaRun (.scaDivn m) true (fun a b _ => scaDivN a b) s

/-- SCA_REMS (04_scalar_control.md R109). -/
def execScaRems (m : Mv) (s : State) : Res := scaRun (.scaRems m) true (fun a b _ => scaRemS a b) s

/-- SCA_REMN (04_scalar_control.md R109). -/
def execScaRemn (m : Mv) (s : State) : Res := scaRun (.scaRemn m) true (fun a b _ => scaRemN a b) s

/-- SCA_AND (04_scalar_control.md R109). -/
def execScaAnd (m : Mv) (s : State) : Res := scaRun (.scaAnd m) false (fun a b _ => a &&& b) s

/-- SCA_OR (04_scalar_control.md R109). -/
def execScaOr (m : Mv) (s : State) : Res := scaRun (.scaOr m) false (fun a b _ => a ||| b) s

/-- SCA_XOR (04_scalar_control.md R109). -/
def execScaXor (m : Mv) (s : State) : Res := scaRun (.scaXor m) false (fun a b _ => a ^^^ b) s

/-- SCA_ANDN (04_scalar_control.md R109). -/
def execScaAndn (m : Mv) (s : State) : Res := scaRun (.scaAndn m) false (fun a b _ => a &&& ~~~b) s

/-- SCA_SHL (04_scalar_control.md R109). -/
def execScaShl (m : Mv) (s : State) : Res := scaRun (.scaShl m) false (fun a b _ => a <<< (b.extractLsb' 0 6)) s

/-- SCA_SHRL (04_scalar_control.md R109). -/
def execScaShrl (m : Mv) (s : State) : Res := scaRun (.scaShrl m) false (fun a b _ => a >>> (b.extractLsb' 0 6)) s

/-- SCA_SHRA (04_scalar_control.md R109). -/
def execScaShra (m : Mv) (s : State) : Res := scaRun (.scaShra m) false (fun a b _ => a.sshiftRight (b.extractLsb' 0 6).toNat) s

/-- SCA_ROTL (04_scalar_control.md R109). -/
def execScaRotl (m : Mv) (s : State) : Res := scaRun (.scaRotl m) false (fun a b _ => a.rotateLeft (b.extractLsb' 0 6).toNat) s

/-- SCA_CLZ (04_scalar_control.md R109). -/
def execScaClz (m : Mv) (s : State) : Res := scaRun (.scaClz m) false (fun _ b _ => scaClz b) s

/-- SCA_CTZ (04_scalar_control.md R109). -/
def execScaCtz (m : Mv) (s : State) : Res := scaRun (.scaCtz m) false (fun _ b _ => scaCtz b) s

/-- SCA_POPC (04_scalar_control.md R109). -/
def execScaPopc (m : Mv) (s : State) : Res := scaRun (.scaPopc m) false (fun _ b _ => scaPopc b) s

/-- SCA_MINS (04_scalar_control.md R109). -/
def execScaMins (m : Mv) (s : State) : Res := scaRun (.scaMins m) false (fun a b _ => if a.toInt ≤ b.toInt then a else b) s

/-- SCA_MAXS (04_scalar_control.md R109). -/
def execScaMaxs (m : Mv) (s : State) : Res := scaRun (.scaMaxs m) false (fun a b _ => if a.toInt ≤ b.toInt then b else a) s

/-- SCA_MINN (04_scalar_control.md R109). -/
def execScaMinn (m : Mv) (s : State) : Res := scaRun (.scaMinn m) false (fun a b _ => if a.toNat ≤ b.toNat then a else b) s

/-- SCA_MAXN (04_scalar_control.md R109). -/
def execScaMaxn (m : Mv) (s : State) : Res := scaRun (.scaMaxn m) false (fun a b _ => if a.toNat ≤ b.toNat then b else a) s

/-- SCA_CEQ (04_scalar_control.md R109). -/
def execScaCeq (m : Mv) (s : State) : Res := scaRun (.scaCeq m) false (fun a b _ => ofBool64 (decide (a = b))) s

/-- SCA_CNE (04_scalar_control.md R109). -/
def execScaCne (m : Mv) (s : State) : Res := scaRun (.scaCne m) false (fun a b _ => ofBool64 (decide (a ≠ b))) s

/-- SCA_CLTS (04_scalar_control.md R109). -/
def execScaClts (m : Mv) (s : State) : Res := scaRun (.scaClts m) false (fun a b _ => ofBool64 (decide (a.toInt < b.toInt))) s

/-- SCA_CLTN (04_scalar_control.md R109). -/
def execScaCltn (m : Mv) (s : State) : Res := scaRun (.scaCltn m) false (fun a b _ => ofBool64 (decide (a.toNat < b.toNat))) s

/-- SCA_CLES (04_scalar_control.md R109). -/
def execScaCles (m : Mv) (s : State) : Res := scaRun (.scaCles m) false (fun a b _ => ofBool64 (decide (a.toInt ≤ b.toInt))) s

/-- SCA_CLEN (04_scalar_control.md R109). -/
def execScaClen (m : Mv) (s : State) : Res := scaRun (.scaClen m) false (fun a b _ => ofBool64 (decide (a.toNat ≤ b.toNat))) s

/-- SCA_SEL (04_scalar_control.md R109). -/
def execScaSel (m : Mv) (s : State) : Res := scaRun (.scaSel m) false (fun a b c => if c.getLsbD 0 then a else b) s

/-- SCA_SEXT (04_scalar_control.md R109). -/
def execScaSext (m : Mv) (s : State) : Res := scaRun (.scaSext m) false (fun a b _ => scaSext a b) s

/-- SCA_ZEXT (04_scalar_control.md R109). -/
def execScaZext (m : Mv) (s : State) : Res := scaRun (.scaZext m) false (fun a b _ => b &&& maskOf ((a.extractLsb' 0 6).toNat + 1)) s

/-- SCA_BFX (04_scalar_control.md R109). -/
def execScaBfx (m : Mv) (s : State) : Res := scaRun (.scaBfx m) false (fun a b _ => scaBfx a b) s

/-- SCA_BFI (04_scalar_control.md R109). -/
def execScaBfi (m : Mv) (s : State) : Res := scaRun (.scaBfi m) false (fun a b c => scaBfi a b c) s

/-- SCA_PASS (04_scalar_control.md R109). -/
def execScaPass (m : Mv) (s : State) : Res := scaRun (.scaPass m) false (fun _ b _ => b) s

/-- SCA_CAT9 (04_scalar_control.md R109). -/
def execScaCat9 (m : Mv) (s : State) : Res := scaRun (.scaCat9 m) false (fun a b _ => (a <<< 9) ||| (b.extractLsb' 0 9).setWidth 64) s

end Sys2Proof.Machine
end

