-- ==== Sys2Proof/Machine/Time.lean ====
section
/-! DEFINITION. The passing of time with what it brings by itself: the limits of a superstep and of a boundary trap in the
cc in which they are reached (10_phase_sync.md R280, R281, R286, R294), and what happens from outside (log entry 59). -/

namespace Sys2Proof.Machine

/-! ### Limits -/

/-- Whether SSC counts at a core: it runs, waits or is frozen, and has not made its local arrival (10_phase_sync.md R280). -/
def Core.counts (c : Core) : Bool :=
  match c.seq with
  | .run | .frozen _ _ => true
  | .endph _ arrived | .halted arrived => !arrived
  | .idle | .capture _ | .parked => false

/-- The cc after which the slots that a frozen bundle reads are readable; none while one of them has no data
(10_phase_sync.md R286). -/
def Core.freezeLeft (c : Core) : Option Nat :=
  let arrs := (c.fetch.filter (fun b => c.performs b)).filterMap (fun b =>
    (b.src.bind srcLanding).map (fun n => (c.lnd.get none n.val).map (·.arr)))
  if arrs.all (·.isSome) then some (arrs.foldl (fun k a => max k (a.getD 0 - c.ssc.toNat)) 0) else none

/-- The cc after which a core's freeze at a landing slot traps: more than LIM cc of it, before the slot is readable. -/
def Core.freezeDue (c : Core) (lim : Nat) : Option Nat :=
  match c.seq with
  | .frozen .slot k =>
    (match c.freezeLeft with
     | some f => if lim + 1 - k ≤ f then some (lim + 1 - k) else none
     | none => some (lim + 1 - k))
  | _ => none

/-- The cc after which a core traps by itself: it exceeds CAP (10_phase_sync.md R280), or its freeze LIM (R286). -/
def Core.due (c : Core) (cap lim : Nat) : Option Nat :=
  if !c.counts then none
  else
    match c.freezeDue lim with
    | some k => some (min k (cap + 1 - c.ssc.toNat))
    | none => some (cap + 1 - c.ssc.toNat)

/-- Whether core n parks with its stand: its SSC and its limits stand still (12_traps.md R326, R327). -/
def State.parksNow (s : State) (n : Nat) : Bool :=
  match s.standOf n with
  | some (_, r) => decide (r.st = .parking)
  | none => false

/-- The cc after which core n traps by itself. -/
def State.dueOf (s : State) (n : Nat) : Option Nat :=
  if s.parksNow n then none else (s.core n).due (s.capOf n) (s.limOf n)

/-- Whether the straggler timer of a stand counts: none of its cores is parked, and its boundary waits for something
(10_phase_sync.md R281; 12_traps.md R327). -/
def timerCounts (s : State) (r : Run) : Bool :=
  decide (r.st = .running) && r.cores.all (fun n => (s.core n).trap.isNone) && !boundaryDue s r

/-- The cc after which a stand's straggler timer exceeds LIM (10_phase_sync.md R281). -/
def runDue (s : State) (r : Run) : Option Nat :=
  match r.strag with
  | some t => if timerCounts s r then some (r.adm.lim + 1 - t) else none
  | none => none

/-- The running stands. -/
def State.runs (s : State) : List (Nat × Run) := s.parts.filterMap (fun x => x.2.run.map (fun r => (x.1, r)))

/-- The cc after which the next limit is reached somewhere. -/
def State.nextDue (s : State) : Option Nat :=
  ((s.cores.map (fun x => s.dueOf x.1)) ++ s.runs.map (fun x => runDue s x.2)).foldl (fun o d =>
    match o, d with
    | some a, some b => some (min a b)
    | none, d => d
    | o, none => o) none

/-- cc core cycles at core n, c: a freeze stands still once its slots are readable, and nothing but a capture counts while its stand
parks (12_traps.md R326, R327). -/
def State.tickCore (s : State) (cc n : Nat) (c : Core) : Core :=
  match c.seq with
  | .capture _ => c.tick cc
  | .frozen .slot k =>
    if s.parksNow n then { c.tick cc with seq := c.seq, ssc := c.ssc }
    else { c.tick cc with seq := .frozen .slot (k + min cc (c.freezeLeft.getD cc)) }
  | _ => if s.parksNow n then { c.tick cc with seq := c.seq, ssc := c.ssc } else c.tick cc

/-- cc core cycles in which no limit is reached. -/
def State.tickCc (s : State) (cc : Nat) : State :=
  { s with
    cores := s.cores.map (fun x => (x.1, s.tickCore cc x.1 x.2)),
    parts := s.parts.map (fun x => (x.1, { x.2 with run := x.2.run.map (fun r => r.tick (timerCounts s r) cc) })) }

/-- d core cycles, after which limits are reached, and their traps: of a freeze before that of the cap, both before a straggler
timer (log entry 63). -/
def State.takeDue (s : State) (d : Nat) : State :=
  let t := s.tickCc d
  let u := { t with
    cores := t.cores.map (fun x => (x.1,
      if s.dueOf x.1 = some d then
        (if (s.core x.1).freezeDue (s.limOf x.1) = some d then x.2.freezeTrap
         else { x.2 with ssc := BitVec.ofNat 32 (s.capOf x.1) }.capTrap)
      else x.2)) }
  s.runs.foldl (fun t x => if runDue s x.2 = some d then stragglerTraps t x.2 else t) u

/-- cc core cycles pass, every limit reached in them trapping in its cc; the first argument bounds how many are reached. -/
def State.tickLimits : Nat → State → Nat → State
  | 0, s, cc => s.tickCc cc
  | k + 1, s, cc =>
    match s.nextDue with
    | some d => if d ≤ cc then State.tickLimits k (s.takeDue d) (cc - d) else s.tickCc cc
    | none => s.tickCc cc

/-- Time passes everywhere: cc core cycles and ns of device time (log entry 3). -/
def State.tick (s : State) (cc ns : Nat) : State := State.tickLimits 600 (s.tickNs ns) cc

/-! ### From outside (log entry 59) -/

/-- Whether system software may rewrite a core's local and instruction memory: its stand is held (12_traps.md R339;
13_queues.md R379). -/
def State.editable (s : State) (n : Nat) : Bool :=
  match s.runOf (s.core n).part with
  | some r => decide (r.st = .held) && r.cores.contains n
  | none => false

/-- What happens from outside (log entry 59). -/
def State.happen (s : State) (e : Env) : State :=
  match e with
  | .breakpoint n a => s.setCore n { s.core n with breakpt := a }
  | .localByte n a b => if s.editable n then s.setLocalByte n a b else s
  | .codeByte n a b =>
    let c := s.core n
    if s.editable n && decide (a < 24 * c.nbundle) then
      s.setCore n { c with code := c.code.write a b, codeGen := none, bad := { c.bad with imem := c.bad.imem.filter (· ≠ a / 24) } }
    else s
  | .artb e v => s.setHome e ({ s.home e with artb := v.toNat % 2 ^ 44 / 2 ^ 19 * 2 ^ 19 } : Home).repinned
  | .root e asid v =>
    let h := s.home e
    let a := h.artb + 8 * (asid % 65536)
    s.setHome e (h.put ((leBytes 8 v.toNat).zipIdx.map (fun b => (a + b.2, b.1)))).1
  | .jrnl v => { s with sys := { s.sys with jrnl := v } }
  | .errors n x =>
    let c := s.core n
    let y := c.bad
    s.setCore n { c with bad := ⟨y.scratch ++ x.scratch, y.imem ++ x.imem, y.regs ++ x.regs, y.wide ++ x.wide, y.acc ++ x.acc,
      y.edge ++ x.edge, y.cnt ++ x.cnt, y.hdr ++ x.hdr, y.tag ++ x.tag, y.binds ++ x.binds, y.bus ++ x.bus⟩ }
  | .poolErrors n l => let q := s.quad n; s.setQuad n { q with bad := q.bad ++ l }
  | .slotErrors n l => let x := s.slot n; s.setSlot n { x with bad := x.bad ++ l }
  | .memErrors e l => let h := s.home e; s.setHome e { h with bad := h.bad ++ l }
  | .podFlit f =>
    (match f.load with
     | .notice core badr tag _ =>
       if s.sys.abroad.any (fun x => decide (x.core = core ∧ x.badr = badr ∧ x.tag = tag)) then { s with air := s.air ++ [f] } else s
     | .send _ | .req _ | .coll _ => { s with air := s.air ++ [f] })
  | .podTaken x => { s with sys := { s.sys with abroad := s.sys.abroad.erase x } }
  | .podQuiet pgid tag => podQuiet s pgid tag
  | .podCable l sw => { s with sys := { s.sys with switches := SMap.set s.sys.switches 0 l sw } }
  | .podStands pgid devs => { s with sys := { s.sys with pod := SMap.set s.sys.pod [] pgid devs } }
  | .podArrive pgid id => podArrive s pgid id
  | .podCard pgid x =>
    if decide (x.core / 512 ≠ s.sys.dev.toNat) && s.podHas pgid (x.core / 512) then podCard s pgid x else s
  | .podRanks pgid cid k st faults => podRanks s pgid cid k st faults
  | .podReply r l st => podAnswer s r l st
  | .walk e asid off => s.setHome e ((s.home e).cached asid off)
  | .evict e walks i =>
    let h := s.home e
    if walks then s.setHome e { h with walks := dropAt h.walks i }
    else if (h.tlb[i]?.map (·.locked)) = some false then s.setHome e { h with tlb := dropAt h.tlb i }
    else s

end Sys2Proof.Machine
end

