-- ==== Sys2Proof/Machine/Sched.lean ====
section
/-! DEFINITION. Which instruction a turn of the schedule stands for (log entries 1 and 2), and the placing of an
instruction where the next step takes it (log entry 7). -/

namespace Sys2Proof.Machine

/-- A trigger that is served at the head of an engine queue, CTL excluded (03_encoding.md R83). -/
def isQueueTrig (i : Instr) : Bool :=
  match destOf i with
  | .trig .ctl _ => false
  | .trig _ _ => true
  | _ => false

/-- The engine whose queue a queue trigger stands in. -/
def trigEng (i : Instr) : Eng :=
  match destOf i with
  | .trig e _ => e
  | _ => .ctl

/-- What the sequencer of the current core does next: the one move of a bundle that holds one register move, operand move
or CTL trigger; else the issue of the whole bundle (03_encoding.md R82). -/
def State.fetched (s : State) : Instr :=
  match s.me.fetch with
  | [b] =>
    match b.instr with
    | some i => if !isQueueTrig i && decide (encode i = some (b.slot, b.word)) then i else .bundleIssue
    | none => .bundleIssue
  | _ => .bundleIssue

/-- What serving the head of an engine queue is: its trigger, or the capture of its operand (03_encoding.md R83). -/
def Core.headInstr (c : Core) (e : Eng) : Instr :=
  match c.q e with
  | en :: _ =>
    match en.trig with
    | some i => i
    | none => .operandEntryCapture e
  | [] => .operandEntryCapture e

/-- The instruction of a turn. -/
def State.chosen (s : State) (w : What) : Instr :=
  match w with
  | .fetch => s.fetched
  | .head e => s.me.headInstr e
  | .step i => i

/-- A queue whose head has its value. -/
def Core.headReady (c : Core) (e : Eng) : Bool :=
  match c.q e with
  | en :: _ => !en.val.pending && !en.faulted
  | [] => false

/-- What an idle schedule does with a core, and with which of its pending transfers: whatever is under way there, oldest
first, then the sequencer; pool tells whether its quad's port has an atomic waiting (log entry 2). -/
def Core.defaultTurn (c : Core) (pool : Bool) : Nat × What :=
  match c.flights with
  | f :: _ => (0, .step (if f.port.isSome then .resultArrival else .triggerFullEffect))
  | [] =>
    match c.pends.findIdx? (fun p => !p.val.pending) with
    | some i => (i, .step .pendingTransferComplete)
    | none =>
      if c.rep.isSome then (0, .step .repeatEntry)
      else if !c.wq.isEmpty then (0, .step (.atomicApply false))
      else if pool then (0, .step (.atomicApply true))
      else if !c.lda.isEmpty then (0, .step (.memAccessPerformed false))
      else if !c.sta.isEmpty then (0, .step (.memAccessPerformed true))
      else
        match c.ldq, c.stq with
        | l :: _, t :: _ => (0, .step (.memAccessStart (decide (t.ent.tag < l.ent.tag))))
        | _ :: _, [] => (0, .step (.memAccessStart false))
        | [], _ :: _ => (0, .step (.memAccessStart true))
        | [], [] =>
          match [Eng.sca, .vec0, .vec1, .str, .mem, .cpy0, .cpy1, .col].find? (fun e => c.headReady e) with
          | some e => (0, .head e)
          | none => (0, .fetch)

/-- The turn an empty schedule takes: the current core, three core cycles, two nanoseconds (log entry 2). -/
def State.defaultTurn (s : State) : Turn :=
  let d := s.me.defaultTurn (!(s.quad (quadOf s.cur)).wq.isEmpty)
  ⟨s.cur, d.1, 3, 2, [], d.2⟩

/-- The turn the next step takes, and the schedule after it (log entries 1 and 2). -/
def State.nextTurn (s : State) : Turn × List Turn :=
  match s.agenda with
  | t :: r => (t, r)
  | [] => (s.defaultTurn, [])

/-- The state in which the instruction of a turn acts: the turn is taken off, its core is current, what happens from outside
has happened, and its time has passed. -/
def State.enter (s : State) (t : Turn) (r : List Turn) : State :=
  (t.env.foldl State.happen { s with agenda := r, cur := t.core, obj := t.obj }).tick t.cc t.ns

/-- Core 0 as the only core of a running stand, at bundle 0 of a program of one bundle (log entry 7). -/
def oneCore (moves : List (BitVec 24)) : Core :=
  { Core.idle with
    seq := .run, ncores := 1, nbundle := 1,
    code := Mem.writeL [] 0 (moves.flatMap (fun w => leBytes 3 w.toNat)) }

/-- The job of that stand: a compute superstep with limits no step reaches (log entry 7). -/
def oneRun : Run where
  adm := { q := 0, seq := 0, desc := QDesc.zero, slot := 0, gen := 0, d := 0, rho := 0, budC := 2 ^ 40, budB := 2 ^ 40, budX := 2 ^ 40,
           lim := 2 ^ 32 - 1, cap := 2 ^ 32 - 1, bloc := 0, pgid := 0, pasid := none, binds := [], frame := 0,
           started := true, preempted := false, replayed := false, remC := 2 ^ 40, remB := 2 ^ 40, remX := 2 ^ 40,
           usedC := 0, usedB := 0, usedX := 0, next := none }
  cores := [0]
  phc := 0
  exch := false
  pool := 0
  ccSince := 0
  strag := none
  quiet := []
  ids := []
  episodes := []
  chosen := false
  incoming := none
  spill := none
  st := .running
  first := none
  footR := []
  footW := []
  filter := []
  killed := false
  late := false
  pend := false
  exhausted := false

/-- A queue entry that holds a trigger with its value captured. -/
def placedEntry (c : Core) (i : Instr) (w : BitVec 24) (slot : Nat) : Entry where
  move := w
  slot := slot
  badr := 0
  rep := none
  trig := some i
  port := .o
  val := match i.fields with
    | some f => .ready (match c.bindSrc slot f.2.2.2.src with | .ready v => v | .wait _ => .s 0)
    | none => .ready (.s 0)
  tag := 0
  rmode := 0
  qcfg := 0x1C
  faulted := false
  bid := 0

/-- s with an instruction placed for the next step: a register move, an operand move or a CTL trigger as the bundle at the
pc of core 0; a trigger of another engine at the head of its queue there (log entry 7). -/
def State.place (s : State) (i : Instr) : State :=
  match encode i with
  | none => s
  | some (slot, w) =>
    let c :=
      if isQueueTrig i then
        let c := oneCore []
        let en := placedEntry c i w slot
        let c := { c.setQ (trigEng i) [en] with nextTag := 1 }
        match resPort (trigEng i) ((w.extractLsb' 11 7).toNat) with
        | some p => c.claimPort p 0
        | none => c
      else oneCore ((List.replicate slot 0) ++ [w])
    { s with agenda := [], cur := 0 }.setCore 0 c |>.setRun 0 (some oneRun)

end Sys2Proof.Machine
end

