-- ==== Sys2Proof/Machine/System.lean ====
section
/-! DEFINITION. The module in its system: events, BAR 0, device time, power, boot and firmware, the recovery mailbox,
attestation, take-over and warm reset, ports and links, soft errors (14_system.md; 13_queues.md R384 to R387). -/

namespace Sys2Proof.Machine

/-! ### Events (14_system.md R396) -/

/-- An MSI-X vector 0 message goes out now. -/
def State.sendMsix (s : State) : State :=
  { s with sys := { s.sys with msixWait := false, msixLast := s.fabric, msixSent := s.sys.msixSent + 1 } }

/-- Whether a µs, 2,000 fabric cycles, has passed since the last MSI-X message. -/
def State.msixFree (s : State) : Bool := decide (s.sys.msixSent = 0 ∨ s.sys.msixLast + 2000 ≤ s.fabric)

/-- An event's message: at once, or coalesced. -/
def State.msix (s : State) : State :=
  if s.msixFree then s.sendMsix else { s with sys := { s.sys with msixWait := true } }

/-- The 32 bytes of an event record (log entry 18). -/
def Ev.record (e : Ev) (dtc : Nat) : List Byte :=
  [BitVec.ofNat 8 e.ty, BitVec.ofNat 8 e.stop] ++ List.replicate 6 0 ++ leBytes 8 dtc
    ++ (e.payload ++ List.replicate 16 0).take 16

/-- Events in the ring that the host has not consumed. -/
def State.eventsOut (s : State) : Nat := (s.sys.evprod - s.sys.evcons).toNat

/-- Entries of the event ring: LOG2E is in bits 4:0 of EVBASE (14_system.md R392). -/
def State.ringSize (s : State) : Nat := 2 ^ (s.sys.evbase.toNat % 32)

/-- Bytes written at a host physical address: host memory, or the device's own window; none where the write has to wait. -/
def hostPut (s : State) (a : Nat) (l : List Byte) : Option State :=
  match s.window a with
  | none => some { s with hostMem := putCells s.hostMem (l.zipIdx.map (fun b => (a + b.2, b.1))) }
  | some (home, pa) =>
    if s.trained = false ∨ (s.home home).commit < pa + l.length then some s
    else hostLines true home l.length s pa l

/-- The Canopy unit and the command processor take a trap event: the stand's other cores have to park (12_traps.md R327). -/
def takeTrapEvent (s : State) (payload : List Byte) : State :=
  let p := leAt payload 0 2
  let n := leAt payload 2 2 % 512
  match s.runOf p with
  | some r =>
    if r.cores.contains n = true ∧ (s.core n).seq = .parked then
      s.setRun p (some { r with
        st := (match r.st with | .running => .parking | .swapping => .parking | x => x),
        first := (match r.first with | some c => some c | none => some (BitVec.ofNat 8 (leAt payload 4 1))) })
    else s
  | none => s

/-- The source stop of an event for the order of R31: the firmware complex stands at edge die 0 (01_machine.md R15, R31). -/
def Ev.place (e : Ev) : Nat := if e.stop = 0xFF then 0 else e.stop

/-- Whether an event reaches the arbiter before another: by fabric cycle, source stop, source (01_machine.md R31). -/
def Ev.before (x e : Ev) : Bool :=
  decide (x.fc < e.fc ∨ (x.fc = e.fc ∧ (x.place < e.place ∨ (x.place = e.place ∧ x.src < e.src))))

/-- Whether event i is the next that the arbiter takes: of those that reached it in an earlier fabric cycle, trap and fault events
being left out during a take-over (01_machine.md R31; 13_queues.md R385). -/
def State.eventTurn (s : State) (i : Nat) (e : Ev) : Bool :=
  let free (x : Ev) : Bool := !(s.sys.takeover && decide (x.ty = 2 ∨ x.ty = 3))
  decide (e.fc < s.fabric) && free e && !s.sys.events.any (fun x => free x && x.before e)
    && !(s.sys.events.take i).any (fun x => free x && !e.before x)

/-- EVENT_ARBITRATE (14_system.md R396; 01_machine.md R31; 13_queues.md R385): event obj, where it is the next. -/
def execEventArbitrate (s : State) : Res :=
  .next (match s.sys.events[s.obj]? with
    | some e =>
      if s.eventTurn s.obj e = false ∨ s.eventsOut = s.ringSize then s
      else
        let base := s.sys.evbase.toNat / 4096 * 4096
        (match hostPut s (base + 32 * (s.sys.evprod.toNat % s.ringSize)) (e.record s.now) with
         | none => s
         | some t =>
           let t1 : State := { t with sys := { t.sys with events := dropAt t.sys.events s.obj, evprod := t.sys.evprod + 1 } }
           (if e.ty = 2 then takeTrapEvent t1 e.payload else t1).msix)
    | none => s)

/-- MSIX_COALESCE_EXPIRY (14_system.md R396). -/
def execMsixCoalesceExpiry (s : State) : Res :=
  .next (if s.sys.msixWait && s.msixFree then s.sendMsix else s)

/-! ### Power and device time (14_system.md R399, R404; 10_phase_sync.md R292, R293) -/

/-- The throttle event of the window that ends: its start DTC (56 bits), the smallest grant, the mask of throttled dies; none
where no die was throttled (14_system.md R404; log entry 18). -/
def throttleEvent (s : State) : State :=
  let slow := (List.range 64).filter (fun d => decide ((s.die d).grant < 16))
  if slow.isEmpty then s
  else
    let g := slow.foldl (fun g d => min g (s.die d).grant) 16
    s.sendEvent 5 0 18
      (leBytes 7 s.sys.window0 ++ leBytes 1 g ++ leBytes 8 (slow.foldl (fun m d => m + 2 ^ d) 0))

/-- POWER_WINDOW (14_system.md R404): a window of 10 µs ends, and the next one starts with the grant of every compute die. -/
def execPowerWindow (gs : List Nat) (s : State) : Res :=
  .next (if s.sys.window0 + 10000 ≤ s.now ∧ gs.length = 64 ∧ gs.all (fun g => decide (1 ≤ g ∧ g ≤ 16)) = true then
      let t := throttleEvent s
      { t with dies := t.dies.fill Die.start 0 64 (fun d => { t.die d with grant := gs.getD d 16 }),
               sys := { t.sys with window0 := t.sys.window0 + 10000 } }
    else s)

/-- The offset of one DTC from another, signed. -/
def dtcDiff (x y : Word) : Int := (x - y).toInt

/-- GIRDLE_BEACON (14_system.md R399; 10_phase_sync.md R292): every die slews its copy of DTC to edge die 0's. -/
def execGirdleBeacon (s : State) : Res :=
  let follow (k : Clock) : Clock := k.aim (dtcDiff s.sys.clock.dtc k.dtc)
  .next { s with
    dies := s.dies.fill Die.start 0 64 (fun d => { s.die d with clock := follow (s.die d).clock }),
    sys := { s.sys with edges := s.sys.edges.fill Clock.start 1 3 (fun i => follow (s.sys.edges.get Clock.start (1 + i))) } }

/-- PTP_SYNC (14_system.md R399; 10_phase_sync.md R292, R293): a sync interval with the offset to correct and the bound the servo
estimates; over pod link 0 or the lowest trained one. -/
def execPtpSync (off : Int) (bound : Nat) (s : State) : Res :=
  .next (if (List.range 16).any s.linkUp then
      let n := if off.natAbs < 1000 then min 16 (s.sys.syncs + 1) else 0
      { s with sys := { s.sys with
          clock := s.sys.clock.aim off, syncs := n, locked := decide (n = 16),
          dtskew := if n = 16 then BitVec.ofNat 64 bound else BitVec.allOnes 64 } }
    else s)

/-- DTC loaded, while no stand runs: the only step of DTC (14_system.md R399).  DESIGN CHOICE (log entry 97): a power window starts at
the loaded value with the grants of the one it cuts off, which sends no throttle event. -/
def loadDtc (s : State) (v : Word) : State :=
  if s.parts.any (fun p => p.2.run.isSome) then s
  else
    { s with
      sys := { s.sys with clock := ⟨v, 0, 0⟩, edges := s.sys.edges.fill Clock.start 1 3 (fun _ => ⟨v, 0, 0⟩), window0 := v.toNat,
                          locked := false, syncs := 0, dtskew := BitVec.allOnes 64 },
      dies := s.dies.fill Die.start 0 64 (fun d => { s.die d with clock := ⟨v, 0, 0⟩ }) }

/-- DTCSET_WRITE (14_system.md R399). -/
def execDtcsetWrite (v : Word) (s : State) : Res := .next (if s.sys.state = 2 then s else loadDtc s v)

/-! ### BAR 0 (14_system.md R390 to R395) -/

/-- Whether BAR 0 answers at an offset (14_system.md R390). -/
def State.reachable (s : State) (off : Nat) : Bool :=
  decide (s.sys.state ≠ 2 ∨ (0x6000 ≤ off ∧ off < 0xF000) ∨ (0x10000 ≤ off ∧ off < 0x20000))

/-- LIM of a value written to COMMIT: bits 63:44 are ignored, and LIM 0 stands for 16 TiB (11_translation.md R323; 00_scope.md R2;
log entry 34). -/
def commitLim (v : Nat) : Nat := if v % 2 ^ 44 = 0 then 2 ^ 44 else v % 2 ^ 44

/-- A LIM that R323 allows: a multiple of 1 GiB from 512 GiB to 16 TiB (log entry 34). -/
def commitOk (v : Nat) : Bool := decide (commitLim v % 2 ^ 30 = 0 ∧ 2 ^ 39 ≤ commitLim v)

/-- A write to register n of a pool page (14_system.md R393; 11_translation.md R323). -/
def poolWrite (h : Home) (n : Nat) (v : Nat) : Home :=
  match n with
  | 0 => if commitOk v then { h with commit := commitLim v } else h
  | 2 => { h with loww := v % 2 ^ 32 }
  | 3 => { h with highw := v % 2 ^ 32 }
  | 6 => { h with holdlim := v % 2 ^ 32 }
  | _ => h

/-- A register of a pool page as read (14_system.md R393; 11_translation.md R323). -/
def poolRead (h : Home) (n : Nat) : Nat :=
  match n with
  | 0 => h.commit % 2 ^ 44
  | 1 => h.free
  | 2 => h.loww
  | 3 => h.highw
  | 4 => h.balloon.length
  | 5 => h.exph.length
  | 6 => max 1 h.holdlim
  | 7 => h.slog.length
  | 8 => h.artb
  | _ => 0

/-- A write to the host control page (14_system.md R392). -/
def controlWrite (s : State) (off : Nat) (v : Word) : State :=
  match off with
  | 0x00 => if s.anyPart then s else { s with sys := { s.sys with ptab := v } }
  | 0x08 => if s.anyPart then s else { s with sys := { s.sys with qtab := v } }
  | 0x18 => if s.anyPart then s else { s with sys := { s.sys with evbase := v } }
  | 0x28 => { s with sys := { s.sys with evcons := v.setWidth 32 } }
  | 0x30 => if 400 ≤ v.toNat ∧ v.toNat ≤ 1600 then { s with sys := { s.sys with plim := v } } else s
  | 0x38 => loadDtc s v
  | _ => s

/-- A write to a stand control page (14_system.md R395). -/
def standWrite (s : State) (p off : Nat) (v : Word) : State :=
  if off = 0x08 then
    match v.toNat with
    | 1 => standResume s p
    | 2 => standKill s p
    | 3 => standReplay s p
    | _ => s
  else if 0x10 ≤ off ∧ off < 0x50 then
    s.setPart p { s.part p with skipm := SMap.set (s.part p).skipm 0 ((off - 0x10) / 8) v }
  else s

/-- A write to the recovery mailbox: CMD starts a command, ARG is its argument; neither is taken while a command runs
(14_system.md R402; log entry 33). -/
def mailboxWrite (s : State) (off : Nat) (v : Word) : State :=
  if s.sys.mstat = 1 then s
  else
    match off with
    | 0x00 => { s with sys := { s.sys with cmd := v, mstat := 1, running := none } }
    | 0x08 => { s with sys := { s.sys with arg := v } }
    | _ => s

/-- The message an attestation signs: NONCE, the three measurements, and the index of its one-time key (14_system.md R403). -/
def State.quote (s : State) : List Byte := Mem.readN s.sys.nonce 0 32 ++ s.sys.meas ++ leBytes 8 (s.sys.otk - 1)

/-- A write of a NONCE word; the last one reserves the next one-time key and starts a signature (14_system.md R403). -/
def nonceWrite (s : State) (off : Nat) (v : Word) : State :=
  if s.sys.atstat = 1 ∨ off % 8 ≠ 0 ∨ off < 0x200 ∨ 0x220 ≤ off then s
  else
    let y := { s.sys with nonce := Mem.writeL s.sys.nonce (off - 0x200) (leBytes 8 v.toNat) }
    if off ≠ 0x218 then { s with sys := y }
    else if 2 ^ 20 ≤ y.otk then { s with sys := { y with atstat := 3 } }
    else { s with sys := { y with otk := y.otk + 1, atstat := 1 } }

/-- A write to a queue wake page: the queue's wake word is written under its ASID, by its descriptor in force, or while EN is 0 as
it stands in memory (14_system.md R394; 13_queues.md R353). -/
def wakePage (s : State) (q : Nat) (v : Word) : State :=
  let s := refresh s q
  let d := if (s.queue q).desc.en then (s.queue q).desc else s.qdesc q
  let x := accessMain s (cpReq (ringOf q) d.asid (.write (leBytes 8 v.toNat)) d.wake) none
  match x.2 with
  | .stall => s
  | .fail _ => stopQueue x.1 q
  | _ => x.1

/-- A host write of some bytes to BAR 0: only an aligned one of 8 has an effect (14_system.md R390). -/
def bar0Write (s : State) (off size : Nat) (v : Word) : State :=
  if size ≠ 8 ∨ off % 8 ≠ 0 ∨ s.reachable off = false then s
  else if off < 0x1000 then s
  else if off < 0x2000 then controlWrite s (off - 0x1000) v
  else if off < 0x6000 then
    let e := (off - 0x2000) / 0x1000
    s.setHome e (poolWrite (s.home e) (off % 0x1000 / 8) v.toNat)
  else if off < 0x7000 then mailboxWrite s (off - 0x6000) v
  else if off < 0xF000 then nonceWrite s (off - 0x7000) v
  else if 0x10000 ≤ off ∧ off < 0x20000 then
    { s with sys := { s.sys with window := Mem.writeL s.sys.window (off - 0x10000) (leBytes 8 v.toNat) } }
  else if 0x40000 ≤ off ∧ off < 0x80000 then standWrite s ((off - 0x40000) / 0x1000) (off % 0x1000) v
  else if 0x1000000 ≤ off ∧ off < 0x2000000 ∧ off % 0x1000 = 0 then wakePage s ((off - 0x1000000) / 0x1000) v
  else s

/-- BAR0_REGISTER_WRITE (14_system.md R390, R392, R393, R395). -/
def execBar0RegisterWrite (a : BarAccess) (v : Word) (s : State) : Res := .next (bar0Write s a.off a.size v)

/-- WAKE_PAGE_WRITE (14_system.md R394): to the wake page of queue obj. -/
def execWakePageWrite (v : Word) (s : State) : Res := .next (if s.sys.state = 2 then s else wakePage s s.obj v)

/-- NONCE_WRITE (14_system.md R403): off counts from the start of the identity and attestation region. -/
def execNonceWrite (off : Nat) (v : Word) (s : State) : Res := .next (nonceWrite s off v)

/-- SIGNATURE_READY (14_system.md R403). -/
def execSignatureReady (s : State) : Res :=
  .next (if s.sys.atstat = 1 then
      { s with sys := { s.sys with
          sig := Config.signature s.quote, idx := BitVec.ofNat 64 (s.sys.otk - 1), atstat := 2 } }
    else s)

/-- Eight bytes of a list as a register. -/
def regAt (l : List Byte) (off : Nat) : Word := BitVec.ofNat 64 (leAt l off 8)

/-- ATSTAT: 3 once every one-time-key index is used (14_system.md R403; log entry 80). -/
def State.atstat (s : State) : Nat := if 2 ^ 20 ≤ s.sys.otk ∧ s.sys.atstat ≠ 1 then 3 else s.sys.atstat

/-- A read of the identity and attestation region (14_system.md R403). -/
def identityRead (s : State) (off : Nat) : Word :=
  let cert := (Config.certificate s.sys.flashC).take 11256
  if off < 0x80 then regAt (Config.identityKey.take 68) off
  else if off < 0x140 then regAt (s.sys.meas.take 192) (off - 0x80)
  else if off = 0x180 then BitVec.ofNat 64 s.atstat
  else if off = 0x188 then s.sys.idx
  else if off = 0x400 then BitVec.ofNat 64 cert.length
  else if 0x408 ≤ off ∧ off < 0x3000 then regAt cert (off - 0x408)
  else if off = 0x3000 then (if s.atstat = 2 then 2820 else 0)
  else if 0x3008 ≤ off ∧ off < 0x3B10 then regAt (s.sys.sig.take 2820) (off - 0x3008)
  else 0

/-- A read of the device information page (14_system.md R391). -/
def infoRead (s : State) (off : Nat) : Word :=
  match off with
  | 0x00 => BitVec.ofNat 64 (0x0100 + s.sys.state * 2 ^ 16 + s.sys.fwB.toNat * 2 ^ 24 + (s.portUp false).toNat * 2 ^ 25
      + (s.portUp true).toNat * 2 ^ 26 + s.sys.dev.toNat * 2 ^ 27)
  | 0x08 => s.sys.fwver
  | 0x10 => s.sys.minver
  | 0x18 => BitVec.ofNat 64 s.sys.nuse
  | _ => 0

/-- A read of the host control page (14_system.md R392). -/
def controlRead (s : State) (off : Nat) : Word :=
  match off with
  | 0x00 => s.sys.ptab
  | 0x08 => s.sys.qtab
  | 0x10 => s.sys.jrnl
  | 0x18 => s.sys.evbase
  | 0x20 => s.sys.evprod.setWidth 64
  | 0x28 => s.sys.evcons.setWidth 64
  | 0x30 => s.sys.plim
  | _ => 0

/-- A read of a stand control page (14_system.md R395). -/
def standRead (s : State) (p off : Nat) : Word :=
  let held : Bool := match s.runOf p with | some r => decide (r.st = .held) | none => false
  if off = 0 then (if held then 1 else 0)
  else if 0x10 ≤ off ∧ off < 0x50 then SMap.get (s.part p).skipm 0 ((off - 0x10) / 8)
  else if off = 0x50 then
    (match s.runOf p with
     | some r => if held then BitVec.ofNat 64 (frameBlock (s.pdesc p) r.adm.frame 0) else 0
     | none => 0)
  else 0

/-- What the host reads at a BAR 0 offset with an aligned 8-byte access; any other access, of size bytes, reads all ones
(14_system.md R390 to R395, R402, R403). -/
def State.bar0Read (s : State) (off size : Nat) : Word :=
  if size ≠ 8 ∨ off % 8 ≠ 0 ∨ s.reachable off = false then BitVec.allOnes 64
  else if off < 0x1000 then infoRead s off
  else if off < 0x2000 then controlRead s (off - 0x1000)
  else if off < 0x6000 then BitVec.ofNat 64 (poolRead (s.home ((off - 0x2000) / 0x1000)) (off % 0x1000 / 8))
  else if off < 0x7000 then
    (match off - 0x6000 with
     | 0x00 => s.sys.cmd
     | 0x08 => s.sys.arg
     | 0x10 => BitVec.ofNat 64 s.sys.mstat
     | _ => 0)
  else if off < 0xF000 then identityRead s (off - 0x7000)
  else if 0x10000 ≤ off ∧ off < 0x20000 then BitVec.ofNat 64 (Mem.le s.sys.window (off - 0x10000) 8)
  else if 0x40000 ≤ off ∧ off < 0x80000 then standRead s ((off - 0x40000) / 0x1000) (off % 0x1000)
  else if 0x1000000 ≤ off ∧ off < 0x2000000 ∧ off % 0x1000 = 0 then
    let k := s.queue ((off - 0x1000000) / 0x1000)
    BitVec.ofNat 64 (k.fidx + 65536 * k.cidx)
  else 0

/-! ### Boot (14_system.md R400, R401; 03_encoding.md R87, R88) -/

/-- SLMAP of a core with the engines of PRESENT (03_encoding.md R87, R88). -/
def slmapOf (present : BitVec 9) : BitVec 17 :=
  let on (b : Bool) (i : Nat) : Nat := if b then 2 ^ i else 0
  BitVec.ofNat 17 (present.toNat + on (!present.getLsbD 7) 14 + on (!present.getLsbD 6) 13 + on (!present.getLsbD 3) 15
    + on (!present.getLsbD 2) 16)

/-- The flits in transit that are the command processor's own writes. -/
def State.ownFlits (s : State) : List Flit :=
  s.air.filter (fun f => match f.load with | .req r => decide (r.org = cpOwn) | .send _ | .notice _ _ _ _ | .coll _ => false)

/-- The recovery state: STATE 2, every core parked, no job runs, no traffic but the command processor's own writes, which wait
(14_system.md R401; log entry 83); the host writes held for the stands are applied (05_local_memory.md R164, R165). -/
def enterRecovery (s0 : State) : State :=
  let s := (s0.parts.filter (fun p => p.2.run.isSome)).foldl (fun t p => applyIngress t p.1) s0
  { s with
    air := s.ownFlits, stops := [], uses := [],
    sys := { s.sys with state := 2, takeover := false, abroad := [] },
    cores := s.cores.map (fun (c : Nat × Core) => (c.1, { c.2 with seq := .idle })),
    parts := s.parts.map (fun (p : Nat × Part) => (p.1, { p.2 with
      run := none, adms := p.2.adms ++ (match p.2.run with | some r => [r.adm] | none => []) })) }

/-- Whether a firmware slot may run: authentic, and of a version not below MINVER (14_system.md R400, R402). -/
def slotValid (s : State) (l : List Byte) : Bool :=
  Config.firmwareAuthentic l && decide (s.sys.minver.toNat ≤ (Config.firmwareVersion l).toNat)

/-- The slot that runs: true for B; none where neither is valid (14_system.md R400). -/
def bootSlot (s : State) : Option Bool :=
  match slotValid s s.sys.flashA, slotValid s s.sys.flashB with
  | true, true => some (decide ((Config.firmwareVersion s.sys.flashA).toNat < (Config.firmwareVersion s.sys.flashB).toNat))
  | true, false => some false
  | false, true => some true
  | false, false => none

/-- A link state event (14_system.md R396, R398). -/
def linkEvent (s : State) (l : Nat) (up : Bool) : State :=
  s.sendEvent 7 (stopOfEdge (l / 4)) (11 + l % 4) (leBytes 8 l ++ leBytes 8 up.toNat)

/-- The width that a CXL port trains at: any from x4 to x16, as the link partner offers (14_system.md R388). -/
def trainWidth (w : Nat) : Nat := if w = 4 ∨ w = 8 ∨ w = 16 then w else 0

/-- The links and ports train: a port at the width its partner offers, and every pod link, each with its event (14_system.md R388,
R398, R400 step 5). -/
def trainLinks (s : State) : State :=
  let t := ((List.range 16).filter (fun l => !s.linkUp l)).foldl (fun t l => linkEvent t l true) s
  { t with sys := { t.sys with
      links := SMap.fill t.sys.links false 0 16 (fun _ => true),
      port0 := if t.sys.port0 ≠ 0 then t.sys.port0 else trainWidth (Config.partnerWidth false),
      port2 := if t.sys.port2 ≠ 0 then t.sys.port2 else trainWidth (Config.partnerWidth true) } }

/-- The firmware starts the device: SLMAP of every core, DEV, NUSE, the ports and pod links, STATE (14_system.md R400 step 5). -/
def startDevice (s : State) (b : Bool) : State :=
  let f := if b then s.sys.flashB else s.sys.flashA
  let t : State := { s with cores := s.cores.fill Core.idle 0 512 (fun n =>
    { s.core n with slmap := slmapOf (Config.configPresent s.sys.flashC n) }) }
  let u := trainLinks t
  { u with sys := { u.sys with
      state := 1, fwB := b, fwver := Config.firmwareVersion f, dev := Config.configDev s.sys.flashC,
      nuse := ((List.range 64).map (fun e => (u.usableIn e).length)).sum } }

/-- The boot ROM's steps (14_system.md R400, R401, R403). -/
def boot (s : State) : State :=
  let t : State := { s with sys := { s.sys with
    meas := shake256 s.sys.flashC 64 ++ shake256 s.sys.flashA 64 ++ shake256 s.sys.flashB 64 } }
  if Config.configAuthentic t.sys.flashC then
    match bootSlot t with
    | some b => startDevice t b
    | none => enterRecovery t
  else enterRecovery t

/-- POWER_ON_BOOT (14_system.md R400): while the device is booting. -/
def execPowerOnBoot (s : State) : Res := .next (if s.sys.state = 0 then boot s else s)

/-! ### Warm reset (13_queues.md R386; 14_system.md R400) -/

/-- A packet at a warm reset, by its journal record: complete and not started ones stay as they are. -/
def resetPkt (s : State) (q : Nat) (p : Pkt) : Pkt :=
  let recd := s.journal.any (fun r => decide (r.q = q ∧ r.seq = p.seq) && r.performed)
  let unfinished := p.started && (p.status.isNone || (s.pending (.pkt q) && !recd))
  let again : Pkt :=
    { p with started := false, status := none, acks := [], failed := false, image := none, since := none, old := none, result := 0 }
  if !unfinished ∨ pktType p.body = 0x01 then p
  else if pktType p.body = 0x05 ∧ leAt p.body 0x21 1 = 1 then { p with status := some (if recd then 0 else 4) }
  else again

/-- A LAUNCH of partition p that had started and does not run at the reset completes INTERRUPTED (13_queues.md R360, R386). -/
def interrupt (p : Nat) (s : State) (x : Adm) : State :=
  (s.setPkt x.q x.seq (fun k =>
    { k with status := some 4, usedC := x.usedC, usedB := x.usedB, usedX := x.usedX, dline := x.d, aflb := aflSaved s p x,
             cfl := (if x.d < s.now then cflLate else 0) ||| (if x.replayed then cflReplayed else 0) })).setRec x.q x.seq (fun r => { r with complete := true })

/-- The jobs of a partition at a warm reset: a started one runs again or is interrupted. -/
def resetPart (s : State) (p : Nat) : State :=
  let s1 := match s.runOf p with
    | none => s
    | some r => if r.adm.desc.replayable then replayRun s p else endRun (discardJob s p r.cores) p r 4 0 0
  let o := s1.part p
  let stops (x : Adm) : Bool := x.started && !x.desc.replayable
  let s2 := (o.adms.filter stops).foldl (interrupt p) s1
  s2.setPart p { s2.part p with
    adms := (o.adms.filter (fun x => !stops x)).map (fun x => if x.started then x.again else x),
    outgoing := none, saved := [], skipm := [] }

/-- A home at a warm reset: main memory, its pool and its registers stay, and the writes of the host and of the command processor
itself that wait (05_local_memory.md R165; log entry 83); what else was in flight is gone (log entry 35). -/
def Home.warm (h : Home) : Home :=
  let own (r : Req) : Bool := decide (r.org = cpOwn)
  { h with
    tlb := h.tlb.filter (·.locked), walks := [], held := h.held.filter own, slog := h.slog.filter own,
    exph := h.exph.filter (fun e => e.req.all own), mighold := h.mighold.filter own, fwded := h.fwded.filter (fun f => own f.req),
    migs := h.migs.filter (·.published) }

/-- The reset itself, before the boot ROM runs: memory, journal, queues and admitted jobs stay (13_queues.md R386; log entry
35). -/
def warmState (s : State) : State :=
  let t := (List.range 64).foldl resetPart s
  let t1 : State := { t with
    queues := t.queues.map (fun (k : Nat × Queue) => (k.1, { k.2 with
      fetched := [], pkts := k.2.pkts.map (resetPkt s k.1) })) }
  let t2 := (t1.journal.filter (fun r => r.started && !r.complete)).foldl (fun u r => u.setRec r.q r.seq (fun x => { x with started := false })) t1
  { t2 with
    cores := [],
    quads := [],
    stops := [],
    air := t2.ownFlits,
    uses := [],
    taken := [],
    homes := t2.homes.map (fun (h : Nat × Home) => (h.1, h.2.warm)),
    sys := { t2.sys with
      state := 0, cmd := 0, arg := 0, mstat := 0, running := none, erased := none, window := [], atstat := 0, nonce := [],
      sig := [], locked := false, syncs := 0, dtskew := BitVec.allOnes 64, activeB := false, bole0 := true, bole1 := true,
      takeover := false, twigs := [], ats := [], pageReqs := [] } }

/-- WARM_RESET (13_queues.md R386; 14_system.md R400). -/
def execWarmReset (s : State) : Res := .next (boot (warmState s))

/-! ### The recovery mailbox (14_system.md R402) -/

/-- A flash region: 0 slot A, 1 slot B, 2 configuration block. -/
def Sys.flash (y : Sys) (n : Nat) : List Byte :=
  match n with
  | 0 => y.flashA
  | 1 => y.flashB
  | _ => y.flashC

/-- The registers with a flash region replaced. -/
def Sys.setFlash (y : Sys) (n : Nat) (l : List Byte) : Sys :=
  match n with
  | 0 => { y with flashA := l }
  | 1 => { y with flashB := l }
  | _ => { y with flashC := l }

/-- The slot that runs is protected (14_system.md R402). -/
def State.slotRuns (s : State) (n : Nat) : Bool := decide (s.sys.state = 1 ∧ n = s.sys.fwB.toNat)

/-- A mailbox command whose effect has not happened yet. -/
def State.mailbox (s : State) (c : Word) : Bool := decide (s.sys.mstat = 1 ∧ s.sys.running = none ∧ s.sys.cmd = c)

/-- MAILBOX_ERASE (14_system.md R402). -/
def execMailboxErase (s : State) : Res :=
  .next (if s.mailbox 1 then
      let n := s.sys.arg.toNat
      if 3 ≤ n ∨ s.slotRuns n = true then { s with sys := { s.sys with running := some ⟨false⟩ } }
      else
        { s with sys := { s.sys.setFlash n (List.replicate (Config.regionSize n) Config.erasedByte) with
            erased := some n, running := some ⟨true⟩ } }
    else s)

/-- MAILBOX_PROGRAM (14_system.md R402): the 64 KiB of the flash-update window at byte ARG of the erased region. -/
def execMailboxProgram (s : State) : Res :=
  .next (if s.mailbox 2 then
      match s.sys.erased with
      | some n =>
        let o := s.sys.arg.toNat
        let l := s.sys.flash n
        if s.slotRuns n = true ∨ l.length < o + 0x10000 then { s with sys := { s.sys with running := some ⟨false⟩ } }
        else
          { s with sys := { s.sys.setFlash n (l.take o ++ Mem.readN s.sys.window 0 0x10000 ++ l.drop (o + 0x10000)) with
              running := some ⟨true⟩ } }
      | none => { s with sys := { s.sys with running := some ⟨false⟩ } }
    else s)

/-- MAILBOX_COMMITVER (14_system.md R402): MINVER never decreases. -/
def execMailboxCommitver (s : State) : Res :=
  .next (if s.mailbox 3 then
      if s.sys.state = 1 then
        { s with sys := { s.sys with
            minver := if s.sys.minver.toNat < s.sys.fwver.toNat then s.sys.fwver else s.sys.minver, running := some ⟨true⟩ } }
      else { s with sys := { s.sys with running := some ⟨false⟩ } }
    else s)

/-- MAILBOX_RESET (14_system.md R402): a warm reset. -/
def execMailboxReset (s : State) : Res := .next (if s.mailbox 4 then boot (warmState s) else s)

/-- MAILBOX_COMMAND_DONE (14_system.md R402): other command values fail. -/
def execMailboxCommandDone (s : State) : Res :=
  .next (if s.sys.mstat = 1 then
      match s.sys.running with
      | some r => { s with sys := { s.sys with mstat := if r.ok then 0 else 2, running := none } }
      | none =>
        if 1 ≤ s.sys.cmd.toNat ∧ s.sys.cmd.toNat ≤ 4 then s else { s with sys := { s.sys with mstat := 2 } }
    else s)

/-! ### Take-over (13_queues.md R385, R387) -/

/-- The active bole core fails: the standby takes over, or both have failed and the device is in the recovery state. -/
def boleFails (s : State) : State :=
  let y := if s.sys.activeB then { s.sys with bole1 := false } else { s.sys with bole0 := false }
  if y.bole0 || y.bole1 then
    (({ s with sys := { y with takeover := true, activeB := !s.sys.activeB } } : State).sendEvent 6 0xFF 16 [])
  else enterRecovery { s with sys := y }

/-- HEARTBEAT_MISS (13_queues.md R385): the active bole core has missed three heartbeats of 10 µs. -/
def execHeartbeatMiss (s : State) : Res := .next (boleFails s)

/-- BOLE_CORE_ERROR (13_queues.md R385, R387). -/
def execBoleCoreError (s : State) : Res := .next (boleFails s)

/-- BOLE_TAKEOVER (13_queues.md R385): the wake words are read afresh and held completions are released in record order. -/
def execBoleTakeover (s : State) : Res :=
  .next (if s.sys.takeover = true ∧ s.sys.state = 1 then
      let t : State := { s with sys := { s.sys with takeover := false } }
      let t1 := (List.range 4096).foldl readWake t
      t1.journal.foldl (fun (u : State) r =>
        match (u.queue r.q).pkts with
        | p :: _ => if p.seq = r.seq then writeEntry u r.q else u
        | [] => u) t1
    else s)

/-- TWIG_FAILOVER (13_queues.md R349): twig core obj fails; what its queues have fetched and not decoded is fetched again. -/
def execTwigFailover (s : State) : Res :=
  .next { s with
    sys := { s.sys with twigs := SMap.set s.sys.twigs false s.obj true },
    queues := s.queues.map (fun (k : Nat × Queue) =>
      (k.1, if s.twigOf k.1 = some s.obj then { k.2 with fetched := [] } else k.2)) }

/-! ### Links and ports (14_system.md R388, R398) -/

/-- The collective uses of pod scope with a rank that has no way to other modules left end with LINKDOWN (14_system.md R398). -/
def downUses (s : State) : State :=
  (List.range s.uses.length).reverse.foldl (fun t i =>
    match t.uses[i]? with
    | some u => if t.useCut u then finishUse t i 7 0 else t
    | none => t) s

/-- What waits at the ports of an edge die is put to its other links; requests without one are lost (14_system.md R398). -/
def reroute (s : State) (e : Nat) : State :=
  (List.range 4).foldl (fun (t : State) i =>
    let l := 4 * e + i
    if t.linkUp l then t
    else
      let x := t.stop (stopOfLink l)
      x.wait.foldl (fun (u : State) f =>
        match f.load with
        | .req r => sendAway u r
        | _ => (match u.podLink e with
          | some k => u.putFlit (stopOfLink k) f
          | none => { u with air := u.air ++ [f] })) (t.setStop (stopOfLink l) { x with wait := [] })) s

/-- The jobs whose request is in another module, reached by an edge die without a link left, end with LINKDOWN (14_system.md R398;
09_copy_collective.md R247). -/
def downJobs (s : State) (e : Nat) : State :=
  { s with cores := s.cores.map (fun (x : Nat × Core) =>
      if edgeOfDie (dieOf x.1) ≠ e then x
      else (x.1, { x.2 with jobs := x.2.jobs.map (fun j =>
        if j.asked && !s.pending (.job x.1 j.tag) && !s.pending (.coll x.1 j.tag) then
          { j with asked := false, held := false, ended := if j.ended.isNone then some 7 else j.ended }
        else j) })) }

/-- POD_LINK_FAIL (14_system.md R398): pod link obj fails and retrains once, with success or not. -/
def execPodLinkFail (ok : Bool) (s : State) : Res :=
  .next (if 16 ≤ s.obj then s
    else
      let t := if s.linkUp s.obj then linkEvent s s.obj false else s
      if ok then linkEvent ({ t with sys := { t.sys with links := SMap.set t.sys.links false s.obj true } }) s.obj true
      else
        let t1 : State := { t with sys := { t.sys with links := SMap.set t.sys.links false s.obj false } }
        let t2 := reroute t1 (s.obj / 4)
        if t2.edgeUp (s.obj / 4) then t2 else downJobs (downUses t2) (s.obj / 4))

/-- CXL_PORT_TRAIN (14_system.md R388): at a width from x4 to x16; the port of edge die 0, or of edge die 2. -/
def execCxlPortTrain (port : Bool) (width : Nat) (s : State) : Res :=
  .next (if trainWidth width ≠ 0 then
      { s with sys := if port then { s.sys with port2 := width } else { s.sys with port0 := width } }
    else s)

/-! ### Soft errors (14_system.md R405) -/

/-- PATROL_SCRUB (14_system.md R405): a visit of edge die obj's quadrant that corrects and counts errors; a corrected error
changes no data. -/
def execPatrolScrub (found : Nat) (s : State) : Res :=
  .next (if 4 ≤ s.obj then s
    else s.setHome s.obj { s.home s.obj with corrected := (s.home s.obj).corrected + found })

/-- CORRECTED_ERROR_SUMMARY (14_system.md R405): of edge die obj, at most once per second. -/
def execCorrectedErrorSummary (s : State) : Res :=
  .next (let h := s.home s.obj
    if 4 ≤ s.obj ∨ (match h.summed with | some t => decide (s.nowAt s.obj < t + 1000000000) | none => false) = true then s
    else (s.setHome s.obj { h with summed := some (s.nowAt s.obj) }).sendEvent 8 (stopOfEdge s.obj) 9 (leBytes 8 s.obj ++ leBytes 8 h.corrected))

end Sys2Proof.Machine
end

