-- ==== Sys2Proof/Machine/Vec.lean ====
section
/-! DEFINITION. The two vector engines and their 72 triggers (06_vector.md R166 to R192). -/

namespace Sys2Proof.Machine

/-- The operands of a VEC trigger, and RMODE and QCFG at its issue (06_vector.md R166; 04_scalar_control.md R134). -/
structure VIn where
  a : VecW
  c : VecW
  b : VecW
  m : MaskW
  k : Nat
  rm : RM
  qcfg : BitVec 5
  deriving DecidableEq, Repr

/-- vecN.r of a unit. -/
def vecR : VUnit → RPort
  | .v0 => .vec0R | .v1 => .vec1R
/-- vecN.m of a unit. -/
def vecM : VUnit → RPort
  | .v0 => .vec0M | .v1 => .vec1M
/-- vecN.s of a unit. -/
def vecS : VUnit → RPort
  | .v0 => .vec0S | .v1 => .vec1S
/-- The number of a unit among the wide accumulators. -/
def vecN : VUnit → Nat
  | .v0 => 0 | .v1 => 1

/-- The operands that a trigger at the head of a VEC queue meets (03_encoding.md R69; 06_vector.md R166). -/
def Core.vecIn (c : Core) (u : VUnit) (en : Entry) (v : Val) : VIn :=
  let p := c.op u.eng
  { a := p.o.toVec, c := p.o2.toVec, b := v.toVec, m := p.m, k := (p.w.extractLsb' 0 2).toNat, rm := en.rmode,
    qcfg := en.qcfg }

/-- A trigger that writes a result port starts (06_vector.md R167 to R169). -/
def Core.vecStart (c : Core) (u : VUnit) (i : Instr) (p : RPort) (f : VIn → Val × Byte) : Core :=
  match c.headTrig u.eng i with
  | some (en, v) =>
    let r := f (c.vecIn u en v)
    (c.popHead u.eng).launchResult en u.eng (some p) r.1 r.2 false
  | none => c

/-- A VEC trigger with a vector result at the current core. -/
def vecRun (u : VUnit) (i : Instr) (f : VIn → VecW × Byte) (s : State) : Res :=
  .next (s.setMe (s.me.vecStart u i (vecR u) (fun x => (.v (f x).1, (f x).2))))

/-- A VEC trigger with a mask result at the current core. -/
def maskRun (u : VUnit) (i : Instr) (f : VIn → MaskW × Byte) (s : State) : Res :=
  .next (s.setMe (s.me.vecStart u i (vecM u) (fun x => (.m (f x).1, (f x).2))))

/-- A VEC trigger with a 64-bit result at the current core. -/
def scalRun (u : VUnit) (i : Instr) (f : VIn → Word × Byte) (s : State) : Res :=
  .next (s.setMe (s.me.vecStart u i (vecS u) (fun x => (.s (f x).1, (f x).2))))

/-- Every lane by itself, without a flag. -/
def lanewise (f : BitVec 32 → BitVec 32 → BitVec 32 → BitVec 32) (x : VIn) : VecW × Byte :=
  (ofLanes (fun i => f (lane x.a i) (lane x.b i) (lane x.c i)), 0)

/-- Every lane by itself, with its flags, under RMODE (06_vector.md R168). -/
def lanewiseF (f : RM → BitVec 32 → BitVec 32 → BitVec 32 → BitVec 32 × Byte) (x : VIn) : VecW × Byte :=
  (ofLanes (fun i => (f x.rm (lane x.a i) (lane x.b i) (lane x.c i)).1),
    orAll 128 (fun i => (f x.rm (lane x.a i) (lane x.b i) (lane x.c i)).2))

/-- A comparison of every lane, with its flags (06_vector.md R173). -/
def lanewiseM (f : BitVec 32 → BitVec 32 → Bool × Byte) (x : VIn) : MaskW × Byte :=
  (ofBits (fun i => (f (lane x.a i) (lane x.b i)).1), orAll 128 (fun i => (f (lane x.a i) (lane x.b i)).2))

/-! ### Lane functions -/

/-- iabs: the most negative value saturates and sets IV (06_vector.md R172). -/
def iabs (b : BitVec 32) : BitVec 32 × Byte :=
  if b = 0x80000000 then (0x7FFFFFFF, fIV) else (BitVec.ofNat 32 b.toInt.natAbs, 0)

/-- One bits of a lane. -/
def popLane (b : BitVec 32) : BitVec 32 := BitVec.ofNat 32 ((List.range 32).countP (fun i => b.getLsbD i))

/-- Leading zero bits of a lane; 32 for 0 (06_vector.md R172). -/
def clzLane (b : BitVec 32) : BitVec 32 := if b = 0 then 32 else BitVec.ofNat 32 (31 - b.toNat.log2)

/-- A FP32 comparison; a NaN makes it false, and sets NV if it is signalling or the comparison is ordered
(06_vector.md R173). -/
def fcmp (ordered : Bool) (p : BitVec 32 → BitVec 32 → Bool) (a b : BitVec 32) : Bool × Byte :=
  if (un32 a).isNan || (un32 b).isNan then
    (false, flagIf (ordered || decide (un32 a = .nan true) || decide (un32 b = .nan true)) fNV)
  else (p a b, 0)

/-- Equality of FP32 values that are no NaN: +0 equals -0. -/
def feq (a b : BitVec 32) : Bool := decide (a = b) || ((un32 a).isZero && (un32 b).isZero)

/-- Order of FP32 values that are no NaN. -/
def flt (a b : BitVec 32) : Bool := decide (fkey a < fkey b) && !((un32 a).isZero && (un32 b).isZero)

/-- f2i of a lane (06_vector.md R178; 02_numbers.md R51). -/
def f2iLane (x : VIn) (b : BitVec 32) : BitVec 32 × Byte :=
  let r := toIntFmt x.rm (x.qcfg.getLsbD 0) 32 (un32 b)
  (BitVec.ofInt 32 r.1, r.2)

/-- i2f of a lane (06_vector.md R178). -/
def i2fLane (rm : RM) (b : BitVec 32) : BitVec 32 × Byte :=
  if b = 0 then (0, 0) else mk32 (fp32.roundInt rm b.toInt 0)

/-- The carry-less product of two lanes (06_vector.md R192). -/
def clprod (a b : BitVec 32) : BitVec 64 :=
  (List.range 32).foldl (fun acc j => if b.getLsbD j then acc ^^^ (a.setWidth 64 <<< j) else acc) 0

/-- f2bf (06_vector.md R179): half h. -/
def f2bfHalf (x : VIn) (h : Nat) : BitVec 16 × Byte :=
  narrowBf x.rm (if h < 128 then lane x.a h else lane x.b (h - 128))

/-- narrow (06_vector.md R180): element j of the destination as its bits and IV. -/
def narrowEl (x : VIn) (j : Nat) : Int × Byte :=
  let isat := x.qcfg.getLsbD 0
  let src := fun (n : Nat) => if j < n then (x.a, j) else (x.b, j - n)
  match ((lane x.c 0).extractLsb' 0 2).toNat with
  | 0 => let s := src 128; narrowInt isat (-32768) 32767 (lane s.1 s.2).toInt
  | 1 => let s := src 128; narrowInt isat 0 65535 ((lane s.1 s.2).toNat : Int)
  | 2 => let s := src 256; narrowInt isat (-128) 127 (half s.1 s.2).toInt
  | _ => let s := src 256; narrowInt isat 0 255 ((half s.1 s.2).toNat : Int)

/-- narrow (06_vector.md R180). -/
def narrowVec (x : VIn) : VecW × Byte :=
  if ((lane x.c 0).extractLsb' 0 2).toNat < 2 then
    (ofHalves (fun j => BitVec.ofInt 16 (narrowEl x j).1), orAll 256 (fun j => (narrowEl x j).2))
  else
    (ofBytes (fun j => BitVec.ofInt 8 (narrowEl x j).1), orAll 512 (fun j => (narrowEl x j).2))

/-- widen (06_vector.md R181). -/
def widenVec (x : VIn) : VecW × Byte :=
  let b := x.b
  (match ((lane x.c 0).extractLsb' 0 3).toNat with
   | 0 => ofLanes (fun i => (half b i).signExtend 32)
   | 1 => ofLanes (fun i => (half b (128 + i)).signExtend 32)
   | 2 => ofLanes (fun i => (half b i).setWidth 32)
   | 3 => ofLanes (fun i => (half b (128 + i)).setWidth 32)
   | 4 => ofHalves (fun i => (vbyte b i).signExtend 16)
   | 5 => ofHalves (fun i => (vbyte b (256 + i)).signExtend 16)
   | 6 => ofHalves (fun i => (vbyte b i).setWidth 16)
   | _ => ofHalves (fun i => (vbyte b (256 + i)).setWidth 16), 0)

/-- The elements of block j, the mask's lanes as padding (06_vector.md R182). -/
def blockEls (x : VIn) (j : Nat) : List QEl :=
  (List.range 32).map (fun e => qElOf (x.m.getLsbD (32 * j + e)) (lane x.b (32 * j + e)))

/-- bmax of a block (06_vector.md R183). -/
def bmaxLane (l : List QEl) (infs : Bool) : BitVec 32 × Byte :=
  if l.any (fun e => decide (e = .special true)) then (0x7FC00000, fNV)
  else if infs then (0x7F800000, 0)
  else if hasSpecial l then (0x7FC00000, 0)
  else (BitVec.ofNat 32 (fp32.round 0 false (amaxOf l) (-149) false).1, 0)

/-- Whether a block has an infinite lane and no NaN (06_vector.md R183). -/
def blockInf (x : VIn) (j : Nat) : Bool :=
  let ls := ((List.range 32).filter (fun e => !x.m.getLsbD (32 * j + e))).map (fun e => un32 (lane x.b (32 * j + e)))
  ls.any (fun f => match f with | .inf _ => true | _ => false) && !ls.any (·.isNan)

/-- A value per block in lanes 0 to 3 (06_vector.md R183). -/
def perBlock (f : Nat → BitVec 32 × Byte) : VecW × Byte :=
  (ofLanes (fun i => if i < 4 then (f i).1 else 0), orAll 4 (fun i => (f i).2))

/-- qscale of a block (06_vector.md R183). -/
def qscaleLane (ib8 : Bool) (l : List QEl) : BitVec 32 × Byte :=
  if hasSpecial l then (0x3FF, fNV)
  else if amaxOf l = 0 then (0, 0)
  else (BitVec.ofNat 32 (autoScale ib8 (amaxOf l)), 0)

/-- Four quantised blocks in the low bytes (06_vector.md R184). -/
def quantVec (ib8 : Bool) (x : VIn) : VecW × Byte :=
  let q (j : Nat) : QBlock := quantise ib8 x.qcfg (blockEls x j) ((lane x.a j).extractLsb' 0 10).toNat
  let bytes := (List.range 4).flatMap (fun j => if ib8 then ib8Bytes (q j) else fa4Bytes (q j))
  (ofBytes (fun i => bytes.getD i 0), orAll 4 (fun j => (q j).flags))

/-- Four blocks dequantised (06_vector.md R185). -/
def dequantVec (ib8 : Bool) (x : VIn) : VecW × Byte :=
  let size := if ib8 then 34 else 18
  let blk (j : Nat) : List Byte := (List.range size).map (fun i => vbyte x.b (size * j + i))
  let r (i : Nat) : Nat × Byte := dequant fp32 x.rm ib8 (blk (i / 32)) (i % 32)
  (ofLanes (fun i => BitVec.ofNat 32 (r i).1), orAll 128 (fun i => (r i).2))

/-! ### Wide accumulators (06_vector.md R186 to R189) -/

/-- Lane i of accumulator k of a unit. -/
def Core.wlane (c : Core) (u : VUnit) (k i : Nat) : WLane := c.ctx.wide.get WLane.zero (vecN u * 512 + k * 128 + i)

/-- Whether an accumulator holds an uncorrectable error (06_vector.md R168). -/
def Core.wideBad (c : Core) (u : VUnit) (k : Nat) : Bool :=
  c.bad.wide.any (fun n => decide (n / 128 = vecN u * 4 + k))

/-- Accumulator k of a unit with its 128 lanes replaced. An uncorrectable error known of it stays known until the core resumes
(06_vector.md R168; log entry 76). -/
def Core.setWide (c : Core) (u : VUnit) (k : Nat) (f : Nat → WLane) : Core :=
  { c with ctx := { c.ctx with wide := c.ctx.wide.fill WLane.zero (vecN u * 512 + k * 128) 128 f } }

/-- A trigger that updates accumulator k starts: it acts in queue order, and its flags set when its full effect is taken
(06_vector.md R168, R187, R189). -/
def Core.wideStart (c : Core) (u : VUnit) (i : Instr) (reads : VIn → List Nat) (f : VIn → Nat → WLane × Byte) : Core :=
  match c.headTrig u.eng i with
  | none => c
  | some (en, v) =>
    let x := c.vecIn u en v
    if (reads x).any (c.wideBad u) then c.trapHead u.eng en Cause.ECC_REGFILE 0
    else
      ((c.popHead u.eng).setWide u x.k (fun n => (f x n).1)).launchResult en u.eng none (.s 0)
        (orAll 128 (fun n => (f x n).2)) false

/-- An accumulating trigger at the current core. -/
def wideRun (u : VUnit) (i : Instr) (reads : VIn → List Nat) (f : Core → VIn → Nat → WLane × Byte) (s : State) : Res :=
  .next (s.setMe (s.me.wideStart u i reads (f s.me)))

/-- A trigger that reads accumulator k at the current core (06_vector.md R188). -/
def wgetRun (u : VUnit) (i : Instr) (f : RM → (Nat → WLane) → VecW × Byte) (s : State) : Res :=
  let c := s.me
  match c.headTrig u.eng i with
  | none => .next s
  | some (en, v) =>
    let x := c.vecIn u en v
    if c.wideBad u x.k then .next (s.setMe (c.trapHead u.eng en Cause.ECC_REGFILE 0))
    else .next (s.setMe (c.vecStart u i (vecR u) (fun x => (.v (f x.rm (c.wlane u x.k)).1, (f x.rm (c.wlane u x.k)).2))))

/-- wfold of a lane: y is wj's lane (06_vector.md R187). -/
def foldLane (k j : WLane) : WLane × Byte :=
  let k' := { k with nanf := k.nanf || j.nanf, pinf := k.pinf || j.pinf, ninf := k.ninf || j.ninf }
  if k.satf then (k', 0)
  else if j.satf then ({ k' with x := j.x, satf := true }, fOF)
  else k'.add j.x.toInt

/-- wget: the lanes as FP32 (06_vector.md R188). -/
def wgetVec (rm : RM) (w : Nat → WLane) : VecW × Byte :=
  (ofLanes (fun i => BitVec.ofNat 32 ((w i).read fp32 rm).1), orAll 128 (fun i => ((w i).read fp32 rm).2))

/-- wgetbf: the lanes as BF16 in the low halves (06_vector.md R188). -/
def wgetbfVec (rm : RM) (w : Nat → WLane) : VecW × Byte :=
  (ofHalves (fun i => if i < 128 then BitVec.ofNat 16 ((w i).read bf16 rm).1 else 0),
    orAll 128 (fun i => ((w i).read bf16 rm).2))

/-! ### Reductions (06_vector.md R190) -/

/-- fredsum: the exact sum of all lanes, rounded once (06_vector.md R190). -/
def fredsum (rm : RM) (b : VecW) : Word × Byte :=
  let r := (List.range 128).foldl (fun (acc : WLane × Byte) i =>
    let t := acc.1.addFp false (lane b i)
    (t.1, acc.2 ||| t.2)) (WLane.zero, 0)
  let z := r.1.read fp32 rm
  (BitVec.ofNat 64 z.1, r.2 ||| z.2)

/-- fredmax: the maximum under R176's order, NV for a signalling NaN (06_vector.md R176, R190). -/
def fredmax (b : VecW) : Word × Byte :=
  (((List.range 128).foldl (fun acc i => fmaxW acc (lane b i)) (lane b 0)).setWidth 64,
    snanFlag ((List.range 128).map (lane b)))

/-- VEC_IADD (06_vector.md R172). -/
def execVecIadd (u : VUnit) (m : Mv) (s : State) : Res :=
  vecRun u (.vecIadd u m) (lanewise (fun a b _ => a + b)) s

/-- VEC_ISUB (06_vector.md R172). -/
def execVecIsub (u : VUnit) (m : Mv) (s : State) : Res :=
  vecRun u (.vecIsub u m) (lanewise (fun a b _ => a - b)) s

/-- VEC_IMUL (06_vector.md R172). -/
def execVecImul (u : VUnit) (m : Mv) (s : State) : Res :=
  vecRun u (.vecImul u m) (lanewise (fun a b _ => a * b)) s

/-- VEC_IMULH (06_vector.md R172). -/
def execVecImulh (u : VUnit) (m : Mv) (s : State) : Res :=
  vecRun u (.vecImulh u m) (lanewise (fun a b _ => BitVec.ofInt 32 (a.toInt * b.toInt / 2 ^ 32))) s

/-- VEC_IMAC (06_vector.md R172). -/
def execVecImac (u : VUnit) (m : Mv) (s : State) : Res :=
  vecRun u (.vecImac u m) (lanewise (fun a b c => a * b + c)) s

/-- VEC_IMINS (06_vector.md R172). -/
def execVecImins (u : VUnit) (m : Mv) (s : State) : Res :=
  vecRun u (.vecImins u m) (lanewise (fun a b _ => if a.toInt ≤ b.toInt then a else b)) s

/-- VEC_IMAXS (06_vector.md R172). -/
def execVecImaxs (u : VUnit) (m : Mv) (s : State) : Res :=
  vecRun u (.vecImaxs u m) (lanewise (fun a b _ => if a.toInt ≤ b.toInt then b else a)) s

/-- VEC_IMINN (06_vector.md R172). -/
def execVecIminn (u : VUnit) (m : Mv) (s : State) : Res :=
  vecRun u (.vecIminn u m) (lanewise (fun a b _ => if a.toNat ≤ b.toNat then a else b)) s

/-- VEC_IMAXN (06_vector.md R172). -/
def execVecImaxn (u : VUnit) (m : Mv) (s : State) : Res :=
  vecRun u (.vecImaxn u m) (lanewise (fun a b _ => if a.toNat ≤ b.toNat then b else a)) s

/-- VEC_IABS (06_vector.md R172). -/
def execVecIabs (u : VUnit) (m : Mv) (s : State) : Res :=
  vecRun u (.vecIabs u m) (lanewiseF (fun _ _ b _ => iabs b)) s

/-- VEC_AND (06_vector.md R172). -/
def execVecAnd (u : VUnit) (m : Mv) (s : State) : Res :=
  vecRun u (.vecAnd u m) (lanewise (fun a b _ => a &&& b)) s

/-- VEC_OR (06_vector.md R172). -/
def execVecOr (u : VUnit) (m : Mv) (s : State) : Res :=
  vecRun u (.vecOr u m) (lanewise (fun a b _ => a ||| b)) s

/-- VEC_XOR (06_vector.md R172). -/
def execVecXor (u : VUnit) (m : Mv) (s : State) : Res :=
  vecRun u (.vecXor u m) (lanewise (fun a b _ => a ^^^ b)) s

/-- VEC_ANDN (06_vector.md R172). -/
def execVecAndn (u : VUnit) (m : Mv) (s : State) : Res :=
  vecRun u (.vecAndn u m) (lanewise (fun a b _ => a &&& ~~~b)) s

/-- VEC_SHL (06_vector.md R172). -/
def execVecShl (u : VUnit) (m : Mv) (s : State) : Res :=
  vecRun u (.vecShl u m) (lanewise (fun a b _ => a <<< (b.extractLsb' 0 5).toNat)) s

/-- VEC_SHRL (06_vector.md R172). -/
def execVecShrl (u : VUnit) (m : Mv) (s : State) : Res :=
  vecRun u (.vecShrl u m) (lanewise (fun a b _ => a >>> (b.extractLsb' 0 5).toNat)) s

/-- VEC_SHRA (06_vector.md R172). -/
def execVecShra (u : VUnit) (m : Mv) (s : State) : Res :=
  vecRun u (.vecShra u m) (lanewise (fun a b _ => a.sshiftRight (b.extractLsb' 0 5).toNat)) s

/-- VEC_POPC (06_vector.md R172). -/
def execVecPopc (u : VUnit) (m : Mv) (s : State) : Res :=
  vecRun u (.vecPopc u m) (lanewise (fun _ b _ => popLane b)) s

/-- VEC_CLZ (06_vector.md R172). -/
def execVecClz (u : VUnit) (m : Mv) (s : State) : Res :=
  vecRun u (.vecClz u m) (lanewise (fun _ b _ => clzLane b)) s

/-- VEC_CEQ (06_vector.md R173). -/
def execVecCeq (u : VUnit) (m : Mv) (s : State) : Res :=
  maskRun u (.vecCeq u m) (lanewiseM (fun a b => (decide (a = b), 0))) s

/-- VEC_CLTS (06_vector.md R173). -/
def execVecClts (u : VUnit) (m : Mv) (s : State) : Res :=
  maskRun u (.vecClts u m) (lanewiseM (fun a b => (decide (a.toInt < b.toInt), 0))) s

/-- VEC_CLES (06_vector.md R173). -/
def execVecCles (u : VUnit) (m : Mv) (s : State) : Res :=
  maskRun u (.vecCles u m) (lanewiseM (fun a b => (decide (a.toInt ≤ b.toInt), 0))) s

/-- VEC_FCEQ (06_vector.md R173). -/
def execVecFceq (u : VUnit) (m : Mv) (s : State) : Res :=
  maskRun u (.vecFceq u m) (lanewiseM (fun a b => fcmp false feq a b)) s

/-- VEC_FCLT (06_vector.md R173). -/
def execVecFclt (u : VUnit) (m : Mv) (s : State) : Res :=
  maskRun u (.vecFclt u m) (lanewiseM (fun a b => fcmp true flt a b)) s

/-- VEC_FCLE (06_vector.md R173). -/
def execVecFcle (u : VUnit) (m : Mv) (s : State) : Res :=
  maskRun u (.vecFcle u m) (lanewiseM (fun a b => fcmp true (fun p q => feq p q || flt p q) a b)) s

/-- VEC_SEL (06_vector.md R174). -/
def execVecSel (u : VUnit) (m : Mv) (s : State) : Res :=
  vecRun u (.vecSel u m) (fun x => (ofLanes (fun i => if x.m.getLsbD i then lane x.a i else lane x.b i), 0)) s

/-- VEC_FADD (06_vector.md R175). -/
def execVecFadd (u : VUnit) (m : Mv) (s : State) : Res :=
  vecRun u (.vecFadd u m) (lanewiseF (fun rm a b _ => fadd rm a b)) s

/-- VEC_FSUB (06_vector.md R175). -/
def execVecFsub (u : VUnit) (m : Mv) (s : State) : Res :=
  vecRun u (.vecFsub u m) (lanewiseF (fun rm a b _ => fsub rm a b)) s

/-- VEC_FMUL (06_vector.md R175). -/
def execVecFmul (u : VUnit) (m : Mv) (s : State) : Res :=
  vecRun u (.vecFmul u m) (lanewiseF (fun rm a b _ => fmul rm a b)) s

/-- VEC_FFMA (06_vector.md R175). -/
def execVecFfma (u : VUnit) (m : Mv) (s : State) : Res :=
  vecRun u (.vecFfma u m) (lanewiseF (fun rm a b c => ffma rm a b c)) s

/-- VEC_FMIN (06_vector.md R176). -/
def execVecFmin (u : VUnit) (m : Mv) (s : State) : Res :=
  vecRun u (.vecFmin u m) (lanewiseF (fun _ a b _ => (fminW a b, snanFlag [a, b]))) s

/-- VEC_FMAX (06_vector.md R176). -/
def execVecFmax (u : VUnit) (m : Mv) (s : State) : Res :=
  vecRun u (.vecFmax u m) (lanewiseF (fun _ a b _ => (fmaxW a b, snanFlag [a, b]))) s

/-- VEC_FABS (06_vector.md R176). -/
def execVecFabs (u : VUnit) (m : Mv) (s : State) : Res :=
  vecRun u (.vecFabs u m) (lanewiseF (fun _ _ b _ => fsign (fun w => w &&& 0x7FFFFFFF) b)) s

/-- VEC_FNEG (06_vector.md R176). -/
def execVecFneg (u : VUnit) (m : Mv) (s : State) : Res :=
  vecRun u (.vecFneg u m) (lanewiseF (fun _ _ b _ => fsign flipSign b)) s

/-- VEC_FRCP (06_vector.md R177). -/
def execVecFrcp (u : VUnit) (m : Mv) (s : State) : Res :=
  vecRun u (.vecFrcp u m) (lanewiseF (fun rm _ b _ => frcp rm b)) s

/-- VEC_FRSQ (06_vector.md R177). -/
def execVecFrsq (u : VUnit) (m : Mv) (s : State) : Res :=
  vecRun u (.vecFrsq u m) (lanewiseF (fun rm _ b _ => frsq rm b)) s

/-- VEC_FEXP2 (06_vector.md R177). -/
def execVecFexp2 (u : VUnit) (m : Mv) (s : State) : Res :=
  vecRun u (.vecFexp2 u m) (lanewiseF (fun rm _ b _ => fexp2 rm b)) s

/-- VEC_FLOG2 (06_vector.md R177). -/
def execVecFlog2 (u : VUnit) (m : Mv) (s : State) : Res :=
  vecRun u (.vecFlog2 u m) (lanewiseF (fun rm _ b _ => flog2 rm b)) s

/-- VEC_FSQRT (06_vector.md R177). -/
def execVecFsqrt (u : VUnit) (m : Mv) (s : State) : Res :=
  vecRun u (.vecFsqrt u m) (lanewiseF (fun rm _ b _ => fsqrt rm b)) s

/-- VEC_F2I (06_vector.md R178). -/
def execVecF2i (u : VUnit) (m : Mv) (s : State) : Res :=
  vecRun u (.vecF2i u m) (fun x => lanewiseF (fun _ _ b _ => f2iLane x b) x) s

/-- VEC_I2F (06_vector.md R178). -/
def execVecI2f (u : VUnit) (m : Mv) (s : State) : Res :=
  vecRun u (.vecI2f u m) (lanewiseF (fun rm _ b _ => i2fLane rm b)) s

/-- VEC_F2BF (06_vector.md R179). -/
def execVecF2bf (u : VUnit) (m : Mv) (s : State) : Res :=
  vecRun u (.vecF2bf u m) (fun x => (ofHalves (fun h => (f2bfHalf x h).1), orAll 256 (fun h => (f2bfHalf x h).2))) s

/-- VEC_BF2FL (06_vector.md R179). -/
def execVecBf2fl (u : VUnit) (m : Mv) (s : State) : Res :=
  vecRun u (.vecBf2fl u m) (fun x => (ofLanes (fun i => (widenBf (half x.b i)).1), orAll 128 (fun i => (widenBf (half x.b i)).2))) s

/-- VEC_BF2FH (06_vector.md R179). -/
def execVecBf2fh (u : VUnit) (m : Mv) (s : State) : Res :=
  vecRun u (.vecBf2fh u m) (fun x => (ofLanes (fun i => (widenBf (half x.b (128 + i))).1), orAll 128 (fun i => (widenBf (half x.b (128 + i))).2))) s

/-- VEC_NARROW (06_vector.md R180). -/
def execVecNarrow (u : VUnit) (m : Mv) (s : State) : Res :=
  vecRun u (.vecNarrow u m) narrowVec s

/-- VEC_WIDEN (06_vector.md R181). -/
def execVecWiden (u : VUnit) (m : Mv) (s : State) : Res :=
  vecRun u (.vecWiden u m) widenVec s

/-- VEC_BMAX (06_vector.md R183). -/
def execVecBmax (u : VUnit) (m : Mv) (s : State) : Res :=
  vecRun u (.vecBmax u m) (fun x => perBlock (fun j => bmaxLane (blockEls x j) (blockInf x j))) s

/-- VEC_QSCALE (06_vector.md R183). -/
def execVecQscale (u : VUnit) (m : Mv) (s : State) : Res :=
  vecRun u (.vecQscale u m) (fun x => perBlock (fun j => qscaleLane ((lane x.c 0).getLsbD 0) (blockEls x j))) s

/-- VEC_QFA4 (06_vector.md R184). -/
def execVecQfa4 (u : VUnit) (m : Mv) (s : State) : Res :=
  vecRun u (.vecQfa4 u m) (quantVec false) s

/-- VEC_QIB8 (06_vector.md R184). -/
def execVecQib8 (u : VUnit) (m : Mv) (s : State) : Res :=
  vecRun u (.vecQib8 u m) (quantVec true) s

/-- VEC_DQFA4 (06_vector.md R185). -/
def execVecDqfa4 (u : VUnit) (m : Mv) (s : State) : Res :=
  vecRun u (.vecDqfa4 u m) (dequantVec false) s

/-- VEC_DQIB8 (06_vector.md R185). -/
def execVecDqib8 (u : VUnit) (m : Mv) (s : State) : Res :=
  vecRun u (.vecDqib8 u m) (dequantVec true) s

/-- VEC_WADD (06_vector.md R187). -/
def execVecWadd (u : VUnit) (m : Mv) (s : State) : Res :=
  wideRun u (.vecWadd u m) (fun x => [x.k]) (fun c x n => (c.wlane u x.k n).addFp false (lane x.b n)) s

/-- VEC_WSUB (06_vector.md R187). -/
def execVecWsub (u : VUnit) (m : Mv) (s : State) : Res :=
  wideRun u (.vecWsub u m) (fun x => [x.k]) (fun c x n => (c.wlane u x.k n).addFp true (lane x.b n)) s

/-- VEC_WGET (06_vector.md R188). -/
def execVecWget (u : VUnit) (m : Mv) (s : State) : Res :=
  wgetRun u (.vecWget u m) wgetVec s

/-- VEC_WCLR (06_vector.md R187). -/
def execVecWclr (u : VUnit) (m : Mv) (s : State) : Res :=
  wideRun u (.vecWclr u m) (fun _ => []) (fun _ _ _ => (WLane.zero, 0)) s

/-- VEC_WFOLD (06_vector.md R187). -/
def execVecWfold (u : VUnit) (m : Mv) (s : State) : Res :=
  wideRun u (.vecWfold u m) (fun x => [x.k, ((lane x.b 0).extractLsb' 0 2).toNat])
    (fun c x n => foldLane (c.wlane u x.k n) (c.wlane u ((lane x.b 0).extractLsb' 0 2).toNat n)) s

/-- VEC_WGETBF (06_vector.md R188). -/
def execVecWgetbf (u : VUnit) (m : Mv) (s : State) : Res :=
  wgetRun u (.vecWgetbf u m) wgetbfVec s

/-- VEC_IREDADD (06_vector.md R190). -/
def execVecIredadd (u : VUnit) (m : Mv) (s : State) : Res :=
  scalRun u (.vecIredadd u m) (fun x => (BitVec.ofInt 64 ((List.range 128).foldl (fun acc i => acc + (lane x.b i).toInt) 0), 0)) s

/-- VEC_IREDMAX (06_vector.md R190). -/
def execVecIredmax (u : VUnit) (m : Mv) (s : State) : Res :=
  scalRun u (.vecIredmax u m) (fun x => (BitVec.ofInt 64 ((List.range 128).foldl (fun acc i => max acc (lane x.b i).toInt) (lane x.b 0).toInt), 0)) s

/-- VEC_FREDMAX (06_vector.md R190). -/
def execVecFredmax (u : VUnit) (m : Mv) (s : State) : Res :=
  scalRun u (.vecFredmax u m) (fun x => fredmax x.b) s

/-- VEC_FREDSUM (06_vector.md R190). -/
def execVecFredsum (u : VUnit) (m : Mv) (s : State) : Res :=
  scalRun u (.vecFredsum u m) (fun x => fredsum x.rm x.b) s

/-- VEC_PERM (06_vector.md R191). -/
def execVecPerm (u : VUnit) (m : Mv) (s : State) : Res :=
  vecRun u (.vecPerm u m) (fun x => (ofLanes (fun i => lane x.a ((lane x.b i).extractLsb' 0 7).toNat), 0)) s

/-- VEC_LROT (06_vector.md R191). -/
def execVecLrot (u : VUnit) (m : Mv) (s : State) : Res :=
  vecRun u (.vecLrot u m) (fun x => (ofLanes (fun i => lane x.a ((i + ((lane x.b 0).extractLsb' 0 7).toNat) % 128)), 0)) s

/-- VEC_BCAST (06_vector.md R191). -/
def execVecBcast (u : VUnit) (m : Mv) (s : State) : Res :=
  vecRun u (.vecBcast u m) (fun x => (ofLanes (fun _ => lane x.a ((lane x.b 0).extractLsb' 0 7).toNat), 0)) s

/-- VEC_INS (06_vector.md R191). -/
def execVecIns (u : VUnit) (m : Mv) (s : State) : Res :=
  vecRun u (.vecIns u m) (fun x => (ofLanes (fun i => if i = ((lane x.c 0).extractLsb' 0 7).toNat then lane x.b 0 else lane x.a i), 0)) s

/-- VEC_EXT (06_vector.md R191). -/
def execVecExt (u : VUnit) (m : Mv) (s : State) : Res :=
  scalRun u (.vecExt u m) (fun x => ((lane x.a ((lane x.b 0).extractLsb' 0 7).toNat).setWidth 64, 0)) s

/-- VEC_ZIP (06_vector.md R191). -/
def execVecZip (u : VUnit) (m : Mv) (s : State) : Res :=
  vecRun u (.vecZip u m) (fun x => (ofLanes (fun i => if i % 2 = 0 then lane x.a (i / 2) else lane x.b (i / 2)), 0)) s

/-- VEC_UNZIP (06_vector.md R191). -/
def execVecUnzip (u : VUnit) (m : Mv) (s : State) : Res :=
  vecRun u (.vecUnzip u m) (fun x => (ofLanes (fun i => if i < 64 then lane x.b (2 * i) else lane x.b (2 * (i - 64) + 1)), 0)) s

/-- VEC_CLMUL (06_vector.md R192). -/
def execVecClmul (u : VUnit) (m : Mv) (s : State) : Res :=
  vecRun u (.vecClmul u m) (lanewise (fun a b _ => (clprod a b).extractLsb' 0 32)) s

/-- VEC_CLMULH (06_vector.md R192). -/
def execVecClmulh (u : VUnit) (m : Mv) (s : State) : Res :=
  vecRun u (.vecClmulh u m) (lanewise (fun a b _ => (clprod a b).extractLsb' 32 32)) s

/-- VEC_BITREV (06_vector.md R192). -/
def execVecBitrev (u : VUnit) (m : Mv) (s : State) : Res :=
  vecRun u (.vecBitrev u m) (lanewise (fun _ b _ => b.reverse)) s

end Sys2Proof.Machine
end

