-- ==== Sys2Proof/Machine/Dispatch.lean ====
section
/-! DEFINITION. One arm per constructor of Instr: the direct call of its meaning. -/

namespace Sys2Proof.Machine

/-- What every instruction and step does: the meaning named in its arm. -/
def exec (i : Instr) (s : State) : Host.Outcome State Fault Refusal :=
  match i with
  | .bundleIssue => Sys2Proof.Machine.execBundleIssue s
  | .moveSreg slot d m => Sys2Proof.Machine.execMoveSreg slot d m s
  | .moveVreg slot d m => Sys2Proof.Machine.execMoveVreg slot d m s
  | .moveVregSlot7 d m => Sys2Proof.Machine.execMoveVregSlot7 d m s
  | .moveOperandPort slot p m => Sys2Proof.Machine.execMoveOperandPort slot p m s
  | .moveColOperand c p m => Sys2Proof.Machine.execMoveColOperand c p m s
  | .moveXport slot e p m => Sys2Proof.Machine.execMoveXport slot e p m s
  | .pendingTransferComplete => Sys2Proof.Machine.execPendingTransferComplete s
  | .operandEntryCapture e => Sys2Proof.Machine.execOperandEntryCapture e s
  | .resultArrival => Sys2Proof.Machine.execResultArrival s
  | .repeatEntry => Sys2Proof.Machine.execRepeatEntry s
  | .ctlJmp m => Sys2Proof.Machine.execCtlJmp m s
  | .ctlJrel m => Sys2Proof.Machine.execCtlJrel m s
  | .ctlCall m => Sys2Proof.Machine.execCtlCall m s
  | .ctlRet m => Sys2Proof.Machine.execCtlRet m s
  | .ctlLoop m => Sys2Proof.Machine.execCtlLoop m s
  | .ctlRep m => Sys2Proof.Machine.execCtlRep m s
  | .ctlHalt m => Sys2Proof.Machine.execCtlHalt m s
  | .ctlTrap m => Sys2Proof.Machine.execCtlTrap m s
  | .ctlTfence m => Sys2Proof.Machine.execCtlTfence m s
  | .ctlCsrr m => Sys2Proof.Machine.execCtlCsrr m s
  | .ctlCsrw m => Sys2Proof.Machine.execCtlCsrw m s
  | .ctlGset m => Sys2Proof.Machine.execCtlGset m s
  | .ctlGnot m => Sys2Proof.Machine.execCtlGnot m s
  | .ctlGand m => Sys2Proof.Machine.execCtlGand m s
  | .ctlGor m => Sys2Proof.Machine.execCtlGor m s
  | .ctlDrain m => Sys2Proof.Machine.execCtlDrain m s
  | .ctlEndph m => Sys2Proof.Machine.execCtlEndph m s
  | .ctlBar m => Sys2Proof.Machine.execCtlBar m s
  | .ctlArrive m => Sys2Proof.Machine.execCtlArrive m s
  | .ctlBwait m => Sys2Proof.Machine.execCtlBwait m s
  | .ctlBwaitt m => Sys2Proof.Machine.execCtlBwaitt m s
  | .ctlWaitt m => Sys2Proof.Machine.execCtlWaitt m s
  | .ctlTime m => Sys2Proof.Machine.execCtlTime m s
  | .scaAdd m => Sys2Proof.Machine.execScaAdd m s
  | .scaSub m => Sys2Proof.Machine.execScaSub m s
  | .scaMul m => Sys2Proof.Machine.execScaMul m s
  | .scaMulhs m => Sys2Proof.Machine.execScaMulhs m s
  | .scaMulhn m => Sys2Proof.Machine.execScaMulhn m s
  | .scaDivs m => Sys2Proof.Machine.execScaDivs m s
  | .scaDivn m => Sys2Proof.Machine.execScaDivn m s
  | .scaRems m => Sys2Proof.Machine.execScaRems m s
  | .scaRemn m => Sys2Proof.Machine.execScaRemn m s
  | .scaAnd m => Sys2Proof.Machine.execScaAnd m s
  | .scaOr m => Sys2Proof.Machine.execScaOr m s
  | .scaXor m => Sys2Proof.Machine.execScaXor m s
  | .scaAndn m => Sys2Proof.Machine.execScaAndn m s
  | .scaShl m => Sys2Proof.Machine.execScaShl m s
  | .scaShrl m => Sys2Proof.Machine.execScaShrl m s
  | .scaShra m => Sys2Proof.Machine.execScaShra m s
  | .scaRotl m => Sys2Proof.Machine.execScaRotl m s
  | .scaClz m => Sys2Proof.Machine.execScaClz m s
  | .scaCtz m => Sys2Proof.Machine.execScaCtz m s
  | .scaPopc m => Sys2Proof.Machine.execScaPopc m s
  | .scaMins m => Sys2Proof.Machine.execScaMins m s
  | .scaMaxs m => Sys2Proof.Machine.execScaMaxs m s
  | .scaMinn m => Sys2Proof.Machine.execScaMinn m s
  | .scaMaxn m => Sys2Proof.Machine.execScaMaxn m s
  | .scaCeq m => Sys2Proof.Machine.execScaCeq m s
  | .scaCne m => Sys2Proof.Machine.execScaCne m s
  | .scaClts m => Sys2Proof.Machine.execScaClts m s
  | .scaCltn m => Sys2Proof.Machine.execScaCltn m s
  | .scaCles m => Sys2Proof.Machine.execScaCles m s
  | .scaClen m => Sys2Proof.Machine.execScaClen m s
  | .scaSel m => Sys2Proof.Machine.execScaSel m s
  | .scaSext m => Sys2Proof.Machine.execScaSext m s
  | .scaZext m => Sys2Proof.Machine.execScaZext m s
  | .scaBfx m => Sys2Proof.Machine.execScaBfx m s
  | .scaBfi m => Sys2Proof.Machine.execScaBfi m s
  | .scaPass m => Sys2Proof.Machine.execScaPass m s
  | .scaCat9 m => Sys2Proof.Machine.execScaCat9 m s
  | .memLdb m => Sys2Proof.Machine.execMemLdb m s
  | .memLdbn m => Sys2Proof.Machine.execMemLdbn m s
  | .memLdh m => Sys2Proof.Machine.execMemLdh m s
  | .memLdhn m => Sys2Proof.Machine.execMemLdhn m s
  | .memLdw m => Sys2Proof.Machine.execMemLdw m s
  | .memLdwn m => Sys2Proof.Machine.execMemLdwn m s
  | .memLdd m => Sys2Proof.Machine.execMemLdd m s
  | .memStb m => Sys2Proof.Machine.execMemStb m s
  | .memSth m => Sys2Proof.Machine.execMemSth m s
  | .memStw m => Sys2Proof.Machine.execMemStw m s
  | .memStd m => Sys2Proof.Machine.execMemStd m s
  | .memVld m => Sys2Proof.Machine.execMemVld m s
  | .memVlds m => Sys2Proof.Machine.execMemVlds m s
  | .memVgat m => Sys2Proof.Machine.execMemVgat m s
  | .memVst m => Sys2Proof.Machine.execMemVst m s
  | .memVsts m => Sys2Proof.Machine.execMemVsts m s
  | .memVsca m => Sys2Proof.Machine.execMemVsca m s
  | .memVstm m => Sys2Proof.Machine.execMemVstm m s
  | .memAmoadd m => Sys2Proof.Machine.execMemAmoadd m s
  | .memAmomins m => Sys2Proof.Machine.execMemAmomins m s
  | .memAmomaxs m => Sys2Proof.Machine.execMemAmomaxs m s
  | .memAmominn m => Sys2Proof.Machine.execMemAmominn m s
  | .memAmomaxn m => Sys2Proof.Machine.execMemAmomaxn m s
  | .memAmoand m => Sys2Proof.Machine.execMemAmoand m s
  | .memAmoor m => Sys2Proof.Machine.execMemAmoor m s
  | .memAmoxor m => Sys2Proof.Machine.execMemAmoxor m s
  | .memAmoswap m => Sys2Proof.Machine.execMemAmoswap m s
  | .memAmocas m => Sys2Proof.Machine.execMemAmocas m s
  | .memAmoaddW m => Sys2Proof.Machine.execMemAmoaddW m s
  | .memAmominsW m => Sys2Proof.Machine.execMemAmominsW m s
  | .memAmomaxsW m => Sys2Proof.Machine.execMemAmomaxsW m s
  | .memAmominnW m => Sys2Proof.Machine.execMemAmominnW m s
  | .memAmomaxnW m => Sys2Proof.Machine.execMemAmomaxnW m s
  | .memAmoandW m => Sys2Proof.Machine.execMemAmoandW m s
  | .memAmoorW m => Sys2Proof.Machine.execMemAmoorW m s
  | .memAmoxorW m => Sys2Proof.Machine.execMemAmoxorW m s
  | .memAmoswapW m => Sys2Proof.Machine.execMemAmoswapW m s
  | .memAmocasW m => Sys2Proof.Machine.execMemAmocasW m s
  | .memAmofmaxW m => Sys2Proof.Machine.execMemAmofmaxW m s
  | .memMark m => Sys2Proof.Machine.execMemMark m s
  | .memSend m => Sys2Proof.Machine.execMemSend m s
  | .memSends m => Sys2Proof.Machine.execMemSends m s
  | .memAccessStart st => Sys2Proof.Machine.execMemAccessStart st s
  | .memAccessPerformed st => Sys2Proof.Machine.execMemAccessPerformed st s
  | .atomicApply pool => Sys2Proof.Machine.execAtomicApply pool s
  | .vecIadd u m => Sys2Proof.Machine.execVecIadd u m s
  | .vecIsub u m => Sys2Proof.Machine.execVecIsub u m s
  | .vecImul u m => Sys2Proof.Machine.execVecImul u m s
  | .vecImulh u m => Sys2Proof.Machine.execVecImulh u m s
  | .vecImac u m => Sys2Proof.Machine.execVecImac u m s
  | .vecImins u m => Sys2Proof.Machine.execVecImins u m s
  | .vecImaxs u m => Sys2Proof.Machine.execVecImaxs u m s
  | .vecIminn u m => Sys2Proof.Machine.execVecIminn u m s
  | .vecImaxn u m => Sys2Proof.Machine.execVecImaxn u m s
  | .vecIabs u m => Sys2Proof.Machine.execVecIabs u m s
  | .vecAnd u m => Sys2Proof.Machine.execVecAnd u m s
  | .vecOr u m => Sys2Proof.Machine.execVecOr u m s
  | .vecXor u m => Sys2Proof.Machine.execVecXor u m s
  | .vecAndn u m => Sys2Proof.Machine.execVecAndn u m s
  | .vecShl u m => Sys2Proof.Machine.execVecShl u m s
  | .vecShrl u m => Sys2Proof.Machine.execVecShrl u m s
  | .vecShra u m => Sys2Proof.Machine.execVecShra u m s
  | .vecPopc u m => Sys2Proof.Machine.execVecPopc u m s
  | .vecClz u m => Sys2Proof.Machine.execVecClz u m s
  | .vecCeq u m => Sys2Proof.Machine.execVecCeq u m s
  | .vecClts u m => Sys2Proof.Machine.execVecClts u m s
  | .vecCles u m => Sys2Proof.Machine.execVecCles u m s
  | .vecFceq u m => Sys2Proof.Machine.execVecFceq u m s
  | .vecFclt u m => Sys2Proof.Machine.execVecFclt u m s
  | .vecFcle u m => Sys2Proof.Machine.execVecFcle u m s
  | .vecSel u m => Sys2Proof.Machine.execVecSel u m s
  | .vecFadd u m => Sys2Proof.Machine.execVecFadd u m s
  | .vecFsub u m => Sys2Proof.Machine.execVecFsub u m s
  | .vecFmul u m => Sys2Proof.Machine.execVecFmul u m s
  | .vecFfma u m => Sys2Proof.Machine.execVecFfma u m s
  | .vecFmin u m => Sys2Proof.Machine.execVecFmin u m s
  | .vecFmax u m => Sys2Proof.Machine.execVecFmax u m s
  | .vecFabs u m => Sys2Proof.Machine.execVecFabs u m s
  | .vecFneg u m => Sys2Proof.Machine.execVecFneg u m s
  | .vecFrcp u m => Sys2Proof.Machine.execVecFrcp u m s
  | .vecFrsq u m => Sys2Proof.Machine.execVecFrsq u m s
  | .vecFexp2 u m => Sys2Proof.Machine.execVecFexp2 u m s
  | .vecFlog2 u m => Sys2Proof.Machine.execVecFlog2 u m s
  | .vecFsqrt u m => Sys2Proof.Machine.execVecFsqrt u m s
  | .vecF2i u m => Sys2Proof.Machine.execVecF2i u m s
  | .vecI2f u m => Sys2Proof.Machine.execVecI2f u m s
  | .vecF2bf u m => Sys2Proof.Machine.execVecF2bf u m s
  | .vecBf2fl u m => Sys2Proof.Machine.execVecBf2fl u m s
  | .vecBf2fh u m => Sys2Proof.Machine.execVecBf2fh u m s
  | .vecNarrow u m => Sys2Proof.Machine.execVecNarrow u m s
  | .vecWiden u m => Sys2Proof.Machine.execVecWiden u m s
  | .vecBmax u m => Sys2Proof.Machine.execVecBmax u m s
  | .vecQscale u m => Sys2Proof.Machine.execVecQscale u m s
  | .vecQfa4 u m => Sys2Proof.Machine.execVecQfa4 u m s
  | .vecQib8 u m => Sys2Proof.Machine.execVecQib8 u m s
  | .vecDqfa4 u m => Sys2Proof.Machine.execVecDqfa4 u m s
  | .vecDqib8 u m => Sys2Proof.Machine.execVecDqib8 u m s
  | .vecWadd u m => Sys2Proof.Machine.execVecWadd u m s
  | .vecWsub u m => Sys2Proof.Machine.execVecWsub u m s
  | .vecWget u m => Sys2Proof.Machine.execVecWget u m s
  | .vecWclr u m => Sys2Proof.Machine.execVecWclr u m s
  | .vecWfold u m => Sys2Proof.Machine.execVecWfold u m s
  | .vecWgetbf u m => Sys2Proof.Machine.execVecWgetbf u m s
  | .vecIredadd u m => Sys2Proof.Machine.execVecIredadd u m s
  | .vecIredmax u m => Sys2Proof.Machine.execVecIredmax u m s
  | .vecFredmax u m => Sys2Proof.Machine.execVecFredmax u m s
  | .vecFredsum u m => Sys2Proof.Machine.execVecFredsum u m s
  | .vecPerm u m => Sys2Proof.Machine.execVecPerm u m s
  | .vecLrot u m => Sys2Proof.Machine.execVecLrot u m s
  | .vecBcast u m => Sys2Proof.Machine.execVecBcast u m s
  | .vecIns u m => Sys2Proof.Machine.execVecIns u m s
  | .vecExt u m => Sys2Proof.Machine.execVecExt u m s
  | .vecZip u m => Sys2Proof.Machine.execVecZip u m s
  | .vecUnzip u m => Sys2Proof.Machine.execVecUnzip u m s
  | .vecClmul u m => Sys2Proof.Machine.execVecClmul u m s
  | .vecClmulh u m => Sys2Proof.Machine.execVecClmulh u m s
  | .vecBitrev u m => Sys2Proof.Machine.execVecBitrev u m s
  | .strPusha m => Sys2Proof.Machine.execStrPusha m s
  | .strPushb m => Sys2Proof.Machine.execStrPushb m s
  | .strPushav m => Sys2Proof.Machine.execStrPushav m s
  | .strPushbv m => Sys2Proof.Machine.execStrPushbv m s
  | .strPushak m => Sys2Proof.Machine.execStrPushak m s
  | .strBank m => Sys2Proof.Machine.execStrBank m s
  | .strBeat m => Sys2Proof.Machine.execStrBeat m s
  | .strRun m => Sys2Proof.Machine.execStrRun m s
  | .strShift m => Sys2Proof.Machine.execStrShift m s
  | .strFold m => Sys2Proof.Machine.execStrFold m s
  | .strDrain m => Sys2Proof.Machine.execStrDrain m s
  | .strDrainbf m => Sys2Proof.Machine.execStrDrainbf m s
  | .strClra m => Sys2Proof.Machine.execStrClra m s
  | .strClrc m => Sys2Proof.Machine.execStrClrc m s
  | .strCnt m => Sys2Proof.Machine.execStrCnt m s
  | .strSlen m => Sys2Proof.Machine.execStrSlen m s
  | .strSprec m => Sys2Proof.Machine.execStrSprec m s
  | .strSeeda m => Sys2Proof.Machine.execStrSeeda m s
  | .strSeedb m => Sys2Proof.Machine.execStrSeedb m s
  | .strSmode m => Sys2Proof.Machine.execStrSmode m s
  | .strSthr m => Sys2Proof.Machine.execStrSthr m s
  | .strRefexp m => Sys2Proof.Machine.execStrRefexp m s
  | .strDigit m => Sys2Proof.Machine.execStrDigit m s
  | .strCkint m => Sys2Proof.Machine.execStrCkint m s
  | .strMgn m => Sys2Proof.Machine.execStrMgn m s
  | .strCpair m => Sys2Proof.Machine.execStrCpair m s
  | .strStat m => Sys2Proof.Machine.execStrStat m s
  | .cpyGo u m => Sys2Proof.Machine.execCpyGo u m s
  | .cpyCancel u m => Sys2Proof.Machine.execCpyCancel u m s
  | .cpyStatus u m => Sys2Proof.Machine.execCpyStatus u m s
  | .colGo c m => Sys2Proof.Machine.execColGo c m s
  | .colCancel c m => Sys2Proof.Machine.execColCancel c m s
  | .cardRead e => Sys2Proof.Machine.execCardRead e s
  | .colCardTake => Sys2Proof.Machine.execColCardTake s
  | .jobCopy n => Sys2Proof.Machine.execJobCopy n s
  | .jobFill n => Sys2Proof.Machine.execJobFill n s
  | .jobGather n => Sys2Proof.Machine.execJobGather n s
  | .jobAmo => Sys2Proof.Machine.execJobAmo s
  | .jobDelta => Sys2Proof.Machine.execJobDelta s
  | .tokenFill => Sys2Proof.Machine.execTokenFill s
  | .collectiveAssemble => Sys2Proof.Machine.execCollectiveAssemble s
  | .jobMaxscale r b => Sys2Proof.Machine.execJobMaxscale r b s
  | .jobReduce r b => Sys2Proof.Machine.execJobReduce r b s
  | .jobAllreduce r b => Sys2Proof.Machine.execJobAllreduce r b s
  | .jobAllgather r b => Sys2Proof.Machine.execJobAllgather r b s
  | .jobBcast r b => Sys2Proof.Machine.execJobBcast r b s
  | .hopCombine i0 j => Sys2Proof.Machine.execHopCombine i0 j s
  | .flitArbitration => Sys2Proof.Machine.execFlitArbitration s
  | .sendArrival => Sys2Proof.Machine.execSendArrival s
  | .discardNotice => Sys2Proof.Machine.execDiscardNotice s
  | .slotReadable => Sys2Proof.Machine.execSlotReadable s
  | .freezeTimeout => Sys2Proof.Machine.execFreezeTimeout s
  | .waittRelease => Sys2Proof.Machine.execWaittRelease s
  | .barrierArrival => Sys2Proof.Machine.execBarrierArrival s
  | .episodeComplete => Sys2Proof.Machine.execEpisodeComplete s
  | .bwaittTimeout => Sys2Proof.Machine.execBwaittTimeout s
  | .localArrival => Sys2Proof.Machine.execLocalArrival s
  | .finalArrival => Sys2Proof.Machine.execFinalArrival s
  | .quietReport st tag => Sys2Proof.Machine.execQuietReport st tag s
  | .boundaryComplete => Sys2Proof.Machine.execBoundaryComplete s
  | .scapExceeded => Sys2Proof.Machine.execScapExceeded s
  | .straggler => Sys2Proof.Machine.execStraggler s
  | .corePark => Sys2Proof.Machine.execCorePark s
  | .captureEnd => Sys2Proof.Machine.execCaptureEnd s
  | .watchdog => Sys2Proof.Machine.execWatchdog s
  | .cpTrapDisposition => Sys2Proof.Machine.execCpTrapDisposition s
  | .standResume => Sys2Proof.Machine.execStandResume s
  | .standKill => Sys2Proof.Machine.execStandKill s
  | .standReplay => Sys2Proof.Machine.execStandReplay s
  | .shadowPrepare => Sys2Proof.Machine.execShadowPrepare s
  | .spillRefillComplete => Sys2Proof.Machine.execSpillRefillComplete s
  | .contextWriteback => Sys2Proof.Machine.execContextWriteback s
  | .parkedPreemptEnd => Sys2Proof.Machine.execParkedPreemptEnd s
  | .preemptDecision => Sys2Proof.Machine.execPreemptDecision s
  | .dispatch => Sys2Proof.Machine.execDispatch s
  | .deadlineExpiry n => Sys2Proof.Machine.execDeadlineExpiry n s
  | .wakeWordWrite => Sys2Proof.Machine.execWakeWordWrite s
  | .packetFetch => Sys2Proof.Machine.execPacketFetch s
  | .packetDecode => Sys2Proof.Machine.execPacketDecode s
  | .launch => Sys2Proof.Machine.execLaunch s
  | .slotload => Sys2Proof.Machine.execSlotload s
  | .slotdrop => Sys2Proof.Machine.execSlotdrop s
  | .waitv => Sys2Proof.Machine.execWaitv s
  | .waitvEvaluate => Sys2Proof.Machine.execWaitvEvaluate s
  | .waitvTimeout => Sys2Proof.Machine.execWaitvTimeout s
  | .writevStore => Sys2Proof.Machine.execWritevStore s
  | .writevAdd => Sys2Proof.Machine.execWritevAdd s
  | .ffence => Sys2Proof.Machine.execFfence s
  | .depend => Sys2Proof.Machine.execDepend s
  | .dependEvaluate => Sys2Proof.Machine.execDependEvaluate s
  | .dependTimeout => Sys2Proof.Machine.execDependTimeout s
  | .timestamp => Sys2Proof.Machine.execTimestamp s
  | .nop => Sys2Proof.Machine.execNop s
  | .invalInvalidate => Sys2Proof.Machine.execInvalInvalidate s
  | .invalAcknowledge h => Sys2Proof.Machine.execInvalAcknowledge h s
  | .invalRetry => Sys2Proof.Machine.execInvalRetry s
  | .invalFail => Sys2Proof.Machine.execInvalFail s
  | .migrate => Sys2Proof.Machine.execMigrate s
  | .migratePublish => Sys2Proof.Machine.execMigratePublish s
  | .forwardedRequest i0 => Sys2Proof.Machine.execForwardedRequest i0 s
  | .balloonDonate => Sys2Proof.Machine.execBalloonDonate s
  | .balloonWithdraw => Sys2Proof.Machine.execBalloonWithdraw s
  | .viewset => Sys2Proof.Machine.execViewset s
  | .viewsetDrainComplete => Sys2Proof.Machine.execViewsetDrainComplete s
  | .completionWrite => Sys2Proof.Machine.execCompletionWrite s
  | .homeRequest t => Sys2Proof.Machine.execHomeRequest t s
  | .atsPageResponse pasid page ok hpa rd wr => Sys2Proof.Machine.execAtsPageResponse pasid page ok hpa rd wr s
  | .atsInvalidation pasid lo len => Sys2Proof.Machine.execAtsInvalidation pasid lo len s
  | .expansionHoldRelease => Sys2Proof.Machine.execExpansionHoldRelease s
  | .expansionHoldTimeout i0 => Sys2Proof.Machine.execExpansionHoldTimeout i0 s
  | .balloonInflate => Sys2Proof.Machine.execBalloonInflate s
  | .hostWrite port hpa data => Sys2Proof.Machine.execHostWrite port hpa data s
  | .hostRead port hpa len => Sys2Proof.Machine.execHostRead port hpa len s
  | .eventArbitrate => Sys2Proof.Machine.execEventArbitrate s
  | .powerWindow gs => Sys2Proof.Machine.execPowerWindow gs s
  | .girdleBeacon => Sys2Proof.Machine.execGirdleBeacon s
  | .ptpSync off bound => Sys2Proof.Machine.execPtpSync off bound s
  | .dtcsetWrite v => Sys2Proof.Machine.execDtcsetWrite v s
  | .bar0RegisterWrite a v => Sys2Proof.Machine.execBar0RegisterWrite a v s
  | .wakePageWrite v => Sys2Proof.Machine.execWakePageWrite v s
  | .nonceWrite off v => Sys2Proof.Machine.execNonceWrite off v s
  | .signatureReady => Sys2Proof.Machine.execSignatureReady s
  | .mailboxErase => Sys2Proof.Machine.execMailboxErase s
  | .mailboxProgram => Sys2Proof.Machine.execMailboxProgram s
  | .mailboxCommitver => Sys2Proof.Machine.execMailboxCommitver s
  | .mailboxReset => Sys2Proof.Machine.execMailboxReset s
  | .mailboxCommandDone => Sys2Proof.Machine.execMailboxCommandDone s
  | .powerOnBoot => Sys2Proof.Machine.execPowerOnBoot s
  | .warmReset => Sys2Proof.Machine.execWarmReset s
  | .heartbeatMiss => Sys2Proof.Machine.execHeartbeatMiss s
  | .boleTakeover => Sys2Proof.Machine.execBoleTakeover s
  | .twigFailover => Sys2Proof.Machine.execTwigFailover s
  | .podLinkFail ok => Sys2Proof.Machine.execPodLinkFail ok s
  | .cxlPortTrain port width => Sys2Proof.Machine.execCxlPortTrain port width s
  | .patrolScrub found => Sys2Proof.Machine.execPatrolScrub found s
  | .correctedErrorSummary => Sys2Proof.Machine.execCorrectedErrorSummary s
  | .triggerFullEffect => Sys2Proof.Machine.execTriggerFullEffect s
  | .waitvReread => Sys2Proof.Machine.execWaitvReread s
  | .msixCoalesceExpiry => Sys2Proof.Machine.execMsixCoalesceExpiry s
  | .queueReset => Sys2Proof.Machine.execQueueReset s
  | .boleCoreError => Sys2Proof.Machine.execBoleCoreError s

end Sys2Proof.Machine
end

