-- ==== Sys2Proof/Machine/Step.lean ====
section
/-! DEFINITION. One step of the machine: the next turn of the schedule (log entries 1 to 4). -/

namespace Sys2Proof.Machine

/-- One step: the next turn's time passes and its instruction acts on its core. -/
def step (s : State) : Host.Outcome State Fault Refusal :=
  let t := s.nextTurn
  if 512 ≤ t.1.core then .fault (.noSuchCore t.1.core)
  else exec ((s.enter t.1 t.2).chosen t.1.what) (s.enter t.1 t.2)

/-- s with the instruction a table word stands for placed where the next step takes it (log entry 7). -/
def State.withFetchWord (s : State) (nbits w : Nat) : State :=
  match Sys2Proof.decodeTableWord nbits w with
  | some i => s.place i
  | none => s

end Sys2Proof.Machine
end

