-- ==== Sys2Proof/Safety.lean ====
section
/-! DEFINITION. The terms in which claims are made: when a bundle issues, when a trigger starts, the canonical form of the
state's maps and memories, and what a safe run keeps. -/

namespace Sys2Proof.Machine

/-- Nothing holds the bundle ms at the current core and nothing traps it: every condition of R82 and R86 is met
(03_encoding.md), and the stand issues (12_traps.md R326). -/
structure State.Clear (s : State) (ms : List BMove) : Prop where
  running : s.me.seq = .run
  issues : s.issuing s.cur = true
  free : stalls s.me ms = false
  legal : firstCause s.me (s.exchOf s.cur) ms = none
  quiet : asyncRead s.me ms = none
  landed : slotsReady s.me ms = true

/-- The trigger i stands with its value v at the head of the queue of engine e, the core serves its queues, and the engine's
datapath is not due to an older trigger of its twin (03_encoding.md R83, R89; 12_traps.md R335). -/
structure State.AtHead (s : State) (e : Eng) (i : Instr) (en : Entry) (v : Val) : Prop where
  serves : s.me.serving = true
  head : (s.me.q e).head? = some en
  is : en.trig = some i
  val : en.val = .ready v
  sound : en.faulted = false
  turn : s.me.twinFirst e en.tag = false

/-- The head of an engine's queue has left, and its result is on the way to a port. -/
def State.started (s : State) (e : Eng) (en : Entry) (p : Option RPort) (v : Val) (f : Byte) (div : Bool) : State :=
  s.setMe { s.me with
    qs := s.me.qs.set [] e.code (s.me.q e).tail,
    flights := s.me.flights ++ [⟨en.tag, p, v, f, e, div⟩] }

/-- What a core keeps when an instruction only moves data inside its engines: code, constants, identity, memory, jobs. -/
def Core.fixedPart (c : Core) : Mem × Nat × SMap Word × BitVec 17 × Word × Mem × List CJob :=
  (c.code, c.nbundle, c.consts, c.slmap, c.standId, c.scratch, c.jobs)

/-- The canonical form of a core's maps. -/
def Core.wf (c : Core) : Bool :=
  c.code.wf && c.scratch.wf && c.ctx.s.wf (.full 0) && c.ctx.v.wf (.full 0) && c.qs.wf []

/-- The memories of the machine in their canonical form: every scratchpad, every quad pool, the main memory of every home and the
host's. -/
def State.MemoriesWf (s : State) : Prop :=
  s.hostMem.wf = true ∧ ∀ n, (s.core n).scratch.wf = true ∧ (s.quad n).mem.wf = true ∧ (s.home n).mem.wf = true

/-- The registers of the module that firmware and attestation rest on are in range (14_system.md R391, R402, R403). -/
def State.firmwareOk (s : State) : Bool :=
  decide (s.sys.state ≤ 2 ∧ s.sys.mstat ≤ 2 ∧ s.sys.atstat ≤ 3 ∧ s.sys.otk ≤ 2 ^ 20)

/-- A run that stays safe for n steps: no step ends in a fault or a refusal. -/
def safeFor : Nat → State → Prop
  | 0, _ => True
  | n + 1, s => ∃ t, step s = .next t ∧ safeFor n t

end Sys2Proof.Machine
end

