-- ==== Sys2Proof/Certificates/Slice0/Obligations.lean ====
section
/-! DEFINITION. The statements for the provers, family by family, and the tables of results they compare the meanings with. -/

namespace Sys2Proof.Claims

open Sys2Proof.Machine

/-! ### Scalar results (04_scalar_control.md R109) -/

/-- r is what the trigger i writes for a, b and c. -/
def ScaResult (i : Instr) (a b c r : Word) : Prop :=
  match i with
  | .scaAdd _ => r = a + b
  | .scaSub _ => r = a - b
  | .scaMul _ => r = a * b
  | .scaMulhs _ => r = BitVec.ofInt 64 (a.toInt * b.toInt / 2 ^ 64)
  | .scaMulhn _ => r.toNat = a.toNat * b.toNat / 2 ^ 64
  | .scaDivs _ => r = if b = 0 then BitVec.allOnes 64 else BitVec.ofInt 64 (a.toInt.tdiv b.toInt)
  | .scaDivn _ => if b = 0 then r = BitVec.allOnes 64 else r.toNat = a.toNat / b.toNat
  | .scaRems _ => if b = 0 then r = a else r.toInt = a.toInt - b.toInt * a.toInt.tdiv b.toInt
  | .scaRemn _ => if b = 0 then r = a else r.toNat = a.toNat % b.toNat
  | .scaAnd _ => r = a &&& b
  | .scaOr _ => r = a ||| b
  | .scaXor _ => r = a ^^^ b
  | .scaAndn _ => r = a &&& ~~~b
  | .scaShl _ => r = a <<< (b.toNat % 64)
  | .scaShrl _ => r = a >>> (b.toNat % 64)
  | .scaShra _ => r = a.sshiftRight (b.toNat % 64)
  | .scaRotl _ => r = a.rotateLeft (b.toNat % 64)
  | .scaClz _ => r.toNat ≤ 64 ∧ (∀ j < r.toNat, b.getLsbD (63 - j) = false) ∧ (r.toNat < 64 → b.getLsbD (63 - r.toNat) = true)
  | .scaCtz _ => r.toNat ≤ 64 ∧ (∀ j < r.toNat, b.getLsbD j = false) ∧ (r.toNat < 64 → b.getLsbD r.toNat = true)
  | .scaPopc _ => r.toNat = (List.range 64).countP (fun j => b.getLsbD j)
  | .scaMins _ => r.toInt = min a.toInt b.toInt
  | .scaMaxs _ => r.toInt = max a.toInt b.toInt
  | .scaMinn _ => r.toNat = min a.toNat b.toNat
  | .scaMaxn _ => r.toNat = max a.toNat b.toNat
  | .scaCeq _ => r = if a = b then 1 else 0
  | .scaCne _ => r = if a = b then 0 else 1
  | .scaClts _ => r = if a.slt b then 1 else 0
  | .scaCltn _ => r = if a.ult b then 1 else 0
  | .scaCles _ => r = if a.sle b then 1 else 0
  | .scaClen _ => r = if a.ule b then 1 else 0
  | .scaSel _ => r = if c.getLsbD 0 then a else b
  | .scaSext _ => ∀ j < 64, r.getLsbD j = b.getLsbD (min j (a.toNat % 64))
  | .scaZext _ => ∀ j < 64, r.getLsbD j = (b.getLsbD j && decide (j ≤ a.toNat % 64))
  | .scaBfx _ => ∀ j < 64, r.getLsbD j = (b.getLsbD (a.toNat % 64 + j) && decide (j < a.toNat / 256 % 64 + 1))
  | .scaBfi _ =>
    ∀ j < 64, r.getLsbD j =
      if a.toNat % 64 ≤ j ∧ j < a.toNat % 64 + (a.toNat / 256 % 64 + 1) then b.getLsbD (j - a.toNat % 64) else c.getLsbD j
  | .scaPass _ => r = b
  | .scaCat9 _ => ∀ j < 64, r.getLsbD j = if j < 9 then b.getLsbD j else a.getLsbD (j - 9)
  | _ => False

/-- The triggers of the SCA engine. -/
def isSca : Instr → Bool
  | .scaAdd _ | .scaSub _ | .scaMul _ | .scaMulhs _ | .scaMulhn _ | .scaDivs _ | .scaDivn _ | .scaRems _ | .scaRemn _
  | .scaAnd _ | .scaOr _ | .scaXor _ | .scaAndn _ | .scaShl _ | .scaShrl _ | .scaShra _ | .scaRotl _ | .scaClz _ | .scaCtz _
  | .scaPopc _ | .scaMins _ | .scaMaxs _ | .scaMinn _ | .scaMaxn _ | .scaCeq _ | .scaCne _ | .scaClts _ | .scaCltn _
  | .scaCles _ | .scaClen _ | .scaSel _ | .scaSext _ | .scaZext _ | .scaBfx _ | .scaBfi _ | .scaPass _ | .scaCat9 _ => true
  | _ => false

/-- The four triggers that occupy the divider (04_scalar_control.md R107). -/
def isDivide : Instr → Bool
  | .scaDivs _ | .scaDivn _ | .scaRems _ | .scaRemn _ => true
  | _ => false

/-! ### Vector results (06_vector.md R166 to R192) -/

/-- The unit of a VEC trigger whose lanes are integers, and what it does with a lane of a, b and c (06_vector.md R172,
R192). -/
def intLane : Instr → Option (VUnit × (BitVec 32 → BitVec 32 → BitVec 32 → BitVec 32))
  | .vecIadd u _ => some (u, fun a b _ => a + b)
  | .vecIsub u _ => some (u, fun a b _ => a - b)
  | .vecImul u _ => some (u, fun a b _ => a * b)
  | .vecImulh u _ => some (u, fun a b _ => BitVec.ofInt 32 (a.toInt * b.toInt / 2 ^ 32))
  | .vecImac u _ => some (u, fun a b c => a * b + c)
  | .vecImins u _ => some (u, fun a b _ => if a.sle b then a else b)
  | .vecImaxs u _ => some (u, fun a b _ => if a.sle b then b else a)
  | .vecIminn u _ => some (u, fun a b _ => if a.ule b then a else b)
  | .vecImaxn u _ => some (u, fun a b _ => if a.ule b then b else a)
  | .vecAnd u _ => some (u, fun a b _ => a &&& b)
  | .vecOr u _ => some (u, fun a b _ => a ||| b)
  | .vecXor u _ => some (u, fun a b _ => a ^^^ b)
  | .vecAndn u _ => some (u, fun a b _ => a &&& ~~~b)
  | .vecShl u _ => some (u, fun a b _ => a <<< (b.toNat % 32))
  | .vecShrl u _ => some (u, fun a b _ => a >>> (b.toNat % 32))
  | .vecShra u _ => some (u, fun a b _ => a.sshiftRight (b.toNat % 32))
  | .vecPopc u _ => some (u, fun _ b _ => BitVec.ofNat 32 ((List.range 32).countP (fun j => b.getLsbD j)))
  | .vecClz u _ => some (u, fun _ b _ => if b = 0 then 32 else BitVec.ofNat 32 (31 - b.toNat.log2))
  | .vecClmul u _ => some (u, fun a b _ => (clprod a b).extractLsb' 0 32)
  | .vecClmulh u _ => some (u, fun a b _ => (clprod a b).extractLsb' 32 32)
  | .vecBitrev u _ => some (u, fun _ b _ => BitVec.ofBoolListLE ((List.range 32).map (fun j => b.getLsbD (31 - j))))
  | _ => none

/-- The same for a trigger whose lanes set flags, under RMODE (06_vector.md R172, R175 to R178). -/
def flagLane : Instr → Option (VUnit × (RM → BitVec 32 → BitVec 32 → BitVec 32 → BitVec 32 × Byte))
  | .vecIabs u _ => some (u, fun _ _ b _ => if b = 0x80000000 then (0x7FFFFFFF, fIV) else (if b.toInt < 0 then -b else b, 0))
  | .vecFadd u _ => some (u, fun rm a b _ => fadd rm a b)
  | .vecFsub u _ => some (u, fun rm a b _ => fsub rm a b)
  | .vecFmul u _ => some (u, fun rm a b _ => fmul rm a b)
  | .vecFfma u _ => some (u, fun rm a b c => ffma rm a b c)
  | .vecFmin u _ => some (u, fun _ a b _ => (fminW a b, snanFlag [a, b]))
  | .vecFmax u _ => some (u, fun _ a b _ => (fmaxW a b, snanFlag [a, b]))
  | .vecFabs u _ => some (u, fun _ _ b _ => fsign (fun w => w &&& 0x7FFFFFFF) b)
  | .vecFneg u _ => some (u, fun _ _ b _ => fsign flipSign b)
  | .vecFrcp u _ => some (u, fun rm _ b _ => frcp rm b)
  | .vecFrsq u _ => some (u, fun rm _ b _ => frsq rm b)
  | .vecFexp2 u _ => some (u, fun rm _ b _ => fexp2 rm b)
  | .vecFlog2 u _ => some (u, fun rm _ b _ => flog2 rm b)
  | .vecFsqrt u _ => some (u, fun rm _ b _ => fsqrt rm b)
  | .vecI2f u _ => some (u, fun rm _ b _ => i2fLane rm b)
  | _ => none

/-- A comparison of lanes and its flags (06_vector.md R173). -/
def cmpLane : Instr → Option (VUnit × (BitVec 32 → BitVec 32 → Bool × Byte))
  | .vecCeq u _ => some (u, fun a b => (a == b, 0))
  | .vecClts u _ => some (u, fun a b => (a.slt b, 0))
  | .vecCles u _ => some (u, fun a b => (a.sle b, 0))
  | .vecFceq u _ => some (u, fun a b => fcmp false feq a b)
  | .vecFclt u _ => some (u, fun a b => fcmp true flt a b)
  | .vecFcle u _ => some (u, fun a b => fcmp true (fun p q => feq p q || flt p q) a b)
  | _ => none

/-- Where each lane of a moving trigger comes from (06_vector.md R174, R191). -/
def moveLane : Instr → Option (VUnit × (VIn → Nat → BitVec 32))
  | .vecSel u _ => some (u, fun x i => if x.m.getLsbD i then lane x.a i else lane x.b i)
  | .vecPerm u _ => some (u, fun x i => lane x.a ((lane x.b i).toNat % 128))
  | .vecLrot u _ => some (u, fun x i => lane x.a ((i + (lane x.b 0).toNat) % 128))
  | .vecBcast u _ => some (u, fun x _ => lane x.a ((lane x.b 0).toNat % 128))
  | .vecIns u _ => some (u, fun x i => if i = (lane x.c 0).toNat % 128 then lane x.b 0 else lane x.a i)
  | .vecZip u _ => some (u, fun x i => if i % 2 = 0 then lane x.a (i / 2) else lane x.b (i / 2))
  | .vecUnzip u _ => some (u, fun x i => if i < 64 then lane x.b (2 * i) else lane x.b (2 * (i - 64) + 1))
  | _ => none

/-- The value of a trigger with a 64-bit result, and its flags (06_vector.md R190, R191). -/
def scalarOf : Instr → Option (VUnit × (VIn → Word × Byte))
  | .vecIredadd u _ => some (u, fun x => (BitVec.ofInt 64 (((List.range 128).map (fun i => (lane x.b i).toInt)).sum), 0))
  | .vecIredmax u _ =>
    some (u, fun x => (BitVec.ofInt 64 (((List.range 128).map (fun i => (lane x.b i).toInt)).foldl max (lane x.b 0).toInt), 0))
  | .vecFredmax u _ => some (u, fun x => fredmax x.b)
  | .vecFredsum u _ => some (u, fun x => fredsum x.rm x.b)
  | .vecExt u _ => some (u, fun x => ((lane x.a ((lane x.b 0).toNat % 128)).setWidth 64, 0))
  | _ => none

/-- The vector and the flags of a converting or quantising trigger (06_vector.md R178 to R185). -/
def convertOf : Instr → Option (VUnit × (VIn → VecW × Byte))
  | .vecF2i u _ => some (u, fun x => lanewiseF (fun _ _ b _ => f2iLane x b) x)
  | .vecF2bf u _ => some (u, fun x => (ofHalves (fun h => (f2bfHalf x h).1), orAll 256 (fun h => (f2bfHalf x h).2)))
  | .vecBf2fl u _ => some (u, fun x => (ofLanes (fun i => (widenBf (half x.b i)).1), orAll 128 (fun i => (widenBf (half x.b i)).2)))
  | .vecBf2fh u _ =>
    some (u, fun x => (ofLanes (fun i => (widenBf (half x.b (128 + i))).1), orAll 128 (fun i => (widenBf (half x.b (128 + i))).2)))
  | .vecNarrow u _ => some (u, narrowVec)
  | .vecWiden u _ => some (u, widenVec)
  | .vecBmax u _ => some (u, fun x => perBlock (fun j => bmaxLane (blockEls x j) (blockInf x j)))
  | .vecQscale u _ => some (u, fun x => perBlock (fun j => qscaleLane ((lane x.c 0).getLsbD 0) (blockEls x j)))
  | .vecQfa4 u _ => some (u, quantVec false)
  | .vecQib8 u _ => some (u, quantVec true)
  | .vecDqfa4 u _ => some (u, dequantVec false)
  | .vecDqib8 u _ => some (u, dequantVec true)
  | _ => none

/-- What an accumulating trigger makes of lane n of accumulator k, with its flags (06_vector.md R187). -/
def wideOf : Instr → Option (VUnit × (Core → VUnit → VIn → Nat → WLane × Byte))
  | .vecWadd u _ => some (u, fun c u x n => (c.wlane u x.k n).addFp false (lane x.b n))
  | .vecWsub u _ => some (u, fun c u x n => (c.wlane u x.k n).addFp true (lane x.b n))
  | .vecWclr u _ => some (u, fun _ _ _ _ => (WLane.zero, 0))
  | .vecWfold u _ => some (u, fun c u x n => foldLane (c.wlane u x.k n) (c.wlane u ((lane x.b 0).toNat % 4) n))
  | _ => none

/-- The vector a reading trigger makes of an accumulator (06_vector.md R188). -/
def wgetOf : Instr → Option (VUnit × (RM → (Nat → WLane) → VecW × Byte))
  | .vecWget u _ => some (u, wgetVec)
  | .vecWgetbf u _ => some (u, wgetbfVec)
  | _ => none

/-! ### The stream array (08_stream_ops.md R229 to R239) -/

/-- The field that a configuration trigger writes (08_stream_ops.md R229, R239). -/
def strField : Instr → Option (Str → Word → Str)
  | .strBank _ => some (fun t b => { t with bsel := BitVec.ofNat 3 b.toNat })
  | .strSlen _ => some (fun t b => { t with slen := BitVec.ofNat 9 b.toNat })
  | .strSprec _ => some (fun t b => { t with sprec := BitVec.ofNat 3 b.toNat })
  | .strSeeda _ => some (fun t b => { t with seeda := BitVec.ofNat 4 b.toNat })
  | .strSeedb _ => some (fun t b => { t with seedb := BitVec.ofNat 4 b.toNat })
  | .strSmode _ => some (fun t b => { t with smode := b.getLsbD 0 })
  | .strSthr _ => some (fun t b => { t with sthr := BitVec.ofNat 4 b.toNat })
  | .strRefexp _ => some (fun t b => { t with refexp := BitVec.ofNat 10 b.toNat })
  | .strDigit _ => some (fun t b => { t with dsel := BitVec.ofNat 2 b.toNat })
  | .strCkint _ => some (fun t b => { t with ckint := BitVec.ofNat 9 b.toNat })
  | .strCpair _ => some (fun t b => { t with cpair := BitVec.ofNat 28 b.toNat })
  | _ => none

/-- The state after a STR trigger i has acted: its head has left, the array is t, its result and flags are on their way, what it
wrote anew holds no known error any more (log entry 71), and its beats are charged, but not to a core that parks (12_traps.md
R327). -/
def strDone (s : State) (i : Instr) (en : Entry) (b : Val) (t : Str) (p : Option RPort) (v : Val) (f : Byte) (beats : Nat) :
    State :=
  s.setMe { s.me with
    qs := s.me.qs.set [] Eng.str.code (s.me.q .str).tail,
    ctx := { s.me.ctx with str := t },
    beats := s.me.beats + (if s.me.trap.isSome then 0 else beats),
    bad := s.me.bad.after s.me.ctx.str i (s.me.op .str).o.toScalar b.toScalar,
    flights := s.me.flights ++ [⟨en.tag, p, v, f, .str, false⟩] }

/-- A STR trigger has stopped: it changed nothing of the context, and its core parks with a trap precise at the move
(12_traps.md R330, R333, R335). -/
def StrStops (s : State) (i : Instr) (en : Entry) (cause : Byte) : Prop :=
  ∃ u k, exec i s = .next u ∧ u.me.ctx = s.me.ctx ∧ u.me.flights = s.me.flights ∧ u.me.trap = some k ∧ k.cause = cause ∧
    k.prec = 1 ∧ k.badr = en.badr ∧ u.me.seq = .capture 0

/-- The entry at position k of a line of an edge bank (07_stream_array.md R193). -/
def entry (t : Str) (bank ln k : Nat) : Dig := t.edge.get Dig.dead (bank * 16384 + ln * 128 + k)

/-- Sub-counter n of output x in a counter bank (07_stream_array.md R193). -/
def subCount (t : Str) (cb x n : Nat) : Int := (t.cnt.get 0 (cb * 65536 + x * 4 + n)).toInt

/-- C(x): the exact sum of the four sub-counters of output x in the active counter bank (08_stream_ops.md R231). -/
def total (t : Str) (x : Nat) : Int :=
  subCount t t.cbank x 0 + subCount t t.cbank x 1 + subCount t t.cbank x 2 + subCount t t.cbank x 3

/-- A digit of sign sg and magnitude m as it is written: the clamp to 2^P - 1, then on the A side in unipolar mode the
zero-skip; with it whether the clamp acted (02_numbers.md R43; 07_stream_array.md R211). -/
def edgeDigit (t : Str) (sideB sg : Bool) (m : Nat) : Dig × Bool :=
  let top := 2 ^ t.sprec.toNat - 1
  let n := if top < m then top else m
  (if sideB = false ∧ t.smode = false ∧ n ≤ t.sthr.toNat then ⟨true, false, 0⟩ else ⟨true, sg, BitVec.ofNat 4 n⟩, decide (top < m))

/-- The digit that a vector lane supplies (08_stream_ops.md R226). -/
def vectorDigit (t : Str) (sideB : Bool) (w : BitVec 32) : Dig × Bool :=
  if w.toNat / 32 % 2 = 1 then (⟨false, false, 0⟩, false) else edgeDigit t sideB (decide (w.toNat / 16 % 2 = 1)) (w.toNat % 16)

/-- The P-bit threshold of beat t at an edge: bit P - 1 - n is bit 2n of t, at the B edge bit 2n + 1, XOR the seed's bit
(07_stream_array.md R198). -/
def theta (p t odd : Nat) (seed : BitVec 4) : Nat :=
  ((List.range p).map (fun n => if t.testBit (2 * n + odd) = seed.getLsbD (p - 1 - n) then 0 else 2 ^ (p - 1 - n))).sum

/-- What cell (i, j, k) adds in the next beat into the active counter bank (07_stream_array.md R198 to R200; 08_stream_ops.md
R239, on a magnitude above 2^P - 1). -/
def cellAdds (t : Str) (i j k : Nat) : Int :=
  let beat := (t.bt t.cbank).toNat % 4 ^ t.sprec.toNat
  let a := entry t t.abank i k
  let b := entry t t.bbank j k
  let x := decide (theta t.sprec.toNat beat 0 t.seeda < min a.m.toNat (2 ^ t.sprec.toNat - 1))
  let y := decide (theta t.sprec.toNat beat 1 t.seedb < min b.m.toNat (2 ^ t.sprec.toNat - 1))
  if a.live = false ∨ b.live = false then 0
  else if t.smode then (if x = y then 1 else -1)
  else if x = true ∧ y = true then (if a.s = b.s then 1 else -1)
  else 0

/-- What the next beat adds to sub-counter n of output (i, j): the exact sum over the positions of the slot
(07_stream_array.md R199, R200, R202). -/
def slotAdds (t : Str) (i j n : Nat) : Int :=
  ((List.range 128).map (fun k => if ((t.tags t.abank).getD k 0).toNat = n then cellAdds t i j k else 0)).sum

/-- u is t after one beat into the active counter bank, which raised the flags f (07_stream_array.md R198 to R202). That BT
goes on from 2^32 - 1 at 0 is the model's choice (log entry 70). -/
structure Beat (t u : Str) (f : Byte) : Prop where
  frame : u = { t with cnt := u.cnt, bt0 := u.bt0, bt1 := u.bt1 }
  index : u.bt t.cbank = t.bt t.cbank + 1 ∧ u.bt (1 - t.cbank) = t.bt (1 - t.cbank)
  counts : ∀ i < 128, ∀ j < 128, ∀ n < 4,
    subCount u t.cbank (128 * i + j) n = max (-32767) (min 32767 (subCount t t.cbank (128 * i + j) n + slotAdds t i j n))
  other : ∀ x < 16384, ∀ n < 4, subCount u (1 - t.cbank) x n = subCount t (1 - t.cbank) x n
  flags : (f = fACO ∧ ∃ i j n, i < 128 ∧ j < 128 ∧ n < 4 ∧ 32767 < (subCount t t.cbank (128 * i + j) n + slotAdds t i j n).natAbs) ∨
    (f = 0 ∧ ∀ i < 128, ∀ j < 128, ∀ n < 4, (subCount t t.cbank (128 * i + j) n + slotAdds t i j n).natAbs ≤ 32767)

/-- The beat index of the active counter bank. -/
def beatIndex (t : Str) : Nat := (t.bt t.cbank).toNat

/-- A checkpoint made at t stops the run (08_stream_ops.md R231). -/
def checkStops (t : Str) : Prop :=
  t.ckint ≠ 0 ∧ beatIndex t % t.ckint.toNat = 0 ∧ beatIndex t < t.slen.toNat ∧
    (t.mgn.get 0 (min (beatIndex t / t.ckint.toNat) 16 - 1)).toNat <
      (total t (t.cpair.toNat % 2 ^ 14) - total t (t.cpair.toNat / 2 ^ 14)).natAbs

/-- The loop of str.run from t: it ends at u after n beats with the flags f, at a checkpoint or at SLEN (08_stream_ops.md
R231). -/
inductive RunLoop : Str → Str → Byte → Nat → Bool → Prop
  | full (t : Str) : t.slen.toNat ≤ beatIndex t → RunLoop t t 0 0 false
  | stop (t u : Str) (f : Byte) : beatIndex t < t.slen.toNat → Beat t u f → checkStops u → RunLoop t u f 1 true
  | more (t v u : Str) (f g : Byte) (n : Nat) (x : Bool) :
      beatIndex t < t.slen.toNat → Beat t v f → ¬ checkStops v → RunLoop v u g n x → RunLoop t u (f ||| g) (n + 1) x

/-- The value of an S10 scale with E from 1 to 254 (02_numbers.md R38). -/
def s10val (h : BitVec 16) : Rat :=
  (2 : Rat) ^ ((h.toNat / 4 % 256 : Int) - 127) * (1 + ((h.toNat % 4 : Nat) : Rat) / 4)

/-- The nearest integer, ties to even. -/
def rne (q : Rat) : Int :=
  if q - q.floor < 1 / 2 then q.floor
  else if 1 / 2 < q - q.floor then q.floor + 1
  else if q.floor % 2 = 0 then q.floor else q.floor + 1

/-- v / 2^REFEXP for a count c under the headers ha and hb (07_stream_array.md R209). -/
def foldValue (t : Str) (c : Int) (ha hb : BitVec 16) : Rat :=
  let hi := (ha.toNat / 2048 % 2) + (hb.toNat / 2048 % 2)
  let half := (ha.toNat / 1024 % 2) + (hb.toNat / 1024 % 2)
  (c : Rat) * s10val ha * s10val hb * 16 ^ hi / 2 ^ half * (if t.smode then 1 else 4 ^ t.sprec.toNat) / (t.slen.toNat : Rat)
    / (2 : Rat) ^ t.refexp.toInt

/-- Slot n of output (i, j) in a fold: the entry, ANAN, NX and ACO so far and after it (07_stream_array.md R209). -/
def foldSlot' (t : Str) (i j : Nat) (st : Int × Bool × Bool × Bool) (n : Nat) : Int × Bool × Bool × Bool :=
  let c := subCount t t.cbank (128 * i + j) n
  let ha := t.header t.abank i n
  let hb := t.header t.bbank j n
  if ha.toNat / 4 % 256 = 255 ∨ hb.toNat / 4 % 256 = 255 then (st.1, true, st.2.2)
  else if c = 0 ∨ ha.toNat / 4 % 256 = 0 ∨ hb.toNat / 4 % 256 = 0 then st
  else
    let v := foldValue t c ha hb
    let x := st.1 + rne v
    let y := max (-(2 ^ 63)) (min (2 ^ 63 - 1) x)
    (y, st.2.1, st.2.2.1 || decide ((rne v : Rat) ≠ v), st.2.2.2 || decide (x ≠ y))

/-- Output (i, j) folded: its entry, ANAN, NX and ACO. -/
def foldOutput (t : Str) (i j : Nat) : Int × Bool × Bool × Bool :=
  (List.range 4).foldl (foldSlot' t i j) ((t.acc.get 0 (128 * i + j)).toInt, t.anan.get false (128 * i + j), false, false)

/-- u is t after a fold that raised the flags f (07_stream_array.md R209; 08_stream_ops.md R234). -/
structure Fold (t u : Str) (f : Byte) : Prop where
  frame : u = { t with acc := u.acc, anan := u.anan, cnt := u.cnt, bt0 := u.bt0, bt1 := u.bt1 }
  cleared : u.bt t.cbank = 0 ∧ ∀ x < 16384, ∀ n < 4, subCount u t.cbank x n = 0
  other : u.bt (1 - t.cbank) = t.bt (1 - t.cbank) ∧ ∀ x < 16384, ∀ n < 4, subCount u (1 - t.cbank) x n = subCount t (1 - t.cbank) x n
  entries : ∀ i < 128, ∀ j < 128, (u.acc.get 0 (128 * i + j)).toInt = (foldOutput t i j).1 ∧
    u.anan.get false (128 * i + j) = (foldOutput t i j).2.1
  flags : ∀ k < 8, f.getLsbD k = true ↔ ∃ i j, i < 128 ∧ j < 128 ∧
    ((fNX.getLsbD k = true ∧ (foldOutput t i j).2.2.1 = true) ∨ (fACO.getLsbD k = true ∧ (foldOutput t i j).2.2.2 = true))

/-- u is t after the shift of b into the active A bank, which raised the flags f (08_stream_ops.md R228; the discarded map is
R225's). -/
structure Shift (t u : Str) (b : VecW) (f : Byte) : Prop where
  frame : u = { t with edge := u.edge, cmap := none }
  slides : ∀ i < 128, ∀ k < 127, entry u t.abank i k = entry t t.abank i (k + 1)
  enters : ∀ i < 128, entry u t.abank i 127 = (vectorDigit t false (lane b i)).1
  other : ∀ a, a / 16384 ≠ t.abank → u.edge.get Dig.dead a = t.edge.get Dig.dead a
  flags : (f = fQX ∧ ∃ i < 128, (vectorDigit t false (lane b i)).2 = true) ∨
    (f = 0 ∧ ∀ i < 128, (vectorDigit t false (lane b i)).2 = false)

/-- u is t with counter bank cb cleared (08_stream_ops.md R236). -/
structure Cleared (t u : Str) (cb : Nat) : Prop where
  frame : u = { t with cnt := u.cnt, bt0 := u.bt0, bt1 := u.bt1 }
  here : u.bt cb = 0 ∧ ∀ x < 16384, ∀ n < 4, subCount u cb x n = 0
  other : u.bt (1 - cb) = t.bt (1 - cb) ∧ ∀ x < 16384, ∀ n < 4, subCount u (1 - cb) x n = subCount t (1 - cb) x n

/-- What a STR trigger without a memory push makes of the array: u, its result r, its flags and its beats (08_stream_ops.md
R228 to R239). -/
def StrActs (t : Str) (o : Word) (v : Val) (u : Str) (r : Option (RPort × Val)) (f : Byte) (n : Nat) : Instr → Prop
  | .strBeat _ => Beat t u f ∧ r = none ∧ n = 1
  | .strRun _ =>
    ∃ w x, RunLoop t w f n x ∧ r = none ∧ u = { w with
      stop := x,
      tie := decide (x = false ∧ t.ckint ≠ 0 ∧ total w (t.cpair.toNat % 2 ^ 14) = total w (t.cpair.toNat / 2 ^ 14)),
      sbeat := w.bt t.cbank }
  | .strShift _ => Shift t u v.toVec f ∧ r = none ∧ n = 0
  | .strFold _ => Fold t u f ∧ r = none ∧ n = 0
  | .strDrain _ =>
    let row := v.toScalar.toNat % 128
    u = t ∧ n = 0 ∧ (∃ w, r = some (.strVr, .v w) ∧ ∀ j < 128, lane w j = BitVec.ofNat 32 (t.drainEl fp32 row j).1) ∧
      ∀ k < 8, f.getLsbD k = true ↔ ∃ j < 128, (t.drainEl fp32 row j).2.getLsbD k = true
  | .strDrainbf _ =>
    let row := v.toScalar.toNat % 128
    u = t ∧ n = 0 ∧ (∃ w, r = some (.strVr, .v w) ∧ (∀ j < 128, half w j = BitVec.ofNat 16 (t.drainEl bf16 row j).1) ∧
      ∀ l, 64 ≤ l → l < 128 → lane w l = 0) ∧
      ∀ k < 8, f.getLsbD k = true ↔ ∃ j < 128, (t.drainEl bf16 row j).2.getLsbD k = true
  | .strClra _ => u = { t with acc := [], anan := [] } ∧ r = none ∧ f = 0 ∧ n = 0
  | .strClrc _ => Cleared t u (if v.toScalar.getLsbD 0 then 1 - t.cbank else t.cbank) ∧ r = none ∧ f = 0 ∧ n = 0
  | .strCnt _ =>
    let x := v.toScalar.toNat % 2 ^ 14
    u = t ∧ f = 0 ∧ n = 0 ∧ ∃ w : Word, r = some (.strR, .s w) ∧
      w.toInt = if v.toScalar.getLsbD 16 then total t x else subCount t t.cbank x (v.toScalar.toNat / 2 ^ 14 % 4)
  | .strStat _ =>
    u = t ∧ f = 0 ∧ n = 0 ∧ ∃ w : Word, r = some (.strR, .s w) ∧ w.extractLsb' 0 32 = t.sbeat ∧ w.getLsbD 32 = t.stop ∧
      w.getLsbD 33 = t.tie ∧ w.getLsbD 34 = t.cmap.isSome ∧ w.extractLsb' 35 3 = t.bsel ∧ w.extractLsb' 38 26 = 0
  | .strMgn _ => u = { t with mgn := t.mgn.set 0 o.toNat (v.toScalar.extractLsb' 0 17) } ∧ r = none ∧ f = 0 ∧ n = 0
  | _ => False

/-- The entries with an uncorrectable error that a STR trigger reads (08_stream_ops.md R238). A beat reads the active edge
banks with TAG and the active counter bank; a run that makes no beat the two outputs of CPAIR; a fold the accumulator store,
the active counter bank and the headers of the active edge banks; a shift the entries it moves. -/
def ReadsError (c : Core) (v : Val) : Instr → Prop
  | .strBeat _ => beats
  | .strRun _ =>
    if beatIndex c.ctx.str < c.ctx.str.slen.toNat then beats
    else c.ctx.str.ckint ≠ 0 ∧ ∃ e ∈ c.bad.cnt, e / 65536 = c.ctx.str.cbank ∧
      (e / 4 % 16384 = c.ctx.str.cpair.toNat % 2 ^ 14 ∨ e / 4 % 16384 = c.ctx.str.cpair.toNat / 2 ^ 14)
  | .strShift _ => ∃ e ∈ c.bad.edge, e / 16384 = c.ctx.str.abank ∧ e % 128 ≠ 0
  | .strFold _ =>
    c.bad.acc ≠ [] ∨ (∃ e ∈ c.bad.cnt, e / 65536 = c.ctx.str.cbank) ∨
      ∃ e ∈ c.bad.hdr, e / 512 = c.ctx.str.abank ∨ e / 512 = c.ctx.str.bbank
  | .strDrain _ | .strDrainbf _ => ∃ e ∈ c.bad.acc, e / 128 = v.toScalar.toNat % 128
  | .strCnt _ =>
    ∃ e ∈ c.bad.cnt, e / 4 = c.ctx.str.cbank * 16384 + v.toScalar.toNat % 2 ^ 14 ∧
      (v.toScalar.getLsbD 16 = true ∨ e % 4 = v.toScalar.toNat / 2 ^ 14 % 4)
  | _ => False
where
  /-- The entries that a beat reads. -/
  beats : Prop :=
    (∃ e ∈ c.bad.edge, e / 16384 = c.ctx.str.abank ∨ e / 16384 = c.ctx.str.bbank) ∨
      (∃ e ∈ c.bad.tag, e / 128 = c.ctx.str.abank) ∨ ∃ e ∈ c.bad.cnt, e / 65536 = c.ctx.str.cbank

/-- A trigger that SLEN above 4^SPREC stops (07_stream_array.md R197). -/
def countsBeats : Instr → Bool
  | .strBeat _ | .strRun _ | .strFold _ => true
  | _ => false

/-- The triggers of the array without a memory push, a vector push or a configuration field. -/
def actsOnArray : Instr → Bool
  | .strBeat _ | .strRun _ | .strShift _ | .strFold _ | .strDrain _ | .strDrainbf _ | .strClra _ | .strClrc _ | .strCnt _
  | .strStat _ | .strMgn _ => true
  | _ => false

/-! #### Pushes from local memory (08_stream_ops.md R220 to R225) -/

/-- The control word of a push as R220 reads it, its source and its stride; mapped is the KEXT of the pending map that a pushb
takes instead of its own (R225). -/
def pushWord (ak : Bool) (mapped : Option Nat) (o o2 b : Word) : PushCtl :=
  let k := o.toNat / 2 ^ 16 % 1024
  let n := o.toNat / 2 ^ 8 % 256
  let kext := mapped.getD (if k = 0 then (if ak then 512 else 128) else k)
  { kext := kext, nline := if n = 0 then 128 else n, kskip := if ak then o.toNat / 4 % 32 else 0,
    tgt := o.getLsbD 1, ib8 := o.getLsbD 0, base := b.toNat % 2 ^ 32,
    stride := if o2.toNat % 2 ^ 32 = 0 then (((kext + 31) / 32 * (if o.getLsbD 0 then 34 else 18) : Nat) : Int)
      else (o2.extractLsb' 0 32).toInt }

/-- A control word that R220 refuses: KEXT or NLINE too large, or KSKIP not below KEXT. -/
def pushWordBad (ak mapped : Bool) (o : Word) : Prop :=
  (mapped = false ∧ (if ak then 512 else 128) < o.toNat / 2 ^ 16 % 1024) ∨ 128 < o.toNat / 2 ^ 8 % 256 ∨
    (ak = true ∧ o.toNat / 2 ^ 16 % 1024 ≠ 0 ∧ o.toNat / 2 ^ 16 % 1024 ≤ o.toNat / 4 % 32)

/-- Byte i of block q of line n of the source (08_stream_ops.md R220). -/
def pushByte (s : State) (p : PushCtl) (n q i : Nat) : Byte :=
  s.localByte s.cur ((((p.base : Int) + n * p.stride) % 2 ^ 32).toNat + q * (if p.ib8 then 34 else 18) + i)

/-- The sign and the magnitude that the conversion of R43 gives element x of block q of line n; high selects the high digit of
an IB8 element (02_numbers.md R39 to R43). -/
def pushElement (s : State) (p : PushCtl) (high : Bool) (n q x : Nat) : Bool × Nat :=
  if p.ib8 then
    let e := (pushByte s p n q (2 + x)).toNat
    (decide (128 ≤ e), if high then e % 128 / 16 else e % 16)
  else
    let e := (pushByte s p n q (2 + x / 2)).toNat / 16 ^ (x % 2) % 16
    let h := (pushByte s p n q 0).toNat + 256 * (pushByte s p n q 1).toNat
    if e = 8 then (decide (h / 1024 % 2 = 1), h / 2048 % 16) else (decide (8 ≤ e), [0, 1, 2, 3, 4, 6, 8, 12].getD (e % 8) 0)

/-- The header that a push stores for block q of line n (07_stream_array.md R195; 08_stream_ops.md R221). -/
def pushHeader (s : State) (p : PushCtl) (high : Bool) (n q : Nat) : Nat :=
  ((pushByte s p n q 0).toNat + 256 * (pushByte s p n q 1).toNat) % 1024 + (if p.ib8 then (if high then 2048 else 0) else 1024)

/-- The digit that a push makes of source position x of line n, and whether it was clamped (08_stream_ops.md R221). -/
def pushDigit (s : State) (t : Str) (sideB : Bool) (p : PushCtl) (n x : Nat) : Dig × Bool :=
  let e := pushElement s p (t.dsel.getLsbD (if sideB then 0 else 1)) n (x / 32) (x % 32)
  edgeDigit t sideB e.1 e.2

/-- What a push writes: entry (n, k) of the bank takes source position src k, header (n, q) block blk q, and all else of the
bank is dead or 0; no other bank changes (08_stream_ops.md R221, R224, R225). -/
structure Pushed (s : State) (t u : Str) (sideB : Bool) (p : PushCtl) (src blk : Nat → Option Nat) : Prop where
  frame : u = { t with edge := u.edge, hdr := u.hdr, tag0 := u.tag0, tag1 := u.tag1, cmap := u.cmap }
  entries : ∀ n < 128, ∀ k < 128, entry u (t.target sideB p.tgt) n k =
    match src k with
    | some x => if n < p.nline then (pushDigit s t sideB p n x).1 else ⟨false, false, 0⟩
    | none => ⟨false, false, 0⟩
  headers : ∀ n < 128, ∀ q < 4, (u.header (t.target sideB p.tgt) n q).toNat =
    match blk q with
    | some x => if n < p.nline then pushHeader s p (t.dsel.getLsbD (if sideB then 0 else 1)) n x else 0
    | none => 0
  other : (∀ a, a / 16384 ≠ t.target sideB p.tgt → u.edge.get Dig.dead a = t.edge.get Dig.dead a) ∧
    ∀ x, x / 512 ≠ t.target sideB p.tgt → u.hdr.get 0 x = t.hdr.get 0 x

/-- The positions that pushak keeps if there is room: at which some line has a digit that is not zero, in bipolar mode all
(08_stream_ops.md R224). -/
def pushWanted (s : State) (t : Str) (p : PushCtl) : List Nat :=
  (List.range p.kext).filter (fun x => decide (p.kskip ≤ x) && (t.smode || (List.range p.nline).any (fun n =>
    decide ((pushDigit s t false p n x).1.m ≠ 0))))

/-- The walk of pushak over its source: the wanted positions in order up to the first that would need a fifth slot or a 129th
place; slots lists the blocks that got a slot, and x is the first position not consumed (08_stream_ops.md R224). -/
structure Walk (want : List Nat) (kext x : Nat) (places slots : List Nat) : Prop where
  kept : places = want.take places.length ∧ x = (want[places.length]?).getD kext
  slots' : slots = ((places ++ if places.length = 128 then want[128]?.toList else []).map (· / 32)).eraseDups.take 4
  room : places.length ≤ 128 ∧ ∀ y ∈ places, y / 32 ∈ slots
  stops : places.length < want.length → (slots.length = 4 ∧ x / 32 ∉ slots) ∨ places.length = 128

/-- The windows of R135, each with its part beyond the allocation: the scratchpad, the own partition, the whole pool
(05_local_memory.md R135). -/
def inScratchpad (a : Nat) : Bool := decide (a < 0x80000)
/-- The own-partition window. -/
def inOwnWindow (a : Nat) : Bool := decide (0x1000000 ≤ a ∧ a < 0x1800000)
/-- The whole-pool window. -/
def inPoolWindow (a : Nat) : Bool := decide (0x2000000 ≤ a ∧ a < 0x2800000)

/-- A byte that a stand with pool bytes of pool for each core reaches (05_local_memory.md R135). -/
def reachable (pool a : Nat) : Bool :=
  inScratchpad a || (inOwnWindow a && decide (a < 0x1000000 + pool)) || (inPoolWindow a && decide (a < 0x2000000 + 4 * pool))

/-- What check number c of R137 says of the n bytes at a: 1 ALIGN, 2 PHASE_COMPUTE, 3 POOL_BOUNDS or LOCAL_BOUNDS by the first byte
outside every reachable range, 4 ECC_SCRATCH or ECC_POOL where the access reads (05_local_memory.md R137; 12_traps.md R333). -/
def byteCheck (s : State) (reads : Bool) (n c a : Nat) : Option Byte :=
  let bs := (List.range n).map (fun i => a + i)
  match c with
  | 1 => if a % n = 0 then none else some 0x0D
  | 2 => if s.exchOf s.cur = false ∧ bs.any inPoolWindow = true then some 0x06 else none
  | 3 => (bs.find? (fun b => !reachable (s.poolOf s.cur) b)).map (fun b => if inOwnWindow b || inPoolWindow b then 0x0C else 0x0B)
  | 4 => if reads = true ∧ bs.any (s.localBad s.cur) = true then some (if inScratchpad a then 0x17 else 0x18) else none
  | _ => none

/-- Of the checks from first to 4 on the places as, in their order, the first that fails fails with the cause k, at its first
place a. -/
def FirstFault (check : Nat → Nat → Option Byte) (first : Nat) (as : List Nat) (k : Byte) (a : Nat) : Prop :=
  ∃ c i, first ≤ c ∧ c ≤ 4 ∧ as[i]? = some a ∧ check c a = some k ∧ (∀ b ∈ as.take i, check c b = none) ∧
    ∀ d, first ≤ d → d < c → ∀ b ∈ as, check d b = none

/-- None of the checks from first to 4 fails on the places as. -/
def NoFault (check : Nat → Nat → Option Byte) (first : Nat) (as : List Nat) : Prop :=
  ∀ c, first ≤ c → c ≤ 4 → ∀ a ∈ as, check c a = none

/-- The bytes a push reads pass the checks of R223 (08_stream_ops.md R223). -/
structure PushReads (s : State) (p : PushCtl) (qs : List Nat) : Prop where
  even : p.base % 2 = 0 ∧ p.stride % 2 = 0
  sound : NoFault (byteCheck s true 1) 2 (p.bytes qs)

/-- A push fails the checks of R223 with the cause k: ALIGN for an odd base or stride, then the first of R137's checks that fails,
at its first byte (08_stream_ops.md R223). -/
def PushFails (s : State) (p : PushCtl) (qs : List Nat) (k : Byte) : Prop :=
  ((p.base % 2 ≠ 0 ∨ p.stride % 2 ≠ 0) ∧ k = 0x0D) ∨
    (p.base % 2 = 0 ∧ p.stride % 2 = 0 ∧ ∃ a, FirstFault (byteCheck s true 1) 2 (p.bytes qs) k a)

/-- No older store and no older job that writes holds the push (08_stream_ops.md R222). -/
def PushFree (s : State) (en : Entry) (p : PushCtl) (qs : List Nat) : Prop :=
  s.me.pushWaits (s.poolOf s.cur) s.cur en.tag (p.lines (s.poolOf s.cur) s.cur qs) = false

/-- The blocks of each line that pusha and pushb read: those of KEXT positions, or those the pending map names
(08_stream_ops.md R221, R225). -/
def pushBlocksOf (p : PushCtl) : Option CMap → List Nat
  | some m => m.slots
  | none => List.range ((p.kext + 31) / 32)

/-- The source position of place k, under the pending map or without one (08_stream_ops.md R221, R225). -/
def pushPlace (p : PushCtl) (map : Option CMap) (k : Nat) : Option Nat :=
  match map with
  | some m => (m.places[k]?).bind (fun x => if x / 32 ∈ m.slots then some x else none)
  | none => if k < p.kext then some k else none

/-- The block whose header slot q takes (08_stream_ops.md R221, R225). -/
def pushSlot (p : PushCtl) (map : Option CMap) (q : Nat) : Option Nat :=
  match map with
  | some m => m.slots[q]?
  | none => if 32 * q < p.kext then some q else none

/-! ### Floating-point and block rules, stated without the model's arithmetic (02_numbers.md R32 to R58; 06_vector.md R173 to
R190) -/

/-- 2^e. -/
abbrev p2 (e : Int) : Rat := (2 : Rat) ^ e

/-- The magnitude of a rational. -/
def mag (x : Rat) : Rat := if x < 0 then -x else x

/-- A positive real number, rational or not, by the rationals below it and above it. -/
structure Magn where
  below : Rat → Prop
  above : Rat → Prop

/-- The magnitude x. -/
def Magn.of (x : Rat) : Magn := ⟨fun c => c < x, fun c => x < c⟩

/-- √x. -/
def Magn.sqrt (x : Rat) : Magn := ⟨fun c => c < 0 ∨ c * c < x, fun c => 0 < c ∧ x < c * c⟩

/-- 1 / √x. -/
def Magn.rsqrt (x : Rat) : Magn := ⟨fun c => c ≤ 0 ∨ c * c * x < 1, fun c => 0 < c ∧ 1 < c * c * x⟩

/-- k units of 2^q are the magnitude r rounded once to mb + 1 bits in the direction that rm takes for the sign neg; bounded: no
unit is below that of the format's subnormals (02_numbers.md R33, R35, R37). -/
structure Cut (mb : Nat) (rm : RM) (neg bounded : Bool) (r : Magn) (k : Nat) (q : Int) : Prop where
  top : r.above (p2 (q + mb + 1))
  full : ¬ r.above (p2 (q + mb)) ∨ (bounded = true ∧ q = -126 - (mb : Int))
  low : bounded = true → -126 - (mb : Int) ≤ q
  near : rm = 0 → ¬ r.above (((k : Rat) - 1 / 2) * p2 q) ∧ ¬ r.below (((k : Rat) + 1 / 2) * p2 q) ∧
    ((¬ r.below (((k : Rat) - 1 / 2) * p2 q) ∨ ¬ r.above (((k : Rat) + 1 / 2) * p2 q)) → k % 2 = 0)
  down : (rm = 1 ∨ (rm = 2 ∧ neg = true) ∨ (rm = 3 ∧ neg = false)) →
    ¬ r.above ((k : Rat) * p2 q) ∧ r.above (((k : Rat) + 1) * p2 q)
  up : ((rm = 2 ∧ neg = false) ∨ (rm = 3 ∧ neg = true)) → ¬ r.below ((k : Rat) * p2 q) ∧ r.below (((k : Rat) - 1) * p2 q)

/-- The magnitude of a finite datum of a format with mb fraction bits (02_numbers.md R32). -/
def fmag (mb w : Nat) : Rat :=
  if w / 2 ^ mb % 256 = 0 then ((w % 2 ^ mb : Nat) : Rat) * p2 (-126 - (mb : Int))
  else ((w % 2 ^ mb + 2 ^ mb : Nat) : Rat) * p2 (((w / 2 ^ mb % 256 : Nat) : Int) - 127 - (mb : Int))

/-- w and the flags fl are the magnitude r with the sign neg, rounded once to a format: beyond the range an infinity or the
largest finite datum, by the mode, with OF and NX; else NX where it is inexact, and UF where it is also tiny after rounding
(02_numbers.md R33 to R35, R59). -/
def Rounded (mb : Nat) (rm : RM) (neg : Bool) (r : Magn) (w : Nat) (fl : Byte) : Prop :=
  ∃ k q ku qu, Cut mb rm neg true r k q ∧ Cut mb rm neg false r ku qu ∧
    let x := (k : Rat) * p2 q
    w / 2 ^ (mb + 8) = (if neg then 1 else 0) ∧
    (p2 128 ≤ x → fl = (fOF ||| fNX) ∧
      w % 2 ^ (mb + 8) = if rm = 0 ∨ (rm = 2 ∧ neg = false) ∨ (rm = 3 ∧ neg = true) then 255 * 2 ^ mb else 255 * 2 ^ mb - 1) ∧
    (x < p2 128 → w % 2 ^ (mb + 8) < 255 * 2 ^ mb ∧ fmag mb w = x ∧
      ∀ j < 8, fl.getLsbD j = true ↔
        (r.below x ∨ r.above x) ∧ (j = 4 ∨ (j = 3 ∧ (ku : Rat) * p2 qu < p2 (-126))))

/-- A NaN of FP32 (02_numbers.md R32). -/
def nan (w : BitVec 32) : Bool := decide (w.toNat / 2 ^ 23 % 256 = 255 ∧ w.toNat % 2 ^ 23 ≠ 0)
/-- A signalling NaN (02_numbers.md R33). -/
def snan (w : BitVec 32) : Bool := nan w && !w.getLsbD 22
/-- An infinity. -/
def inf (w : BitVec 32) : Bool := decide (w.toNat / 2 ^ 23 % 256 = 255 ∧ w.toNat % 2 ^ 23 = 0)
/-- A zero of either sign. -/
def zero (w : BitVec 32) : Bool := decide (w.toNat % 2 ^ 31 = 0)
/-- The sign. -/
def sgn (w : BitVec 32) : Bool := w.getLsbD 31
/-- The value of a finite datum. -/
def fval (w : BitVec 32) : Rat := if sgn w then -fmag 23 w.toNat else fmag 23 w.toNat
/-- The infinity of a sign. -/
def infW (neg : Bool) : BitVec 32 := if neg then 0xFF800000 else 0x7F800000
/-- The zero of a sign. -/
def zeroW (neg : Bool) : BitVec 32 := if neg then 0x80000000 else 0

/-- A NaN among the operands: the canonical NaN, with NV where one of them signals (02_numbers.md R33). -/
def nanResult (xs : List (BitVec 32)) : BitVec 32 × Byte := (0x7FC00000, if xs.any snan then fNV else 0)
/-- An invalid operation: the canonical NaN with NV. -/
def invalid : BitVec 32 × Byte := (0x7FC00000, fNV)

/-- r is x, which is not 0, rounded once to FP32. -/
def Round32 (rm : RM) (x : Rat) (r : BitVec 32 × Byte) : Prop :=
  Rounded 23 rm (decide (x < 0)) (Magn.of (mag x)) r.1.toNat r.2

/-- r is the exact sum x rounded once; a sum of zero is +0, under RDN -0, and of two zeros of one sign that zero (06_vector.md
R175). -/
def SumOr (rm : RM) (x : Rat) (zeros : Option Bool) (r : BitVec 32 × Byte) : Prop :=
  (x = 0 → r = (zeroW (zeros.getD (decide (rm = 3))), 0)) ∧ (x ≠ 0 → Round32 rm x r)

/-- a + b (06_vector.md R175). -/
def SumResult (rm : RM) (a b : BitVec 32) (r : BitVec 32 × Byte) : Prop :=
  if nan a || nan b then r = nanResult [a, b]
  else if inf a && inf b then r = if sgn a = sgn b then (a, 0) else invalid
  else if inf a then r = (a, 0)
  else if inf b then r = (b, 0)
  else SumOr rm (fval a + fval b) (if zero a && zero b && (sgn a == sgn b) then some (sgn a) else none) r

/-- a × b (06_vector.md R175). -/
def ProductResult (rm : RM) (a b : BitVec 32) (r : BitVec 32 × Byte) : Prop :=
  if nan a || nan b then r = nanResult [a, b]
  else if (inf a && zero b) || (zero a && inf b) then r = invalid
  else if inf a || inf b then r = (infW (sgn a != sgn b), 0)
  else if zero a || zero b then r = (zeroW (sgn a != sgn b), 0)
  else Round32 rm (fval a * fval b) r

/-- a × b + c, rounded once; ∞ × 0 is invalid whatever c holds (06_vector.md R175). -/
def FusedResult (rm : RM) (a b c : BitVec 32) (r : BitVec 32 × Byte) : Prop :=
  let n := sgn a != sgn b
  if (inf a && zero b) || (zero a && inf b) then r = invalid
  else if nan a || nan b || nan c then r = nanResult [a, b, c]
  else if inf a || inf b then r = if inf c && (sgn c != n) then invalid else (infW n, 0)
  else if inf c then r = (c, 0)
  else SumOr rm (fval a * fval b + fval c) (if (zero a || zero b) && zero c && (sgn c == n) then some n else none) r

/-- The order of two FP32 data that are no NaN: -0 ranks below +0 (05_local_memory.md R148). -/
def ranks (a b : BitVec 32) : Bool :=
  if sgn a && sgn b then decide (b.toNat ≤ a.toNat) else if sgn a then true else if sgn b then false else decide (a.toNat ≤ b.toNat)

/-- 1 / b (06_vector.md R177). -/
def ReciprocalResult (rm : RM) (b : BitVec 32) (r : BitVec 32 × Byte) : Prop :=
  if nan b then r = nanResult [b]
  else if inf b then r = (zeroW (sgn b), 0)
  else if zero b then r = (infW (sgn b), fDZ)
  else Round32 rm (1 / fval b) r

/-- 1 / √b and √b (06_vector.md R177). -/
def RootResult (reciprocal : Bool) (rm : RM) (b : BitVec 32) (r : BitVec 32 × Byte) : Prop :=
  if nan b then r = nanResult [b]
  else if zero b then r = if reciprocal then (infW (sgn b), fDZ) else (b, 0)
  else if sgn b then r = invalid
  else if inf b then r = if reciprocal then (0, 0) else (b, 0)
  else Rounded 23 rm false (if reciprocal then Magn.rsqrt (fval b) else Magn.sqrt (fval b)) r.1.toNat r.2

/-- 2^b: its special results, its exact cases, its overflow and its underflow; between two powers of two it lies between them,
and is inexact (06_vector.md R177). -/
def PowerResult (rm : RM) (b : BitVec 32) (r : BitVec 32 × Byte) : Prop :=
  if nan b then r = nanResult [b]
  else if inf b then r = if sgn b then (0, 0) else (b, 0)
  else
    (∀ n : Int, fval b = n → -149 ≤ n → n ≤ 127 → r.2 = 0 ∧ sgn r.1 = false ∧ inf r.1 = false ∧ nan r.1 = false ∧ fval r.1 = p2 n) ∧
    (128 ≤ fval b → r = (if rm = 0 ∨ rm = 2 then 0x7F800000 else 0x7F7FFFFF, fOF ||| fNX)) ∧
    (fval b ≤ -150 → r = (if rm = 2 then 1 else 0, fUF ||| fNX)) ∧
    ∀ n : Int, (n : Rat) < fval b → fval b < n + 1 → -126 ≤ n → n ≤ 126 →
      r.2 = fNX ∧ inf r.1 = false ∧ nan r.1 = false ∧ p2 n ≤ fval r.1 ∧ fval r.1 ≤ p2 (n + 1)

/-- log2 b: its special results and its exact cases; between two powers of two it lies between their exponents, and is inexact
(06_vector.md R177). -/
def LogarithmResult (b : BitVec 32) (r : BitVec 32 × Byte) : Prop :=
  if nan b then r = nanResult [b]
  else if zero b then r = (0xFF800000, fDZ)
  else if sgn b then r = invalid
  else if inf b then r = (b, 0)
  else inf r.1 = false ∧ nan r.1 = false ∧
    ∀ n : Int, (fval b = p2 n → r.2 = 0 ∧ fval r.1 = n ∧ (n = 0 → r.1 = 0)) ∧
      (p2 n < fval b → fval b < p2 (n + 1) → r.2 = fNX ∧ n ≤ fval r.1 ∧ fval r.1 ≤ n + 1)

/-- k is x rounded to an integer (02_numbers.md R35, R37). -/
def RoundsTo (rm : RM) (x : Rat) (k : Int) : Prop :=
  (rm = 0 → mag (x - k) ≤ 1 / 2 ∧ (mag (x - k) = 1 / 2 → k % 2 = 0)) ∧
  ((rm = 3 ∨ (rm = 1 ∧ 0 ≤ x)) → (k : Rat) ≤ x ∧ x < k + 1) ∧
  ((rm = 2 ∨ (rm = 1 ∧ x < 0)) → (k : Rat) - 1 < x ∧ x ≤ k)

/-- A FP32 lane as I32 (02_numbers.md R51). -/
def IntegerResult (rm : RM) (isat : Bool) (b : BitVec 32) (r : BitVec 32 × Byte) : Prop :=
  if nan b then r = (0, fNV)
  else if inf b then r = (if sgn b then 0x80000000 else 0x7FFFFFFF, fNV)
  else ∃ k : Int, RoundsTo rm (fval b) k ∧
    let nx : Byte := if fval b = k then 0 else fNX
    r = if -(2 ^ 31) ≤ k ∧ k < 2 ^ 31 then (BitVec.ofInt 32 k, nx)
      else if isat then (if k < 0 then 0x80000000 else 0x7FFFFFFF, fIV ||| nx)
      else (BitVec.ofInt 32 k, fNV ||| nx)

/-- A FP32 lane as BF16 (02_numbers.md R34). -/
def HalfResult (rm : RM) (b : BitVec 32) (r : BitVec 16 × Byte) : Prop :=
  if nan b then r = (0x7FC0, if snan b then fNV else 0)
  else if inf b || zero b then r = (b.extractLsb' 16 16, 0)
  else Rounded 7 rm (sgn b) (Magn.of (fmag 23 b.toNat)) r.1.toNat r.2

/-- A BF16 half as FP32 (02_numbers.md R34). -/
def WideResult (h : BitVec 16) (r : BitVec 32 × Byte) : Prop :=
  r = if nan (h ++ (0 : BitVec 16)) then nanResult [h ++ (0 : BitVec 16)] else (h ++ (0 : BitVec 16), 0)

/-! #### Wide accumulators -/

/-- An exact integer y put into a lane, which saturates outside 320 bits (02_numbers.md R47). -/
def laneOf (l : WLane) (y : Int) : WLane × Byte :=
  if y < -(2 ^ 319) then ({ l with x := BitVec.ofInt 320 (-(2 ^ 319)), satf := true }, fOF)
  else if 2 ^ 319 ≤ y then ({ l with x := BitVec.ofInt 320 (2 ^ 319 - 1), satf := true }, fOF)
  else ({ l with x := BitVec.ofInt 320 y }, 0)

/-- A lane after a FP32 datum was added, or with sub subtracted (02_numbers.md R46, R47; 06_vector.md R187). -/
def AddResult (l : WLane) (sub : Bool) (w : BitVec 32) (r : WLane × Byte) : Prop :=
  if nan w then r = ({ l with nanf := true }, if snan w then fNV else 0)
  else if inf w then r = (if sgn w != sub then { l with ninf := true } else { l with pinf := true }, 0)
  else if l.satf then r = (l, 0)
  else ∃ d : Int, (d : Rat) = fval w * p2 149 ∧ r = laneOf l (if sub then l.x.toInt - d else l.x.toInt + d)

/-- Lane k after lane j was folded into it (06_vector.md R187). -/
def foldResult (k j : WLane) : WLane × Byte :=
  let l := { k with nanf := k.nanf || j.nanf, pinf := k.pinf || j.pinf, ninf := k.ninf || j.ninf }
  if k.satf then (l, 0)
  else if j.satf then ({ l with x := j.x, satf := true }, fOF)
  else laneOf l (k.x.toInt + j.x.toInt)

/-- A lane read in a format, its conditions in R48's order (02_numbers.md R48). -/
def ReadResult (mb : Nat) (rm : RM) (l : WLane) (r : Nat × Byte) : Prop :=
  let top := 255 * 2 ^ mb
  if l.nanf || (l.pinf && l.ninf) then r = (top + 2 ^ (mb - 1), fNV)
  else if l.pinf then r = (top, 0)
  else if l.ninf then r = (2 ^ (mb + 8) + top, 0)
  else if l.satf then r = (if l.x.toInt < 0 then 2 ^ (mb + 8) + top else top, fOF)
  else if l.x.toInt = 0 then r = (0, 0)
  else Rounded mb rm (decide (l.x.toInt < 0)) (Magn.of ((l.x.toInt.natAbs : Rat) * p2 (-149))) r.1 r.2

/-- The sum of the 128 lanes, exact and then rounded once (06_vector.md R190). -/
def LaneSum (rm : RM) (b : VecW) (r : Word × Byte) : Prop :=
  let ls := (List.range 128).map (lane b)
  let pos := ls.any (fun w => inf w && !sgn w)
  let neg := ls.any (fun w => inf w && sgn w)
  let x := (ls.map fval).sum
  if ls.any nan || (pos && neg) then r = (0x7FC00000, fNV)
  else if pos then r = (0x7F800000, 0)
  else if neg then r = (0xFF800000, 0)
  else (x = 0 → r = (0, 0)) ∧ (x ≠ 0 → ∃ w, Round32 rm x (w, r.2) ∧ r.1 = w.setWidth 64)

/-- The largest of the 128 lanes (06_vector.md R190). -/
def LaneMax (b : VecW) (r : Word × Byte) : Prop :=
  let ls := (List.range 128).map (lane b)
  if ls.any nan then r = (0x7FC00000, if ls.any snan then fNV else 0)
  else r.2 = 0 ∧ ∃ w ∈ ls, r.1 = w.setWidth 64 ∧ ∀ v ∈ ls, ranks v w = true

/-! #### Blocks -/

/-- The magnitudes of FA4's codes (02_numbers.md R40). -/
def fa4Grid (k : Nat) : Rat := [0, 1 / 2, 1, 3 / 2, 2, 3, 4, 6].getD k 0

/-- The value that a code reads with, before the scale; hdr is its block's header (02_numbers.md R40, R41). -/
def codeValue (ib8 : Bool) (hdr c : Nat) : Rat :=
  if ib8 then (if 128 ≤ c then -((c % 128 : Nat) : Rat) else (c : Rat))
  else if c = 8 then (if hdr / 1024 % 2 = 1 then -((hdr / 2048 % 16 : Nat) : Rat) / 2 else ((hdr / 2048 % 16 : Nat) : Rat) / 2)
  else if 8 ≤ c then -fa4Grid (c % 8) else fa4Grid c

/-- An element of a block that is to be quantised: none at a padding position (02_numbers.md R45; 06_vector.md R182). -/
def element (x : VIn) (j e : Nat) : Option (BitVec 32) :=
  if x.m.getLsbD (32 * j + e) then none else some (lane x.b (32 * j + e))

/-- The elements of block j. -/
def elements (x : VIn) (j : Nat) : List (BitVec 32) := (List.range 32).filterMap (element x j)

/-- amax of block j, whose elements are finite (02_numbers.md R45). -/
def largest (x : VIn) (j : Nat) : Rat :=
  (elements x j).foldl (fun a w => if a < fmag 23 w.toNat then fmag 23 w.toNat else a) 0

/-- Whether block j holds a NaN or an infinity. -/
def special (x : VIn) (j : Nat) : Bool := (elements x j).any (fun w => nan w || inf w)

/-- The value of scale code c. -/
def scaleOf (c : Nat) : Rat := s10val (BitVec.ofNat 16 c)

/-- L (02_numbers.md R53). -/
def reach (ib8 : Bool) : Rat := if ib8 then 127 else 15 / 2

/-- c is the scale code that R53 chooses for amax. -/
def AutoCode (ib8 : Bool) (amax : Rat) (c : Nat) : Prop :=
  4 ≤ c ∧ c ≤ 0x3FB ∧ amax / scaleOf c ≤ reach ib8 ∧ ∀ d, 4 ≤ d → d < c → reach ib8 < amax / scaleOf d

/-- An attempt at scale code c notes an overflow (02_numbers.md R54, R55). -/
def Overflows (ib8 : Bool) (x : VIn) (j c : Nat) : Prop :=
  if ib8 then ∃ w ∈ elements x j, 127 < rne (fmag 23 w.toNat / scaleOf c) else 15 / 2 < largest x j / scaleOf c

/-- The alt magnitude of block j at scale code c, in half units (02_numbers.md R54). -/
def altOf (x : VIn) (j c : Nat) : Nat :=
  let am := min 15 (rne (2 * largest x j / scaleOf c)).toNat
  if am ∈ [0, 1, 2, 3, 4, 6, 8, 12] then 0 else am

/-- The sign of the first element of block j whose magnitude is amax. -/
def firstSign (x : VIn) (j : Nat) : Bool :=
  match (elements x j).find? (fun w => decide (fmag 23 w.toNat = largest x j)) with
  | some w => sgn w
  | none => false

/-- The header of block j at scale code c (02_numbers.md R39, R41, R54). -/
def headerOf (ib8 : Bool) (x : VIn) (j c : Nat) : Nat :=
  if ib8 then c else altOf x j c * 2 ^ 11 + (if altOf x j c ≠ 0 ∧ firstSign x j = true then 2 ^ 10 else 0) + c

/-- c is the code of w in a block with header hdr at scale code sc (02_numbers.md R37, R54, R55). -/
def CodeOf (ib8 : Bool) (hdr sc : Nat) (w : BitVec 32) (c : Nat) : Prop :=
  let y := fmag 23 w.toNat / scaleOf sc
  if ib8 then
    let k := min 127 (rne y).toNat
    c = if k = 0 then 0 else (if sgn w then 128 else 0) + k
  else
    let z := if y < 6 then y else 6
    let alt := hdr / 2048 % 16
    ∃ k < 8, (∀ i < 8, mag (z - fa4Grid k) ≤ mag (z - fa4Grid i) ∧ (mag (z - fa4Grid k) = mag (z - fa4Grid i) → i ≠ k → k % 2 = 0)) ∧
      (alt ≠ 0 ∧ sgn w = decide (hdr / 1024 % 2 = 1) ∧ mag (y - (alt : Rat) / 2) < mag (y - fa4Grid k) → c = 8) ∧
      (¬ (alt ≠ 0 ∧ sgn w = decide (hdr / 1024 % 2 = 1) ∧ mag (y - (alt : Rat) / 2) < mag (y - fa4Grid k)) →
        c = if k = 0 then 0 else (if sgn w then 8 else 0) + k)

/-- Block j quantised: its header, the codes of its elements and its flags; a retry raises the scale by one step (02_numbers.md
R52 to R57; 06_vector.md R184). -/
def Quantised (ib8 : Bool) (x : VIn) (j hdr : Nat) (code : Nat → Nat) (fl : Byte) : Prop :=
  let expl := (lane x.a j).toNat % 1024
  let auto := x.qcfg.getLsbD 4
  let zeros := ∀ e < 32, code e = 0
  if special x j then hdr = 0x3FF ∧ zeros ∧ fl = fNV
  else if largest x j = 0 then hdr = 0 ∧ zeros ∧ fl = 0
  else if auto = false ∧ expl / 4 = 0 then hdr = 0 ∧ zeros ∧ fl = (fNX ||| fUF)
  else if auto = false ∧ expl / 4 = 255 then hdr = 0x3FF ∧ zeros ∧ fl = fNV
  else ∃ c0 n, (if auto then AutoCode ib8 (largest x j) c0 else c0 = expl) ∧
    n ≤ (if x.qcfg.getLsbD 1 then 0 else x.qcfg.toNat / 4 % 4) ∧ c0 + n ≤ 0x3FB ∧ (∀ d < n, Overflows ib8 x j (c0 + d)) ∧
    (Overflows ib8 x j (c0 + n) → n = (if x.qcfg.getLsbD 1 then 0 else x.qcfg.toNat / 4 % 4) ∨ c0 + n = 0x3FB) ∧
    hdr = headerOf ib8 x j (c0 + n) ∧
    (∀ e < 32, match element x j e with
      | some w => CodeOf ib8 hdr (c0 + n) w (code e)
      | none => code e = 0) ∧
    ∀ k < 8, fl.getLsbD k = true ↔
      (k = 4 ∧ ∃ e < 32, ∃ w, element x j e = some w ∧ codeValue ib8 hdr (code e) ≠ fval w / scaleOf (c0 + n)) ∨
      (k = 3 ∧ ∃ e < 32, ∃ w, element x j e = some w ∧ zero w = false ∧ codeValue ib8 hdr (code e) = 0) ∨
      (k = 6 ∧ Overflows ib8 x j (c0 + n))

/-- The bytes of a block of 32 codes, from its header on (02_numbers.md R39, R41). -/
def blockByte (ib8 : Bool) (hdr : Nat) (code : Nat → Nat) (i : Nat) : Nat :=
  if i = 0 then hdr % 256 else if i = 1 then hdr / 256
  else if ib8 then code (i - 2) else code (2 * (i - 2)) + 16 * code (2 * (i - 2) + 1)

/-- The bytes of a block in memory. -/
def blockLen (ib8 : Bool) : Nat := if ib8 then 34 else 18

/-- Element e of block j of a vector of blocks as FP32 (02_numbers.md R38 to R41, R58). -/
def Dequantised (ib8 : Bool) (b : VecW) (j e : Nat) (r : BitVec 32 × Byte) : Prop :=
  let at' (i : Nat) := (vbyte b (blockLen ib8 * j + i)).toNat
  let hdr := at' 0 + 256 * at' 1
  let c := if ib8 then at' (2 + e) else at' (2 + e / 2) / 16 ^ (e % 2) % 16
  let v := codeValue ib8 hdr c * scaleOf (hdr % 1024)
  if hdr / 4 % 256 = 255 then r = (0x7FC00000, 0)
  else if hdr / 4 % 256 = 0 ∨ codeValue ib8 hdr c = 0 then r = (0, 0)
  else if p2 128 ≤ mag v then r = (infW (decide (v < 0)), fOF)
  else r.2 = 0 ∧ nan r.1 = false ∧ inf r.1 = false ∧ fval r.1 = v

/-- An integer v in a format from lo to hi: in range as it is, else wrapped, or with ISAT the nearest extreme and IV
(02_numbers.md R51). -/
def narrowed (isat : Bool) (lo hi v : Int) : Int × Byte :=
  if lo ≤ v ∧ v ≤ hi then (v, 0) else if isat then (if v < lo then lo else hi, fIV) else (v, 0)

/-- Element j of the destination of narrow (06_vector.md R180). -/
def narrowOf (x : VIn) (j : Nat) : Int × Byte :=
  let isat := x.qcfg.getLsbD 0
  match (lane x.c 0).toNat % 4 with
  | 0 => narrowed isat (-32768) 32767 (if j < 128 then lane x.a j else lane x.b (j - 128)).toInt
  | 1 => narrowed isat 0 65535 (if j < 128 then lane x.a j else lane x.b (j - 128)).toNat
  | 2 => narrowed isat (-128) 127 (if j < 256 then half x.a j else half x.b (j - 256)).toInt
  | _ => narrowed isat 0 255 (if j < 256 then half x.a j else half x.b (j - 256)).toNat

/-- fl is the OR of n flag bytes (02_numbers.md R60; 06_vector.md R168). -/
def AllFlags (n : Nat) (f : Nat → Byte) (fl : Byte) : Prop := ∀ k < 8, fl.getLsbD k = true ↔ ∃ i < n, (f i).getLsbD k = true

/-! ### MEM triggers (05_local_memory.md R141 to R152) -/

/-- The triggers of the MEM engine. -/
def isMem (i : Instr) : Bool :=
  match i with
  | .memMark _ => true
  | _ => decide (memKind i ≠ .mark)

/-- The width in bytes of what an access touches at each address (05_local_memory.md R137). -/
def accessWidth : MKind → Nat
  | .ld n _ | .st n | .amo n _ => n
  | _ => 4

/-- An access that reads the array: a load or an atomic. -/
def accessReads : MKind → Bool
  | .ld _ _ | .vld | .vlds | .vgat | .amo _ _ => true
  | _ => false

/-- A send whose descriptor sets a bit of 25:0 (10_phase_sync.md R284). -/
def badSend (x : Access) : Prop := (x.kind = .send ∨ x.kind = .sends) ∧ x.o.toNat % 2 ^ 26 ≠ 0

/-- An access passes its checks (05_local_memory.md R137; 10_phase_sync.md R284). -/
def AccessPasses (s : State) (x : Access) : Prop :=
  ¬ badSend x ∧ NoFault (byteCheck s (accessReads x.kind) (accessWidth x.kind)) 1 x.addrs

/-- An access fails with the cause k: a send by its descriptor; otherwise the first check that fails, at its lowest failing lane,
whose address is a (05_local_memory.md R137; 10_phase_sync.md R284; 12_traps.md R333). -/
def AccessFails (s : State) (x : Access) (k : Byte) (a : Nat) : Prop :=
  (badSend x ∧ k = 0x02 ∧ a = 0) ∨
    (¬ badSend x ∧ FirstFault (byteCheck s (accessReads x.kind) (accessWidth x.kind)) 1 x.addrs k a)

/-- The state after the head of the MEM queue has entered the inner queues that it belongs to. -/
def memEntered (s : State) (i : Instr) (en : Entry) (v : Val) : State :=
  let c := s.me
  let x : Access := ⟨en, (c.op .mem).o.toScalar, (c.op .mem).o2.toScalar, (c.op .mem).m, v, 0, 0⟩
  let load := decide (memKind i = .mark) || !(memKind i).store
  let store := (memKind i).store || decide (memKind i = .mark)
  s.setMe { c with
    qs := c.qs.set [] Eng.mem.code (c.q .mem).tail,
    ldq := if load then c.ldq ++ [x] else c.ldq,
    stq := if store then c.stq ++ [x] else c.stq }

/-! ### Issue (03_encoding.md R62 to R90) -/

/-- The slot, the register and the fields of a register move (03_encoding.md R70, R71). -/
def regMove : Instr → Option (Nat × RegId × Mv)
  | .moveSreg slot d m =>
    match destOfSDest d with
    | .reg r => some (slot.val, r, m)
    | _ => none
  | .moveVreg slot d m => some (slot.val, regOfVDest d, m)
  | .moveVregSlot7 d m => some (7, regOfVDest d, m)
  | _ => none

/-- What a register reads as after a value has been moved to it (03_encoding.md R70, R71, R75). -/
def held (r : RegId) (v : Val) : Val :=
  match r with
  | .s i => if i.val = 0 then .s 0 else .s v.toScalar
  | .o _ | .a _ => .s v.toScalar
  | .g _ => .s (if v.toScalar.getLsbD 0 then 1 else 0)
  | .v _ => .v v.toVec
  | .vm _ => .m v.toMask

/-- The core after a bundle that held no slot-4 move has issued, with x as its registers: the next bundle is the sequential
successor, and a repeat prefix has lapsed (04_scalar_control.md R119, R122). -/
def issued (c : Core) (x : Ctx) : Core :=
  { c with pc := (loopEnd c.pc c.ctx.loops).1, ctx := { x with loops := (loopEnd c.pc c.ctx.loops).2 },
           resumeBreak := false, repNext := none }

/-- The deferred faults once register r takes another value: a fault whose token stood there is no longer raised by a read
of r (09_copy_collective.md R248). -/
def unread (c : Core) (r : RegId) : List Deferred :=
  c.deferred.map (fun d => if d.send = false ∧ r = .s (Fin.ofNat 64 d.tok) ∧ d.tok < 64 then { d with live := false } else d)

/-- The registers that moves write may differ; the rest of a context is the same. -/
def sameBut (x y : Ctx) : Prop := y = { x with s := y.s, o := y.o, a := y.a, g := y.g, v := y.v, vm := y.vm }

/-- The slot, the engine, the port and the fields of an operand move (03_encoding.md R67, R69; 09_copy_collective.md
R241). -/
def operandMove : Instr → Option (Nat × Eng × OPort × Mv)
  | .moveOperandPort slot p m => some (slot.val, slotEng slot.val, p, m)
  | .moveColOperand c p m => some (c.slot, .col, p, m)
  | .moveXport slot e p m => some (slot.val, e, p, m)
  | _ => none

/-- What a queue entry was made from: its trigger, its port, its value, its slot and its bundle. -/
def entryKey (en : Entry) : Option Instr × OPort × EVal × Nat × Nat := (en.trig, en.port, en.val, en.slot, en.badr)

/-- The operand moves and then the triggers of a bundle that enter the queue of engine e, with their sources as the core held
them before the bundle (03_encoding.md R83, R84). -/
def entersOf (c : Core) (ms : List BMove) (e : Eng) : List (Option Instr × OPort × EVal × Nat × Nat) :=
  let perf := ms.filter (fun b => c.performs b)
  perf.filterMap (fun b => match b.src, b.dest with
      | some x, .oport e' p => if e' = e then some (none, p, c.bindSrc b.slot x, b.slot, c.pc) else none
      | _, _ => none)
    ++ perf.filterMap (fun b => match b.src, b.dest, b.instr with
      | some x, .trig e' _, some i => if e' = e then some (some i, .o, c.bindSrc b.slot x, b.slot, c.pc) else none
      | _, _, _ => none)

/-- The next bundle, the loop frames and the link stack after a branching trigger or ctl.loop (04_scalar_control.md R114,
R118 to R120). -/
def branchOf (c : Core) (b o : Word) : Instr → Option (Nat × List Loop × List Nat)
  | .ctlJmp _ => some (b.toNat, c.ctx.loops.dropWhile (fun f => decide (b.toNat < f.lstart ∨ f.lend < b.toNat)), c.ctx.links)
  | .ctlJrel _ =>
    let t := ((c.pc : Int) + b.toInt).toNat
    some (t, c.ctx.loops.dropWhile (fun f => decide (t < f.lstart ∨ f.lend < t)), c.ctx.links)
  | .ctlCall _ => some (b.toNat, (loopEnd c.pc c.ctx.loops).2, (loopEnd c.pc c.ctx.loops).1 :: c.ctx.links)
  | .ctlRet _ => some (c.ctx.links.headD 0, c.ctx.loops, c.ctx.links.tail)
  | .ctlLoop _ => some (c.pc + 1, ⟨c.pc + 1, c.pc + o.toNat, b.toNat⟩ :: c.ctx.loops, c.ctx.links)
  | _ => none

/-- The control register that a number names, as State holds its parts; the registers of a stand need one (01_machine.md R18;
02_numbers.md R35, R50, R59; 03_encoding.md R87; 04_scalar_control.md R131 to R133; 10_phase_sync.md R273, R274, R292, R293). -/
def csrOf (s : State) (num : Nat) : Option Word :=
  let c := s.me
  let stand (f : Run → Nat) : Option Word := (s.runOf c.part).map (fun r => BitVec.ofNat 64 (f r))
  let table : List (Nat × Option Word) := [
    (0x000, some (BitVec.ofNat 64 (s.sys.dev.toNat * 2 ^ 9 + s.cur / 8 * 2 ^ 3 + s.cur / 4 % 2 * 2 ^ 2 + s.cur % 4))),
    (0x001, some c.standId), (0x002, some (BitVec.ofNat 64 c.ncores)), (0x003, some (BitVec.ofNat 64 c.lrank)),
    (0x004, some (if c.det then 1 else 0)),
    (0x008, stand (fun r => r.phc)),
    (0x009, stand (fun r => (if r.exch then 1 else 0) + (if c.disc then 2 else 0) + (if r.phc % 2 = 1 then 4 else 0))),
    (0x00A, stand (fun r => r.adm.cap)), (0x00B, stand (fun r => r.adm.lim)),
    (0x010, some (s.die (dieOf s.cur)).clock.dtc), (0x011, some s.sys.dtskew),
    (0x018, some (c.ctx.afl.setWidth 64)), (0x019, some (c.ctx.afm.setWidth 64)),
    (0x01A, some (c.ctx.qcfg.setWidth 64)), (0x01B, some (c.ctx.rmode.setWidth 64)),
    (0x020, stand (fun r => r.adm.remC)), (0x021, stand (fun r => r.adm.remB)), (0x022, stand (fun r => r.adm.remX)),
    (0x030, some (c.slmap.setWidth 64))]
  (table.find? (fun e => decide (e.1 = num))).bind (·.2)

/-- The CTL triggers that issue at once and continue sequentially, and what they leave of the issued core: ctl.r, a control
register (a flag raised in the same cc stays set), a guard, a repeat prefix, or an arrival that is due (02_numbers.md R60;
04_scalar_control.md R116, R117, R122, R125, R130 to R133; 10_phase_sync.md R275, R295). -/
def controlOf (s : State) (b o : Word) : Instr → Option Core
  | .ctlCsrr _ => (csrOf s b.toNat).map (fun w => (issued s.me s.me.ctx).setPort .ctlR (.full (.s w)))
  | .ctlTime _ =>
    some ((issued s.me s.me.ctx).setPort .ctlR
      (.full (.s (if b = 0 then s.dtcOf s.cur else s.me.ssc.setWidth 64))))
  | .ctlCsrw _ =>
    let x := s.me.ctx
    some (issued s.me (
      if o = 0x018 then { x with afl := b.extractLsb' 0 8 ||| s.me.fresh }
      else if o = 0x019 then { x with afm := b.extractLsb' 0 8 }
      else if o = 0x01A then { x with qcfg := b.extractLsb' 0 5 }
      else { x with rmode := b.extractLsb' 0 2 }))
  | .ctlGset _ => some (setG (b.extractLsb' 0 3) (b.getLsbD 3))
  | .ctlGnot _ => some (setG (b.extractLsb' 0 3) (!g (b.extractLsb' 3 3)))
  | .ctlGand _ => some (setG (b.extractLsb' 0 3) (g (b.extractLsb' 3 3) && g (b.extractLsb' 6 3)))
  | .ctlGor _ => some (setG (b.extractLsb' 0 3) (g (b.extractLsb' 3 3) || g (b.extractLsb' 6 3)))
  | .ctlRep _ => some { issued s.me s.me.ctx with repNext := some b.toNat }
  | .ctlHalt _ => some { issued s.me s.me.ctx with seq := .halted false, exitw := b.extractLsb' 0 32, exited := true }
  | .ctlEndph _ => some { issued s.me s.me.ctx with seq := .endph (decide (b = 1)) false }
  | _ => none
where
  /-- Guard n as it reads before the bundle: g0 reads 1 (04_scalar_control.md R116). -/
  g (n : BitVec 3) : Bool := decide (s.me.guardCell n.toNat = .full true)
  /-- Guard n written; a transfer that waits for it is dropped (04_scalar_control.md R117). -/
  setG (n : BitVec 3) (v : Bool) : Core :=
    { issued s.me { s.me.ctx with g := s.me.ctx.g.set (.full false) (n.toNat - 1) (.full v) } with
      pends := s.me.pends.filter (fun p => match p.dst with | .g k => decide (k.val ≠ n.toNat - 1) | _ => true) }

/-- What the CTL triggers that may wait wait for (04_scalar_control.md R128, R129; 10_phase_sync.md R289, R290, R294). -/
def goesOn (s : State) (b : Word) : Instr → Option Bool
  | .ctlTfence _ =>
    some (s.me.queuesEmpty && s.me.triggersDone && s.me.deferred.isEmpty && decide (s.me.ctx.afl &&& s.me.ctx.afm = 0))
  | .ctlDrain _ => some s.me.drained
  | .ctlWaitt _ => some (decide (b.toNat ≤ (s.dtcOf s.cur).toNat))
  | .ctlBwait _ => some (s.me.barDone b)
  | .ctlBwaitt _ => some (s.me.barDone b)
  | _ => none

/-- How a core stands while such a trigger waits: as it is, or frozen (03_encoding.md R86; 10_phase_sync.md R289, R290,
R294). -/
def waitsAs (c : Core) (o : Word) : Instr → Option (Option Freeze)
  | .ctlDrain _ => some none
  | .ctlWaitt _ => some (some .waitt)
  | .ctlBwait _ => some (some .bwait)
  | .ctlBwaitt _ => some (some (.bwaitt (o.toNat % 2 ^ 32)))
  | .ctlBar _ => some (some (.bar false))
  | .ctlArrive _ => some (some .arrive)
  | .ctlTfence _ => if c.queuesEmpty && c.triggersDone then none else some none
  | _ => none

/-- The core after a waiting CTL trigger has gone on: bwaitt writes 0 to ctl.r (10_phase_sync.md R290). -/
def wentOn (c : Core) : Instr → Core
  | .ctlBwaitt _ => (issued c c.ctx).setPort .ctlR (.full (.s 0))
  | _ => issued c c.ctx

/-- What a register reads as after a slot has read the source x: in slot 4 an address register advances
(04_scalar_control.md R121). -/
def afterRead (c : Core) (slot : Nat) (x : Src) (r : RegId) : Machine.Cell Val :=
  match x with
  | .reg (.a k) _ =>
    if slot = 4 ∧ r = .a k then (c.ctx.readReg r).map (fun v => .s (advance v.toScalar)) else c.ctx.readReg r
  | _ => c.ctx.readReg r

/-- The fields of a STR trigger (08_stream_ops.md R219). -/
def strTrigger : Instr → Option Mv
  | .strPusha m | .strPushb m | .strPushav m | .strPushbv m | .strPushak m | .strBank m | .strBeat m | .strRun m | .strShift m
  | .strFold m | .strDrain m | .strDrainbf m | .strClra m | .strClrc m | .strCnt m | .strSlen m | .strSprec m | .strSeeda m
  | .strSeedb m | .strSmode m | .strSthr m | .strRefexp m | .strDigit m | .strCkint m | .strMgn m | .strCpair m | .strStat m => some m
  | _ => none

/-- The port that a STR trigger fills (08_stream_ops.md R224, R233, R235, R237). -/
def strPort : Instr → Option RPort
  | .strPushak _ | .strCnt _ | .strStat _ => some .strR
  | .strDrain _ | .strDrainbf _ => some .strVr
  | _ => none

/-- The operand port that a move writes; a trigger's entry names none and stands at o. -/
def portOf : Instr → OPort
  | .moveOperandPort _ p _ | .moveXport _ _ p _ => p
  | _ => .o

/-- The triggers of SCA, VEC, STR and MEM, and the steps inside these engines that no move names. -/
def inEngines (i : Instr) : Bool :=
  isSca i || (intLane i).isSome || (flagLane i).isSome || (cmpLane i).isSome || (moveLane i).isSome || (scalarOf i).isSome
    || (convertOf i).isSome || (wideOf i).isSome || (wgetOf i).isSome || (strTrigger i).isSome || isMem i
    || (match i with
        | .operandEntryCapture _ | .resultArrival | .triggerFullEffect | .pendingTransferComplete | .repeatEntry
        | .memAccessStart _ => true
        | _ => false)

/-! ### The steps inside a core -/

/-- Every entry of every queue that waits for w has received v; nothing else of the queues has changed (03_encoding.md
R79). -/
def wokenQueues (c d : Core) (w : Wait) (v : Val) : Prop :=
  ∀ e, d.q e = (c.q e).map (fun en => { en with val := en.val.wake w v })

/-- An address register after n slot-4 reads: n strides added to bits 31:0, mod 2^32 (04_scalar_control.md R121). -/
def stepped (n : Nat) (w : Word) : Word :=
  w.extractLsb' 32 32 ++ (w.extractLsb' 0 32 + BitVec.ofNat 32 n * w.extractLsb' 32 32)

/-! ### Local memory (05_local_memory.md) -/

/-- The arrays of local memory: every scratchpad and every pool. -/
def arrays (s : State) (pool : Bool) (n a : Nat) : Byte :=
  if pool then Mem.read (s.quad n).mem a else Mem.read (s.core n).scratch a

/-- The array byte that a core's local address names: the pool of its quad or its scratchpad, and the byte. -/
def arrayOf (s : State) (core a : Nat) : Option (Bool × Nat × Nat) :=
  (locOf (s.poolOf core) core a).map (fun l => (l.1, if l.1 then quadOf core else core, l.2))

/-- The four bytes at a local address, the first the lowest. -/
def word4 (s : State) (core a : Nat) (w : BitVec 32) : Prop :=
  ∀ j < 32, w.getLsbD j = (s.localByte core (a + j / 8)).getLsbD (j % 8)

/-- What a load of kind k puts into its port (05_local_memory.md R143, R144). -/
def LoadResult (s : State) (core : Nat) (x : Access) (r : Val) : Prop :=
  match x.kind with
  | .ld n sx =>
    ∃ w : Word, r = .s w ∧ ∀ j < 64, w.getLsbD j =
      let k := if j < 8 * n then j else 8 * n - 1
      ((decide (j < 8 * n) || sx) && (s.localByte core (x.addrs.headD 0 + k / 8)).getLsbD (k % 8))
  | _ => ∃ w : VecW, r = .v w ∧ ∀ l < 128, word4 s core (x.addrs.getD l 0) (lane w l)

/-- The lanes of an access that the turn performs: of those not performed yet the ones it names, 0 naming all
(05_local_memory.md R138; log entry 66). -/
def lanesNow (s : State) (x : Access) : List Nat :=
  (List.range x.addrs.length).filter (fun i => !x.lanes.getLsbD i && (decide (s.obj = 0) || s.obj.testBit i))

/-- The lanes of an access that are performed after the turn. -/
def Performed (s : State) (x : Access) (l : MaskW) : Prop :=
  ∀ i < 128, l.getLsbD i = (x.lanes.getLsbD i || (lanesNow s x).contains i)

/-- The lanes that a store writes in the turn: their addresses, in lane order, and their bytes; a lane whose word a higher lane
has written already writes nothing (05_local_memory.md R145, R146). -/
def storeLanes (s : State) (x : Access) : List (Nat × List Byte) :=
  let at' (i : Nat) := x.addrs.getD i 0
  let ls := (lanesNow s x).filter (fun i =>
    !(List.range x.addrs.length).any (fun j => decide (i < j ∧ at' j = at' i) && x.lanes.getLsbD j))
  match x.kind with
  | .st n => ls.map (fun i => (at' i, leBytes n x.b.toScalar.toNat))
  | .vst | .vsts => ls.map (fun i => (at' i, leBytes 4 (lane x.b.toVec i).toNat))
  | .vstm => ls.filterMap (fun i => if x.m.getLsbD i then some (at' i, leBytes 4 (lane x.b.toVec i).toNat) else none)
  | .vsca => ls.map (fun j => (at' j, leBytes 4 (lane x.b.toVec (2 * j + 1)).toNat))
  | _ => []

/-- The array bytes a store writes, in the order in which it writes them: the last value of a byte stands. -/
def storedBytes (s : State) (core : Nat) (x : Access) : List ((Bool × Nat × Nat) × Byte) :=
  (storeLanes s x).flatMap (fun r => r.2.zipIdx.filterMap (fun p => (arrayOf s core (r.1 + p.2)).map (fun l => (l, p.1))))

/-- The stores of R145 and R146: those that write memory when they are performed. -/
def isStore (k : MKind) : Bool :=
  match k with
  | .st _ | .vst | .vsts | .vsca | .vstm => true
  | _ => false

/-! ### Copies and collectives (09_copy_collective.md) -/

/-- The job that the instruction runs: obj of the current core, its card read and of the given kind, able to go on, with no
request outstanding and no cancel (09_copy_collective.md R245). -/
structure Runs (s : State) (kind : Nat) (j : CJob) (card : BitVec 512) : Prop where
  at' : s.me.jobs[s.obj]? = some j
  read : j.card = some card
  is : cardKind card = kind
  going : j.ended = none ∧ j.asked = false ∧ j.cancel = false
  may : j.started = true ∨ canStart s s.cur j = true

/-- The kind of card that a job step takes (09_copy_collective.md R253). -/
def jobKind : Instr → Option Nat
  | .jobCopy _ => some 1
  | .jobFill _ => some 2
  | .jobGather _ => some 3
  | .jobAmo => some 4
  | .jobDelta => some 5
  | _ => none

/-- The byte that a COPY, FILL or GATHER card puts at a position whose source is local or a pattern (09_copy_collective.md
R256). -/
def sourceByte (s : State) (card : BitVec 512) (p a : Nat) : Byte :=
  if cardKind card = 2 then BitVec.ofNat 8 (card.toNat / 2 ^ (8 * (8 + (posOf card p).2.2 % 8))) else s.localByte s.cur a

/-- The rows that a job holds once it has taken the byte at its place: a gather holds the index of that byte's row
(09_copy_collective.md R256; that a row's index is read once, as the row begins, is the model's choice, log entry 57). -/
def RowsHeld (s : State) (card : BitVec 512) (j : CJob) (rows : List (Nat × Nat)) : Prop :=
  (card.toNat % 16 ≠ 3 → rows = j.rows) ∧
    (card.toNat % 16 = 3 → (rows.find? (fun r => decide (r.1 = j.pos / cf card 24 4 % cf card 28 4))).map (·.2) =
      some (j.rowIdx s s.cur card j.pos))

/-- The request of the current core's job j that has joined the flits waiting at the stop of its die, in state t
(09_copy_collective.md R261; 11_translation.md R299). -/
def Asks (s t : State) (j : CJob) (card : BitVec 512) (kind : RKind) (a : Nat) : Prop :=
  ∃ f r, (t.stop (stopOfDie (dieOf s.cur))).wait = (s.stop (stopOfDie (dieOf s.cur))).wait ++ [f] ∧ f.load = .req r ∧
    f.cls = card.toNat / 16 % 4 ∧ r.org = .job s.cur j.tag ∧ r.asid = (s.me.standId.extractLsb' 0 16).toNat ∧ r.kind = kind ∧
    r.addr = BitVec.ofNat 64 a ∧ r.ptag = j.ptag ∧ ∃ j', t.me.jobs[s.obj]? = some j' ∧ j'.asked = true ∧ j'.started = true

/-- The result port and the answer of a copy or collective trigger that answers at once, and the jobs and cards it leaves
(09_copy_collective.md R249, R250). -/
def answerOf (c : Core) (b : Word) : Instr → Option (Eng × RPort × Word × List CJob × List (Nat × Nat))
  | .cpyStatus u _ =>
    some (u.eng, copyPort u, match c.tokJob u.eng b with
      | some j => BitVec.ofNat 64 (j.doneb * 2 ^ 24 + (if j.held then 3 else if j.started then 2 else 1))
      | none => 0, c.jobs, c.cards)
  | .cpyCancel u _ =>
    some (match c.tokJob u.eng b with
      | some j =>
        (u.eng, copyPort u, 1, c.jobs.map (fun x => if x.tag = j.tag then
          { j with cancel := true, ended := if j.started then (if j.ended = some 0 then some 5 else j.ended)
                                            else some (j.ended.getD 5) } else x), c.cards)
      | none => (u.eng, copyPort u, 0, c.jobs, c.cards))
  | .colCancel _ _ =>
    some (match c.tokJob .col b with
      | some j =>
        if c.cards.any (fun t => decide (t.1 = j.tag)) then
          (.col, .colR, 1, c.jobs.map (fun x => if x.tag = j.tag then { j with ended := some 5 } else x),
            c.cards.filter (fun t => decide (t.1 ≠ j.tag)))
        else (.col, .colR, 0, c.jobs, c.cards)
      | none => (.col, .colR, 0, c.jobs, c.cards))
  | _ => none

/-- The kind of card that a collective step takes, and its rank and unit (09_copy_collective.md R253, R268 to R270). -/
def collKind : Instr → Option (Nat × Nat × Nat)
  | .jobMaxscale r b => some (8, r, b)
  | .jobReduce r b => some (9, r, b)
  | .jobAllreduce r b => some (10, r, b)
  | .jobAllgather r b => some (11, r, b)
  | .jobBcast r b => some (12, r, b)
  | _ => none

/-- The card that arrived in fabric cycle fc at the head of the current core's card queue is the next of its die: none of the
die's other cores has one that arrived earlier, nor one of the same cycle, which is over, at a lower CORE_ID 2:0
(01_machine.md R20). -/
def CardTurn (s : State) (fc : Nat) : Prop :=
  fc < s.fabric ∧ ∀ i < 8, ∀ x rest, (s.core (8 * dieOf s.cur + i)).cards = x :: rest → fc < x.2 ∨ (fc = x.2 ∧ s.cur % 8 ≤ i)

/-- The cards of a die whose groups have not assembled (09_copy_collective.md R245). -/
def cardsWaiting (s : State) (d : Nat) : Nat :=
  (((s.uses.filter (fun u => !u.assembled)).flatMap (·.cards)).filter (fun k => decide (dieOf k.core = d))).length

/-- The use u has ended in state t with status st and, at the ranks that write rounded results, the flags fl: it is gone, and
every rank's job has that status unless it ended for want of space (09_copy_collective.md R270, R429; 11_translation.md R314,
R325). -/
structure UseEnds (s t : State) (u : Use) (st fl : Byte) : Prop where
  gone : t.uses = dropAt s.uses s.obj
  jobs : ∀ r k j, u.rankCard r = some k → useJob s k = some j →
    ∃ x, useJob t k = some x ∧ x.use = none ∧ x.held = false ∧ x.ended = (if j.ended = some 4 then some 4 else some st) ∧
      x.flags = j.flags ||| (if cardKind k.card = 10 ∨ r = cardRoot k.card then fl else 0) ∧ x.doneb = j.doneb

/-- Die d of module m belongs to the group that the cards of a use name: this module, or one of the pod group, and a die that a
card names, in its own module or in pod scope in all (09_copy_collective.md R266). -/
def inGroup (s : State) (u : Use) (m d : Nat) : Prop :=
  (m = s.sys.dev.toNat ∨ m ∈ SMap.get s.sys.pod [] (u.key / 2)) ∧
    ((∃ k ∈ u.cards, (cf k.card 32 8).testBit d = true ∧ (cardScope k.card = 1 ∨ m = s.sys.dev.toNat)) ∨
      ∃ k ∈ u.far, (cf k.card 32 8).testBit d = true ∧ (cardScope k.card = 1 ∨ m = k.core / 512))

/-- A card of a die of a use is there, of whichever module (09_copy_collective.md R266). -/
def heldCard (u : Use) (d : Nat) : Prop :=
  (∃ k ∈ u.cards, u.dieNo (dieOf k.core) = d) ∨ (u.devs ≠ [] ∧ ∃ k ∈ u.far, k.core / 8 = d)

/-- A die of a use lies in this module. -/
def nearDie (u : Use) (d : Nat) : Prop := u.devs = [] ∨ d / 64 = u.dev

/-- Every rank has injected all its flits; one of another module has where its flits, or results that hold them, have arrived
(09_copy_collective.md R429). -/
def AllInjected (u : Use) : Prop :=
  ∀ q d, u.dies[q]? = some d →
    (nearDie u d → unitsIn u.head q ≤ u.injected q) ∧
    (¬ nearDie u d → ∀ b < unitsIn u.head q, (q, b) ∈ u.done ∨ (cardKind u.head < 11 ∧ ∃ y ∈ u.results, y.1 = b))

/-- A use over several modules of which a card's die has no way to a pod switch left (14_system.md R398; log entry 64). -/
def cutOff (s : State) (u : Use) : Prop :=
  s.useFar u = true ∧ ∃ k ∈ u.cards, s.podLink (edgeOfDie (dieOf k.core)) = none

/-- A rank of this module is gone before it has injected all its flits (09_copy_collective.md R267; 12_traps.md R341). -/
def lostRank (s : State) (u : Use) : Prop :=
  ∃ q d, u.dies[q]? = some d ∧ nearDie u d ∧ (∀ c x, u.rankCard q = some c → useJob s c ≠ some x) ∧ u.injected q < unitsIn u.head q

/-- Some rank of a use has met a fault at its destination (11_translation.md R314). -/
def faultyRank (s : State) (u : Use) : Prop :=
  ∃ q < u.dies.length, (∃ c x, u.rankCard q = some c ∧ useJob s c = some x ∧ x.nfault ≠ 0) ∨
    ((∀ c x, u.rankCard q = some c → useJob s c ≠ some x) ∧ ∃ st l y, u.farEnd = some (st, l) ∧ y ∈ l ∧ y.1 = q)

/-- An assembled use of which rank r, with card k of a kind and job j, can take a turn: no rank has met what ends the use, and
none that has not injected is gone (09_copy_collective.md R267, R429; 12_traps.md R341). -/
structure Turns (s : State) (u : Use) (k : CCard) (j : CJob) (kind r : Nat) : Prop where
  at' : s.uses[s.obj]? = some u
  up : u.assembled = true
  card : u.rankCard r = some k
  is : cardKind k.card = kind
  job : useJob s k = some j
  free : j.asked = false ∧ j.held = false ∧ j.ended = none
  calm : ∀ x ∈ u.cards.filterMap (useJob s), x.ended ≠ some 2 ∧ x.ended ≠ some 3 ∧ x.ended ≠ some 7
  there : ¬ lostRank s u
  linked : ¬ cutOff s u
  afar : ∀ st l, u.farEnd = some (st, l) → st ≠ 2 ∧ st ≠ 7 ∧ st ≠ 6

/-- An IQ block in a 256-byte flit: E(b), width, block, count and elements (09_copy_collective.md R269). -/
structure IqFlit (l : List Byte) (e : Int) (w b n : Nat) (els : Nat → Nat × Int) : Prop where
  size : l.length = 256
  head : sxField 16 (leAt l 0 2) = e ∧ leAt l 2 1 = w ∧ leAt l 3 1 = 0 ∧ leAt l 4 4 = b ∧ leAt l 8 2 = n ∧ leAt l 10 6 = 0
  els : ∀ i < 32, leAt l 16 240 / 2 ^ ((w + 2) * i) % 4 = (els i).1 ∧
    sxField w (leAt l 16 240 / 2 ^ ((w + 2) * i + 2) % 2 ^ w) = (els i).2

/-- ex(x) of an element; none of a NaN or an infinity (09_copy_collective.md, "The IQ transport format"). -/
def HasEx (x : Fp) (k : Int) : Prop :=
  match x with
  | .fin _ m e => (m = 0 ∧ k = -149) ∨ (m ≠ 0 ∧ (2 : Rat) ^ (k - 1) ≤ (m : Rat) * 2 ^ e ∧ (m : Rat) * 2 ^ e < 2 ^ k)
  | _ => False

/-- The exponent of a block of elements of which the first n are no padding (09_copy_collective.md R268). -/
def BlockEx (x : Nat → Fp) (n : Nat) (k : Int) : Prop :=
  (∀ i < n, ∀ y, HasEx (x i) y → y ≤ k) ∧ -149 ≤ k ∧ ((∃ i < n, HasEx (x i) k) ∨ k = -149)

/-- An element as it is injected under a block exponent: class, integer and flags (09_copy_collective.md R269). -/
def Injects (win : Nat) (eb : Int) (x : Fp) (c : Nat) (q : Int) (f : Byte) : Prop :=
  match x with
  | .nan sig => c = 3 ∧ q = 0 ∧ f = (if sig then fNV else 0)
  | .inf neg => c = (if neg then 2 else 1) ∧ q = 0 ∧ f = 0
  | .fin neg m e =>
    let v : Rat := (if neg then -1 else 1) * (m : Rat) * 2 ^ (e - (eb - (win : Int) + 2))
    let top : Int := 2 ^ (win - 2)
    c = 0 ∧ q = max (-top) (min top (rne v)) ∧
      f = (if (rne v : Rat) ≠ v then fNX else 0) ||| (if top < rne v ∨ rne v < -top then fQX else 0)

/-- The flit x that rank r injects as its flit b for the source bytes l, under the block exponent eb, and the flags of the
injection (09_copy_collective.md R268, R269, R428). -/
structure FlitOf (card : BitVec 512) (r b : Nat) (eb : Int) (l x : List Byte) (f : Byte) : Prop where
  size : x.length = 256
  maxima : cardKind card = 8 → f = 0 ∧ leAt x 0 4 = 124 * b ∧ leAt x 4 2 = min 124 (nblocks card - 124 * b) ∧ leAt x 6 2 = 0 ∧
    ∀ k < min 124 (nblocks card - 124 * b),
      BlockEx (fun i => collEl (ctrlF card 11 2) l (32 * k + i)) (min 32 (nelem card - 32 * (124 * b + k)))
        (sxField 16 (leAt x (8 + 2 * k) 2))
  block : (cardKind card = 9 ∨ cardKind card = 10) → ∃ (els : Nat → Nat × Int) (fs : Nat → Byte),
    IqFlit x eb (cardWin card) b 1 els ∧
    (∀ i < min 32 (nelem card - 32 * b),
      Injects (cardWin card) eb (collEl (ctrlF card 11 2) l i) (els i).1 (els i).2 (fs i)) ∧
    (∀ i < 32, min 32 (nelem card - 32 * b) ≤ i → els i = (0, 0)) ∧
    f = (List.range (min 32 (nelem card - 32 * b))).foldl (fun a i => a ||| fs i) 0
  chunk : 11 ≤ cardKind card → f = 0 ∧ leAt x 0 4 = r ∧ leAt x 4 4 = 240 * b ∧ leAt x 8 2 = l.length ∧ leAt x 10 6 = 0 ∧
    (x.drop 16).take l.length = l

/-- A rank asks main memory by a request at the stop of its die (09_copy_collective.md R261; 11_translation.md R299). -/
def CollAsks (s t : State) (k : CCard) (j : CJob) (kind : RKind) (a : Nat) : Prop :=
  ∃ q, (t.stop (stopOfDie (dieOf k.core))).wait =
      (s.stop (stopOfDie (dieOf k.core))).wait ++ [⟨k.card.toNat / 16 % 4, .req q⟩] ∧
    q.org = .coll k.core j.tag ∧ q.asid = ((s.core k.core).standId.extractLsb' 0 16).toNat ∧ q.kind = kind ∧
    q.addr = BitVec.ofNat 64 a ∧ q.ptag = j.ptag ∧ useJob t k = some { j with asked := true } ∧ t.uses = s.uses

/-- Two sums of a block, or of a group of exponents, combined exactly (09_copy_collective.md R268, R269). -/
structure Joined (card : BitVec 512) (x y z : Sum) : Prop where
  same : z.unit = x.unit ∧ z.ranks = x.ranks ++ y.ranks
  maxima : cardKind card = 8 → ∀ n ≤ 124, leAt x.bytes 4 2 = n → leAt y.bytes 4 2 = n →
    z.bytes.length = 256 ∧ leAt z.bytes 0 4 = leAt x.bytes 0 4 ∧ leAt z.bytes 4 2 = n ∧ z.clash = false ∧
    ∀ i < n, sxField 16 (leAt z.bytes (8 + 2 * i) 2) =
      max (sxField 16 (leAt x.bytes (8 + 2 * i) 2)) (sxField 16 (leAt y.bytes (8 + 2 * i) 2))
  block : cardKind card ≠ 8 → ∀ e e' w w' b n n' els els',
    IqFlit x.bytes e w b n els → IqFlit y.bytes e' w' b n' els' → 1 ≤ n → 1 ≤ n' → n + n' ≤ 8192 →
    (∀ i < 32, (els i).2.natAbs ≤ n * 2 ^ (cardWin card - 2) ∧ (els' i).2.natAbs ≤ n' * 2 ^ (cardWin card - 2)) →
    ∃ v sums, IqFlit z.bytes e v b (n + n') sums ∧ 2 ^ (v - cardWin card) / 2 < n + n' ∧ n + n' ≤ 2 ^ (v - cardWin card) ∧
      cardWin card ≤ v ∧ z.clash = (x.clash || y.clash || decide (e ≠ e')) ∧
      ∀ i < 32, (e ≠ e' → (sums i).1 = 3) ∧
        (e = e' → (sums i).2 = (els i).2 + (els' i).2 ∧
          ((sums i).1 = 3 ↔ (els i).1 = 3 ∨ (els' i).1 = 3 ∨ ((els i).1 ≠ 0 ∧ (els' i).1 ≠ 0 ∧ (els i).1 ≠ (els' i).1)) ∧
          ((sums i).1 = 0 ↔ (els i).1 = 0 ∧ (els' i).1 = 0) ∧
          ((sums i).1 = 1 ∨ (sums i).1 = 2 → (sums i).1 = (els i).1 ∨ (sums i).1 = (els' i).1))

/-- R(e) of an element of the final sum, and its flags (09_copy_collective.md R270). -/
def rounded (f : Fmt) (win : Nat) (eb : Int) (c : Nat) (q : Int) : Nat × Byte :=
  if c = 3 then (f.nan, 0) else if c = 1 then (f.infinity false, 0) else if c = 2 then (f.infinity true, 0)
  else f.roundInt 0 q (eb - (win : Int) + 2)

/-- The bytes and flags that a sum over every rank gives (09_copy_collective.md R268, R270). -/
structure Results (card : BitVec 512) (z : Sum) (l : List Byte) (f : Byte) : Prop where
  maxima : cardKind card = 8 → f = 0 ∧ l = (z.bytes.drop 8).take (2 * leAt z.bytes 4 2)
  block : cardKind card ≠ 8 → ∀ e w b n els, IqFlit z.bytes e w b n els →
    let g : Fmt := if ctrlF card 13 2 = 0 then bf16 else fp32
    let r := (List.range (min 32 (nelem card - 32 * b))).map (fun i => rounded g (cardWin card) e (els i).1 (els i).2)
    l = r.flatMap (fun x => leBytes (if ctrlF card 13 2 = 0 then 2 else 4) x.1) ∧ f = r.foldl (fun a x => a ||| x.2) 0

/-- Sum z, at place m of a use's sums l: it stays, or over every rank it is rounded and multicast from the last die of the path
(09_copy_collective.md R270; 16_programs_exchange.md R420). -/
def Settles (s t : State) (u : Use) (l : List Sum) (m : Nat) (z : Sum) : Prop :=
  (z.ranks.length < u.dies.length → t.uses = setAt s.uses s.obj { u with sums := l } ∧ t.stops = s.stops) ∧
    (z.ranks.length = u.dies.length →
      t.uses = setAt s.uses s.obj { u with sums := dropAt l m, clash := u.clash || z.clash } ∧
      ∃ b f, Results u.head z b f ∧ (t.stop (stopOfDie u.last)).wait =
        (s.stop (stopOfDie u.last)).wait ++ [⟨u.head.toNat / 16 % 4, .coll ⟨u.key, u.cid, u.k, z.unit, true, f :: b⟩⟩])

/-- The number of a flit among those of its rank and kind (09_copy_collective.md R428). -/
def flitNo (kind : Nat) (l : List Byte) : Nat :=
  if kind = 8 then leAt l 0 4 / 124 else if kind = 9 ∨ kind = 10 then leAt l 4 4 else leAt l 4 4 / 240

/-! ### The Girdle, the homes, phases, traps and the Canopy unit -/

/-- Whether a flit of a class waits at a stop. -/
def hasClass (x : Stop) (k : Nat) : Prop := ∃ f ∈ x.wait, f.cls = k

/-- The state in which a request is performed: a fresh walk has been cached (11_translation.md R300). -/
def walked (s : State) (t : Option Nat) (r : Req) : State := if t.isNone then cacheWalk s r else s

/-- No earlier flit of class 0 in transit holds back flit f, which stands at place i: neither a send of equal ARR from the same
core to the same target, nor one that finds its hold full on the way to the same die (10_phase_sync.md R285; log entry 65). -/
def InTurn (s : State) (i : Nat) (f : Flit) : Prop :=
  ∀ g ∈ s.air.take i, ∀ y, g.load = .send y →
    (∀ x, f.load = .send x → ¬ (y.core = x.core ∧ y.dest = x.dest ∧ y.arr = x.arr)) ∧
    (meet s y = .wait → (g.goal s).map dieOf ≠ (f.goal s).map dieOf)

/-- A send has landed in its slot; no other slot and no register of its target has changed (10_phase_sync.md R285, R286). -/
def Lands (s t : State) (x : Send) : Prop :=
  let n := x.dest % 512
  t.air = dropAt s.air s.obj ∧ SMap.get (t.core n).lnd none x.slot = some ⟨x.arr, x.data⟩ ∧ (t.core n).ctx = (s.core n).ctx ∧
    (∀ k, k ≠ x.slot → SMap.get (t.core n).lnd none k = SMap.get (s.core n).lnd none k) ∧ ∀ k, k ≠ n → t.core k = s.core k

/-- A send has been discarded, and a notice of a cause waits for its sender, if its stand still runs: at the stop of its target,
or, for a sender in another module, at the port through which that stop's traffic leaves (10_phase_sync.md R287; log entry
64). -/
def Notes (s t : State) (x : Send) (k : Byte) : Prop :=
  let d := dieOf (x.dest % 512)
  let f : Flit := ⟨0, .notice x.core x.badr x.tag k⟩
  t.air = dropAt s.air s.obj ∧ t.cores = s.cores ∧
    (x.part < 64 →
      ((s.ownCore x.core).isSome = true → (t.stop (stopOfDie d)).wait = (s.stop (stopOfDie d)).wait ++ [f]) ∧
      ∀ l, s.ownCore x.core = none → s.podLink (edgeOfDie d) = some l → (t.stop (68 + l)).wait = (s.stop (68 + l)).wait ++ [f])

/-- A request that no view transforms and that touches bytes from its address on, its translations being where
(09_copy_collective.md R263; 11_translation.md R299). -/
structure Plain (s : State) (r : Req) (t : Option Nat) (where' : Nat → Xl) : Prop where
  view : (s.fix r).view = none
  cells : ∀ l, r.kind ≠ .cells l
  some' : 0 < r.kind.len
  at' : ∀ i < r.kind.len, s.route r.pgid r.asid ((r.addr.toNat + i) % 2 ^ 64) r.kind.needs.1 r.kind.needs.2 t = where' i ∧
    s.busyAt r.asid ((r.addr.toNat + i) % 2 ^ 64) = none

/-- The bytes of such a request each lie at a presented address of home h, without an error, a held write or a migration hold
(11_translation.md R299 to R311, R319, R325; 14_system.md R405). -/
structure Lies (s : State) (r : Req) (t : Option Nat) (h : Nat) (pa : Nat → Nat) : Prop where
  room : ∀ e < 4, (s.home e).slog.length ≤ 4096
  plain : ∃ pin : Nat → Bool, Plain s r t (fun i => .dev h (pa i) (pin i))
  good : ∀ i < r.kind.len, (s.home h).bad.contains (pa i) = false ∧ s.leafHeld (.dev h (pa i) false) = false

/-- The bytes that a request writes, in a home whose bytes at its presented addresses are old (11_translation.md R299;
05_local_memory.md R147). -/
def newBytes (r : Req) (old : List Byte) : Option (List Byte) :=
  match r.kind with
  | .write l => some l
  | .table l => if l.isEmpty then none else some l
  | .atomic w op x => some (leBytes w (amoOp op (8 * w) (BitVec.ofNat 64 (ofLe old)) x 0).toNat)
  | .read _ | .cells _ => none

/-- What a core that waits at its bundle waits for, as soon as that has come to pass (10_phase_sync.md R286, R289, R290,
R294). -/
def waitEnds (s : State) : Instr → Bool
  | .slotReadable => (match s.me.seq with | .frozen .slot k => slotsReady s.me s.me.fetch && decide (k ≤ s.limOf s.cur) | _ => false)
  | .waittRelease =>
    (match s.me.seq with
     | .frozen .waitt _ => decide (s.me.frozenWord.toNat ≤ (s.dtcOf s.cur).toNat)
     | _ => false)
  | _ => false

/-- The head packet of a queue, of the given type, that has not completed, main memory being trained (13_queues.md R357;
14_system.md R401). -/
def HeadPkt (s : State) (q ty : Nat) (p : Pkt) : Prop :=
  s.sys.state ≠ 2 ∧ ∃ r, (s.queue q).pkts = p :: r ∧ p.status = none ∧ pktType p.body = ty ∧ ∀ x ∈ r, x.seq ≠ p.seq

/-- Every core of a stand has arrived and asks for the same, nothing the boundary waits for is left, and none of the reasons
to stop there holds (10_phase_sync.md R277 to R279). -/
structure Quiet (s : State) (p : Nat) (r : Run) (ask : Option Bool) : Prop where
  runs : s.runOf p = some r
  up : r.st = .running ∧ r.pend = false ∧ r.chosen = false ∧ r.cores ≠ [] ∧ r.cores.Nodup
  stays : ∀ x, r.incoming = some x → r.adm.d ≤ x.d ∨ s.ready x = false
  here : ∀ n ∈ r.cores, (s.core n).seq = (match ask with | some e => .endph e true | none => .halted true)
  tokens : tokensQuiet s r = true
  sends : sendsQuiet s r = true
  clean : ∀ n ∈ r.cores, (s.core n).deferred = []
  nobar : r.episodes = []
  funds : (r.ccSince = 0 ∨ r.ccSince < r.adm.remC) ∧
    ((r.cores.map (fun n => (s.core n).beats)).sum = 0 ∨ (r.cores.map (fun n => (s.core n).beats)).sum < r.adm.remB) ∧
    ((r.cores.map (fun n => (s.core n).bytes)).sum = 0 ∨ (r.cores.map (fun n => (s.core n).bytes)).sum < r.adm.remX)

/-- A core passes its bundle: it runs, at the sequential successor (04_scalar_control.md R119). -/
def passes (c d : Core) : Prop := d.seq = .run ∧ d.pc = (loopEnd c.pc c.ctx.loops).1

/-- A core starts a superstep of a phase with the context x: in an exchange phase its held sends stand in their slots
(10_phase_sync.md R278, R285). -/
def Starts (d : Core) (x : Ctx) (exch : Bool) : Prop :=
  d.ssc = 0 ∧ (exch = false → d.lnd = [] ∧ d.ctx = x) ∧
    (exch = true → d.ctx = { x with holds := [] } ∧ ∀ h ∈ x.holds, (SMap.get d.lnd none h.slot).isSome)

/-- A job has started on the cores of its stand, in rank order: the partition runs it in superstep 0, and each core begins at
bundle 0 with the registers of a job start, its bind registers, its local data and its code (03_encoding.md R77, R105;
10_phase_sync.md R273; 13_queues.md R371). -/
structure Launched (s t : State) (p : Nat) (x : Adm) (cores : List Nat) : Prop where
  run : ∃ r, t.runOf p = some r ∧ r.cores = cores ∧ r.st = .running ∧ r.phc = 0 ∧ r.exch = false ∧
    r.adm = { x with started := true }
  taken : ∀ y ∈ (t.part p).adms, ¬ (y.q = x.q ∧ y.seq = x.seq)
  cores : ∀ i n, cores[i]? = some n →
    (t.core n).seq = .run ∧ (t.core n).pc = 0 ∧ (t.core n).ssc = 0 ∧ (t.core n).part = p ∧ (t.core n).lrank = i ∧
    (t.core n).ncores = cores.length ∧ (t.core n).det = imgDet (s.slot x.slot).image ∧
    (t.core n).ctx = { Ctx.start with bind := (t.core n).ctx.bind } ∧
    (∀ k < 16, SMap.get (t.core n).ctx.bind 0 k = x.binds.getD k 0) ∧
    (t.core n).codeGen = some (x.slot, (s.slot x.slot).gen) ∧
    (t.core n).scratch = recCells (s.slot x.slot).image 0 0x80000
  packet : ∀ k, s.pkt? x.q x.seq = some k → ∃ k', t.pkt? x.q x.seq = some k' ∧ k'.started = true ∧ k'.startDtc = s.now

/-- The head of queue q after its packet p has been worked on: k, started, with the packets behind it unchanged
(13_queues.md R357). -/
def HeadNow (s t : State) (q : Nat) (p k : Pkt) : Prop :=
  (t.queue q).pkts = k :: (s.queue q).pkts.tail ∧ k.seq = p.seq ∧ k.body = p.body ∧ k.started = true

/-- A read under an ASID that succeeds, nothing of its issuer being held (11_translation.md R299, R308). -/
def Reads (s : State) (o : Origin) (asid a n : Nat) (l : List Byte) : Prop :=
  s.pending o = false ∧ s.look asid a n = .ok l

/-- Queue q's descriptor can be read, and its EN is as the command processor saw it last (13_queues.md R353). -/
def Current (s : State) (q : Nat) : Prop :=
  ∃ l, s.look 0 (s.sys.qtab.toNat + 64 * q) 64 = .ok l ∧ (parseQueue l).en = (s.queue q).desc.en

/-- What the checks of a packet read can be read: the descriptors of its partition and of those below, and the page tables of the
range of a MIGRATE (11_translation.md R325; 13_queues.md R350, R382). -/
def ChecksRead (s : State) (f : Fetched) : Prop :=
  (∀ x ∈ s.partLooks f.desc.part, ∃ l, x = .ok l) ∧
    (leAt f.body 0 1 = 0x0A → ∀ n ∈ (s.home (homeOf (leAt f.body 0x18 8))).tables,
      (s.home (homeOf (leAt f.body 0x18 8))).leafHeld n = false)

/-- The journal takes the record j of a packet that is decoded: main memory holds it, and u is the state then; in the recovery
state, where main memory is not trained, the record is on its way (13_queues.md R384; 14_system.md R401). -/
def Journalled (s : State) (j : JRec) (u : State) : Prop :=
  let t : State := { s with journal := s.journal ++ [j] }
  (s.sys.state = 2 ∧ u = t.putRec j.place j.bytes) ∨
    (s.sys.state ≠ 2 ∧ isDev s.sys.jrnl.toNat = true ∧ t.poke (s.sys.jrnl.toNat + 256 * j.place) j.bytes = some u)

/-- The oldest fetched packet of queue q can be decoded (13_queues.md R356, R357, R384, R385). -/
structure Decodable (s : State) (q : Nat) (f : Fetched) (r : List Fetched) : Prop where
  head : (s.queue q).fetched = f :: r
  current : Current s q
  reads : ChecksRead s f
  go : s.sys.takeover = false ∧ (s.queue q).slotChange = false ∧ (s.queue q).stopped = false ∧ s.journal.length < 8192

/-- The oldest fetched packet of queue q has been decoded, with a rejection code or 0, and journalled in j: FIDX has advanced, and x
stands in the queue (13_queues.md R352, R356, R359, R384). -/
structure Decodes (s t : State) (q : Nat) (f : Fetched) (r : List Fetched) (j : JRec) (x : Pkt) : Prop where
  pkts : (t.queue q).pkts = (s.queue q).pkts ++ [x] ∧ (t.queue q).fetched = r ∧ (t.queue q).fidx = ((s.queue q).fidx + 1) % 65536
  packet : x.seq = f.seq ∧ x.body = f.body ∧ x.desc = f.desc ∧ x.started = false ∧ x.rej = j.rej ∧
    x.status = if j.rej = 0 then none else some 0x05
  record : t.journal = s.journal ++ [j]

/-- The rejection code of steps 1 to 3 of R356 and of the type's field checks; 0 passes (13_queues.md R356, R359). -/
def rejCode (s : State) (q : Nat) (f : Fetched) : Byte :=
  if s.serviceable { f.desc with en := (s.queue q).desc.en } = false ∨ s.sys.state ≠ 1 ∨ leAt f.body 2 2 ≠ f.seq then 0x07
  else if leAt f.body 0 1 = 0 ∨ 0x0D < leAt f.body 0 1 ∨ reservedOk f.body = false then 0x0B
  else if leAt f.body 0 1 ∈ [0x09, 0x0A, 0x0B, 0x0D] ∧ f.desc.priv = false then 0x0C
  else if fieldsOk s f.body = false then 0x0B
  else 0

/-- The demand test over the admitted jobs l of a partition at a time: at each deadline the work due by then, and the longest
block of a job due later, fit in what is left (13_queues.md R372, R374). -/
def Demand (l : List Adm) (now : Nat) : Prop :=
  let ns (cc : Nat) : Nat := (2 * cc + 2) / 3
  let work (x : Adm) : Nat := ns (x.budC + (64 + (x.bloc + 511) / 512) - x.usedC)
  let block (x : Adm) : Nat := ns (x.cap + x.lim + (x.bloc + 511) / 512)
  ∀ j ∈ l,
    let due := ((l.filter (fun i => decide (i.d ≤ j.d))).map work).sum
    now + due ≤ j.d ∧ ∀ i ∈ l, j.d < i.d → now + due + block i ≤ j.d

/-- A sum of fractions over one denominator. -/
def fractions : List (Nat × Nat) → Nat × Nat
  | [] => (0, 1)
  | (n, p) :: l => (n * (fractions l).2 + p * (fractions l).1, p * (fractions l).2)

/-- The utilisation test of a candidate x beside the admitted LAUNCHes l: one summand for each other queue with a periodic or
sporadic LAUNCH among l, by its most recent admitted one, and x's own (13_queues.md R372, R373). -/
def Utilises (s : State) (l : List Adm) (x : Adm) (cap : Nat) : Prop :=
  let timed (y : Adm) : Bool := decide (y.desc.cls = 1 ∨ y.desc.cls = 2)
  let age (y : Adm) : Nat := (y.seq + 65536 - (s.queue y.q).fidx) % 65536
  let last (q : Nat) : Option Adm :=
    match (s.queue q).recent with
    | some y => some y
    | none => l.find? (fun y => decide (y.q = q) && l.all (fun z => decide (z.q ≠ q ∨ age z ≤ age y)))
  let others := (((l.filter timed).map (·.q)).eraseDups.filter (fun q => decide (q ≠ x.q))).filterMap last
  let u := fractions ((others ++ if timed x then [x] else []).map (fun y =>
    ((2 * (y.desc.capc + (64 + (y.bloc + 511) / 512)) + 2) / 3, y.desc.period)))
  u.1 * 65536 ≤ cap * u.2

/-- The first code whose condition holds; 0 where none does. -/
def FirstCode : List (Byte × Prop) → Byte → Prop
  | [], c => c = 0
  | (k, p) :: l, c => (p → c = k) ∧ (¬ p → FirstCode l c)

/-- The release time of a LAUNCH decoded at a time (13_queues.md R372). -/
def Releases (k : Queue) (d : QDesc) (now rho : Nat) : Prop :=
  (d.cls = 0 → rho = now) ∧
    (d.cls = 2 → rho = match k.prevRho with | some p => max now (p + d.period) | none => now) ∧
    (d.cls = 1 →
      let p0 := k.rho0.getD now
      let goal := match k.prevRho with | some p => max now (p + 1) | none => now
      (∃ n, rho = p0 + n * d.period) ∧ goal ≤ rho ∧ (rho = p0 ∨ rho < goal + d.period))

/-- The bytes behind BINDX, or none of them (13_queues.md R367). -/
def BindsRead (s : State) (f : Fetched) (l : List Byte) : Prop :=
  let n := leAt f.body 0x11 1
  let look := s.look f.desc.asid (leAt f.body 0x38 8) (8 * (n - 8))
  if n ≤ 8 ∨ 16 < n then l = [] else look = .ok l ∨ (l = [] ∧ ∃ a, look = .absent a)

/-- A LAUNCH of queue q as it is admitted: its fields, its effective budgets and what its header gives, with its release time and
its frame (13_queues.md R367, R369, R372). -/
def launchAdm (s : State) (q : Nat) (f : Fetched) (l : List Byte) (rho frame : Nat) : Adm :=
  let b := f.body
  let m := (s.slot (leAt b 0x10 1)).image
  let budget (o h : Nat) : Nat := if leAt b o 8 = 0 then Mem.le m h 8 else leAt b o 8
  let own := min (leAt b 0x11 1) 8
  { q := q, seq := f.seq, desc := f.desc, slot := leAt b 0x10 1, gen := leAt b 0x14 4,
    d := if leAt b 8 8 = 0 then rho + f.desc.reldl else leAt b 8 8, rho := rho,
    budC := budget 0x18 0x18, budB := budget 0x20 0x20, budX := budget 0x28 0x28,
    lim := if leAt b 0x30 4 = 0 then Mem.le m 0x10 4 else leAt b 0x30 4, cap := Mem.le m 0x10 4, bloc := imgBloc m,
    pgid := leAt b 0x12 2, pasid := if (leAt b 0x34 4).testBit 31 then some (leAt b 0x34 4 % 2 ^ 20) else none,
    binds := (List.range own).map (fun i => BitVec.ofNat 64 (leAt b (0x40 + 8 * i) 8)) ++
      (List.range (leAt b 0x11 1 - 8)).map (fun i => BitVec.ofNat 64 (leAt l (8 * i) 8)),
    frame := frame, started := false, preempted := false, replayed := false, remC := budget 0x18 0x18, remB := budget 0x20 0x20,
    remX := budget 0x28 0x28, usedC := 0, usedB := 0, usedX := 0, next := none }

/-- A declared footprint, resolved as bindN + offset: its first byte and the byte after its last (13_queues.md R368). -/
def footOf (y : Adm) (g : Nat × Nat × Nat × Nat) : Nat × Nat :=
  ((y.binds.getD g.2.1 0).toNat + g.2.2.1, (y.binds.getD g.2.1 0).toNat + g.2.2.1 + g.2.2.2)

/-- Why a LAUNCH y is rejected, in the order of R370, each with its code (13_queues.md R366 to R374). -/
def launchCodes (s : State) (f : Fetched) (y : Adm) : List (Byte × Prop) :=
  let n := leAt f.body 0x11 1
  let sl := s.slot y.slot
  let m := sl.image
  let d := f.desc
  let part := s.pdesc d.part
  let usable (e : Nat) : Nat := (List.range 8).countP (fun i => (s.core (8 * e + i)).usable)
  let dies := (List.range 64).filter (fun e => part.dmask.testBit e)
  let det := (Mem.le m 6 2).testBit 0 = true
  let l := s.admitted d.part
  [(0x0B, 16 < n),
   (0x04, sl.valid = false ∨ sl.gen ≠ y.gen ∨ sl.asid ≠ d.asid),
   (0x05, 0x800000 < 4 * Mem.le m 0x0C 4 ∨ dies.length < Mem.le m 0x0A 1 ∨ (¬ det ∧ (dies.map usable).sum < Mem.le m 8 2)),
   (0x0A, det ∧ dies.countP (fun e => decide (Mem.le m 0x0B 1 ≤ usable e)) < Mem.le m 0x0A 1),
   (0x06, d.capc < y.budC ∨ d.capb < y.budB ∨ d.capx < y.budX ∨ y.budC = 0),
   (0x08, (8 < n ∧ ∃ a, s.look d.asid (leAt f.body 0x38 8) (8 * (n - 8)) = .absent a) ∨
      (∃ g ∈ imgFoots m, n ≤ g.2.1 ∨ 2 ^ 64 ≤ (footOf y g).1 ∨ s.spanOk y.pgid y.pasid (footOf y g).1 (footOf y g).2 = false) ∨
      (d.replayable = true ∧ ∃ g ∈ imgFoots m, ∃ h ∈ imgFoots m, g.1 = 0 ∧ h.1 = 1 ∧ ∃ a b, (footOf y g).1 ≤ a ∧ a < (footOf y g).2 ∧
        (footOf y h).1 ≤ b ∧ b < (footOf y h).2 ∧ a / 64 = b / 64)),
   (0x03, y.d ≤ s.now),
   (0x09, 64 ≤ l.length ∨ ∀ k < part.nframe, ∃ z ∈ l, z.frame = k),
   (0x01, ¬ Utilises s l y part.admcap),
   (0x02, ¬ Demand (l ++ [y]) s.now)]

/-- A page of a weight region that a pinned leaf with read permission maps (13_queues.md R364). -/
def PinnedPage (s : State) (asid a : Nat) : Prop :=
  ∃ pa l, s.xlat asid a true false none = .dev (homeOf a) pa true ∧ (s.home (homeOf a)).walk asid (offOf a) = .leaf l ∧
    l.rd = true ∧ l.pin = true

/-- The condition of a WAITV on the masked word (13_queues.md R380, R381). -/
def waitCond (op : Nat) (v value : Word) : Prop :=
  match op with
  | 0 => v = value
  | 1 => v ≠ value
  | 2 => value.toInt ≤ v.toInt
  | 3 => value.toInt < v.toInt
  | 4 => value.toNat ≤ v.toNat
  | _ => value.toNat < v.toNat

/-- The write of a WRITEV or TIMESTAMP packet, and its RESULT (13_queues.md R381). -/
def pktStores (s : State) (p : Pkt) : Instr → Option (Nat × RKind × Word)
  | .writevStore =>
    if leAt p.body 0x21 1 = 0 then some (0x05, .write (leBytes (leAt p.body 0x20 1) (leAt p.body 0x18 8)), 0) else none
  | .writevAdd =>
    if leAt p.body 0x21 1 = 1 then some (0x05, .atomic (leAt p.body 0x20 1) 0 (BitVec.ofNat 64 (leAt p.body 0x18 8)), 0) else none
  | .timestamp => some (0x08, .write (leBytes 8 s.now), BitVec.ofNat 64 s.now)
  | _ => none

/-- The fields of an INVAL or MIGRATE packet: ASID, the home of the range, and its first and last-plus-one OFF
(11_translation.md R297; 13_queues.md R382). -/
def rangeAsid (b : List Byte) : Nat := leAt b 0x10 2
/-- The home of the range of an INVAL or MIGRATE packet (11_translation.md R297). -/
def rangeHome (b : List Byte) : Nat := leAt b 0x18 8 / 2 ^ 54 % 4
/-- The first OFF of the range of an INVAL or MIGRATE packet (11_translation.md R297). -/
def rangeLo (b : List Byte) : Nat := leAt b 0x18 8 % 2 ^ 48
/-- The OFF after the range of an INVAL or MIGRATE packet (11_translation.md R297). -/
def rangeHi (b : List Byte) : Nat := rangeLo b + leAt b 0x20 8

/-- A device-half address of this module in the range of an INVAL or MIGRATE packet (11_translation.md R297, R298). -/
def inRange (s : State) (b : List Byte) (a : Nat) : Prop :=
  2 ^ 63 ≤ a ∧ a / 2 ^ 48 % 64 = 0 ∧ a / 2 ^ 56 % 128 = s.sys.dev.toNat ∧ a / 2 ^ 54 % 4 = rangeHome b ∧
    rangeLo b ≤ a % 2 ^ 48 ∧ a % 2 ^ 48 < rangeHi b

/-- A range of OFFs of an ASID meets the range of an INVAL packet (11_translation.md R315). -/
def meetsRange (b : List Byte) (asid lo hi : Nat) : Prop := asid = rangeAsid b ∧ lo < rangeHi b ∧ rangeLo b < hi

/-- A recorded request touches the range of an INVAL or MIGRATE packet (11_translation.md R315). -/
def hitsRange (b : List Byte) (r : Req) : Bool := r.touches (rangeAsid b) (leAt b 0x18 8) (leAt b 0x18 8 + leAt b 0x20 8)

/-- No request of the range of a packet that was accepted and translated before waits at any home (11_translation.md R315, R317,
R319). -/
def Drained (s : State) (b : List Byte) : Prop :=
  ∀ d < 4, (∀ x ∈ (s.home d).exph, ∀ r, x.req = some r → hitsRange b r = false) ∧
    ∀ f ∈ (s.home d).fwded, hitsRange b f.req = false

/-- The leaves that a BALLOON packet lists have been accepted or skipped one after another: from a home, the addresses, how many
were skipped, and the home after (11_translation.md R324; 13_queues.md R383). -/
inductive Ballooned (donates : Bool) : Home → List Nat → Nat → Home → Prop where
  | nil (h) : Ballooned donates h [] 0 h
  | skip (h a l n g) : (a % 4096 ≠ 0 ∨ h.isPinned (a / 4096) = true ∨ h.commit ≤ a ∨
      (if donates then a / 4096 ∈ h.balloon ∨ 2 ^ 24 ≤ h.balloon.length else a / 4096 ∉ h.balloon)) →
      Ballooned donates h l n g → Ballooned donates h (a :: l) (n + 1) g
  | give (h a l n g) : donates = true → a % 4096 = 0 → h.isPinned (a / 4096) = false → a < h.commit → a / 4096 ∉ h.balloon →
      h.balloon.length < 2 ^ 24 → Ballooned donates { h with balloon := h.balloon ++ [a / 4096] } l n g →
      Ballooned donates h (a :: l) n g
  | take (h a l n g) : donates = false → a % 4096 = 0 → h.isPinned (a / 4096) = false → a < h.commit → a / 4096 ∈ h.balloon →
      Ballooned donates { h with balloon := h.balloon.filter (fun x => decide (x ≠ a / 4096)) } l n g →
      Ballooned donates h (a :: l) n g

/-- The queue's head packet after an instruction that may also mark other packets of the queue (13_queues.md R357). -/
def HeadEnds (t : State) (q : Nat) (p : Pkt) (st : Byte) : Prop :=
  ∃ k r, (t.queue q).pkts = k :: r ∧ k.seq = p.seq ∧ k.body = p.body ∧ k.started = true ∧ k.status = some st

/-- The register that a VIEWSET packet describes (13_queues.md R382). -/
def viewFields (b : List Byte) (v : View) : Prop :=
  v.valid = decide (leAt b 0x12 1 = 1) ∧ v.xform = leAt b 0x13 1 ∧ v.asid = leAt b 0x14 2 ∧ v.abase = leAt b 0x18 8 ∧
    v.alen = leAt b 0x20 5 ∧ v.tbase = leAt b 0x28 8 ∧ v.tpitch = leAt b 0x30 4 ∧ v.extr = leAt b 0x34 4 ∧ v.extc = leAt b 0x38 4

/-- A firmware slot that may run: its signature verifies and its version is not below MINVER (14_system.md R400, R402). -/
def slotRuns (s : State) (l : List Byte) : Prop :=
  Config.firmwareAuthentic l = true ∧ s.sys.minver.toNat ≤ (Config.firmwareVersion l).toNat

/-- Slot B is chosen (b) or slot A (not b): valid, and the other is not valid or of lower version, A winning a tie
(14_system.md R400). -/
def bootsFrom (s : State) (b : Bool) : Prop :=
  if b then slotRuns s s.sys.flashB ∧
    (slotRuns s s.sys.flashA → (Config.firmwareVersion s.sys.flashA).toNat < (Config.firmwareVersion s.sys.flashB).toNat)
  else slotRuns s s.sys.flashA ∧
    (slotRuns s s.sys.flashB → (Config.firmwareVersion s.sys.flashB).toNat ≤ (Config.firmwareVersion s.sys.flashA).toNat)

/-- An event reaches the arbiter before another: by fabric cycle, then stop, the firmware complex at edge die 0, then source
(01_machine.md R15, R31). -/
def Earlier (x e : Ev) : Prop :=
  let at' (y : Ev) : Nat := if y.stop = 0xFF then 0 else y.stop
  x.fc < e.fc ∨ (x.fc = e.fc ∧ (at' x < at' e ∨ (at' x = at' e ∧ x.src < e.src)))

/-- Event i is the next that the arbiter takes: it has arrived in an earlier fabric cycle, and no other that may be taken goes
before it; trap and fault events are held back during a take-over (01_machine.md R31; 13_queues.md R385). -/
def EventTurn (s : State) (i : Nat) (e : Ev) : Prop :=
  let may (x : Ev) : Prop := ¬ (s.sys.takeover = true ∧ (x.ty = 2 ∨ x.ty = 3))
  e.fc < s.fabric ∧ may e ∧ (∀ x ∈ s.sys.events, may x → ¬ Earlier x e) ∧ ∀ x ∈ s.sys.events.take i, may x → Earlier e x

/-- The content of a flash region (14_system.md R402). -/
def region (y : Sys) (n : Nat) : List Byte := if n = 0 then y.flashA else if n = 1 then y.flashB else y.flashC

end Sys2Proof.Claims

open Sys2Proof Sys2Proof.Machine Sys2Proof.Claims

/-! ### The scalar engine -/

/-- Every SCA trigger at the head of its queue starts and writes R109's value to sca.r, with no flag and no trap
(04_scalar_control.md R108, R109); nothing else of the machine changes. A divide starts while no divide is under way, and
otherwise waits at the head (R107). That a start and the arrival of its result are two turns is the model's choice (log
entry 9). -/
def Obligations.ScaTriggerGivesItsResult : Prop :=
  ∀ (s : State) (i : Instr) (en : Entry) (v : Val), isSca i = true → s.AtHead .sca i en v →
    ((isDivide i = true → ∀ f ∈ s.me.flights, f.div = false) →
      ∃ r, ScaResult i (s.me.op .sca).o.toScalar v.toScalar (s.me.op .sca).o2.toScalar r ∧
        exec i s = .next (s.started .sca en (some .scaR) (.s r) 0 (isDivide i))) ∧
    (isDivide i = true → (∃ f ∈ s.me.flights, f.div = true) → exec i s = .next (s.setMe s.me))

/-! ### The vector engines -/

/-- Every lane of an integer VEC trigger holds R172's or R192's value, and a moving trigger takes each lane from where
R174 or R191 says; no flag is set (06_vector.md). -/
def Obligations.VectorIntegerLanes : Prop :=
  ∀ (s : State) (i : Instr) (u : VUnit) (en : Entry) (v : Val), s.AtHead u.eng i en v →
    (∀ f, intLane i = some (u, f) →
      ∃ r : VecW,
        (∀ l < 128, lane r l = f (lane (s.me.vecIn u en v).a l) (lane (s.me.vecIn u en v).b l) (lane (s.me.vecIn u en v).c l)) ∧
        exec i s = .next (s.started u.eng en (some (vecR u)) (.v r) 0 false)) ∧
    (∀ f, moveLane i = some (u, f) →
      ∃ r : VecW, (∀ l < 128, lane r l = f (s.me.vecIn u en v) l) ∧
        exec i s = .next (s.started u.eng en (some (vecR u)) (.v r) 0 false))

/-- Every lane of a VEC trigger that can set flags holds its value, and the flags of all lanes are set together
(06_vector.md R168, R172, R175 to R178; 02_numbers.md R60). The start and the arrival are two turns (log entry 9), and
fexp2 and flog2 keep 320 bits before they round (log entry 11): the model's choices. -/
def Obligations.VectorLanesWithFlags : Prop :=
  ∀ (s : State) (i : Instr) (u : VUnit) (f : RM → BitVec 32 → BitVec 32 → BitVec 32 → BitVec 32 × Byte) (en : Entry) (v : Val),
    flagLane i = some (u, f) → s.AtHead u.eng i en v →
    let x := s.me.vecIn u en v
    ∃ (r : VecW) (fl : Byte),
      (∀ l < 128, lane r l = (f en.rmode (lane x.a l) (lane x.b l) (lane x.c l)).1) ∧
      (∀ k < 8, fl.getLsbD k = true ↔ ∃ l < 128, (f en.rmode (lane x.a l) (lane x.b l) (lane x.c l)).2.getLsbD k = true) ∧
      exec i s = .next (s.started u.eng en (some (vecR u)) (.v r) fl false)

/-- Every bit of a comparison's mask is the comparison of its lanes (06_vector.md R173). -/
def Obligations.VectorComparisons : Prop :=
  ∀ (s : State) (i : Instr) (u : VUnit) (f : BitVec 32 → BitVec 32 → Bool × Byte) (en : Entry) (v : Val),
    cmpLane i = some (u, f) → s.AtHead u.eng i en v →
    let x := s.me.vecIn u en v
    ∃ (r : MaskW) (fl : Byte), (∀ l < 128, r.getLsbD l = (f (lane x.a l) (lane x.b l)).1) ∧
      (∀ k < 8, fl.getLsbD k = true ↔ ∃ l < 128, (f (lane x.a l) (lane x.b l)).2.getLsbD k = true) ∧
      exec i s = .next (s.started u.eng en (some (vecM u)) (.m r) fl false)

/-- The reductions and ext put their value into the unit's 64-bit port, and the conversions and the block quantisation their
vector into its result port, with their flags (06_vector.md R178 to R185, R190, R191). -/
def Obligations.VectorReductionsAndConversions : Prop :=
  ∀ (s : State) (i : Instr) (u : VUnit) (en : Entry) (v : Val), s.AtHead u.eng i en v →
    (∀ f, scalarOf i = some (u, f) →
      exec i s = .next (s.started u.eng en (some (vecS u)) (.s (f (s.me.vecIn u en v)).1) (f (s.me.vecIn u en v)).2 false)) ∧
    (∀ f, convertOf i = some (u, f) →
      exec i s = .next (s.started u.eng en (some (vecR u)) (.v (f (s.me.vecIn u en v)).1) (f (s.me.vecIn u en v)).2 false))

/-- The floating-point functions of the lanes give the exact value rounded once, the special values, the saturations and the flags
of their rules, and for fexp2 and flog2 the special and exact cases and the interval of every other (02_numbers.md R33 to R35, R46
to R48, R51; 06_vector.md R173, R175 to R179, R187, R188, R190). That fexp2 and flog2 keep 320 bits before they round is the
model's choice (log entry 11). -/
def Obligations.FloatRules : Prop :=
  (∀ (rm : RM) (a b c : BitVec 32),
    SumResult rm a b (fadd rm a b) ∧ SumResult rm a (b ^^^ 0x80000000) (fsub rm a b) ∧ ProductResult rm a b (fmul rm a b) ∧
    FusedResult rm a b c (ffma rm a b c) ∧ ReciprocalResult rm b (frcp rm b) ∧ RootResult true rm b (frsq rm b) ∧
    RootResult false rm b (fsqrt rm b) ∧ PowerResult rm b (fexp2 rm b) ∧ LogarithmResult b (flog2 rm b) ∧
    fsign (fun w => w &&& 0x7FFFFFFF) b = (if nan b then nanResult [b] else ((b.extractLsb' 0 31).setWidth 32, 0)) ∧
    HalfResult rm b (narrowBf rm b) ∧
    (b = 0 → i2fLane rm b = (0, 0)) ∧ (b ≠ 0 → Round32 rm b.toInt (i2fLane rm b))) ∧
  (∀ a b : BitVec 32,
    fsign flipSign b = (if nan b then nanResult [b] else (b ^^^ 0x80000000, 0)) ∧
    snanFlag [a, b] = (if snan a || snan b then fNV else 0) ∧
    fminW a b = (if nan a || nan b then 0x7FC00000 else if ranks a b then a else b) ∧
    fmaxW a b = (if nan a || nan b then 0x7FC00000 else if ranks a b then b else a) ∧
    let same := decide (a = b) || (zero a && zero b)
    fcmp false feq a b = (if nan a || nan b then (false, if snan a || snan b then fNV else 0) else (same, 0)) ∧
    fcmp true flt a b = (if nan a || nan b then (false, fNV) else (ranks a b && !same, 0)) ∧
    fcmp true (fun p q => feq p q || flt p q) a b = (if nan a || nan b then (false, fNV) else (ranks a b || same, 0))) ∧
  (∀ (x : VIn) (b : BitVec 32) (h : BitVec 16), IntegerResult x.rm (x.qcfg.getLsbD 0) b (f2iLane x b) ∧ WideResult h (widenBf h)) ∧
  (∀ (k j : WLane) (sub : Bool) (w : BitVec 32) (rm : RM),
    AddResult k sub w (k.addFp sub w) ∧ foldLane k j = foldResult k j ∧ ReadResult 23 rm k (k.read fp32 rm) ∧
    ReadResult 7 rm k (k.read bf16 rm)) ∧
  ∀ (rm : RM) (b : VecW) (w : Nat → WLane),
    LaneSum rm b (fredsum rm b) ∧ LaneMax b (fredmax b) ∧
    (∀ i < 128, (lane (wgetVec rm w).1 i).toNat = ((w i).read fp32 rm).1 ∧ (half (wgetbfVec rm w).1 i).toNat = ((w i).read bf16 rm).1 ∧
      half (wgetbfVec rm w).1 (128 + i) = 0) ∧
    AllFlags 128 (fun i => ((w i).read fp32 rm).2) (wgetVec rm w).2 ∧ AllFlags 128 (fun i => ((w i).read bf16 rm).2) (wgetbfVec rm w).2

/-- The block triggers give quantised blocks by the automatic or the explicit scale, with their alt values, retries, saturation and
flags; dequantised elements; the block maximum and scale; narrowed and widened elements (02_numbers.md R37 to R41, R45, R50 to
R58; 06_vector.md R180 to R185). -/
def Obligations.BlockRules : Prop :=
  ∀ x : VIn,
    (∀ ib8 : Bool, ∃ (hdr : Nat → Nat) (code : Nat → Nat → Nat) (fl : Nat → Byte),
      (∀ j < 4, Quantised ib8 x j (hdr j) (code j) (fl j) ∧
        ∀ i < blockLen ib8, (vbyte (quantVec ib8 x).1 (blockLen ib8 * j + i)).toNat = blockByte ib8 (hdr j) (code j) i) ∧
      (∀ i < 512, 4 * blockLen ib8 ≤ i → vbyte (quantVec ib8 x).1 i = 0) ∧ AllFlags 4 fl (quantVec ib8 x).2) ∧
    (∀ ib8 : Bool, ∃ r : Nat → Nat → BitVec 32 × Byte,
      (∀ j < 4, ∀ e < 32, Dequantised ib8 x.b j e (r j e) ∧ lane (dequantVec ib8 x).1 (32 * j + e) = (r j e).1) ∧
      AllFlags 128 (fun i => (r (i / 32) (i % 32)).2) (dequantVec ib8 x).2) ∧
    (∀ j < 4,
      let els := elements x j
      let m := bmaxLane (blockEls x j) (blockInf x j)
      (if els.any nan then m = (0x7FC00000, if els.any snan then fNV else 0)
        else if els.any inf then m = (0x7F800000, 0)
        else m.2 = 0 ∧ nan m.1 = false ∧ inf m.1 = false ∧ sgn m.1 = false ∧ fval m.1 = largest x j) ∧
      ∀ ib8 : Bool,
        let q := qscaleLane ib8 (blockEls x j)
        if special x j then q = (0x3FF, fNV)
        else if largest x j = 0 then q = (0, 0)
        else q.2 = 0 ∧ AutoCode ib8 (largest x j) q.1.toNat) ∧
    (∀ f : Nat → BitVec 32 × Byte, (∀ i < 128, lane (perBlock f).1 i = if i < 4 then (f i).1 else 0) ∧
      AllFlags 4 (fun i => (f i).2) (perBlock f).2) ∧
    (if (lane x.c 0).toNat % 4 < 2 then
        (∀ j < 256, half (narrowVec x).1 j = BitVec.ofInt 16 (narrowOf x j).1) ∧ AllFlags 256 (fun j => (narrowOf x j).2) (narrowVec x).2
      else
        (∀ j < 512, vbyte (narrowVec x).1 j = BitVec.ofInt 8 (narrowOf x j).1) ∧
          AllFlags 512 (fun j => (narrowOf x j).2) (narrowVec x).2) ∧
    (widenVec x).2 = 0 ∧
    ∀ i, let k := (lane x.c 0).toNat % 8
      (i < 128 → k < 4 → ((k < 2 → (lane (widenVec x).1 i).toInt = (half x.b (128 * (k % 2) + i)).toInt) ∧
        (2 ≤ k → (lane (widenVec x).1 i).toNat = (half x.b (128 * (k % 2) + i)).toNat))) ∧
      (i < 256 → 4 ≤ k → ((k < 6 → (half (widenVec x).1 i).toInt = (vbyte x.b (256 * (k % 2) + i)).toInt) ∧
        (6 ≤ k → (half (widenVec x).1 i).toNat = (vbyte x.b (256 * (k % 2) + i)).toNat)))

/-- wadd, wsub, wclr and wfold write every lane of accumulator k and leave every other accumulator as it is; they fill no
port (06_vector.md R167, R187). -/
def Obligations.WideAccumulate : Prop :=
  ∀ (s : State) (i : Instr) (u : VUnit) (f : Core → VUnit → VIn → Nat → WLane × Byte) (en : Entry) (v : Val),
    wideOf i = some (u, f) → s.AtHead u.eng i en v → s.me.bad.wide = [] →
    let x := s.me.vecIn u en v
    ∃ t, exec i s = .next t ∧
      (∀ n < 128, t.me.wlane u x.k n = (f s.me u x n).1) ∧
      (∀ u' k' n, n < 128 → k' < 4 → (u' ≠ u ∨ k' ≠ x.k) → t.me.wlane u' k' n = s.me.wlane u' k' n) ∧
      t.me.ctx = { s.me.ctx with wide := t.me.ctx.wide } ∧
      t.me.flights = s.me.flights ++ [⟨en.tag, none, .s 0, orAll 128 (fun n => (f s.me u x n).2), u.eng, false⟩]

/-- wget and wgetbf read accumulator k, rounded once under RMODE, and leave it as it is; wherever a trigger reads an
accumulator with an uncorrectable error it faults ECC_REGFILE, precise at the move, and changes none (06_vector.md R168,
R187, R188; 12_traps.md R333); wfold reads wk and wj. -/
def Obligations.WideRead : Prop :=
  ∀ (s : State) (i : Instr) (u : VUnit) (en : Entry) (v : Val), s.AtHead u.eng i en v →
    (∀ f, wgetOf i = some (u, f) → s.me.wideBad u (s.me.vecIn u en v).k = false →
      let r := f en.rmode (s.me.wlane u (s.me.vecIn u en v).k)
      exec i s = .next (s.started u.eng en (some (vecR u)) (.v r.1) r.2 false)) ∧
    ((((∃ m, i = .vecWget u m) ∨ (∃ m, i = .vecWgetbf u m) ∨ (∃ m, i = .vecWadd u m) ∨ (∃ m, i = .vecWsub u m) ∨
        (∃ m, i = .vecWfold u m)) ∧ s.me.wideBad u (s.me.vecIn u en v).k = true) ∨
      ((∃ m, i = .vecWfold u m) ∧ s.me.wideBad u ((lane (s.me.vecIn u en v).b 0).toNat % 4) = true) → s.me.trap = none →
      ∃ t k, exec i s = .next t ∧ t.me.ctx = s.me.ctx ∧ t.me.trap = some k ∧ k.cause = 0x1A ∧ k.prec = 1 ∧ k.badr = en.badr)

/-! ### The stream array -/

/-- A configuration trigger with a value in its range writes its field and nothing else of the array; with a value outside it
faults ILLEGAL_OPERAND, precise at the move, and writes nothing (08_stream_ops.md R229, R239; 12_traps.md R333). -/
def Obligations.StreamConfiguration : Prop :=
  ∀ (s : State) (i : Instr) (f : Str → Word → Str) (en : Entry) (v : Val),
    strField i = some f → s.AtHead .str i en v →
    (strRange s.me.ctx.str.sprec i v.toScalar = true →
      exec i s = .next (strDone s i en v (f s.me.ctx.str v.toScalar) none (.s 0) 0 0)) ∧
    (strRange s.me.ctx.str.sprec i v.toScalar = false → s.me.trap = none →
      ∃ t k, exec i s = .next t ∧ t.me.ctx = s.me.ctx ∧ t.me.flights = s.me.flights ∧
        t.me.trap = some k ∧ k.cause = 0x02 ∧ k.prec = 1 ∧ k.badr = en.badr ∧ t.me.seq = .capture 0)

/-- Beats, runs, shifts, folds, drains, clears, counts, margins and the status word act on the array as their rules say, and
every trigger keeps the edge banks in canonical form (08_stream_ops.md R228 to R237, R239). Where a rule stops one it faults,
precise at the move, and the array is unchanged: a beat, run or fold while SLEN is above 4^SPREC, SLEN_RANGE
(07_stream_array.md R197); otherwise one that reads an entry with an uncorrectable error, ECC_ACC (R238); a margin index above
15, ILLEGAL_OPERAND (R239). SLEN is never 0 (R194); a fold is stated for such an SLEN. -/
def Obligations.StreamActs : Prop :=
  ∀ (s : State) (i : Instr) (en : Entry) (v : Val),
    actsOnArray i = true → s.AtHead .str i en v → strRange s.me.ctx.str.sprec i v.toScalar = true →
    let c := s.me
    let t := c.ctx.str
    let o := (c.op .str).o.toScalar
    let tooMany := countsBeats i = true ∧ 4 ^ t.sprec.toNat < t.slen.toNat
    (¬ tooMany → ¬ ReadsError c v i → ((∃ m, i = .strMgn m) → o.toNat ≤ 15) → ((∃ m, i = .strFold m) → t.slen ≠ 0) →
      t.edge.wf Dig.dead = true →
      ∃ u r f n, StrActs t o v u r f n i ∧ u.edge.wf Dig.dead = true ∧
        exec i s = .next (strDone s i en v u (r.map (·.1)) ((r.map (·.2)).getD (.s 0)) f n)) ∧
    (c.trap = none →
      (tooMany → StrStops s i en 0x23) ∧
      (¬ tooMany → ReadsError c v i → StrStops s i en 0x1B) ∧
      ((∃ m, i = .strMgn m) → 15 < o.toNat → StrStops s i en 0x02))

/-- pushav and pushbv write one line of the bank they name and its four headers 0x01FC; other lines are unchanged; pushav
also sets the target's TAG and discards a pending map. They read no local memory and do not trap (08_stream_ops.md R226,
R227). -/
def Obligations.VectorPushes : Prop :=
  ∀ (s : State) (i : Instr) (sideB : Bool) (m : Mv) (en : Entry) (v : Val),
    i = (if sideB then .strPushbv m else .strPushav m) → s.AtHead .str i en v →
    let c := s.me.ctx.str
    let o := (s.me.op .str).o.toScalar
    let bank := c.target sideB (o.getLsbD 1)
    let ln := o.toNat / 256 % 128
    ∃ (u : Str) (f : Byte), exec i s = .next (strDone s i en v u none (.s 0) f 0) ∧
      u = { c with edge := u.edge, hdr := u.hdr, tag0 := u.tag0, tag1 := u.tag1, cmap := u.cmap } ∧
      (∀ k < 128, u.edge.get Dig.dead (bank * 16384 + ln * 128 + k) = (vectorDigit c sideB (lane v.toVec k)).1) ∧
      (∀ a, (a < bank * 16384 + ln * 128 ∨ bank * 16384 + ln * 128 + 128 ≤ a) → u.edge.get Dig.dead a = c.edge.get Dig.dead a) ∧
      (∀ q < 4, u.header bank ln q = 0x01FC) ∧
      (∀ x l q, q < 4 → l < 128 → (x ≠ bank ∨ l ≠ ln) → u.header x l q = c.header x l q) ∧
      (sideB = true → u.tag0 = c.tag0 ∧ u.tag1 = c.tag1 ∧ u.cmap = c.cmap) ∧
      (sideB = false → u.cmap = none ∧ (∀ k < 128, (u.tags bank)[k]? = some (BitVec.ofNat 2 (k / 32))) ∧
        u.tags (1 - bank) = c.tags (1 - bank)) ∧
      ((f = fQX ∧ ∃ k < 128, (vectorDigit c sideB (lane v.toVec k)).2 = true) ∨
        (f = 0 ∧ ∀ k < 128, (vectorDigit c sideB (lane v.toVec k)).2 = false))

/-- pusha and pushb write their bank from the elements of the blocks they read, pushb by the pending map where there is one,
and raise QX where a digit is clamped; pushak keeps the positions of R224, writes them, leaves a map, and answers with the
first position it has not consumed. Each does so once no older store or job holds it and its bytes pass their checks; a
control word out of range, or a byte that fails, faults, precise at the move, and nothing is written (08_stream_ops.md R220 to
R225). That a pushak raises QX for every position it examines, kept or not, is the model's reading of R43 and R224; which bytes a
push reads before a check fails, and that the first in line order is reported, is its reading of R223 (log entry 24). -/
def Obligations.MemoryPushes : Prop :=
  (∀ (s : State) (i : Instr) (sideB : Bool) (m : Mv) (en : Entry) (v : Val),
    i = (if sideB then .strPushb m else .strPusha m) → s.AtHead .str i en v →
    let t := s.me.ctx.str
    let map := if sideB then t.cmap else none
    let o := (s.me.op .str).o.toScalar
    let p := pushWord false (map.map (·.kext)) o (s.me.op .str).o2.toScalar v.toScalar
    let qs := pushBlocksOf p map
    (¬ pushWordBad false map.isSome o → PushFree s en p qs → PushReads s p qs → (∀ x, map = some x → x.places.length ≤ 128) →
      ∃ u f, exec i s = .next (strDone s i en v u none (.s 0) f 0) ∧ Pushed s t u sideB p (pushPlace p map) (pushSlot p map) ∧
        u.cmap = none ∧
        (sideB = true → u.tag0 = t.tag0 ∧ u.tag1 = t.tag1) ∧
        (sideB = false → (∀ k < 128, (u.tags (t.target false p.tgt))[k]? = some (BitVec.ofNat 2 (k / 32))) ∧
          u.tags (1 - t.target false p.tgt) = t.tags (1 - t.target false p.tgt)) ∧
        ((f = fQX ∧ ∃ n k x, n < p.nline ∧ k < 128 ∧ pushPlace p map k = some x ∧ (pushDigit s t sideB p n x).2 = true) ∨
          (f = 0 ∧ ∀ n k x, n < p.nline → k < 128 → pushPlace p map k = some x → (pushDigit s t sideB p n x).2 = false))) ∧
    (s.me.trap = none →
      (pushWordBad false map.isSome o → StrStops s i en 0x02) ∧
      (¬ pushWordBad false map.isSome o → PushFree s en p qs → ∀ k, PushFails s p qs k → StrStops s i en k))) ∧
  (∀ (s : State) (m : Mv) (en : Entry) (v : Val), s.AtHead .str (.strPushak m) en v →
    let t := s.me.ctx.str
    let o := (s.me.op .str).o.toScalar
    let p := pushWord true none o (s.me.op .str).o2.toScalar v.toScalar
    let want := pushWanted s t p
    (¬ pushWordBad true false o → ∀ x places slots, Walk want p.kext x places slots →
      let qs := (List.range (min x (p.kext - 1) / 32 + 1)).filter (fun q => decide (p.kskip / 32 ≤ q))
      PushFree s en p qs → PushReads s p qs →
      ∃ u f, exec (.strPushak m) s = .next (strDone s (.strPushak m) en v u (some .strR) (.s (BitVec.ofNat 64 x)) f 0) ∧
        Pushed s t u false p (fun k => places[k]?) (fun q => slots[q]?) ∧ u.cmap = some ⟨p.kext, places, slots⟩ ∧
        (∀ k < 128, (u.tags (t.target false p.tgt))[k]? = some (BitVec.ofNat 2 (match places[k]? with
          | some y => (slots.idxOf? (y / 32)).getD 0
          | none => k / 32))) ∧
        u.tags (1 - t.target false p.tgt) = t.tags (1 - t.target false p.tgt) ∧
        ((f = fQX ∧ ∃ n y, n < p.nline ∧ p.kskip ≤ y ∧ y ≤ min x (p.kext - 1) ∧ (pushDigit s t false p n y).2 = true) ∨
          (f = 0 ∧ ∀ n y, n < p.nline → p.kskip ≤ y → y ≤ min x (p.kext - 1) → (pushDigit s t false p n y).2 = false))) ∧
    (s.me.trap = none →
      (pushWordBad true false o → StrStops s (.strPushak m) en 0x02) ∧
      (¬ pushWordBad true false o → ∀ x places slots, Walk want p.kext x places slots →
        let qs := (List.range (min x (p.kext - 1) / 32 + 1)).filter (fun q => decide (p.kskip / 32 ≤ q))
        PushFree s en p qs → ∀ k, PushFails s p qs k → StrStops s (.strPushak m) en k)))

/-! ### The MEM engine -/

/-- A MEM trigger with room in its inner queue leaves the engine queue with the operands of that moment: a load for the load
queue, a store, an atomic or a send for the store queue, a mark for both (05_local_memory.md R141, R151). -/
def Obligations.MemTriggerEntersItsQueue : Prop :=
  ∀ (s : State) (i : Instr) (en : Entry) (v : Val), isMem i = true → s.AtHead .mem i en v →
    s.me.ldq.length < 8 → s.me.stq.length < 8 → exec i s = .next (memEntered s i en v)

/-! ### Moves and the issue of a bundle -/

/-- A move to a register: a source at hand is written, with widths matched; an empty source empties the register, which waits
for it as a pending transfer; a move to s0 changes nothing. No other register changes, and the sequencer goes on
(03_encoding.md R70, R71, R75, R79, R81, R84; 04_scalar_control.md R119). That a deferred fault whose token register takes another
value is no longer raised by a read of that register is the model's choice (log entry 56). -/
def Obligations.RegisterMoves : Prop :=
  ∀ (s : State) (i : Instr) (slot : Nat) (r : RegId) (m : Mv),
    regMove i = some (slot, r, m) → i.wf = true → s.Clear (oneMove i) → s.me.guardCell m.g.toNat = .full true →
    ∃ x, sameBut s.me.ctx x ∧ (∀ q, q ≠ r → x.readReg q = s.me.ctx.readReg q) ∧
      match s.me.bindSrc slot m.src with
      | .ready v =>
        exec i s = .next (s.setMe (if r = .s 0 then issued s.me x else { issued s.me x with deferred := unread s.me r })) ∧
        x.readReg r = .full (held r v)
      | .wait w =>
        exec i s = .next (s.setMe (if r = .s 0 then issued s.me x else
          { issued s.me x with
            pends := s.me.pends ++ [⟨r, .wait w, s.me.nextTag⟩], nextTag := s.me.nextTag + 1, deferred := unread s.me r })) ∧
        x.readReg r = (if r = .s 0 then .full (.s 0) else .empty)

/-- A move to an operand port of a queue engine enters that engine's queue with its source as it was, full or awaited; an
address register read in slot 4 advances; every register and every other queue stays (03_encoding.md R67, R69, R83;
04_scalar_control.md R121). A move to an operand port of CTL takes effect at issue: o or o2 holds the value; an address
register read in slot 4 advances (03_encoding.md R67, R69; 04_scalar_control.md R111, R121). -/
def Obligations.OperandMoves : Prop :=
  (∀ (s : State) (i : Instr) (slot : Nat) (e : Eng) (p : OPort) (m : Mv),
    operandMove i = some (slot, e, p, m) → i.wf = true → e ≠ .ctl → s.Clear (oneMove i) →
    s.me.guardCell m.g.toNat = .full true →
    ∃ t, exec i s = .next (s.setMe t) ∧
      (t.q e).map entryKey = (s.me.q e).map entryKey ++ [(none, p, s.me.bindSrc slot m.src, slot, s.me.pc)] ∧
      (∀ e', e' ≠ e → t.q e' = s.me.q e') ∧
      t.pc = (loopEnd s.me.pc s.me.ctx.loops).1 ∧
      (∀ r, t.ctx.readReg r = afterRead s.me slot m.src r) ∧
      t.ctx = { s.me.ctx with a := t.ctx.a, loops := (loopEnd s.me.pc s.me.ctx.loops).2 } ∧
      t.pends = s.me.pends ∧ t.flights = s.me.flights ∧ t.jobs = s.me.jobs ∧ t.scratch = s.me.scratch) ∧
  (∀ (s : State) (i : Instr) (slot : Nat) (p : OPort) (m : Mv) (v : Val),
    operandMove i = some (slot, .ctl, p, m) → i.wf = true → s.Clear (oneMove i) →
    s.me.guardCell m.g.toNat = .full true → s.me.bindSrc slot m.src = .ready v →
    ∃ x, exec i s = .next (s.setMe (issued s.me x)) ∧ x = { s.me.ctx with oports := x.oports, a := x.a } ∧
      (∀ r, x.readReg r = afterRead s.me slot m.src r) ∧
      (x.oports.get OPorts.zero Eng.ctl.code).o = (if p = .o then .s v.toScalar else (s.me.op .ctl).o) ∧
      (x.oports.get OPorts.zero Eng.ctl.code).o2 = (if p = .o2 then .s v.toScalar else (s.me.op .ctl).o2) ∧
      ∀ e, e ≠ .ctl → x.oports.get OPorts.zero e.code = s.me.op e)

/-- A bundle of which no move is performed has no effect but to pass: a guard that holds 0 squashes its move, trigger or
not (03_encoding.md R76; 04_scalar_control.md R119, R122). The issue of a whole bundle without a CTL trigger: every
performed operand move and then every performed trigger enters its engine's queue with its source as it was before the
bundle, and the sequencer goes on (03_encoding.md R76, R83, R84). -/
def Obligations.Bundles : Prop :=
  (∀ s : State,
    (s.Clear s.me.fetch → (∀ b ∈ s.me.fetch, s.me.performs b = false) →
      exec .bundleIssue s = .next (s.setMe (issued s.me s.me.ctx))) ∧
    ∀ i, ((regMove i).isSome ∨ (operandMove i).isSome ∨ (∃ p, destOf i = .trig .ctl p)) → i.wf = true → s.Clear (oneMove i) →
      (∀ b ∈ oneMove i, s.me.performs b = false) → exec i s = .next (s.setMe (issued s.me s.me.ctx))) ∧
  (∀ s : State, s.Clear s.me.fetch → s.me.ctlTrig s.me.fetch = none →
    ∃ t, exec .bundleIssue s = .next (s.setMe t) ∧ t.pc = (loopEnd s.me.pc s.me.ctx.loops).1 ∧
      ∀ e, e ≠ .ctl → (t.q e).map entryKey = (s.me.q e).map entryKey ++ entersOf s.me s.me.fetch e)

/-! ### The control engine -/

/-- jmp, jrel, call, ret and loop set the next bundle, the loop frames and the link stack, and change nothing else
(04_scalar_control.md R114, R118 to R120).
csrr, csrw, time, the guard triggers, rep, halt and endph take effect at issue and the sequencer goes on
(04_scalar_control.md R116, R122, R125, R130 to R133; 10_phase_sync.md R275, R295). -/
def Obligations.ControlTriggersAct : Prop :=
  (∀ (s : State) (i : Instr) (v : Val) (n : Nat) (l : List Loop) (k : List Nat),
     s.Clear (oneMove i) → s.me.ctlTrig (oneMove i) = some (i, .ready v) →
     branchOf s.me v.toScalar (s.me.op .ctl).o.toScalar i = some (n, l, k) →
     exec i s = .next (s.setMe { s.me with pc := n, ctx := { s.me.ctx with loops := l, links := k },
                                           resumeBreak := false, repNext := none })) ∧
  (∀ (s : State) (i : Instr) (v : Val) (c : Core),
     s.Clear (oneMove i) → s.me.ctlTrig (oneMove i) = some (i, .ready v) →
     controlOf s v.toScalar (s.me.op .ctl).o.toScalar i = some c → exec i s = .next (s.setMe c))

/-- The fences, waitt and the barrier waits go on once their condition holds, with 0 in ctl.r for bwaitt; until then the
bundle has no effect, and bar and arrive stand before their arrival (04_scalar_control.md R128, R129; 10_phase_sync.md R289,
R290, R294).
A bundle frozen at a landing slot or by waitt is issued again once what it waits for has come, a slot within LIM cc; a
freeze longer than the straggler limit traps STRAGGLER with argument 3; a bwaitt whose limit has passed goes on with 1 in
ctl.r (10_phase_sync.md R286, R290, R294). -/
def Obligations.FencesWaitsAndFreezes : Prop :=
  (∀ (s : State) (i : Instr) (v : Val),
     s.Clear (oneMove i) → s.me.ctlTrig (oneMove i) = some (i, .ready v) →
     (goesOn s v.toScalar i = some true → exec i s = .next (s.setMe (wentOn s.me i))) ∧
     ∀ q, goesOn s v.toScalar i ≠ some true → waitsAs s.me (s.me.op .ctl).o.toScalar i = some q →
       exec i s = .next (match q with | some f => s.setMe { s.me with seq := .frozen f 0 } | none => s)) ∧
  (∀ (s : State) (i : Instr),
     ((i = .slotReadable ∨ i = .waittRelease) → waitEnds s i = true →
       exec i s = .next (issue (s.setMe { s.me with seq := .run }) s.cur s.me.fetch)) ∧
     (∀ k, s.me.seq = .frozen .slot k → s.limOf s.cur < k → s.me.trap = none →
       exec .slotReadable s = .next s ∧
       ∃ t c, exec .freezeTimeout s = .next t ∧ t.me.ctx = s.me.ctx ∧ t.me.trap = some c ∧ c.cause = 0x08 ∧ c.prec = 0 ∧
         c.arg = 3 ∧ c.badr = s.me.pc ∧ t.me.seq = .capture 0) ∧
     (∀ k n m v, s.me.seq = .frozen (.bwaitt k) n → k < n → s.issuing s.cur = true →
       s.me.ctlTrig s.me.fetch = some (.ctlBwaitt m, v) →
       ∃ t, exec .bwaittTimeout s = .next t ∧ passes s.me t.me ∧ t.me.port .ctlR = .full (.s 1)))

/-- What the sequencer itself traps: a move to a relocation register, PRIVILEGE, precise at issue, with no register changed;
ctl.trap, TRAP_INSTR with argument b[15:0], after its bundle, which resumes at its successor; ctl.tfence with nothing under
way, the oldest deferred fault, and without one ARITH where AFL and AFM share a flag (03_encoding.md R70, R86;
04_scalar_control.md R127, R128; 09_copy_collective.md R248; 12_traps.md R326, R330, R333). -/
def Obligations.IssueTraps : Prop :=
  ∀ (s : State) (m : Mv) (v : Val), s.me.trap = none →
    (∀ (slot : Fin 8) (n : Fin 16), (slot = 0 ∨ slot = 1 ∨ slot = 7) → s.me.seq = .run →
      s.issuing s.cur = true → stalls s.me (oneMove (.moveSreg slot (.bind n) m)) = false → s.me.guardCell m.g.toNat = .full true →
      s.me.pc < s.me.nbundle → s.me.bad.imem = [] →
      ∃ t k, exec (.moveSreg slot (.bind n) m) s = .next t ∧ t.me.ctx = s.me.ctx ∧ t.me.pc = s.me.pc ∧ t.me.seq = .capture 0 ∧
        t.me.trap = some k ∧ k.cause = 0x03 ∧ k.prec = 0 ∧ k.badr = s.me.pc ∧ k.next = s.me.pc) ∧
    (s.Clear (oneMove (.ctlTrap m)) → s.me.ctlTrig (oneMove (.ctlTrap m)) = some (.ctlTrap m, .ready v) →
      ∃ k, exec (.ctlTrap m) s = .next (s.setMe { issued s.me s.me.ctx with trap := some k, seq := .capture 0, was := .run }) ∧
        k.cause = 0x15 ∧ k.prec = 5 ∧ k.badr = s.me.pc ∧ k.arg = v.toScalar.extractLsb' 0 16 ∧
        k.next = (loopEnd s.me.pc s.me.ctx.loops).1) ∧
    (s.Clear (oneMove (.ctlTfence m)) → s.me.ctlTrig (oneMove (.ctlTfence m)) = some (.ctlTfence m, .ready v) →
      s.me.queuesEmpty = true → s.me.triggersDone = true →
      (∀ d r, s.me.deferred = d :: r →
        ∃ t k, exec (.ctlTfence m) s = .next t ∧ t.me.ctx = s.me.ctx ∧ t.me.trap = some k ∧ k.cause = d.cause ∧ k.prec = 3 ∧
          k.badr = s.me.pc ∧ k.faddr = d.faddr ∧ t.me.seq = .capture 0) ∧
      (s.me.deferred = [] → s.me.ctx.afl &&& s.me.ctx.afm ≠ 0 →
        ∃ t k, exec (.ctlTfence m) s = .next t ∧ t.me.ctx = s.me.ctx ∧ t.me.trap = some k ∧ k.cause = 0x14 ∧ k.prec = 0 ∧
          k.badr = s.me.pc ∧ k.arg = (s.me.ctx.afl &&& s.me.ctx.afm).setWidth 16))

/-! ### The steps inside a core -/

/-- A pending transfer whose source has filled writes its register, leaves the list and wakes what waits for that
register; no other register changes (03_encoding.md R79). An address register gives the queue entries that wait for it its
value as the slot-4 reads among them, in issue order, advance it, and stands advanced by all of them (04_scalar_control.md
R121): how these reads share the walk is the model's choice (log entry 55). -/
def Obligations.PendingTransferCompletes : Prop :=
  ∀ (s : State) (p : Pend) (v : Val), s.me.serving = true → s.me.pends[s.obj]? = some p → p.val = .ready v →
    ∃ x, exec .pendingTransferComplete s = .next (s.setMe x) ∧ sameBut s.me.ctx x.ctx ∧
      (∀ q, q ≠ p.dst → x.ctx.readReg q = s.me.ctx.readReg q) ∧ x.pends.length + 1 = s.me.pends.length ∧
      ((∀ i, p.dst ≠ .a i) → x.ctx.readReg p.dst = .full (held p.dst v) ∧ wokenQueues s.me x (.reg p.dst) (held p.dst v)) ∧
      (∀ i, p.dst = .a i →
        x.ctx.readReg p.dst = .full (.s (stepped (s.me.aregReads p.dst).length v.toScalar)) ∧
        ∀ e, x.q e = (s.me.q e).map (fun en =>
          if en.val = .wait (.reg p.dst) then
            let w := stepped ((s.me.aregReads p.dst).filter (fun y => decide (y.1 < en.tag ∧ (en.slot = 4 ∨ y.2 ≠ en.badr)))).length
              v.toScalar
            { en with val := .ready (.s (if en.slot = 4 then (w.extractLsb' 0 32).setWidth 64 else w)) }
          else en))

/-- The operand entry at the head of a queue writes its port and leaves; m takes a mask, and o and o2 a vector only in
VEC0 and VEC1 (03_encoding.md R68, R69, R75).
A result that arrives fills every port still bound to its trigger and wakes what waits for it; the arrival, or for a
trigger without a port its full effect, sets its flags in AFL; no register changes (02_numbers.md R60; 03_encoding.md R78;
04_scalar_control.md R125). -/
def Obligations.PortsFill : Prop :=
  (∀ (s : State) (e : Eng) (en : Entry) (v : Val), s.me.serving = true → (s.me.q e).head? = some en → en.trig = none →
     en.val = .ready v →
     ∃ x, exec (.operandEntryCapture e) s = .next (s.setMe x) ∧ x.q e = (s.me.q e).tail ∧
       (∀ e', e' ≠ e → x.q e' = s.me.q e' ∧ x.op e' = s.me.op e') ∧
       x.op e = (match en.port with
         | .o => { s.me.op e with o := if e = .vec0 ∨ e = .vec1 then .v v.toVec else .s v.toScalar }
         | .o2 => { s.me.op e with o2 := if e = .vec0 ∨ e = .vec1 then .v v.toVec else .s v.toScalar }
         | .m => { s.me.op e with m := v.toMask }
         | .w => { s.me.op e with w := v.toScalar }) ∧
       x.ctx = { s.me.ctx with oports := x.ctx.oports }) ∧
  (∀ (s : State) (f : Flight), s.me.flights[s.obj]? = some f →
     ∃ x, exec (if f.port.isSome then .resultArrival else .triggerFullEffect) s = .next (s.setMe x) ∧
       x.flights.length + 1 = s.me.flights.length ∧ x.ctx.afl = s.me.ctx.afl ||| f.flags ∧
       (∀ p, x.port p = if f.port.isSome = true ∧ s.me.port p = .pend f.tag then .full f.val else s.me.port p) ∧
       x.ctx = { s.me.ctx with ports := x.ctx.ports, afl := x.ctx.afl } ∧
       (f.port.isSome = true → wokenQueues s.me x (.tag f.tag) f.val) ∧ (f.port = none → x.qs = s.me.qs))

/-- A further repetition of a slot-4 move enters its queue once there is room, as the trigger or for the port that it names, its
source read anew; an address register advances, a result port is claimed, and the count goes down (04_scalar_control.md R121,
R122). -/
def Obligations.RepetitionEnters : Prop :=
  ∀ (s : State) (r : Rep) (m : Mv), s.me.serving = true → s.me.trap = none → s.me.rep = some r → 1 ≤ r.left →
    ((∃ p, r.instr = .moveOperandPort 4 p m) ∨ (∃ e p, e ≠ .ctl ∧ r.instr = .moveXport 4 e p m) ∨ strTrigger r.instr = some m) →
    (s.me.q (repEng r.instr)).length < depthOf (repEng r.instr) →
    ∃ x en, exec .repeatEntry s = .next (s.setMe x) ∧ x.q (repEng r.instr) = s.me.q (repEng r.instr) ++ [en] ∧
      (∀ e, e ≠ repEng r.instr → x.q e = s.me.q e) ∧
      en.trig = (strTrigger r.instr).map (fun _ => r.instr) ∧ en.port = portOf r.instr ∧ en.slot = 4 ∧
      en.rep = some r.index ∧ en.badr = r.badr ∧ en.val = s.me.bindSrc 4 m.src ∧
      x.rep = (if r.left = 1 then none else some { r with left := r.left - 1, index := r.index + 1 }) ∧
      (∀ q, x.ctx.readReg q = afterRead s.me 4 m.src q) ∧
      ∀ p, strPort r.instr = some p → x.port p = .pend en.tag

/-! ### The MEM engine at work -/

/-- The head of a MEM queue that no older job or push holds starts once the checks of R137 pass, and otherwise faults with the
first check that fails, at its lowest failing lane, precise at the move, with memory unchanged; a send with a descriptor out of
range faults ILLEGAL_OPERAND (10_phase_sync.md R284); a mark passes once it heads both queues and every access
before it is performed (05_local_memory.md R137, R151, R157; 12_traps.md R333). -/
def Obligations.MemAccessStarts : Prop :=
  ∀ (s : State) (st : Bool) (x : Access) (r : List Access), s.me.serving = true →
    (if st then s.me.stq else s.me.ldq) = x :: r → x.ent.faulted = false →
    (x.kind ≠ .mark → s.me.jobs.any (fun j => j.blocks (s.poolOf s.cur) s.cur x) = false → s.me.pushBlocks (s.poolOf s.cur) s.cur x = false →
      (AccessPasses s x →
        exec (.memAccessStart st) s = .next (s.setMe (if st then { s.me with stq := r, sta := s.me.sta ++ [x] }
          else { s.me with ldq := r, lda := s.me.lda ++ [x] }))) ∧
      (∀ k a, AccessFails s x k a → s.me.trap = none →
        ∃ t c, exec (.memAccessStart st) s = .next t ∧ t.me.ctx = s.me.ctx ∧ t.me.scratch = s.me.scratch ∧ t.quads = s.quads ∧
          t.me.trap = some c ∧ c.cause = k ∧ c.prec = 1 ∧ c.badr = x.ent.badr ∧ c.faddr = BitVec.ofNat 64 a)) ∧
    (∀ l lr t tr, s.me.ldq = l :: lr → s.me.stq = t :: tr → l.kind = .mark → t.kind = .mark → l.ent.faulted = false →
      s.me.lda = [] → s.me.sta = [] → exec (.memAccessStart st) s = .next (s.setMe { s.me with ldq := lr, stq := tr }))

/-- A started load reads its bytes, little-endian, with sign extension where its trigger says, and its value sets out for
mem.r or mem.vr; nothing else changes (05_local_memory.md R142 to R144, R153). A vector load may read its lanes in several
turns, each as memory stands then, and answers with the last (R138). That a load reads in turns of their own, and its value
arrives in another, is the model's choice (log entries 9, 66). -/
def Obligations.LoadsRead : Prop :=
  ∀ (s : State) (x : Access) (r : List Access) (n : Nat) (sx : Bool), s.me.lda = x :: r →
    (((x.kind = .ld n sx ∧ (n = 1 ∨ n = 2 ∨ n = 4 ∨ (n = 8 ∧ sx = false))) ∨ x.kind = .vld ∨ x.kind = .vlds ∨ x.kind = .vgat) →
      x.lanes = 0 → s.obj = 0 →
      ∃ v, LoadResult s s.cur x v ∧
        exec (.memAccessPerformed false) s = .next (s.setMe { s.me with
          lda := r,
          flights := s.me.flights ++ [⟨x.ent.tag, some (if x.kind = .ld n sx then .memR else .memVr), v, 0, .mem, false⟩] })) ∧
    (x.kind = .vld ∨ x.kind = .vlds ∨ x.kind = .vgat →
      ∃ (w : VecW) (l : MaskW), Performed s x l ∧
        (∀ i < 128, if (lanesNow s x).contains i then word4 s s.cur (x.addrs.getD i 0) (lane w i) else lane w i = lane x.got i) ∧
        exec (.memAccessPerformed false) s = .next (s.setMe (
          if l = BitVec.allOnes 128 then
            { s.me with lda := r, flights := s.me.flights ++ [⟨x.ent.tag, some .memVr, .v w, 0, .mem, false⟩] }
          else { s.me with lda := { x with lanes := l, got := w } :: r })))

/-- A started store writes the bytes of the lanes that the turn performs at the addresses its trigger gives, the highest lane
last, and no other byte of any scratchpad or pool; it leaves once every lane is performed (05_local_memory.md R138, R145, R146,
R153). That a turn may perform some lanes of a vector store is the model's reading of R138 (log entry 66). -/
def Obligations.StoresWrite : Prop :=
  ∀ (s : State) (x : Access) (r : List Access), s.me.sta = x :: r → isStore x.kind = true →
    ∃ t l, exec (.memAccessPerformed true) s = .next t ∧ Performed s x l ∧ t.me.ctx = s.me.ctx ∧
      t.me.sta = (if ∀ i < x.addrs.length, l.getLsbD i = true then r else { x with lanes := l } :: r) ∧
      (∀ l : Bool × Nat × Nat, arrays t l.1 l.2.1 l.2.2 =
        match (storedBytes s s.cur x).reverse.find? (fun p => decide (p.1 = l)) with
        | some p => p.2
        | none => arrays s l.1 l.2.1 l.2.2)

/-- A started atomic takes its place at the end of its memory port's queue, once (05_local_memory.md R149); a send leaves
its core for the Girdle stop of its die with the sender's PHC (10_phase_sync.md R284, R285). The oldest atomic of a memory
port is applied, at a scratchpad or at a pool, whichever core it came from: its bytes become op(old, x), every other byte
of the array stays, and its trigger's old value sets out for mem.r (05_local_memory.md R147 to R149). -/
def Obligations.Atomics : Prop :=
  (∀ (s : State) (x : Access) (r : List Access), s.me.sta = x :: r →
    (∀ w op a, x.kind = .amo w op → locOf (s.poolOf s.cur) s.cur (x.addrs.headD 0) = some (false, a) →
      inWq s.me.wq s.cur x.ent.tag = false →
      exec (.memAccessPerformed true) s =
        .next (s.setMe { s.me with wq := s.me.wq ++ [⟨s.cur, x.ent.tag, false, a, w, op, x.b.toScalar, x.o2⟩] })) ∧
    (∀ w op a, x.kind = .amo w op → locOf (s.poolOf s.cur) s.cur (x.addrs.headD 0) = some (true, a) →
      let q := s.quad (quadOf s.cur)
      inWq q.wq s.cur x.ent.tag = false →
      exec (.memAccessPerformed true) s =
        .next (s.setQuad (quadOf s.cur) { q with wq := q.wq ++ [⟨s.cur, x.ent.tag, false, a, w, op, x.b.toScalar, x.o2⟩] })) ∧
    (x.kind = .send ∨ x.kind = .sends →
      ∃ t f y, exec (.memAccessPerformed true) s = .next t ∧ t.me.sta = r ∧
        (t.stop (stopOfDie (dieOf s.cur))).wait = (s.stop (stopOfDie (dieOf s.cur))).wait ++ [f] ∧ f.cls = 0 ∧ f.load = .send y ∧
        y.dest = (x.o.extractLsb' 48 16).toNat ∧ y.slot = (x.o.extractLsb' 42 6).toNat ∧
        y.arr = (x.o.extractLsb' 26 16).toNat ∧ y.phc = s.phcOf s.cur ∧
        (if x.kind = .send then y.data = x.b.toVec else y.data.toNat = x.b.toScalar.toNat))) ∧
  (∀ (s : State) (pool : Bool) (p : PortAtomic) (r : List PortAtomic) (x : Access),
    (if pool then (s.quad (quadOf s.cur)).wq else s.me.wq) = p :: r → p.job = false → (pool = false → p.core = s.cur) →
    (p.width = 4 ∨ p.width = 8) → (s.core p.core).sta.find? (fun y => decide (y.ent.tag = p.tag)) = some x →
    let m := if pool then (s.quad (quadOf s.cur)).mem else s.me.scratch
    let old := BitVec.ofNat 64 (Mem.le m p.addr p.width)
    let new := amoOp p.op (8 * p.width) old p.x p.cmp
    ∃ t, exec (.atomicApply pool) s = .next t ∧ (if pool then (t.quad (quadOf s.cur)).wq else t.me.wq) = r ∧
      (∀ a, Mem.read (if pool then (t.quad (quadOf s.cur)).mem else t.me.scratch) a =
        if p.addr ≤ a ∧ a < p.addr + p.width then BitVec.ofNat 8 (new.toNat / 2 ^ (8 * (a - p.addr))) else Mem.read m a) ∧
      (t.core p.core).flights = (s.core p.core).flights ++ [⟨x.ent.tag, some .memR, .s old, 0, .mem, false⟩] ∧
      (t.core p.core).sta = (s.core p.core).sta.filter (fun y => decide (y.ent.tag ≠ p.tag)) ∧
      (t.core p.core).ctx = (s.core p.core).ctx)

/-! ### Copies -/

/-- A go whose card passes its checks and that nothing older holds: its job keeps the 64 bytes at b[31:0] as its card, and
the go leaves for a free job slot, or for the card queue; a card read alone leaves the queue as it is
(09_copy_collective.md R244, R245). A go whose card cannot be read, or fails its checks, is refused: its token fills with
status REFUSED and the cause, its entry faults and the core parks, precise at the move (09_copy_collective.md R244, R255,
R260; 12_traps.md R333).
status, cancel and the collective cancel answer at once: the progress of the job with the named token, or whether a job
was cancelled; a cancelled job that has not started ends with CANCELLED (09_copy_collective.md R249, R250). -/
def Obligations.CopyTriggersAct : Prop :=
  ((∀ (s : State) (i : Instr) (e : Eng) (en : Entry) (v : Word) (j : CJob),
     s.me.goHead e = some (en, v, j) → (i = .cardRead e ∨ ((∃ u m, i = .cpyGo u m ∧ e = u.eng) ∨ (∃ k m, i = .colGo k m ∧ e = .col)) ∧
       s.AtHead e i en (.s v)) →
     let a := (v.extractLsb' 0 32).toNat
     let card : BitVec 512 := BitVec.ofNat 512 (ofLe (s.localBytes s.cur a 64))
     let line := lineOf (s.poolOf s.cur) s.cur a
     j.card = none → j.ended = none →
     s.me.memBlocks (s.poolOf s.cur) s.cur j.tag [⟨false, line, line + 1⟩] [] = false →
     s.me.jobBlocks j.tag [⟨false, line, line + 1⟩] [] = false →
     cardAccessFault s s.cur a = none →
     (if e = .col then collInvalid (s.poolOf s.cur) s.cur (s.modules s.cur card) card else copyInvalid s.me card) = false →
     footInvalid s s.cur card = false → inWholeWindow a = false → s.me.running e < 4 → s.me.cards.length < 4 →
     ∃ x j', exec i s = .next (s.setMe x) ∧ x.job? j.tag = some j' ∧ j'.card = some card ∧ j'.addr = v.extractLsb' 0 32 ∧
       j'.tok = j.tok ∧ j'.ended = none ∧ x.ctx = s.me.ctx ∧ x.scratch = s.me.scratch ∧
       (i = .cardRead e → x.q e = s.me.q e ∧ x.cards = s.me.cards) ∧
       (i ≠ .cardRead e → x.q e = (s.me.q e).tail ∧ x.cards = if e = .col then s.me.cards ++ [(j.tag, s.fabric)] else s.me.cards)) ∧
   (∀ (s : State) (e : Eng) (en : Entry) (v : Word) (j : CJob) (k : Byte) (y : Nat),
     s.me.goHead e = some (en, v, j) →
     let a := (v.extractLsb' 0 32).toNat
     let card : BitVec 512 := BitVec.ofNat 512 (ofLe (s.localBytes s.cur a 64))
     let line := lineOf (s.poolOf s.cur) s.cur a
     let bad := if e = .col then collInvalid (s.poolOf s.cur) s.cur (s.modules s.cur card) card else copyInvalid s.me card
     j.card = none → j.ended = none → j.tok ≠ 0 →
     s.me.memBlocks (s.poolOf s.cur) s.cur j.tag [⟨false, line, line + 1⟩] [] = false →
     s.me.jobBlocks j.tag [⟨false, line, line + 1⟩] [] = false → s.me.trap = none →
     (cardAccessFault s s.cur a = some (k, y) ∨ (cardAccessFault s s.cur a = none ∧ bad = true ∧ k = 0x0F ∧ y = 0) ∨
       (cardAccessFault s s.cur a = none ∧ bad = false ∧ (footInvalid s s.cur card = true ∨ inWholeWindow a = true) ∧
         k = 0x0E ∧ y = 0)) →
     ∃ t c, exec (.cardRead e) s = .next t ∧
       t.me.ctx.readReg (.s j.tok) = .full (.s (BitVec.ofNat 64 (k.toNat * 256 + 9))) ∧
       t.me.job? j.tag = none ∧ t.me.trap = some c ∧ c.cause = k ∧ c.prec = 1 ∧ c.badr = en.badr ∧ c.faddr = BitVec.ofNat 64 y)) ∧
  (∀ (s : State) (i : Instr) (en : Entry) (v : Val) (e : Eng) (p : RPort) (w : Word) (js : List CJob) (ks : List (Nat × Nat)),
     answerOf s.me v.toScalar i = some (e, p, w, js, ks) → s.AtHead e i en v →
     exec i s = .next (s.setMe { s.me with
       qs := s.me.qs.set [] e.code (s.me.q e).tail, jobs := js, cards := ks,
       flights := s.me.flights ++ [⟨en.tag, some p, .s w, 0, e, false⟩] }))

/-- A COPY, FILL or GATHER job between local memories moves one byte in job order: its position's destination byte becomes
its source byte, every other byte of every array stays, and the job has done one byte more; after the last byte it ends
with DONE, and at a gathered element outside its region with FOOTPRINT_INVALID's status (09_copy_collective.md R247, R256,
R272). That a gather reads the index of a row at the row's first byte is the model's choice (log entry 57). -/
def Obligations.CopyJobsMoveBytes : Prop :=
  ∀ (s : State) (i : Instr) (kind k : Nat) (j : CJob) (card : BitVec 512),
    (i = .jobCopy k ∨ i = .jobFill k ∨ i = .jobGather k) → k ≤ 1 → jobKind i = some kind → Runs s kind j card → j.buf = none →
    j.flush = none → (s.me.dstOf card).main = false → (kind ≠ 2 → (s.me.srcOf card).main = false) →
    (cardTotal card ≤ j.pos → ∃ t, exec i s = .next t ∧ t.me.jobs[s.obj]? = some { j with started := true, ended := some 0 } ∧
      t.me.ctx = s.me.ctx ∧ ∀ l : Bool × Nat × Nat, arrays t l.1 l.2.1 l.2.2 = arrays s l.1 l.2.1 l.2.2) ∧
    (j.pos < cardTotal card → j.srcAt s s.cur card j.pos = none →
      ∃ t, exec i s = .next t ∧
        t.me.jobs[s.obj]? = some { j with started := true, ended := some 8 } ∧
        ∀ l : Bool × Nat × Nat, arrays t l.1 l.2.1 l.2.2 = arrays s l.1 l.2.1 l.2.2) ∧
    (∀ a, j.pos < cardTotal card → j.srcAt s s.cur card j.pos = some a →
      ∃ t rows, exec i s = .next t ∧ RowsHeld s card j rows ∧
        t.me.jobs[s.obj]? = some { j with started := true, pos := j.pos + 1, doneb := j.doneb + 1, rows := rows } ∧
        t.me.bytes = s.me.bytes + (if s.me.trap.isSome then 0 else 1) ∧ t.me.ctx = s.me.ctx ∧
        ∀ l : Bool × Nat × Nat, arrays t l.1 l.2.1 l.2.2 =
          if arrayOf s s.cur (dstAt s.me card j.pos) = some l then sourceByte s card j.pos a else arrays s l.1 l.2.1 l.2.2)

/-- Jobs reach main memory by requests of their own stop and priority: COPY and GATHER read from a main-memory source,
COPY, FILL and GATHER write to a main-memory destination, AMO sends its operation, and DELTA reads its block before it
hashes it (09_copy_collective.md R256 to R258, R261; 11_translation.md R299). That a job has one request under way is the
model's choice (log entry 10). -/
def Obligations.JobsAskMainMemory : Prop :=
  ∀ (s : State) (i : Instr) (kind : Nat) (j : CJob) (card : BitVec 512), jobKind i = some kind → Runs s kind j card →
    (∀ a, (kind = 1 ∨ kind = 3) → j.buf = none → j.flush = none → (s.me.dstOf card).main = false → (s.me.srcOf card).main = true →
      j.pos < cardTotal card → j.srcAt s s.cur card j.pos = some a →
      ∃ t n, exec i s = .next t ∧ 1 ≤ n ∧ n ≤ 64 ∧ j.pos + n ≤ cardTotal card ∧ Asks s t j card (.read n) a) ∧
    (∀ a, kind ≤ 3 → j.buf = none → j.flush = none → (s.me.dstOf card).main = true → (kind ≠ 2 → (s.me.srcOf card).main = false) →
      j.pos < cardTotal card → j.srcAt s s.cur card j.pos = some a →
      ∃ t l, exec i s = .next t ∧ 1 ≤ l.length ∧ l.length ≤ 64 ∧ l.head? = some (sourceByte s card j.pos a) ∧
        Asks s t j card (.write l) (dstAt s.me card j.pos)) ∧
    (kind = 4 → (s.me.dstOf card).main = true → j.pos < cardTotal card →
      ∃ t w op x, exec i s = .next t ∧ w = card.toNat / 2 ^ 192 % 2 ^ 32 ∧ op = card.toNat / 2 ^ 416 % 16 ∧
        x = BitVec.ofNat 64 (card.toNat / 2 ^ 64 % 2 ^ 64 % 2 ^ (8 * w)) ∧
        Asks s t j card (.atomic w op x) (dstAt s.me card j.pos)) ∧
    (kind = 5 → j.buf = none → j.pos < cf card 24 4 / 4096 →
      ∃ t n, exec i s = .next t ∧ 1 ≤ n ∧ n ≤ 64 ∧ Asks s t j card (.read n) ((s.me.srcOf card).a + 4096 * j.pos))

/-- An AMO job whose words lie in local memory puts one operation after another into the queue of the memory port they
pass, and is done when every one has been applied. A DELTA job that has its block and the hash of its table entry passes
over an unchanged block without a write; for a changed one the record of index, new hash and block is written first, line
by line, and the table entry after it (05_local_memory.md R149; 09_copy_collective.md R257, R258). The hash is FIPS 202's
(log entry 12). -/
def Obligations.AmoAndDeltaJobs : Prop :=
  ∀ (s : State) (j : CJob) (card : BitVec 512),
    (∀ a x y, Runs s 4 j card → (s.me.dstOf card).main = false → j.pos < cardTotal card → dstAt s.me card j.pos = a → locOf (s.poolOf s.cur) s.cur a = some (x, y) →
      ∃ t p, exec .jobAmo s = .next t ∧ p.addr = y ∧ p.width = cf card 24 4 ∧ p.op = cf card 52 1 % 16 ∧ p.job = true ∧
        p.core = s.cur ∧ p.tag = j.tag ∧ t.me.jobs[s.obj]? = some { j with started := true, pos := j.pos + 1 } ∧
        (x = true → (t.quad (quadOf s.cur)).wq = (s.quad (quadOf s.cur)).wq ++ [p]) ∧ (x = false → t.me.wq = s.me.wq ++ [p])) ∧
    (Runs s 4 j card → (s.me.dstOf card).main = false → cardTotal card ≤ j.pos → j.doneb = j.pos * cf card 24 4 →
      ∃ t, exec .jobAmo s = .next t ∧ t.me.jobs[s.obj]? = some { j with started := true, ended := some 0 }) ∧
    (∀ blk old, Runs s 5 j card → j.buf = some (blk ++ old) → blk.length = 4096 → old.length = 16 →
      j.pos < cf card 24 4 / 4096 → cf card 60 1 = 0 →
      let h := shake256 blk 16
      let rec' := leBytes 8 j.pos ++ h ++ List.replicate 40 0 ++ blk
      (old = h → ∃ t, exec .jobDelta s = .next t ∧ t.stops = s.stops ∧
        t.me.jobs[s.obj]? = some { j with started := true, pos := j.pos + 1, buf := none }) ∧
      (old ≠ h → j.doneb - j.off < 4160 →
        ∃ t, exec .jobDelta s = .next t ∧
          Asks s t j card (.write ((rec'.drop (j.doneb - j.off)).take (64 - (j.doneb - j.off) % 64))) ((s.me.dstOf card).a + j.doneb)) ∧
      (old ≠ h → 4160 ≤ j.doneb - j.off →
        ∃ t, exec .jobDelta s = .next t ∧ Asks s t j card (.table h) (cf card 52 8 + 16 * j.pos)))

/-- A job that has ended, with nothing of it under way, leaves the list and fills its token with its status word: status in
7:0, cause in 15:8, flags in 23:16, bytes from bit 24; its flags join AFL, and a fault waits to be raised, with the address for an
ASYNC cause (02_numbers.md R60; 09_copy_collective.md R246 to R248; 12_traps.md R330). -/
def Obligations.TokensFill : Prop :=
  ∀ (s : State) (j : CJob) (st : Byte), s.me.jobs[s.obj]? = some j → j.ended = some st → j.slog = 0 → j.asked = false →
    j.use = none → j.tok ≠ 0 →
    ∃ x, exec .tokenFill s = .next (s.setMe x) ∧ x.job? j.tag = none ∧
      x.ctx.readReg (.s j.tok) = .full (.s (BitVec.ofNat 64
        (st.toNat + (causeOf st).toNat * 2 ^ 8 + j.flags.toNat * 2 ^ 16 + j.doneb * 2 ^ 24))) ∧
      (∀ r, r ≠ .s j.tok → x.ctx.readReg r = s.me.ctx.readReg r) ∧ x.ctx.afl = s.me.ctx.afl ||| j.flags ∧
      wokenQueues s.me x (.reg (.s j.tok)) (.s (j.word st)) ∧
      (causeOf st = 0 → x.deferred = s.me.deferred) ∧
      (causeOf st ≠ 0 → ∃ d ∈ x.deferred, d.tag = j.tag ∧ d.cause = causeOf st ∧ d.tok = j.tok.val ∧ d.live = true ∧
        d.faddr = if 0x10 ≤ (causeOf st).toNat ∧ (causeOf st).toNat ≤ 0x13 then j.faddr else 0)

/-! ### Collectives -/

/-- The engine of a die takes the cards of its cores by fabric cycle and CORE_ID 2:0, while it holds fewer than 32 of groups
that have not assembled; the k-th card of an identifier joins its k-th use.  The group of a card of pod scope are the dies it
names in every module of its pod group.  A use assembles and starts once every die of its group has a card; cards that do not
agree end it with MISMATCH, NELEM 0 with nothing to do, and a pod link that failed on its way with LINKDOWN (01_machine.md R20;
09_copy_collective.md R245, R266, R267; 14_system.md R398).  The model's choices: who shares a use (log entry 31), how the cards
of other modules come in (log entries 28 and 59), that a die takes the cards of a fabric cycle once it is over (log entry 84) and
the edge die whose links count for LINKDOWN (log entry 64). -/
def Obligations.CollectivesAssemble : Prop :=
  ∀ s : State,
    (∀ t rest j card, s.me.cards = t :: rest → s.me.job? t.1 = some j → j.card = some card →
      let key := s.useKey s.cur
      let cid := cf card 28 4
      let n := takenOf s.taken key cid (dieOf s.cur)
      (CardTurn s t.2 → cardsWaiting s (dieOf s.cur) < 32 →
        ∃ u, exec .colCardTake s = .next u ∧ u.me.cards = rest ∧ u.me.ctx = s.me.ctx ∧
          takenOf u.taken key cid (dieOf s.cur) = n + 1 ∧
          ∃ x ∈ u.uses, x.key = key ∧ x.cid = cid ∧ x.k = n ∧ x.assembled = false ∧ ⟨s.cur, t.1, card⟩ ∈ x.cards) ∧
      ((¬ CardTurn s t.2 ∨ 32 ≤ cardsWaiting s (dieOf s.cur)) → exec .colCardTake s = .next s)) ∧
    ∀ u, s.uses[s.obj]? = some u → u.assembled = false → u.cards ≠ [] →
      let v := s.grouped u
      (s.useFar u = false → v = u) ∧
      (s.useFar u = true → ∀ m d, m < 128 → d < 64 → (64 * m + d ∈ v.dies ↔ inGroup s u m d)) ∧
      (cutOff s u → ∃ t, exec .collectiveAssemble s = .next t ∧ UseEnds s t v 7 0) ∧
      (¬ cutOff s u → (∀ d ∈ v.dies, heldCard v d) → (∀ k ∈ u.cards, collReady s k = true ∧ (useJob s k).isSome) →
        ((∀ k ∈ u.cards ++ u.far, agreeKey k.card = agreeKey u.head) → nelem u.head ≠ 0 →
          ∃ t, exec .collectiveAssemble s = .next t ∧ t.uses = setAt s.uses s.obj { v with assembled := true } ∧
            ∀ k ∈ u.cards, ∃ j, useJob t k = some j ∧ j.started = true ∧ j.use = some u.cid) ∧
        ((∀ k ∈ u.cards ++ u.far, agreeKey k.card = agreeKey u.head) → nelem u.head = 0 →
          ∃ t, exec .collectiveAssemble s = .next t ∧ UseEnds s t v 0 0) ∧
        ((∃ k ∈ u.cards ++ u.far, agreeKey k.card ≠ agreeKey u.head) →
          ∃ t, exec .collectiveAssemble s = .next t ∧ UseEnds s t v 6 0))

/-- A rank of an assembled use injects its next flit once its source bytes are at hand, each main-memory line of which it asks
for; once every rank has injected, a rank writes the next line of its destination as its results arrive.  The use then ends:
with PERM for a read that could not be resolved, LINKDOWN for a failed link, MISMATCH for a rank that is gone, and, all written,
with MISMATCH for a block with different E(b), PARTIAL for a write that could not be resolved, or 0; over several modules as soon
as they have told how their ranks ended (09_copy_collective.md R268 to R272, R428, R429; 11_translation.md R314; 12_traps.md
R341).  MISMATCH for a rank that is gone (log entry 31), one request of a rank at a time (log entry 10) and what other modules tell
(log entries 28 and 59) are the model's choices. -/
def Obligations.CollectivesRun : Prop :=
  ∀ (s : State) (i : Instr) (kind r b : Nat) (u : Use) (k : CCard), collKind i = some (kind, r, b) →
    (∀ j, Turns s u k j kind r → ¬ AllInjected u → b = u.injected r → b < unitsIn k.card r →
      (∀ x ∈ u.cards.filterMap (useJob s), x.held = false) →
      let src := (s.core k.core).srcOf k.card
      let sp := unitBytes k.card b
      let buf := j.buf.getD []
      let a := (src.a + sp.1 + buf.length) % 2 ^ 64
      let l := if src.main then buf.take sp.2 else s.localBytes k.core ((src.a + sp.1) % 2 ^ 32) sp.2
      let eb := sxField 16 (ofLe (s.localBytes k.core ((cf k.card 44 4 + 2 * b) % 2 ^ 32) 2))
      (src.main = true → buf.length < sp.2 →
        ∃ t, exec i s = .next t ∧ CollAsks s t k j (.read (min (sp.2 - buf.length) (64 - a % 64))) a) ∧
      ((src.main = true → sp.2 ≤ buf.length) →
        ∃ t x f, exec i s = .next t ∧ FlitOf k.card r b eb l x f ∧
          t.uses = setAt s.uses s.obj { u with done := u.done ++ [(r, b)] } ∧
          (t.stop (stopOfDie (dieOf k.core))).wait =
            (s.stop (stopOfDie (dieOf k.core))).wait ++ [⟨k.card.toNat / 16 % 4, .coll ⟨u.key, u.cid, u.k, r, false, x⟩⟩] ∧
          useJob t k = some { j with buf := none, off := j.off + 1, flags := j.flags ||| f } ∧
          (t.core k.core).bytes = (s.core k.core).bytes + (if (s.core k.core).trap.isSome then 0 else 256) ∧
          ∀ p : Bool × Nat × Nat, arrays t p.1 p.2.1 p.2.2 = arrays s p.1 p.2.1 p.2.2)) ∧
    (∀ j l, Turns s u k j kind r → AllInjected u → b = j.lines (s.core k.core) k.card → j.pos < outLen k.card u.dies.length r →
      outLen u.head u.dies.length r = outLen k.card u.dies.length r →
      let dst := (s.core k.core).dstOf k.card
      let a := (dst.a + j.pos) % (if dst.main then 2 ^ 64 else 2 ^ 32)
      l.length = min (64 - a % 64) (outLen k.card u.dies.length r - j.pos) →
      (∀ q < l.length, u.outByte (j.pos + q) = some (l.getD q 0)) →
      (dst.main = true → ∃ t, exec i s = .next t ∧ CollAsks s t k j (.write l) a) ∧
      (dst.main = false →
        ∃ t, exec i s = .next t ∧ t.uses = s.uses ∧
          useJob t k = some { j with pos := j.pos + l.length, doneb := j.doneb + l.length } ∧
          (t.core k.core).bytes = (s.core k.core).bytes + (if (s.core k.core).trap.isSome then 0 else l.length) ∧
          ∀ p : Bool × Nat × Nat, arrays t p.1 p.2.1 p.2.2 =
            match (List.range l.length).reverse.find? (fun q => decide (arrayOf s k.core ((a + q) % 2 ^ 32) = some p)) with
            | some q => l.getD q 0
            | none => arrays s p.1 p.2.1 p.2.2)) ∧
    (s.uses[s.obj]? = some u → u.assembled = true → u.rankCard r = some k → cardKind k.card = kind →
      let jobs := u.cards.filterMap (useJob s)
      let afar (st : Byte) : Prop := ∃ l, u.farEnd = some (st, l)
      let perm := (∃ x ∈ jobs, x.ended = some 2 ∨ x.ended = some 3) ∨ afar 2
      let down := cutOff s u ∨ (∃ x ∈ jobs, x.ended = some 7) ∨ afar 7
      let gone := lostRank s u ∨ afar 6
      let flags := u.flags.foldl (fun a x => a ||| x.2) 0
      (perm → ∃ t, exec i s = .next t ∧ UseEnds s t u 2 0) ∧
      (¬ perm → down → ∃ t, exec i s = .next t ∧ UseEnds s t u 7 0) ∧
      (¬ perm → ¬ down → gone → ∃ t, exec i s = .next t ∧ UseEnds s t u 6 0) ∧
      (¬ perm → ¬ down → ¬ gone → AllInjected u →
        (∀ q < u.dies.length, ∀ c x, u.rankCard q = some c → useJob s c = some x →
          x.ended = some 4 ∨ (outLen u.head u.dies.length q ≤ x.pos ∧ x.slog = 0 ∧ x.asked = false ∧ x.held = false)) →
        (u.devs = [] ∨ u.farEnd ≠ none) →
        ∃ t st, exec i s = .next t ∧ UseEnds s t u st flags ∧ (u.clash = true → st = 6) ∧
          (u.clash = false → (faultyRank s u → st = 1) ∧ (¬ faultyRank s u → st = 0))))

/-- A contribution that reaches its next hop combines there exactly: in package scope with the sum of all ranks before it on the
path of the stops, ascending or, where CID[0] is 1, descending, and it waits for that sum; at a pod switch in any grouping.  The
integers add, the classes join, the width grows with the count, and different E(b) make every element a NaN.  The sum over
every rank is rounded once and multicast.  What reaches the ranks is kept for their destinations; in a group of several modules
a flit of a rank of this one goes on to the others by a pod link, and one of theirs is noted as injected (09_copy_collective.md
R268 to R271; 14_system.md R398; 16_programs_exchange.md R420).  The layout of a multicast result (log entry 79) and how traffic
of other modules comes in (log entries 28 and 59) are the model's. -/
def Obligations.ContributionsCombine : Prop :=
  ∀ (s : State) (u : Use), s.uses[s.obj]? = some u → u.assembled = true →
    (∀ y ∈ u.sums, y.ranks.length < u.dies.length) →
    (∀ i j c x, s.air[i]? = some ⟨c, .coll x⟩ → x.key = u.key → x.cid = u.cid → x.k = u.k →
      let y : Sum := ⟨flitNo (cardKind u.head) x.bytes, [x.rank], x.bytes, false⟩
      let ranks := List.range u.dies.length
      let path := if u.cid % 2 = 1 then ranks.reverse else ranks
      let before := path.takeWhile (fun q => decide (q ≠ x.rank))
      (x.result = false → u.devs = [] → cardKind u.head ≤ 10 → x.rank < u.dies.length →
        ((u.pod = true ∨ before = []) →
          ∃ t, exec (.hopCombine i j) s = .next t ∧ t.air = dropAt s.air i ∧ Settles s t u (u.sums ++ [y]) u.sums.length y) ∧
        (∀ m w, u.pod = false → before ≠ [] → u.sums[m]? = some w → w.unit = y.unit → w.ranks = before →
          (∀ q < m, ∀ v, u.sums[q]? = some v → ¬ (v.unit = y.unit ∧ v.ranks = before)) →
          ∃ t z, exec (.hopCombine i j) s = .next t ∧ t.air = dropAt s.air i ∧ Joined u.head w y z ∧
            Settles s t u (setAt u.sums m z) m z) ∧
        (u.pod = false → before ≠ [] → (∀ w ∈ u.sums, ¬ (w.unit = y.unit ∧ w.ranks = before)) →
          exec (.hopCombine i j) s = .next s)) ∧
      (x.result = true →
        ∃ t, exec (.hopCombine i j) s = .next t ∧ t.air = dropAt s.air i ∧
          t.uses = setAt s.uses s.obj { u with results := u.results ++ [(x.rank, x.bytes.drop 1)],
                                               flags := u.flags ++ [(x.rank, x.bytes.getD 0 0)] }) ∧
      (x.result = false → 11 ≤ cardKind u.head →
        ∃ t v, exec (.hopCombine i j) s = .next t ∧ t.air = dropAt s.air i ∧ t.uses = setAt s.uses s.obj v ∧
          v = { u with
            results := u.results ++ [(x.rank * 2 ^ 32 + leAt x.bytes 4 4 / 240, (x.bytes.drop 16).take (leAt x.bytes 8 2))],
            done := v.done } ∧ (u.devs = [] → v.done = u.done)) ∧
      (∀ d, x.result = false → u.devs ≠ [] → u.pod = true → u.dies[x.rank]? = some d →
        ∃ t v, exec (.hopCombine i j) s = .next t ∧ t.air = dropAt s.air i ∧ t.uses = setAt s.uses s.obj v ∧
          (nearDie u d → v.done = u.done ∧ ∀ k l, u.rankCard x.rank = some k → s.podLink (edgeOfDie (dieOf k.core)) = some l →
            (t.stop (68 + l)).wait = (s.stop (68 + l)).wait ++ [⟨c, .coll x⟩]) ∧
          (¬ nearDie u d → v.done = u.done ++ [(x.rank, flitNo (cardKind u.head) x.bytes)]))) ∧
    (∀ i j x y, u.pod = true → i ≠ j → u.sums[i]? = some x → u.sums[j]? = some y → x.unit = y.unit →
      x.ranks.length + y.ranks.length ≤ u.dies.length →
      ∃ t z, exec (.hopCombine (s.air.length + i) j) s = .next t ∧ t.air = s.air ∧ Joined u.head x y z ∧
        Settles s t u (z :: dropAt (dropAt u.sums (max i j)) (min i j)) 0 z)

/-! ### The Girdle and the homes -/

/-- A stop, or the port of a pod link, sends one waiting flit: class 0 first but for one lower flit in every 16, class 1 before
class 2 but for one in every 8, and in class 0 a smallest ARR; the others stay.  A send at its target in the same stand lands
while the target is in the sender's superstep and the slot is empty, and is dropped in another superstep; in another stand of
the pod group it lands in an exchange phase and is held before, though not where a send held before it is due in its slot; one
that no stand takes, or whose slot is full, sends a notice back.  Sends of equal ARR of one core to one target arrive in order,
and a full hold keeps the traffic behind it waiting.  One for another module leaves by a pod link, and the module remembers it
while it is abroad.  A notice is recorded at its sender for a later trap (09_copy_collective.md R261; 10_phase_sync.md R277, R285
to R287; 14_system.md R398; log entries 64 and 65 for the link and for what waits). -/
def Obligations.SendsTravel : Prop :=
  ∀ s : State,
    (let x := s.stop s.obj
     x.wait ≠ [] → (∀ f ∈ x.wait, f.cls ≤ 2) →
     ∃ t f, exec .flitArbitration s = .next t ∧ f ∈ x.wait ∧ t.air = (if s.obj < 68 then s.air ++ [f] else s.air) ∧
       (t.stop s.obj).wait.length + 1 = x.wait.length ∧ (∀ g ∈ (t.stop s.obj).wait, g ∈ x.wait) ∧
       (hasClass x 0 → ¬ (hasClass x 1 ∨ hasClass x 2) → f.cls = 0) ∧ (hasClass x 0 → x.run0 < 15 → f.cls = 0) ∧
       (hasClass x 0 → (hasClass x 1 ∨ hasClass x 2) → 15 ≤ x.run0 → f.cls ≠ 0) ∧
       (f.cls = 1 → hasClass x 2 → x.run1 < 7) ∧ (f.cls = 2 → hasClass x 1 → 7 ≤ x.run1) ∧
       (f.cls = 0 → ∀ g ∈ x.wait, g.cls = 0 → f.arr ≤ g.arr) ∧
       (∀ y, 68 ≤ s.obj → f.load = .send y → (s.ownCore y.core).isSome = true → y.part < 64 → y ∈ t.sys.abroad)) ∧
    (∀ (c : Nat) (x : Send), s.air[s.obj]? = some ⟨c, .send x⟩ →
      let n := x.dest % 512
      let free := (SMap.get (s.core n).lnd none x.slot).isSome = false
      (¬ InTurn s s.obj ⟨c, .send x⟩ → exec .sendArrival s = .next s) ∧
      (InTurn s s.obj ⟨c, .send x⟩ →
        (x.dest / 512 = s.sys.dev.toNat →
          (∀ r, s.standOf n = some (x.part, r) → (s.ownCore x.core).isSome = true →
            (r.phc = x.phc → free → ∃ t, exec .sendArrival s = .next t ∧ Lands s t x) ∧
            (r.phc = x.phc → ¬ free → ∃ t, exec .sendArrival s = .next t ∧ Notes s t x 0x1C) ∧
            (r.phc ≠ x.phc → exec .sendArrival s = .next { s with air := dropAt s.air s.obj })) ∧
          (∀ p r, s.standOf n = some (p, r) → (p ≠ x.part ∨ s.ownCore x.core = none) →
            ((x.pgid = 0 ∨ r.adm.pgid ≠ x.pgid) → ∃ t, exec .sendArrival s = .next t ∧ Notes s t x 0x02) ∧
            (x.pgid ≠ 0 → r.adm.pgid = x.pgid →
              let now := r.exch = true ∧ (s.core n).arrived = false ∧ r.st ≠ .swapping
              let twice := (∃ h ∈ (s.core n).ctx.holds, h.slot = x.slot) ∨
                (r.pend = true ∧ ¬ free ∧ ∃ a, ∀ m ∈ r.cores, (s.core m).doing.asks = a)
              (now → free → ∃ t, exec .sendArrival s = .next t ∧ Lands s t x) ∧
              (now → ¬ free → ∃ t, exec .sendArrival s = .next t ∧ Notes s t x 0x1C) ∧
              (¬ now → twice → ∃ t, exec .sendArrival s = .next t ∧ Notes s t x 0x1C) ∧
              (¬ now → ¬ twice → (s.core n).ctx.holds.length < 16 →
                ∃ t, exec .sendArrival s = .next t ∧ t.air = dropAt s.air s.obj ∧
                  t.core n = { s.core n with ctx := { (s.core n).ctx with holds := (s.core n).ctx.holds ++ [x] } }) ∧
              (¬ now → ¬ twice → 16 ≤ (s.core n).ctx.holds.length → exec .sendArrival s = .next s))) ∧
          (s.standOf n = none → ∃ t, exec .sendArrival s = .next t ∧ Notes s t x 0x02)) ∧
        (x.dest / 512 ≠ s.sys.dev.toNat →
          (s.podHas x.pgid (x.dest / 512) = false → ∃ t, exec .sendArrival s = .next t ∧ Notes s t x 0x02) ∧
          (s.podHas x.pgid (x.dest / 512) = true →
            (∀ l, s.podLink (edgeOfDie (dieOf (x.core % 512))) = some l →
              ∃ t, exec .sendArrival s = .next t ∧ t.air = dropAt s.air s.obj ∧ t.cores = s.cores ∧
                (t.stop (68 + l)).wait = (s.stop (68 + l)).wait ++ [⟨0, .send x⟩]) ∧
            (s.podLink (edgeOfDie (dieOf (x.core % 512))) = none → exec .sendArrival s = .next s))))) ∧
    (∀ c n b tag k, s.air[s.obj]? = some ⟨c, .notice n b tag k⟩ → InTurn s s.obj ⟨c, .notice n b tag k⟩ →
      (n / 512 ≠ s.sys.dev.toNat → exec .discardNotice s = .next { s with air := dropAt s.air s.obj }) ∧
      (n / 512 = s.sys.dev.toNat →
        ∃ t d, exec .discardNotice s = .next t ∧ t.air = dropAt s.air s.obj ∧ d ∈ (t.core (n % 512)).deferred ∧ d.send = true ∧
          d.tag = tag ∧ d.cause = k ∧ d.faddr = BitVec.ofNat 64 b ∧ (t.core (n % 512)).ctx = (s.core (n % 512)).ctx ∧
          ∀ y, y ∈ t.sys.abroad ↔ y ∈ s.sys.abroad ∧ ¬ (y.core = n ∧ y.badr = b ∧ y.tag = tag)))

/-- A request at its home whose bytes are all present is performed there: a read gives its bytes to its job, a write or an
atomic changes exactly its bytes and counts them done; one whose page is not present retires into its home's side log, with an
event, and its job goes on.  A read at a page that is not present is held with an event; a request that cannot be resolved ends its job with PERM; one
of another module leaves by a pod link, or ends with LINKDOWN without one (05_local_memory.md R147; 11_translation.md R299, R301, R306 to R310, R312; 14_system.md R398).  The chunks that a leaf takes are
the model's choice (log entry 14), and so are that a request is performed in the turn that translates it (log entry 21), that a
write of a root table by another than the command processor is dropped (log entry 86), the link through which a die's traffic
leaves and that it ends with LINKDOWN where there is none (log entries 50 and 64). -/
def Obligations.HomesPerformRequests : Prop :=
  ∀ (s : State) (t : Option Nat) (c : Nat) (r : Req) (k tag : Nat) (j : CJob),
    s.air[s.obj]? = some ⟨c, .req r⟩ → r.org = .job k tag → r.replay = false → (s.core k).job? tag = some j →
    let w := walked s t r
    (∀ h pa, h < 4 → Lies w r t h pa →
      let old := (List.range r.kind.len).map (fun i => Mem.read (w.home h).mem (pa i))
      (r.kind.isRead = true → ∃ u j', exec (.homeRequest t) s = .next u ∧ (u.core k).job? tag = some j' ∧
        j'.buf = some (j.buf.getD [] ++ old) ∧ j'.asked = false ∧ j'.held = false ∧ u.hostMem = s.hostMem ∧
        ∀ e a, Mem.read (u.home e).mem a = Mem.read (s.home e).mem a) ∧
      (∀ l o, newBytes r old = some l → r.kind.isRead = false → l.length = r.kind.len →
        (∀ i < r.kind.len, (w.home h).isRoot (pa i / 4096) = false) →
        (w.home h).put ((List.range l.length).map (fun i => (pa i, l.getD i 0))) = (o, true) →
        ∃ u j', exec (.homeRequest t) s = .next u ∧ u.home h = o ∧ (∀ e, e ≠ h → u.home e = w.home e) ∧
          (u.core k).job? tag = some j' ∧ j'.asked = false ∧
          ((∀ b, r.kind ≠ .table b) → (j.ended = none ∨ j.ended = some 0) → j'.doneb = j.doneb + l.length) ∧
          (u.core k).bytes = (s.core k).bytes + (if (s.core k).trap.isSome then 0 else l.length) ∧ u.hostMem = s.hostMem)) ∧
    (∀ x, Plain w r t x →
      (∀ e l a, (∀ i < r.kind.len, x i = .absent e (a + i)) → a % 64 + r.kind.len ≤ 64 → (∀ d < 4, (w.home d).slog.length < 4096) →
        e < 4 → (r.kind = .write l ∨ (r.kind = .table l ∧ l ≠ []) ∨ ∃ n op y, r.kind = .atomic n op y) →
        ∃ u j' q ev, exec (.homeRequest t) s = .next u ∧ (u.home e).slog = (w.home e).slog ++ [q] ∧ q.org = r.org ∧ q.replay = true ∧
          (∀ d a, Mem.read (u.home d).mem a = Mem.read (s.home d).mem a) ∧
          u.sys.events = s.sys.events ++ [ev] ∧ ev.ty = 3 ∧
          ((∃ n op y, r.kind = .atomic n op y) → q.kind = r.kind ∧ q.addr = r.addr) ∧
          ((r.kind = .write l ∨ r.kind = .table l) → q.addr.toNat = a / 64 * 64 % 2 ^ 64 ∧
            q.kind = .cells ((List.range l.length).map (fun i => (a % 64 + i, l.getD i 0))) ∧ (r.kind = .table l → q.rw = true)) ∧
          (u.core k).job? tag = some j' ∧ j'.asked = false ∧ j'.slog = j.slog + 1 ∧ j'.ended = j.ended ∧
          ((∀ b, r.kind ≠ .table b) → (j.ended = none ∨ j.ended = some 0) → j'.doneb = j.doneb + r.kind.len)) ∧
      (∀ e a, x 0 = .absent e a → r.kind.isRead = true →
        ∃ u j' ev, exec (.homeRequest t) s = .next u ∧ (u.home e).held = (w.home e).held ++ [w.fix r] ∧
          u.sys.events = s.sys.events ++ [ev] ∧ ev.ty = 3 ∧ (u.core k).job? tag = some j' ∧ j'.held = true ∧ j'.ended = j.ended) ∧
      (∀ e, x 0 = .fail e → (r.kind.isRead = false ∨ j.buf = none) →
        ∃ u j', exec (.homeRequest t) s = .next u ∧ (u.core k).job? tag = some j' ∧ j'.asked = false ∧ j'.ended = some 0x02 ∧
          j'.faddr = r.addr ∧ ∀ e a, Mem.read (u.home e).mem a = Mem.read (s.home e).mem a) ∧
      (∀ e, x 0 = .remote e →
        (∀ l, s.podLink (edgeOfDie (dieOf k)) = some l →
          ∃ u, exec (.homeRequest t) s = .next u ∧ u.air = dropAt s.air s.obj ∧
            (u.stop (68 + l)).wait = (s.stop (68 + l)).wait ++ [⟨r.prio, .req (w.fix r)⟩]) ∧
        (s.podLink (edgeOfDie (dieOf k)) = none → j.ended = none →
          ∃ u j', exec (.homeRequest t) s = .next u ∧ (u.core k).job? tag = some j' ∧ j'.ended = some 0x07)))

/-! ### Phases -/

/-- The arrival of a core at a barrier is registered once its accesses are performed, under the id and scope of its bundle; an
id that already has another scope traps BARRIER_MISMATCH; after a higher core's arrival one waits for the next fabric cycle.  While a participant is missing bar waits and arrive goes on; with
the last arrival the episode is over in the same cc: it is gone, its arrivals are done, and every bar that waits goes on
(10_phase_sync.md R288, R289, R291).  The same happens where the missing participants have left their pod group, and a core
whose episode completed while it was parked goes on (the model's reading, log entry 59). -/
def Obligations.Barriers : Prop :=
  ∀ (s : State) (p : Nat) (r : Run), s.standOf s.cur = some (p, r) → s.issuing s.cur = true →
    (∀ (i : Instr) (v : Val), s.me.ctlTrig s.me.fetch = some (i, .ready v) → s.me.accessesDone = true →
      let id := barId v.toScalar
      let sc := barScope v.toScalar
      let e : Episode := ⟨id, sc, barGroup sc s.cur, []⟩
      let stands := podOf s p r sc
      let here (n : Nat) : Prop := n = s.cur ∨ ∃ x ∈ stands, ∃ y ∈ x.2.episodes,
        y.id = id ∧ y.scope = sc ∧ y.group = e.group ∧ n ∈ y.arrived
      let early := r.barAt.1 = s.fabric ∧ s.cur < r.barAt.2
      ((∃ m k, i = .ctlBar m ∧ s.me.seq = .frozen (.bar false) k) ∨ (∃ m k, i = .ctlArrive m ∧ s.me.seq = .frozen .arrive k)) →
      (early → exec .barrierArrival s = .next s) ∧ (¬ early →
      ((∀ x ∈ r.ids, x.1 = id → x.2 = sc) → ((∃ n ∈ participants e stands, ¬ here n) ∨ farOf s r e = true) →
        ∃ t r', exec .barrierArrival s = .next t ∧ t.runOf p = some r' ∧ (id, sc) ∈ r'.ids ∧ (⟨id, sc, false⟩ : Arrival) ∈ t.me.arrivals ∧
          (∃ y ∈ r'.episodes, y.id = id ∧ y.scope = sc ∧ y.group = barGroup sc s.cur ∧ s.cur ∈ y.arrived) ∧
          (∀ m, i = .ctlBar m → t.me.seq = .frozen (.bar true) 0 ∧ t.me.pc = s.me.pc) ∧
          (∀ m, i = .ctlArrive m → passes s.me t.me)) ∧
      ((∀ x ∈ r.ids, x.1 = id → x.2 = sc) → (∀ n ∈ participants e stands, here n) → farOf s r e = false →
        s.cur ∈ participants e stands → (∀ x ∈ s.parts, s.part x.1 = x.2) →
        ∃ t r', exec .barrierArrival s = .next t ∧ t.runOf p = some r' ∧ (⟨id, sc, true⟩ : Arrival) ∈ t.me.arrivals ∧
          (∀ y ∈ r'.episodes, ¬ (y.id = id ∧ y.scope = sc ∧ y.group = e.group)) ∧ passes s.me t.me ∧
          ∀ n ∈ participants e stands, n ≠ s.cur →
            (∀ a ∈ (s.core n).arrivals, a.id = id → (⟨a.id, a.scope, true⟩ : Arrival) ∈ (t.core n).arrivals) ∧
            (∀ m k w, (s.core n).seq = .frozen (.bar true) k → (s.core n).ctlTrig (s.core n).fetch = some (.ctlBar m, .ready w) →
              barId w.toScalar = id → s.issuing n = true → passes (s.core n) (t.core n))) ∧
      ((∃ x ∈ r.ids, x.1 = id ∧ x.2 ≠ sc) → s.me.trap = none →
        ∃ t c, exec .barrierArrival s = .next t ∧ t.me.trap = some c ∧ c.cause = 0x1D ∧ c.prec = 0 ∧ c.badr = s.me.pc))) ∧
    (∀ e, r.episodes[s.obj]? = some e → e.scope ≠ 4 → r.cores.Nodup → (∀ n ∈ participants e [(p, r)], n ∈ e.arrived) →
      ∃ t r', exec .episodeComplete s = .next t ∧ t.runOf p = some r' ∧
        (∀ x ∈ r'.episodes, ¬ (x.id = e.id ∧ x.scope = e.scope ∧ x.group = e.group)) ∧
        ∀ n ∈ participants e [(p, r)],
          (∀ a ∈ (s.core n).arrivals, a.id = e.id → (⟨a.id, a.scope, true⟩ : Arrival) ∈ (t.core n).arrivals) ∧
          (∀ m k w, (s.core n).seq = .frozen (.bar true) k → (s.core n).ctlTrig (s.core n).fetch = some (.ctlBar m, .ready w) →
            barId w.toScalar = e.id → s.issuing n = true → passes (s.core n) (t.core n))) ∧
    (∀ i v k, ((∃ m, i = .ctlBar m ∧ s.me.seq = .frozen (.bar true) k) ∨ (∃ m, i = .ctlBwait m ∧ s.me.seq = .frozen .bwait k)) →
      s.me.ctlTrig s.me.fetch = some (i, .ready v) → s.me.barDone v.toScalar = true →
      ∃ t, exec .barrierArrival s = .next t ∧ passes s.me t.me)

/-- A core that has ended its superstep or its job arrives once its work is done, and the straggler timer starts with the
first arrival; an edge or compute stop that holds none of a tag's traffic reports quiet, for the current tag only after
every core has arrived. A core at its superstep cap traps SCAP_EXCEEDED, and a stand whose straggler timer has passed the
limit traps STRAGGLER in every core that has not arrived, or, where tokens or sends are wanting, at a boundary that is due to
be a pre-emption as well, in every core (04_scalar_control.md R125; 05_local_memory.md R160;
10_phase_sync.md R276, R280, R281). -/
def Obligations.ArrivalsQuietAndLimits : Prop :=
  ∀ (s : State) (p : Nat) (r : Run),
    (∀ e, s.standOf s.cur = some (p, r) → s.me.seq = .endph e false → s.me.quiesced = true →
      ∃ t r', exec .localArrival s = .next t ∧ t.me = { s.me with seq := .endph e true } ∧ t.runOf p = some r' ∧
        r'.strag = some (r.strag.getD 0)) ∧
    (s.standOf s.cur = some (p, r) → s.me.seq = .halted false → s.me.drained = true →
      ∃ t r', exec .finalArrival s = .next t ∧ t.me = { s.me with seq := .halted true } ∧ t.runOf p = some r' ∧
        r'.strag = some (r.strag.getD 0)) ∧
    (∀ st tag, s.runOf s.obj = some r → r.stops.contains st = true → stopQuiet s r st tag = true →
      (tag = decide (r.phc % 2 = 1) → allArrived s r = true) → r.quiet.contains (st, tag) = false →
      exec (.quietReport st tag) s = .next (s.setRun s.obj (some { r with quiet := r.quiet ++ [(st, tag)] }))) ∧
    (s.standOf s.cur = some (p, r) → s.capOf s.cur ≤ s.me.ssc.toNat →
      (s.me.seq = .run ∨ (∃ f k, s.me.seq = .frozen f k) ∨ (∃ e, s.me.seq = .endph e false) ∨ s.me.seq = .halted false) → s.me.trap = none →
      ∃ t c, exec .scapExceeded s = .next t ∧ t.me.ctx = s.me.ctx ∧ t.me.trap = some c ∧ c.cause = 0x0A ∧ c.prec = 0 ∧
        t.me.seq = .capture 0) ∧
    (∀ k, s.runOf s.obj = some r → r.strag = some k → r.adm.lim < k → r.st = .running → r.cores.Nodup →
      (∃ n ∈ r.cores, (s.core n).arrived = false) →
      ∃ t, exec .straggler s = .next t ∧
        (∀ n ∈ r.cores, (s.core n).arrived = false → (s.core n).trap = none →
          ∃ c, (t.core n).trap = some c ∧ c.cause = 0x08 ∧ c.arg = 0 ∧ c.prec = 0) ∧
        ∀ n ∈ r.cores, (s.core n).arrived = true → t.core n = s.core n) ∧
    (∀ k, s.runOf s.obj = some r → r.strag = some k → r.adm.lim < k → r.st = .running → r.cores.Nodup →
      (∀ n ∈ r.cores, (s.core n).arrived = true) →
      let b := { r with chosen := r.chosen || (!r.pend && r.incoming.any (fun x => decide (x.d < r.adm.d) && s.ready x)) }
      (tokensQuiet s b = false ∨ sendsQuiet s b = false) →
      ∃ t, exec .straggler s = .next t ∧ ∀ n ∈ r.cores, (s.core n).trap = none →
        ∃ c, (t.core n).trap = some c ∧ c.cause = 0x08 ∧ c.prec = 0 ∧ c.arg = (if tokensQuiet s b = false then 1 else 2))

/-- A boundary that nothing stops: PHC and the phase advance, the charges are made, and every core starts the next
superstep at its bundle with SSC 0; after a final arrival of every core the job ends, DONE or LATE, with the exit word of
rank 0 and the stand's flags, its partition is free, and its registers stand as the job left them (04_scalar_control.md R125; 10_phase_sync.md R277 to R279;
13_queues.md R360, R377). -/
def Obligations.BoundariesComplete : Prop :=
  ∀ (s : State) (r : Run),
    (∀ e, Quiet s s.obj r (some e) →
      ∃ t r', exec .boundaryComplete s = .next t ∧ t.runOf s.obj = some r' ∧ r'.phc = r.phc + 1 ∧ r'.exch = e ∧
        r'.strag = none ∧ r'.quiet = [] ∧ r'.ids = [] ∧ r'.ccSince = 0 ∧ r'.adm.remC = r.adm.remC - r.ccSince ∧
        r'.adm.usedC = r.adm.usedC + r.ccSince ∧
        ∀ n ∈ r.cores, (t.core n).seq = .run ∧ (t.core n).pc = (s.core n).pc ∧ (t.core n).beats = 0 ∧
          Starts (t.core n) (s.core n).ctx e) ∧
    (∀ k, Quiet s s.obj r none → s.pkt? r.adm.q r.adm.seq = some k →
      ∃ t k', exec .boundaryComplete s = .next t ∧ t.runOf s.obj = none ∧ t.pkt? r.adm.q r.adm.seq = some k' ∧
        k'.status = some (if r.adm.d < s.now then 1 else 0) ∧ k'.cause = 0 ∧ k'.exitw = exitOf s r.cores ∧
        k'.aflb = aflOr s r.cores ∧ k'.usedC = r.adm.usedC + r.ccSince ∧ k'.dline = r.adm.d ∧
        ∀ n ∈ r.cores, (t.core n).seq = .idle ∧ (t.core n).ctx = (s.core n).ctx ∧ (t.core n).scratch = (s.core n).scratch)

/-! ### Traps -/

/-- After the first trap event of a stand its other cores park with CAUSE NONE; a capture with nothing left to advance ends once
its record and its context have been written to the frame, and a core with a cause of its own sends its trap event; a capture
of 65,536 cc ends with WATCHDOG in the record and the original cause in the event.  The record holds its fields where R330
places them (12_traps.md R326, R329, R330, R335, R336).  The layout of the event's payload, with its cause byte and its source number
(log entry 18), and that a record waits for its page (log entry 29) are the model's choices. -/
def Obligations.CoresParkAndCapture : Prop :=
  ∀ (s : State) (p : Nat) (r : Run),
    (s.standOf s.cur = some (p, r) → r.st = .parking → s.me.trap = none → s.me.serving = true →
      ∃ t c, exec .corePark s = .next t ∧ t.me.ctx = s.me.ctx ∧ t.me.seq = .capture 0 ∧ t.me.was = s.me.seq ∧
        t.me.trap = some c ∧ c.cause = 0 ∧ c.prec = 2 ∧ c.next = s.me.pc) ∧
    (∀ k c, s.me.seq = .capture k → s.me.trap = some c → captureDone s s.cur = true →
      (∀ u, writeRecord s s.cur = some u →
        ∃ t, exec .captureEnd s = .next t ∧ t.me = { s.me with seq := .parked, capEmpty := s.me.pends.map (·.dst) } ∧
          t.homes = u.homes ∧
          (c.cause = 0 → t.sys = u.sys) ∧
          (c.cause ≠ 0 → ∃ e, t.sys.events = u.sys.events ++ [e] ∧ e.ty = 2 ∧ e.stop = stopOfDie (dieOf s.cur) ∧ e.src = s.cur % 8 ∧
            e.payload = leBytes 2 s.me.part ++ leBytes 2 (s.coreId s.cur) ++ [c.cause])) ∧
      (writeRecord s s.cur = none → exec .captureEnd s = .next s)) ∧
    (∀ k c, s.me.seq = .capture k → s.me.trap = some c → 65536 ≤ k →
      ∀ u, writeRecord (s.setMe { s.me with trap := some { c with cause := 0x20, incomplete := true } }) s.cur = some u →
      ∃ t d e, exec .watchdog s = .next t ∧ t.me.seq = .parked ∧ t.me.trap = some d ∧ d.cause = 0x20 ∧ d.incomplete = true ∧
        t.sys.events = u.sys.events ++ [e] ∧ e.ty = 2 ∧ e.stop = stopOfDie (dieOf s.cur) ∧ e.src = s.cur % 8 ∧
        e.payload = leBytes 2 s.me.part ++ leBytes 2 (s.coreId s.cur) ++ [c.cause]) ∧
    (∀ c, s.me.trap = some c →
      let l := trapRecord s s.cur
      l.length = 256 ∧ leAt l 0 1 = c.cause.toNat ∧ leAt l 1 1 = c.prec.toNat ∧ leAt l 2 1 = c.slotEng.toNat ∧
        leAt l 3 1 = (if c.repv then 1 else 0) + (if c.second then 2 else 0) + (if 16 < s.me.heldList.length then 4 else 0)
          + (if c.incomplete then 8 else 0) ∧
        leAt l 4 2 = c.badr % 2 ^ 16 ∧ leAt l 6 2 = c.arg.toNat ∧ leAt l 8 8 = c.faddr.toNat ∧
        leAt l 16 8 = s.phcOf s.cur % 2 ^ 64 ∧ leAt l 24 4 = s.me.ssc.toNat ∧ leAt l 32 8 = (s.dtcOf s.cur).toNat ∧
        leAt l 40 2 = s.coreId s.cur % 2 ^ 16 ∧ leAt l 42 1 = c.tok % 256 ∧
        leAt l 43 1 = (s.me.heldList.length + s.me.pends.length) % 256 ∧ leAt l 44 2 = c.next % 2 ^ 16 ∧
        leAt l 46 1 = s.me.pends.length % 256 ∧ leAt l 47 17 = 0)

/-- A stand whose cores are all parked is held for system software under DBG, is replayed once after an ECC cause where
its queue allows it, and is killed otherwise with TRAPPED and the first cause received; a held stand is killed or replayed
at command, and resumes as a whole where no cause refuses it: every core goes on with NEXT or the wait it was in, with the
context that system software left in its frame, its error sites are rewritten, and its held entries stand to be served again
(12_traps.md R333, R339 to R341; 13_queues.md R360, R379; 14_system.md R395). That every error site is rewritten at a resume is the model's reading (log entry 30). -/
def Obligations.ParkedStandsAreDisposedOf : Prop :=
  ∀ (s : State) (r : Run), s.runOf s.obj = some r →
    (r.chosen = true → r.adm.desc.dbg = false → exec .cpTrapDisposition s = .next s) ∧
    (r.st = .parking → r.late = false → r.chosen = false ∨ r.adm.desc.dbg = true → s.sys.takeover = false →
      allParked s r = true →
      (r.adm.desc.dbg = true → exec .cpTrapDisposition s = .next (s.setRun s.obj (some { r with st := .held }))) ∧
      (r.adm.desc.dbg = false → eccCause (r.first.getD 0) = true → r.adm.desc.replayable = true → r.adm.replayed = false →
        ∃ t, exec .cpTrapDisposition s = .next t ∧ t.runOf s.obj = none ∧ r.adm.again ∈ (t.part s.obj).adms) ∧
      (r.adm.desc.dbg = false → (eccCause (r.first.getD 0) = false ∨ r.adm.desc.replayable = false ∨ r.adm.replayed = true) →
        ∀ k, s.pkt? r.adm.q r.adm.seq = some k →
        ∃ t k', exec .cpTrapDisposition s = .next t ∧ t.runOf s.obj = none ∧ t.pkt? r.adm.q r.adm.seq = some k' ∧
          k'.status = some 3 ∧ k'.cause = r.first.getD 0)) ∧
    (∀ k, r.st = .held → s.pkt? r.adm.q r.adm.seq = some k →
      ∃ t k', exec .standKill s = .next t ∧ t.runOf s.obj = none ∧ t.pkt? r.adm.q r.adm.seq = some k' ∧ k'.status = some 3 ∧
        k'.cause = r.first.getD 0) ∧
    (r.st = .held → r.adm.desc.replayable = true →
      ∃ t, exec .standReplay s = .next t ∧ t.runOf s.obj = none ∧ r.adm.again ∈ (t.part s.obj).adms) ∧
    (r.st = .held → r.cores.Nodup → mayResume s s.obj r = true →
      ∃ t r', exec .standResume s = .next t ∧ t.runOf s.obj = some r' ∧ r'.st = .running ∧ r'.first = none ∧ r'.phc = r.phc ∧
        ∀ n ∈ r.cores, (t.core n).trap = none ∧ (t.core n).bad = BadSites.none ∧
          (∀ c, (s.core n).trap = some c → (t.core n).seq = (s.core n).was ∧ (t.core n).pc = c.next ∧
            (t.core n).capEmpty = [] ∧ (t.core n).resumeBreak = decide (c.cause = 0x16)) ∧
          (s.imageMapped (s.blockOf n) = true →
            let m := frameRead s (s.blockOf n + 0x1000) 0x87500
            (t.core n).ctx.afl = Mem.read m 0x400 ∧ (t.core n).ctx.afm = Mem.read m 0x401 ∧
              ∀ i < 16, SMap.get (t.core n).ctx.bind 0 i = BitVec.ofNat 64 (Mem.le m (0x2C0 + 8 * i) 8)) ∧
          ∀ e, ∀ en ∈ (t.core n).q e, en.faulted = false) ∧
    (mayResume s s.obj r = false → exec .standResume s = .next s)

/-! ### The Canopy unit -/

/-- The Canopy unit gives an idle partition its first LAUNCH that is ready: earliest D, then earlier release, then lower
queue number. One that has not run starts on its stand; a pre-empted one goes back to its cores with its saved contexts.
While a job runs, the shadow banks take the contexts of a job with an earlier D and the live banks keep theirs, and the
running job is then chosen for pre-emption (12_traps.md R343, R344; 13_queues.md R371, R372, R376). -/
def Obligations.JobsAreDispatched : Prop :=
  ∀ (s : State) (p : Nat) (x : Adm), s.pick p = some x →
    (x ∈ (s.part p).adms ∧ s.ready x = true ∧ s.sys.state = 1 ∧
      ∀ y ∈ (s.part p).adms, s.ready y = true →
        x.d < y.d ∨ (x.d = y.d ∧ (x.rho < y.rho ∨ (x.rho = y.rho ∧ x.q ≤ y.q)))) ∧
    (∀ (i : Instr), s.runOf p = none →
      (i = .dispatch ∧ s.obj = p ∨
        i = .launch ∧ s.obj = x.q ∧ ∃ k l, (s.queue x.q).pkts = k :: l ∧ k.seq = x.seq ∧ k.desc.part = p) →
      (∀ cores, x.preempted = false → x.started = false → x.next = none → formStand s (s.pdesc p) (s.slot x.slot).image = some cores →
        cores.Nodup → ∃ t, exec i s = .next t ∧ Launched s t p x cores) ∧
      (x.preempted = true → savedOf s p x ≠ [] → ((savedOf s p x).map (·.1)).Nodup →
        ∃ t r, exec i s = .next t ∧ t.runOf p = some r ∧ r.st = .swapping ∧ r.cores = (savedOf s p x).map (·.1) ∧
          (r.phc, r.exch) = x.next.getD (0, false) ∧
          ∀ y ∈ savedOf s p x, (t.core y.1).ctx = { y.2 with next := 0 } ∧ (t.core y.1).pc = y.2.next ∧ (t.core y.1).seq = .idle)) ∧
    (∀ r l, s.obj = p → s.runOf p = some r → x.d < r.adm.d → (s.part p).outgoing = none → r.chosen = false → r.st ≠ .swapping →
      incomingCtx s p x = some l → (l.map (·.1)).Nodup →
      ∃ t, exec .shadowPrepare s = .next t ∧ t.runOf p = some { r with incoming := some x } ∧
        (∀ y ∈ l, (t.core y.1).shadow = some y.2) ∧ ∀ n, ∃ b, t.core n = { s.core n with shadow := b }) ∧
    (∀ r, s.obj = p → s.runOf p = some r → r.incoming = some x → r.chosen = false → (r.pend = false ∨ r.adm.desc.dbg = false) →
      (r.st = .running ∨ r.st = .parking) → x.d < r.adm.d → s.ready x = true → exec .preemptDecision s = .next (s.setRun p (some { r with chosen := true })))

/-- After a swap the local memories are refilled and the incoming job runs: a new one with its local-data records, a
resumed one with what its frame holds, or with an ECC trap at its first bundle where its frame has an error, as soon as the frame
can be read; the outgoing
contexts are kept until the job is resumed. A parked job chosen for pre-emption ends where it stands. A job past its D
under KILL_LATE is parked and then killed, or removed while it waits, with LATE and KILLED (12_traps.md R328, R344, R346,
R347; 13_queues.md R360, R378, R379). What a frame holds where (log entries 15 and 30), which of several errors of a swap a core
traps with (log entry 78) and that a swap waits for its frames (log entry 29) are the model's choices. -/
def Obligations.JobsSwapAndExpire : Prop :=
  ∀ (s : State),
    (∀ r, s.runOf s.obj = some r → r.st = .swapping → r.cores.Nodup →
      ((∀ l, refillLook s s.obj r ≠ .ok l) → exec .spillRefillComplete s = .next (s.noteRead (refillLook s s.obj r))) ∧
      (∀ l, refillLook s s.obj r = .ok l → spillAll s s.obj r = none → exec .spillRefillComplete s = .next s) ∧
      (∀ l u, refillLook s s.obj r = .ok l → spillAll s s.obj r = some u →
        let v := refillEvents u s.obj r
        ∃ t r', exec .spillRefillComplete s = .next t ∧ t.runOf s.obj = some r' ∧ r'.st = .running ∧ r'.spill = none ∧
          r'.adm = { r.adm with next := none } ∧ r'.phc = r.phc ∧ r'.cores = r.cores ∧ t.homes = v.homes ∧
          (r.adm.next = none → v = u) ∧
          ∀ n ∈ r.cores,
            let b := frameBlock (v.pdesc s.obj) r.adm.frame n
            let out := (spillErrors s r).find? (fun x => decide (x.1 = n))
            let err := refillError v s.obj r (out.map (·.2)) n
            Starts (t.core n) (s.core n).ctx r.exch ∧ (t.core n).pc = (s.core n).pc ∧
            (t.core n).codeGen = some (r.adm.slot, (s.slot r.adm.slot).gen) ∧
            (t.core n).scratch = (if r.adm.next.isNone then recCells (s.slot r.adm.slot).image 0 0x80000
              else frameRead v (b + 0x90000) 0x80000) ∧
            (r.spill = none → u = s ∧ out = none) ∧
            (err = none → (t.core n).seq = .run) ∧
            (∀ k, err = some k → (s.core n).trap = none →
              ∃ c, (t.core n).trap = some c ∧ c.cause = k ∧ c.prec = 0 ∧ c.badr = (s.core n).pc ∧ (t.core n).seq = .capture 0) ∧
            (r.spill = none → r.adm.next ≠ none → frameError v (b + 0x1000) 0x12C00 = true → err = some 0x1A))) ∧
    (∀ x l, (s.part s.obj).outgoing = some (x, l) →
      ∀ u, l.foldl (fun t y => t.bind (fun v =>
          frameWrite v (frameBlock (s.pdesc s.obj) x.frame y.1 + 0x1000) 0x87500 (imageCells y.2))) (some s) = some u →
      ∃ t, exec .contextWriteback s = .next t ∧ t.cores = s.cores ∧ t.queues = u.queues ∧ t.homes = u.homes ∧
        t.part s.obj = { s.part s.obj with
          outgoing := none, saved := (s.part s.obj).saved ++ l.map (fun y => (x.q, x.seq, y.1, y.2)) }) ∧
    (∀ r x, s.runOf s.obj = some r → r.incoming = some x → r.chosen = true → r.st = .parking → r.late = false →
      r.adm.desc.dbg = false → ¬ (x.q = r.adm.q ∧ x.seq = r.adm.seq) → (∀ n ∈ r.cores, (s.core n).seq = .parked) →
      ∃ t r', exec .parkedPreemptEnd s = .next t ∧ t.runOf s.obj = some r' ∧ r'.adm.q = x.q ∧ r'.adm.seq = x.seq ∧
        r'.st = .swapping ∧
        (eccCause (r.first.getD 0) = true → r.adm.desc.replayable = true → r.adm.replayed = false →
          r.adm.again ∈ (t.part s.obj).adms) ∧
        ((eccCause (r.first.getD 0) = false ∨ r.adm.desc.replayable = false ∨ r.adm.replayed = true) →
          ∀ k, s.pkt? r.adm.q r.adm.seq = some k →
            ∃ k', t.pkt? r.adm.q r.adm.seq = some k' ∧ k'.status = some 3 ∧ k'.cause = r.first.getD 0 ∧ k'.cfl.getLsbD 1 = true)) ∧
    (∀ r, s.runOf s.obj = some r →
      ((r.adm.desc.killLate = false ∨ s.now ≤ r.adm.d) → exec (.deadlineExpiry 0) s = .next s) ∧
      (r.adm.desc.killLate = true → r.adm.d < s.now → r.late = false → r.st ≠ .swapping →
        exec (.deadlineExpiry 0) s = .next (s.setRun s.obj (some { r with st := .parking, late := true }))) ∧
      (r.adm.desc.killLate = true → r.adm.d < s.now → r.late = true → allParked s r = true →
        ∀ k, s.pkt? r.adm.q r.adm.seq = some k →
        ∃ t k', exec (.deadlineExpiry 0) s = .next t ∧ t.runOf s.obj = none ∧ t.pkt? r.adm.q r.adm.seq = some k' ∧
          k'.status = some 1 ∧ k'.cfl.getLsbD 0 = true ∧ k'.cfl.getLsbD 1 = true)) ∧
    (∀ j x, (s.part s.obj).adms[j]? = some x →
      ((x.desc.killLate = false ∨ s.now ≤ x.d) → exec (.deadlineExpiry (j + 1)) s = .next s) ∧
      (x.desc.killLate = true → x.d < s.now → ∀ k, s.pkt? x.q x.seq = some k →
        ∃ t k', exec (.deadlineExpiry (j + 1)) s = .next t ∧
          (∀ y ∈ (t.part s.obj).adms, ¬ (y.q = x.q ∧ y.seq = x.seq)) ∧ t.pkt? x.q x.seq = some k' ∧ k'.status = some 1 ∧
          k'.cfl.getLsbD 0 = true ∧ k'.cfl.getLsbD 1 = true ∧ k'.usedC = x.usedC ∧ k'.dline = x.d ∧
          ∀ r, s.runOf s.obj = some r → ∃ r', t.runOf s.obj = some r' ∧ r'.adm = r.adm ∧ r'.cores = r.cores))

/-! ### Queues -/

/-- The producer index comes from bits 15:0 of the wake word, by the descriptor in force, which is read when EN goes to 1; an
unresolvable fault there clears EN and sends a fault event. The next available packet is fetched from its ring position, at most 8
ahead and none past an unfinished FFENCE. Decoding writes the journal record, advances FIDX and gives the first rejection code of
R356 that applies, at most one LAUNCH in a fabric cycle; a rejected packet leaves every partition as it was (13_queues.md R352 to
R356, R359, R375, R384). The model's choices: the layout of a journal record (log entry 16), what a read of the command processor
waits for (log entries 22 and 98), that a stopped queue decodes nothing (log entry 54) and the order in a fabric cycle (log entry
84). -/
def Obligations.QueuesFetchAndDecode : Prop :=
  ∀ (s : State) (q : Nat), s.obj = q →
    let k := s.queue q
    (Current s q →
      (∀ l, k.desc.en = true → Reads s (ringOf q) k.desc.asid k.desc.wake 8 l →
        exec .wakeWordWrite s = .next (s.setQueue q { k with producer := leAt l 0 2 })) ∧
      (∀ l, k.desc.en = false → k.stopped = false → (s.qdesc q).asid ≠ 0 → Reads s (ringOf q) (s.qdesc q).asid (s.qdesc q).wake 8 l →
        exec .wakeWordWrite s = .next (s.setQueue q { k with desc := { s.qdesc q with en := false }, producer := leAt l 0 2 })) ∧
      (∀ y h, k.desc.en = true → s.pending (ringOf q) = false → s.look k.desc.asid k.desc.wake 8 = .fail y →
        y < 2 ^ 64 → s.viewAt k.desc.asid y = none → s.busyAt k.desc.asid y = none → s.xlat k.desc.asid y true false none = .fail h →
        ∃ t e l, exec .wakeWordWrite s = .next t ∧ (t.queue q).desc.en = false ∧ (t.queue q).stopped = true ∧
          (t.queue q).fetched = k.fetched ∧ t.sys.events = s.sys.events ++ e :: l ∧ e.ty = 3 ∧ e.stop = stopOfEdge h) ∧
      (∀ l, s.sys.state ≠ 0 → k.stopped = false → (s.twigOf q).isSome = true → k.fenced = false → k.ahead < 8 →
        1 ≤ (k.producer + 65536 - k.nextSeq) % 65536 → (k.producer + 65536 - k.nextSeq) % 65536 ≤ 2 ^ k.desc.log2n →
        Reads s (ringOf q) k.desc.asid (k.desc.pring + 128 * (k.nextSeq % 2 ^ k.desc.log2n)) 128 l →
        exec .packetFetch s = .next (s.setQueue q { k with fetched := k.fetched ++ [⟨k.nextSeq, l, k.desc⟩] })) ∧
      ((k.stopped = true ∨ k.fenced = true ∨ 8 ≤ k.ahead ∨ (k.producer + 65536 - k.nextSeq) % 65536 = 0) →
        exec .packetFetch s = .next s) ∧
      (k.stopped = true → exec .packetDecode s = .next s)) ∧
    (∀ m l, k.desc.en = false → s.look 0 (s.sys.qtab.toNat + 64 * q) 64 = .ok m → (parseQueue m).en = true →
      Reads s (ringOf q) (parseQueue m).asid (parseQueue m).wake 8 l →
      ∃ t, exec .wakeWordWrite s = .next t ∧ t.homes = s.homes ∧ t.cores = s.cores ∧ t.parts = s.parts ∧
        t.queue q = { k with
          desc := parseQueue m, rho0 := none, prevRho := none, stopped := false, cstop := false, producer := leAt l 0 2 } ∧
        ∀ x, x ≠ q → t.queue x = s.queue x) ∧
    (∀ f r, Decodable s q f r →
      let c := rejCode s q f
      let j : JRec := ⟨s.freePlace, q, f.seq, f.body, c, 0, 0, none, false, false, decide (c ≠ 0)⟩
      (c ≠ 0 ∨ leAt f.body 0 1 ≠ 0x01 → ∀ u, Journalled s j u →
        ∃ t x, exec .packetDecode s = .next t ∧ Decodes s t q f r j x ∧ t.parts = s.parts ∧ t.sys.decided = s.sys.decided) ∧
      (c = 0 → leAt f.body 0 1 = 0x01 → s.fabric < s.sys.decided → exec .packetDecode s = .next s))

/-- A LAUNCH that passes the first steps of R356 is decided once in its fabric cycle. Its release time and its deadline are fixed
first; then the first code of R370's order that applies rejects it, its partitions left as they were, and a LAUNCH to which none
applies is admitted: with its effective budgets, its release time, its deadline and the first free frame (13_queues.md R356, R366 to
R375, R384). The model's choices: a journal record's layout (log entry 16), that no LAUNCH of a stopped queue is decoded (log
entry 54) and the order in a fabric cycle (log entry 84). -/
def Obligations.LaunchesAreDecided : Prop :=
  ∀ (s : State) (q : Nat) (f : Fetched) (r : List Fetched) (rho : Nat) (l : List Byte) (c : Byte), s.obj = q →
    Decodable s q f r → rejCode s q f = 0 → leAt f.body 0 1 = 0x01 → s.sys.decided ≤ s.fabric →
    Releases (s.queue q) f.desc s.now rho → BindsRead s f l →
    let p := f.desc.part
    let free (k : Nat) : Bool := (s.admitted p).all (fun z => decide (z.frame ≠ k))
    let y := launchAdm s q f l rho (((List.range (s.pdesc p).nframe).find? free).getD 0)
    FirstCode (launchCodes s f y) c →
    let j : JRec := ⟨s.freePlace, q, f.seq, f.body, c, y.d, rho, if c = 0 then some y else none, false, false, decide (c ≠ 0)⟩
    ∀ u, Journalled s j u →
      ∃ t x, exec .packetDecode s = .next t ∧ Decodes s t q f r j x ∧ t.sys.decided = s.fabric + 1 ∧
        (t.queue q).rho0 = some ((s.queue q).rho0.getD s.now) ∧
        (c = 0 → (t.queue q).prevRho = some rho ∧ (t.queue q).recent = some y ∧ (t.part p).adms = (s.part p).adms ++ [y] ∧
          (t.part p).run = (s.part p).run ∧ (t.part p).desc = some (s.pdesc p) ∧ ∀ n, n ≠ p → t.part n = s.part n) ∧
        (c ≠ 0 → (t.queue q).prevRho = (s.queue q).prevRho ∧ t.parts = s.parts)

/-- FFENCE and NOP complete as they start. A WAITV completes DONE at an evaluation that holds in time, keeps the last masked
value, and times out at start + TMO unless it holds there. DEPEND completes once the other queue has written the entry, with
the same rule for its time-out. WRITEV and TIMESTAMP complete with their bytes at the home; their journal record is complete once
nothing of the write is under way (13_queues.md R357, R359, R361, R380, R381, R384). That a DEPEND on a queue above 4,095 never
holds is the model's choice (log entry 94). -/
def Obligations.StreamPacketsRun : Prop :=
  ∀ (s : State) (q : Nat) (p : Pkt), s.obj = q →
    (∀ i : Instr, (i = .ffence ∧ HeadPkt s q 0x06 p ∨ i = .nop ∧ HeadPkt s q 0x0C p) →
      ∃ t k, exec i s = .next t ∧ HeadNow s t q p k ∧ k.status = some 0) ∧
    (∀ l, HeadPkt s q 0x04 p → p.failed = false → Reads (startPkt s q p) (.pkt q) p.desc.asid (leAt p.body 0x10 8) 8 l →
      let v : Word := BitVec.ofNat 64 (ofLe l) &&& BitVec.ofNat 64 (leAt p.body 0x18 8)
      let holds := waitCond (leAt p.body 0x28 1) v (BitVec.ofNat 64 (leAt p.body 0x20 8))
      let tmo := leAt p.body 0x30 8
      let late := tmo ≠ 0 ∧ p.startDtc + tmo < s.now
      (∀ i : Instr, (i = .waitv ∧ p.started = false ∨ i = .waitvEvaluate ∧ p.started = true ∨
          i = .waitvReread ∧ p.started = true ∧ isDev (leAt p.body 0x10 8) = false) →
        ∃ t k, exec i s = .next t ∧ HeadNow s t q p k ∧ k.result = v ∧
          (holds → (p.started = false ∨ ¬ late) → k.status = some 0) ∧ (¬ holds → k.status = none) ∧
          (p.started = false → k.startDtc = s.now)) ∧
      (p.started = true → tmo ≠ 0 → p.startDtc + tmo ≤ s.now →
        ∃ t k, exec .waitvTimeout s = .next t ∧ HeadNow s t q p k ∧ k.result = v ∧
          (holds → ¬ late → k.status = some 0) ∧ (¬ holds → k.status = some 7))) ∧
    (HeadPkt s q 0x07 p →
      let d := leAt p.body 0x10 2
      let holds := d < 4096 ∧ ((s.queue d).cidx + 2 * 65536 - 1 - leAt p.body 0x12 2) % 65536 < 32768
      let tmo := leAt p.body 0x18 8
      let late := tmo ≠ 0 ∧ p.startDtc + tmo < s.now
      (p.started = false → ∃ t k, exec .depend s = .next t ∧ HeadNow s t q p k ∧ k.startDtc = s.now ∧
        (holds → k.status = some 0) ∧ (¬ holds → k.status = none)) ∧
      (p.started = true → holds → ¬ late → ∃ t k, exec .dependEvaluate s = .next t ∧ HeadNow s t q p k ∧ k.status = some 0) ∧
      (p.started = true → ¬ holds → exec .dependEvaluate s = .next s) ∧
      (p.started = true → tmo ≠ 0 → p.startDtc + tmo ≤ s.now →
        ∃ t k, exec .dependTimeout s = .next t ∧ HeadNow s t q p k ∧
          (holds → ¬ late → k.status = some 0) ∧ (¬ holds → k.status = some 7))) ∧
    (∀ i ty kind res h pa l o, pktStores s p i = some (ty, kind, res) → HeadPkt s q ty p → p.started = false → h < 4 →
      let u := startPkt s q p
      let r : Req := cpReq (.pkt q) p.desc.asid kind (leAt p.body 0x10 8)
      Lies u r none h pa → (∀ i < kind.len, (u.home h).isRoot (pa i / 4096) = false) →
      newBytes r ((List.range kind.len).map (fun j => Mem.read (u.home h).mem (pa j))) = some l → l.length = kind.len →
      (u.home h).put ((List.range l.length).map (fun j => (pa j, l.getD j 0))) = (o, true) →
      ∃ (w t : State) (k : Pkt), exec i s = .next t ∧ HeadNow s t q p k ∧ k.status = some 0 ∧ k.result = res ∧ k.startDtc = s.now ∧
        w.home h = o ∧ (∀ e, e ≠ h → w.home e = u.home e) ∧ w.hostMem = u.hostMem ∧
        t = (w.setPkt q p.seq (fun k => { k with status := some 0, result := res })).setRec q p.seq
          (fun j => { j with performed := !(w.pending (.pkt q)), complete := !(w.pending (.pkt q)) }))

/-- SLOTLOAD and SLOTDROP are rejected with REJ_SLOT where the slot's generation, its owner or an admitted LAUNCH forbids
them, and leave the slot as it was. SLOTLOAD rejects a bad image with REJ_FORMAT and a weight page that is not pinned with
REJ_FOOT, and waits where a page of a weight region cannot be walked yet; otherwise the slot holds the image as it was read under its new generation, the translations of the weight pages are
locked, and no core keeps the old code. SLOTDROP clears VALID, and only translations that another slot's weights need stay
locked. A completed packet's journal record says so once its effects are performed; its entry is written when its ring has room:
CIDX advances, its record is free, NOTIFY sends an event and STOPERR clears EN; a ring that does not translate stops its queue.
QUEUE_RESET cancels what is not decoded (11_translation.md R300; 13_queues.md R354, R355, R360, R361, R364, R365, R384, R385). The
model's choices: the NOTIFY event's source and payload (log entry 18), what QUEUE_RESET completes (log entry 48), what a read of
the command processor waits for (log entry 98), locked translations beyond the TLB (log entry 91) and the order of the checks of a
weight table (log entry 96). -/
def Obligations.SlotsAndCompletions : Prop :=
  ∀ (s : State) (q : Nat) (p : Pkt), s.obj = q →
    (HeadPkt s q 0x02 p →
      let b := p.body
      let n := leAt b 0x10 1
      let sl := s.slot n
      let u := startPkt s q p
      let asid := p.desc.asid
      let bad := leAt b 0x14 4 = 0 ∨ leAt b 0x14 4 = sl.gen ∨ s.slotInUse n = true ∨ (sl.valid = true ∧ sl.asid ≠ asid)
      let ends (st rej : Byte) : Prop := ∃ t k, exec .slotload s = .next t ∧ HeadNow s t q p k ∧ k.status = some st ∧ k.rej = rej ∧ t.slot n = sl
      (bad → ends 5 0x04) ∧
      (¬ bad → p.failed = true → ends 5 0x08) ∧
      (∀ image table, ¬ bad → p.failed = false →
        (p.image = some image ∨ (p.image = none ∧ Reads u (.pkt q) asid (leAt b 0x18 8) (min (leAt b 0x20 4) 0x400000) image)) →
        Reads u (.pkt q) asid (leAt b 0x28 8) (16 * min (leAt b 0x24 1) 64) table →
        let m := Mem.writeL [] 0 image
        let regions := (List.range (leAt b 0x24 1)).map (fun i => (leAt table (16 * i) 8, leAt table (16 * i + 8) 8))
        let form := leAt b 0x24 1 ≤ 64 ∧ 128 ≤ leAt b 0x20 4 ∧ leAt b 0x20 4 ≤ 0x400000 ∧ leAt b 0x20 4 = imgLen m ∧
          imageBad m = false ∧ ∀ r ∈ regions, r.1 % 4096 = 0 ∧ r.2 % 4096 = 0 ∧ r.2 ≠ 0
        (¬ form → ends 5 0x0B) ∧
        let waits := ∃ r ∈ regions, ∃ k < r.2 / 4096, u.xlat asid (r.1 + 4096 * k) true false none = .behind ∨
          ∃ h, u.xlat asid (r.1 + 4096 * k) true false none = .frozen h
        (form → waits → ∃ t k, exec .slotload s = .next t ∧ HeadNow s t q p k ∧ k.status = none ∧ k.image = some image ∧ t.slot n = sl) ∧
        (form → ¬ waits → (∃ r ∈ regions, ¬ PinnedPage u asid r.1) → ends 5 0x08) ∧
        (form → (∀ r ∈ regions, ∀ k < r.2 / 4096, PinnedPage u asid (r.1 + 4096 * k)) →
          (∀ e < 4, (u.home e).used ≤ Config.poolChunks) →
          ∃ t k, exec .slotload s = .next t ∧ HeadNow s t q p k ∧ k.status = some 0 ∧
            t.slot n = ⟨true, leAt b 0x14 4, asid, m, leAt b 0x20 4, regions, []⟩ ∧
            (∀ c g, (t.core c).codeGen = some g → g.1 ≠ n) ∧
            ∀ r ∈ regions, ∀ k < r.2 / 4096, ∃ x ∈ (t.home (homeOf (r.1 + 4096 * k))).tlb,
              x.locked = true ∧ x.covers asid (offOf (r.1 + 4096 * k)) = true))) ∧
    (HeadPkt s q 0x03 p →
      let n := leAt p.body 0x10 1
      let sl := s.slot n
      let bad := sl.valid = false ∨ sl.gen ≠ leAt p.body 0x14 4 ∨ sl.asid ≠ p.desc.asid ∨ s.slotInUse n = true
      (bad → ∃ t k, exec .slotdrop s = .next t ∧ HeadNow s t q p k ∧ k.status = some 5 ∧ k.rej = 0x04 ∧ t.slot n = sl) ∧
      (¬ bad → ∃ t k, exec .slotdrop s = .next t ∧ HeadNow s t q p k ∧ k.status = some 0 ∧ t.slot n = { sl with valid := false } ∧
        (∀ c g, (t.core c).codeGen = some g → g.1 ≠ n) ∧
        ∀ e < 4, ∀ x ∈ (t.home e).tlb, x.locked = true → ∃ y ∈ t.slots, y.2.valid = true ∧ y.2.asid = x.asid ∧
          ∃ r ∈ y.2.regions, homeOf r.1 = e ∧ offOf r.1 < x.lo + x.size ∧ x.lo < offOf r.1 + r.2)) ∧
    (∀ r st, (s.queue q).pkts = p :: r → p.status = some st →
      let look := s.look 0 (s.sys.qtab.toNat + 64 * q + 0x2E) 2
      let full := ((s.queue q).cidx + 65536 - (match look with | .ok l => leAt l 0 2 | _ => 0)) % 65536 = 2 ^ p.desc.log2n
      let there := ∀ j ∈ s.journal, j.q = q → j.seq = p.seq → j.complete = true
      let stays := s.sys.takeover = true ∨ (s.queue q).cstop = true ∨ s.pending (.pkt q) = true
      let st' : Byte := if p.failed = true ∧ st = 0 then 5 else st
      let rej : Byte := if p.failed = true ∧ st = 0 then 0x08 else p.rej
      let e := entryBytes s q p st' rej
      let a := p.desc.cring + 64 * (p.seq % 2 ^ p.desc.log2n)
      let req : Req := cpReq (ringOf q) p.desc.asid (.write e) a
      (¬ there → s.pending (.pkt q) = false → exec .completionWrite s =
        exec .completionWrite (s.setRec q p.seq (fun j => { j with performed := true, complete := true }))) ∧
      (there → stays → exec .completionWrite s = .next s) ∧
      (there → ¬ stays → (look = .wait ∨ ((∃ l, look = .ok l) ∧ full)) → exec .completionWrite s = .next s) ∧
      (∀ y, there → ¬ stays → look = .absent y → ∃ t, exec .completionWrite s = .next t ∧ t.queues = s.queues ∧ t.journal = s.journal) ∧
      (e.length = 64 ∧ leAt e 0 2 = leAt p.body 2 2 ∧ leAt e 2 1 = leAt p.body 0 1 ∧ leAt e 3 1 = st'.toNat ∧
        leAt e 4 1 = (if st' = 5 then rej.toNat else 0) ∧ leAt e 5 1 = p.aflb.toNat ∧ leAt e 6 1 = p.cfl.toNat ∧
        leAt e 7 1 = p.cause.toNat ∧ leAt e 8 4 = p.exitw.toNat % 2 ^ 32 ∧ leAt e 0x0C 2 = q % 2 ^ 16 ∧ leAt e 0x0E 2 = 0 ∧
        leAt e 0x10 8 = s.now ∧ leAt e 0x18 8 = p.usedC % 2 ^ 64 ∧ leAt e 0x20 8 = p.usedB % 2 ^ 64 ∧
        leAt e 0x28 8 = p.usedX % 2 ^ 64 ∧ leAt e 0x30 8 = p.result.toNat ∧ leAt e 0x38 8 = p.dline % 2 ^ 64) ∧
      (∀ h pa o, h < 4 → s.pending (ringOf q) = false → Lies s req none h pa → (∀ i < 64, (s.home h).isRoot (pa i / 4096) = false) →
        (s.home h).put ((List.range 64).map (fun j => (pa j, e.getD j 0))) = (o, true) →
        ∃ u, ringWrite s q p.desc.asid a e = (u, .ok []) ∧ u.home h = o ∧ ∀ d, d ≠ h → u.home d = s.home d) ∧
      (∀ u, there → ¬ stays → (∀ y, look ≠ .absent y) → look ≠ .wait → ¬ full → ringWrite s q p.desc.asid a e = (u, .fail) →
        ∃ t, exec .completionWrite s = .next t ∧ (t.queue q).pkts = p :: r ∧ (t.queue q).cidx = (s.queue q).cidx ∧
          (t.queue q).desc.en = false ∧ (t.queue q).stopped = true ∧ (t.queue q).cstop = true) ∧
      (∀ u, there → ¬ stays → (∀ y, look ≠ .absent y) → look ≠ .wait → ¬ full → ringWrite s q p.desc.asid a e = (u, .ok []) →
        ∃ t, exec .completionWrite s = .next t ∧ (t.queue q).pkts = r ∧ (t.queue q).cidx = ((s.queue q).cidx + 1) % 65536 ∧
          t.journal = s.journal.filter (fun j => !decide (j.q = q ∧ j.seq = p.seq)) ∧ t.cores = s.cores ∧ t.parts = s.parts ∧
          ((leAt p.body 1 1).testBit 1 = true → st' ≠ 0 → (t.queue q).desc.en = false) ∧
          ((leAt p.body 1 1).testBit 0 = true → ∃ l v, t.sys.events = l ++ [v] ∧ v.ty = 1 ∧ v.stop = 0xFF ∧ v.src = 16 ∧
            v.payload = leBytes 2 q ++ leBytes 2 (leAt p.body 2 2)))) ∧
    (∃ t g, exec .queueReset s = .next t ∧ (t.queue q).fetched = [] ∧ (t.queue q).pkts = (s.queue q).pkts ++ g ∧
      g.length = min (((s.queue q).producer + 65536 - (s.queue q).fidx) % 65536) (2 ^ (s.queue q).desc.log2n) ∧
      (t.queue q).fidx = ((s.queue q).fidx + g.length) % 65536 ∧
      ∀ i x, g[i]? = some x → x.status = some 6 ∧ x.seq = ((s.queue q).fidx + i) % 65536)

/-! ### Memory management -/

/-- INVAL removes what its home caches of its range, and forwarding entries there, and completes once the home has acknowledged,
which it does when what it accepted before has been performed; filters of stands with footprints in the range are then formed
anew. RETRY applies side-log entries whose pages are present, and completes; FAIL takes the recorded requests of the range out
and ends their jobs with NOTPRESENT. MIGRATE freezes its range; publishing copies every page, forwards what was held, and from
then on leads the range to the new frames; it completes once the forwarded requests have been performed; a pinned or absent page,
or no free entry, cancels it and moves nothing. BALLOON accepts or skips each leaf. VIEWSET writes its register and completes
once what the old contents transformed has been performed (11_translation.md R311, R315, R317, R318, R319, R320; 13_queues.md R360,
R361, R382, R383). Beside the packet's journal record, which the start and the end of a packet rewrite. The model's choices: a
published migration forwards every access whatever its permission (log entry 41), a forwarding entry that an INVAL overlaps in part
goes whole (log entry 92), and a BALLOON address that is not a leaf's is skipped (log entry 95). -/
def Obligations.PacketsManageMemory : Prop :=
  ∀ (s : State) (q : Nat) (p : Pkt), s.obj = q →
    let b := p.body
    let e := rangeHome b
    let u := startPkt s q p
    (HeadPkt s q 0x09 p →
      (p.started = false → leAt b 0x12 1 = 0 →
        ∃ t k, exec .invalInvalidate s = .next t ∧ HeadNow s t q p k ∧ k.status = none ∧ k.acks = [e] ∧
          (∀ x, x ∈ (t.home e).tlb ↔ x ∈ (u.home e).tlb ∧ ¬ meetsRange b x.asid x.lo (x.lo + x.size)) ∧
          (∀ x, x ∈ (t.home e).walks ↔ x ∈ (u.home e).walks ∧ ¬ meetsRange b x.asid x.lo (x.lo + x.size)) ∧
          (∀ x, x ∈ (t.home e).migs ↔ x ∈ (u.home e).migs ∧ ¬ (x.published = true ∧ meetsRange b x.asid x.lo x.hi)) ∧
          (t.home e).mem = (u.home e).mem ∧ ∀ d, d ≠ e → t.home d = u.home d) ∧
      (∀ h, p.started = true → h ∈ p.acks → Drained s b →
        ∃ t k, exec (.invalAcknowledge h) s = .next t ∧ HeadNow s t q p k ∧ k.acks = p.acks.filter (fun x => decide (x ≠ h)) ∧
          k.status = (if k.acks = [] then some 0 else none) ∧
          (k.acks = [] → ∀ n r, s.runOf n = some r → r.adm.desc.asid = rangeAsid b →
            (∃ f ∈ r.footR ++ r.footW, max (leAt b 0x18 8) (64 * f.lo) < min (leAt b 0x18 8 + leAt b 0x20 8) (64 * f.hi)) →
            ∃ r', t.runOf n = some r' ∧ ∀ f ∈ r.footR ++ r.footW, isDev (64 * f.lo) = true →
              ∀ a d pa pin, (a = 64 * f.lo ∨ a % 4096 = 0) → 64 * f.lo ≤ a → a < 64 * f.hi →
                s.viewAt (rangeAsid b) a = none → s.xlat (rangeAsid b) a false false none = .dev d pa pin →
                ∃ x ∈ r'.filter, x.1 = d ∧ x.2.1 ≤ pa ∧ pa < x.2.2)) ∧
      (∀ h, p.started = true → (h ∉ p.acks ∨ ¬ Drained s b) → exec (.invalAcknowledge h) s = .next s) ∧
      (p.started = false → leAt b 0x12 1 = 1 →
        (∃ t, exec .invalRetry s = .next t ∧ HeadEnds t q p 0) ∧
        (∀ r l n h (pa : Nat → Nat) o k tag j, (u.home e).slog = [r] → (u.home e).held = [] → r.kind = .cells l → l ≠ [] → r.view = none →
          r.asid = rangeAsid b → r.org = .job k tag → (u.core k).job? tag = some j → faultEnd j.ended = false → h < 4 →
          (∀ d < 4, (u.home d).slog.length ≤ 4096) →
          (∀ c ∈ l, let y := (r.addr.toNat + c.1) % 2 ^ 64
            leAt b 0x18 8 ≤ y ∧ y < leAt b 0x18 8 + leAt b 0x20 8 ∧ y / 4096 = n ∧ u.leafHeld (.dev h (pa c.1) false) = false ∧
              (u.home h).isRoot (pa c.1 / 4096) = false ∧ ∃ pin, u.route r.pgid r.asid y r.rw true none = .dev h (pa c.1) pin) →
          (u.home h).put (l.map (fun c => (pa c.1, c.2))) = (o, true) →
          ∃ w j', exec .invalRetry s = .next (endInval w q p) ∧ (w.home e).slog = [] ∧ (w.home h).mem = o.mem ∧
            (w.core k).job? tag = some j' ∧ j'.slog = j.slog - 1 ∧ j'.ended = j.ended)) ∧
      (p.started = false → leAt b 0x12 1 = 2 →
        ∃ t, exec .invalFail s = .next t ∧ HeadEnds t q p 0 ∧
          (∀ x ∈ (t.home e).held ++ (t.home e).slog, hitsRange b x = true → x.org = cpOwn) ∧
          (let other (x : Req) : Prop := ∀ y ∈ (s.home e).held ++ (s.home e).slog, hitsRange b y = true → y.org ≠ x.org
           (∀ x ∈ (s.home e).held, hitsRange b x = false → other x → x ∈ (t.home e).held) ∧
             ∀ x ∈ (s.home e).slog, hitsRange b x = false → other x → x ∈ (t.home e).slog) ∧
          ∀ r ∈ (s.home e).held, ∀ k tag j, hitsRange b r = true → r.replay = false → r.org = .job k tag →
            (s.core k).job? tag = some j → j.ended = none → (r.kind.isRead = false ∨ j.buf = none) →
            ∃ j', (t.core k).job? tag = some j' ∧ j'.ended = some 0x03)) ∧
    (HeadPkt s q 0x0A p →
      let dh := leAt b 0x12 1
      let dp := leAt b 0x28 8
      let n := leAt b 0x20 8 / 4096
      let src := unfreeze s (mmRange b) q
      let l := (s.home e).mighold.filter (fun r => hitsRange b r)
      (p.started = false → ∃ t k, exec .migrate s = .next t ∧ HeadNow s t q p k ∧ k.status = none ∧
        (t.home e).mem = (u.home e).mem ∧ ∀ a r w, inRange s b a → t.xlat (rangeAsid b) a r w none = .frozen e) ∧
      (∀ v (pa : Nat → Nat × Nat), p.started = true → p.acks = [] → Drained s b →
        ((s.home e).migs.filter (fun f => f.published)).length < 256 →
        (∀ k < n, src.xlat (rangeAsid b) (leAt b 0x18 8 + 4096 * k) false false none = .dev (pa k).1 (pa k).2 false) →
        (List.range n).foldl (fun (o : Option State) k => o.bind (fun t => copyPage src (mmRange b) dh dp t k)) (some src) = some v →
        ∃ w t k, exec .migratePublish s = .next t ∧ HeadNow s t q p k ∧
          (Drained w b → k.status = some 0 ∧ t = endInval w q p) ∧
          (¬ Drained w b → k.status = none ∧ k.acks = [dh] ∧ t = w.setPkt q p.seq (fun k => { k with acks := [dh] })) ∧
          (∀ pg a r w', inRange s b a → w.route pg (rangeAsid b) a r w' none = .fwd dh (dp + (a % 2 ^ 48 - rangeLo b))) ∧
          (∀ k < n, ∀ i < 4096, Mem.read (w.home dh).mem (dp + 4096 * k + i) = Mem.read (s.home (pa k).1).mem ((pa k).2 + i)) ∧
          ((∀ r ∈ l, ∀ y ∈ r.targets.filterMap id, leAt b 0x18 8 ≤ y ∧ y < leAt b 0x18 8 + leAt b 0x20 8) →
            (w.home dh).fwded = (s.home dh).fwded ++
              l.map (fun r => ⟨r, r.targets.map (fun y => y.map (fun a => dp + (a % 2 ^ 48 - rangeLo b)))⟩))) ∧
      (p.started = true → p.acks ≠ [] → Drained s b →
        ∃ t k, exec .migratePublish s = .next t ∧ HeadNow s t q p k ∧ k.status = some 0 ∧ t = endInval s q p) ∧
      (p.started = true → p.acks = [] → Drained s b → l = [] →
        (∀ k < n, src.xlat (rangeAsid b) (leAt b 0x18 8 + 4096 * k) false false none ≠ .behind) →
        (256 ≤ ((s.home e).migs.filter (fun f => f.published)).length ∨
          ∃ k < n, ∀ d pa, src.xlat (rangeAsid b) (leAt b 0x18 8 + 4096 * k) false false none ≠ .dev d pa false) →
        ∃ t k, exec .migratePublish s = .next t ∧ HeadNow s t q p k ∧ k.status = some 6 ∧
          t = endPkt (reform src (rangeAsid b) (leAt b 0x18 8) (leAt b 0x18 8 + leAt b 0x20 8)) q p 6 ∧
          (∀ d, (src.home d).mem = (s.home d).mem) ∧ ∀ f ∈ (src.home e).migs, ¬ (f.q = q ∧ f.published = false)) ∧
      (p.started = true → (¬ Drained s b ∨ (p.acks = [] ∧
          ∃ k < n, src.xlat (rangeAsid b) (leAt b 0x18 8 + 4096 * k) false false none = .behind)) →
        exec .migratePublish s = .next s)) ∧
    (∀ l (donates : Bool), HeadPkt s q 0x0B p → p.failed = false → leAt b 0x11 1 = (if donates then 0 else 1) →
      let n := leAt b 0x14 4
      let d := leAt b 0x10 1
      Reads u (.pkt q) p.desc.asid (leAt b 0x18 8) (8 * n) l →
      ∃ w t k skipped, exec (if donates then .balloonDonate else .balloonWithdraw) s = .next t ∧ HeadNow s t q p k ∧
        k.status = some 0 ∧ k.result = BitVec.ofNat 64 (skipped * 2 ^ 32 + (n - skipped)) ∧
        Ballooned donates (u.home d) ((List.range n).map (fun i => leAt l (8 * i) 8)) skipped (w.home d) ∧
        (∀ x, x ≠ d → w.home x = u.home x) ∧ t.homes = (endPkt w q p 0).homes) ∧
    (HeadPkt s q 0x0D p →
      let h := leAt b 0x10 1
      let i := leAt b 0x11 1
      (p.started = false → ∃ t k, exec .viewset s = .next t ∧ HeadNow s t q p k ∧ k.status = none ∧
        k.old = some (SMap.get (s.home h).views View.off i) ∧ viewFields b (SMap.get (t.home h).views View.off i) ∧
        ∀ j, j ≠ i → SMap.get (t.home h).views View.off j = SMap.get (s.home h).views View.off j) ∧
      (∀ v, p.started = true → p.old = some v →
        let left := v.valid = true ∧ ∃ d < 4, (∃ x ∈ (s.home d).exph, ∃ r, x.req = some r ∧ r.view = some v) ∨
          ∃ f ∈ (s.home d).fwded, f.req.view = some v
        (¬ left → ∃ t k, exec .viewsetDrainComplete s = .next t ∧ HeadNow s t q p k ∧ k.status = some 0) ∧
        (left → exec .viewsetDrainComplete s = .next s)))

/-- A forwarded request is performed at its presented addresses, not translated again, in arrival order. Held writes are
applied oldest first when their chunks are free, and the retries that waited for them follow; a job's write that has waited
HOLDLIM goes with every later write of its job, which ends OUT_OF_SPACE. In the recovery state, where main memory is not trained,
they wait. The Clearing engine takes leaves from the head of the balloon list below LOWW. The host's
answers and invalidations change the translations it gave. Host writes and reads go through a trained port: a line that a
running stand's filter holds waits at the ingress, every write waits at the port while its lines are used up, and a read sees
the newest held write; only the command processor writes a root table (05_local_memory.md R164, R165; 11_translation.md R301, R308,
R311, R319, R320, R324, R325; 14_system.md R389, R401, R405). The Clearing engine works in one turn (log entry 27), host memory is
what HOST_WRITE and HOST_READ reach (log entry 32), the jobs of a page that the host fails end with NOTPRESENT (log entry 40), each
held write takes one ingress line (log entry 74), and a write of another to a root table has no effect (log entry 86): the model's
choices. -/
def Obligations.HomesHoldAndServeTheHost : Prop :=
  ∀ (s : State),
    let h := s.home s.obj
    (s.sys.state = 2 → exec .expansionHoldRelease s = .next s ∧
      ∀ i, exec (.forwardedRequest i) s = .next s ∧ exec (.expansionHoldTimeout i) s = .next s) ∧
    ((∀ e < 4, ∀ x ∈ (s.home e).slog ++ (s.home e).held, x.due = false) → retryDue s = s) ∧
    (∀ f r k tag j (pa : Nat → Nat), s.sys.state ≠ 2 → s.obj < 4 → h.fwded = f :: r → f.req.org = .job k tag → f.req.replay = false →
      (s.core k).job? tag = some j → f.req.view = none → (∀ l, f.req.kind ≠ .cells l) → 0 < f.req.kind.len →
      (∀ d < 4, (s.home d).slog.length ≤ 4096) →
      f.pas = (List.range f.req.kind.len).map (fun i => some (pa i)) →
      (∀ i < f.req.kind.len, s.leafHeld (.dev s.obj (pa i) false) = false) →
      let old := (List.range f.req.kind.len).map (fun i => Mem.read h.mem (pa i))
      let good := ∀ i < f.req.kind.len, h.bad.contains (pa i) = false
      (good → f.req.kind.isRead = true →
        ∃ t j', exec (.forwardedRequest 0) s = .next (retryDue t) ∧ (t.home s.obj).fwded = r ∧ (t.core k).job? tag = some j' ∧
          j'.buf = some (j.buf.getD [] ++ old) ∧ j'.asked = false) ∧
      (∀ l o, good → f.req.kind.isRead = false → newBytes f.req old = some l → l.length = f.req.kind.len →
        (∀ i < f.req.kind.len, h.isRoot (pa i / 4096) = false) →
        h.put ((List.range l.length).map (fun i => (pa i, l.getD i 0))) = (o, true) →
        ∃ t j', exec (.forwardedRequest 0) s = .next (retryDue t) ∧ t.home s.obj = { o with fwded := r } ∧
          (t.core k).job? tag = some j' ∧ j'.asked = false) ∧
      (∀ w op x, f.req.kind = .atomic w op x → ¬ good →
        ∃ t j' v l, exec (.forwardedRequest 0) s = .next (retryDue t) ∧ t.home s.obj = { h with fwded := r } ∧ (t.core k).job? tag = some j' ∧
          j'.asked = false ∧ j'.ended = some 0x02 ∧ t.sys.events = s.sys.events ++ v :: l ∧ v.ty = 9)) ∧
    (∀ i, exec (.forwardedRequest (i + 1)) s = .next s) ∧
    (h.exph = [] → exec .expansionHoldRelease s = .next s) ∧
    (∀ e r o, s.sys.state ≠ 2 → h.exph = e :: r →
      (({ h with exph := r } : Home).put e.cells = (o, true) →
        ∃ w, exec .expansionHoldRelease s = .next (retryDue (sweepIngress w s.obj)) ∧ w.home s.obj = o ∧ (∀ d, d ≠ s.obj → w.home d = s.home d) ∧
          ((∀ x ∈ o.ingress, x.parts ≠ []) → (sweepIngress w s.obj).home s.obj = o) ∧
          ∀ x k tag j, e.req = some x → x.org = .job k tag → x.replay = false → (s.core k).job? tag = some j →
            ∃ j', (w.core k).job? tag = some j' ∧ j'.asked = false) ∧
      (({ h with exph := r } : Home).put e.cells = (o, false) →
        exec .expansionHoldRelease s = .next (s.setHome s.obj { o with exph := h.exph }))) ∧
    (∀ i e k tag r, s.sys.state ≠ 2 → h.exph[i]? = some e → e.req = some r → (r.org = .job k tag ∨ r.org = .coll k tag) →
      let lim := 1000 * max 1 h.holdlim
      (s.nowAt s.obj < e.since + lim → exec (.expansionHoldTimeout i) s = .next s) ∧
      (e.since + lim ≤ s.nowAt s.obj →
        ∃ w, exec (.expansionHoldTimeout i) s = .next (retryDue (sweepIngress w s.obj)) ∧
          (let stay := (h.exph.zipIdx.filter (fun x => !decide (i ≤ x.2 ∧ x.1.job = some (k, tag)))).map (·.1)
           (w.home s.obj).exph.Sublist stay ∧
             ((∀ x ∈ h.exph, ∀ y, x.req = some y → y.replay = false) → (w.home s.obj).exph = stay)) ∧
          (w.home s.obj).mem = h.mem ∧
          ∀ j, r.replay = false → (s.core k).job? tag = some j → j.ended = none →
            ∃ j', (w.core k).job? tag = some j' ∧ j'.ended = some 0x04)) ∧
    ((h.loww ≤ h.free → exec .balloonInflate s = .next s) ∧
      (h.free < h.loww → h.balloon.Nodup →
        ∃ t n, exec .balloonInflate s = .next t ∧ (t.home s.obj).balloon = h.balloon.drop n ∧
          ((t.home s.obj).balloon = [] ∨ max h.highw (h.loww + 1) ≤ (t.home s.obj).free) ∧
          ∀ a, Mem.read (t.home s.obj).mem a = if a / 4096 ∈ h.balloon.take n then 0 else Mem.read h.mem a)) ∧
    (∀ pasid page hpa rd wr, (pasid, page) ∈ s.sys.pageReqs →
      (∃ t, exec (.atsPageResponse pasid page true hpa rd wr) s = .next t ∧
        (⟨pasid, page, hpa / 4096 * 4096, rd, wr⟩ : Ats) ∈ t.sys.ats ∧
        t.sys.pageReqs = s.sys.pageReqs.filter (fun x => decide (x ≠ (pasid, page)))) ∧
      (∃ t, exec (.atsPageResponse pasid page false hpa rd wr) s = .next t ∧ t.sys.ats = s.sys.ats ∧
        t.sys.pageReqs = s.sys.pageReqs.filter (fun x => decide (x ≠ (pasid, page))) ∧
        ∀ d r k tag j, (d = 0 ∨ d = 2) → r ∈ (s.home d).held → SMap.get s.pasids 0 r.asid = pasid + 1 →
          r.touches r.asid (4096 * page) (4096 * page + 4096) = true → r.replay = false → r.org = .job k tag →
          (s.core k).job? tag = some j → j.ended = none → (r.kind.isRead = false ∨ j.buf = none) →
          ∃ j', (t.core k).job? tag = some j' ∧ j'.ended = some 0x03)) ∧
    (∀ pasid lo len, ∃ t, exec (.atsInvalidation pasid lo len) s = .next t ∧
      ∀ x, x ∈ t.sys.ats ↔ x ∈ s.sys.ats ∧ ¬ (x.pasid = pasid ∧ 4096 * x.page < lo + len ∧ lo < 4096 * x.page + 4096)) ∧
    (∀ port hpa data, data ≠ [] →
      (s.window hpa = none → ∃ t, exec (.hostWrite port hpa data) s = .next t ∧
        (∀ a, Mem.read t.hostMem a = if hpa ≤ a ∧ a < hpa + data.length then data.getD (a - hpa) 0 else Mem.read s.hostMem a) ∧
        t.homes = s.homes) ∧
      (∀ h pa, s.window hpa = some (h, pa) →
        (s.portUp port = false → exec (.hostWrite port hpa data) s = .next s) ∧
        (s.portUp port = true → (s.sys.state ≠ 1 ∨ (s.home h).commit < pa + data.length) →
          ∃ t, exec (.hostWrite port hpa data) s = .next t ∧ t.homes = s.homes ∧ t.hostMem = s.hostMem ∧
            t.sys.events.length = s.sys.events.length + 1) ∧
        (s.portUp port = true → s.sys.state = 1 → pa + data.length ≤ (s.home h).commit → pa + data.length ≤ 2 ^ 44 →
          (pa % 64 + data.length ≤ 64 →
            let cells := (List.range data.length).map (fun i => (pa + i, data.getD i 0))
            let kept := s.holders h (pa / 64) ≠ [] ∨ ∃ x ∈ (s.home h).ingress, x.pa / 64 = pa / 64
            let root := (s.home h).isRoot (pa / 4096) = true
            (4096 ≤ s.ingressUsed port → exec (.hostWrite port hpa data) s = .next s) ∧
            (s.ingressUsed port < 4096 → ¬ kept → root → exec (.hostWrite port hpa data) s = .next s) ∧
            (s.ingressUsed port < 4096 → kept →
              ∃ t, exec (.hostWrite port hpa data) s = .next t ∧ (t.home h).mem = (s.home h).mem ∧
                (t.home h).ingress = (s.home h).ingress ++ [⟨s.holders h (pa / 64), port, pa, data⟩]) ∧
            (∀ o ok, s.ingressUsed port < 4096 → ¬ kept → ¬ root → s.leafHeld (.dev h pa false) = false → (s.home h).put cells = (o, ok) →
              (ok = true → ∃ t, exec (.hostWrite port hpa data) s = .next t ∧ t.home h = o ∧ t.hostMem = s.hostMem) ∧
              (ok = false → (s.home h).exph.length < 256 → ∃ t, exec (.hostWrite port hpa data) s = .next t ∧
                (t.home h).exph = (s.home h).exph ++ [⟨none, cells, data.length, 0, 0, s.nowAt h⟩] ∧ t.hostMem = s.hostMem))) ∧
          (64 < pa % 64 + data.length → ∀ u t,
            let k := 64 - pa % 64
            exec (.hostWrite port hpa (data.take k)) s = .next u → exec (.hostWrite port (hpa + k) (data.drop k)) u = .next t →
            u ≠ s → t ≠ u → exec (.hostWrite port hpa data) s = .next t)))) ∧
    (∀ port hpa len,
      (s.window hpa = none → exec (.hostRead port hpa len) s =
        .next { s with sys := { s.sys with lastRead := Mem.readN s.hostMem hpa len, lastPoison := false } }) ∧
      (∀ h pa, s.window hpa = some (h, pa) →
        (s.portUp port = false → exec (.hostRead port hpa len) s = .next s) ∧
        (s.portUp port = true → (s.sys.state ≠ 1 ∨ (s.home h).commit < pa + len) →
          ∃ t, exec (.hostRead port hpa len) s = .next t ∧ t.sys.lastPoison = true ∧ t.homes = s.homes ∧
            t.sys.events.length = s.sys.events.length + 1) ∧
        (s.portUp port = true → s.sys.state = 1 → pa + len ≤ (s.home h).commit →
          let newer (i : Nat) (x : Ingress) : Prop := x.pa ≤ pa + i ∧ pa + i < x.pa + x.data.length
          let bad (i : Nat) : Prop := (s.home h).bad.contains (pa + i) = true ∧ ∀ x ∈ (s.home h).ingress, ¬ newer i x
          ((∃ i < len, s.leafHeld (.dev h (pa + i) false) = true) → exec (.hostRead port hpa len) s = .next s) ∧
          ((∀ i < len, s.leafHeld (.dev h (pa + i) false) = false) →
            ((∀ i < len, ¬ bad i) → ∃ l, exec (.hostRead port hpa len) s =
                .next { s with sys := { s.sys with lastRead := l, lastPoison := false } } ∧ l.length = len ∧
              ∀ i < len, ((∀ x ∈ (s.home h).ingress, ¬ newer i x) → l.getD i 0 = Mem.read (s.home h).mem (pa + i)) ∧
                ∀ c x d, (s.home h).ingress = c ++ x :: d → newer i x → (∀ y ∈ d, ¬ newer i y) →
                  l.getD i 0 = x.data.getD (pa + i - x.pa) 0) ∧
            ((∃ i < len, bad i) →
              ∃ t, exec (.hostRead port hpa len) s = .next t ∧ t.sys.lastPoison = true ∧ t.sys.lastRead = [] ∧
                t.homes = s.homes)))))

/-! ### The module in its system -/

/-- Host writes to BAR 0. Only an aligned access of 8 bytes to a reachable page acts, any other reads all ones. PTAB, QTAB and
EVBASE are taken only while no partition is valid, PLIM only from 400 to 1,600; COMMIT takes a permitted size, its reserved bits
ignored, and FREEC, BALN, HOLDN, SLOGN and ARTB take nothing; SCMD resumes, kills or replays; a wake page writes the queue's wake
word. DTCSET loads every copy of DTC while no stand runs, and a power window starts. The last NONCE word reserves a one-time key
and starts a signature over NONCE, the measurements and IDX; none is left after 2^20, and ATSTAT then reads 3
(00_scope.md R2; 10_phase_sync.md R292; 11_translation.md R323; 14_system.md R390 to R395, R399, R403). That LIM 0 stands for
16 TiB (log entry 34), what the signed message is (log entry 13), that ATSTAT 3 also replaces 2 (log entry 80) and what DTCSET
does to the power window under way (log entry 97) are the model's readings. -/
def Obligations.HostRegisters : Prop :=
  ∀ (s : State) (off : Nat) (v : Word),
    let b (o : Nat) := exec (.bar0RegisterWrite ⟨o, 8⟩ v) s
    (∀ size, (size ≠ 8 ∨ off % 8 ≠ 0 ∨ (s.sys.state = 2 ∧ (off < 0x6000 ∨ (0xF000 ≤ off ∧ off < 0x10000) ∨ 0x20000 ≤ off))) →
      exec (.bar0RegisterWrite ⟨off, size⟩ v) s = .next s ∧ s.bar0Read off size = BitVec.allOnes 64) ∧
    (off < 0x1000 → b off = .next s) ∧
    (s.sys.state ≠ 2 →
      (s.anyPart = false → b 0x1000 = .next { s with sys := { s.sys with ptab := v } } ∧
        b 0x1008 = .next { s with sys := { s.sys with qtab := v } } ∧
        b 0x1018 = .next { s with sys := { s.sys with evbase := v } }) ∧
      (s.anyPart = true → b 0x1000 = .next s ∧ b 0x1008 = .next s ∧ b 0x1018 = .next s) ∧
      b 0x1010 = .next s ∧ b 0x1020 = .next s ∧
      b 0x1028 = .next { s with sys := { s.sys with evcons := v.setWidth 32 } } ∧
      b 0x1030 = .next (if 400 ≤ v.toNat ∧ v.toNat ≤ 1600 then { s with sys := { s.sys with plim := v } } else s) ∧
      b 0x1038 = exec (.dtcsetWrite v) s ∧
      (∀ e < 4,
        let r (n : Nat) := 0x2000 + 0x1000 * e + 8 * n
        let lim := v.toNat % 2 ^ 44
        (lim % 2 ^ 30 = 0 → 2 ^ 39 ≤ lim → b (r 0) = .next (s.setHome e { s.home e with commit := lim })) ∧
        (lim = 0 → b (r 0) = .next (s.setHome e { s.home e with commit := 2 ^ 44 })) ∧
        (lim ≠ 0 → (lim % 2 ^ 30 ≠ 0 ∨ lim < 2 ^ 39) → ∃ t, b (r 0) = .next t ∧ ∀ d, t.home d = s.home d) ∧
        b (r 2) = .next (s.setHome e { s.home e with loww := v.toNat % 2 ^ 32 }) ∧
        b (r 3) = .next (s.setHome e { s.home e with highw := v.toNat % 2 ^ 32 }) ∧
        b (r 6) = .next (s.setHome e { s.home e with holdlim := v.toNat % 2 ^ 32 }) ∧
        (∀ n ∈ [1, 4, 5, 7, 8], ∃ t, b (r n) = .next t ∧ ∀ d, t.home d = s.home d) ∧
        s.bar0Read (r 0) 8 = BitVec.ofNat 64 ((s.home e).commit % 2 ^ 44) ∧ s.bar0Read (r 1) 8 = BitVec.ofNat 64 (s.home e).free ∧
        s.bar0Read (r 4) 8 = BitVec.ofNat 64 (s.home e).balloon.length ∧
        s.bar0Read (r 5) 8 = BitVec.ofNat 64 (s.home e).exph.length ∧
        s.bar0Read (r 7) 8 = BitVec.ofNat 64 (s.home e).slog.length ∧ s.bar0Read (r 8) 8 = BitVec.ofNat 64 (s.home e).artb) ∧
      (∀ p < 64,
        (p = s.obj →
          (v = 1 → b (0x40008 + 0x1000 * p) = exec .standResume s) ∧ (v = 2 → b (0x40008 + 0x1000 * p) = exec .standKill s) ∧
          (v = 3 → b (0x40008 + 0x1000 * p) = exec .standReplay s)) ∧
        ∀ i < 8, b (0x40010 + 0x1000 * p + 8 * i) =
          .next (s.setPart p { s.part p with skipm := SMap.set (s.part p).skipm 0 i v })) ∧
      (s.obj < 4096 → b (0x1000000 + 0x1000 * s.obj) = exec (.wakePageWrite v) s) ∧
      (∀ q < 4096, s.bar0Read (0x1000000 + 0x1000 * q) 8 = BitVec.ofNat 64 ((s.queue q).fidx + 65536 * (s.queue q).cidx)) ∧
      (∀ h pa o, Current s s.obj → h < 4 →
        let d := if (s.queue s.obj).desc.en then (s.queue s.obj).desc else s.qdesc s.obj
        let r : Req := cpReq (ringOf s.obj) d.asid (.write (leBytes 8 v.toNat)) d.wake
        Lies s r none h pa → (∀ i < 8, (s.home h).isRoot (pa i / 4096) = false) →
        (s.home h).put ((List.range 8).map (fun i => (pa i, (leBytes 8 v.toNat).getD i 0))) = (o, true) →
        ∃ t, exec (.wakePageWrite v) s = .next t ∧ t.home h = o ∧ (∀ e, e ≠ h → t.home e = s.home e) ∧ t.cores = s.cores)) ∧
    (∀ i < 0x2000, ∃ t, b (0x10000 + 8 * i) = .next t ∧ Mem.readN t.sys.window (8 * i) 8 = leBytes 8 v.toNat ∧
      t = { s with sys := { s.sys with window := t.sys.window } }) ∧
    (s.sys.state ≠ 2 →
      ((∀ p ∈ s.parts, p.2.run = none) →
        ∃ t, exec (.dtcsetWrite v) s = .next t ∧ (∀ e < 4, t.nowAt e = v.toNat) ∧ t.sys.locked = false ∧
          t.sys.dtskew = BitVec.allOnes 64 ∧ t.sys.window0 = v.toNat ∧ ∀ d < 64, (t.die d).clock.dtc = v) ∧
      ((∃ p ∈ s.parts, p.2.run ≠ none) → exec (.dtcsetWrite v) s = .next s)) ∧
    (s.sys.state = 2 → exec (.dtcsetWrite v) s = .next s ∧ exec (.wakePageWrite v) s = .next s) ∧
    (s.sys.atstat = 1 → exec (.nonceWrite off v) s = .next s) ∧
    (s.sys.atstat ≠ 1 →
      (∀ o ∈ [0x200, 0x208, 0x210], ∃ t, exec (.nonceWrite o v) s = .next t ∧
        Mem.readN t.sys.nonce (o - 0x200) 8 = leBytes 8 v.toNat ∧ t.sys.atstat = s.sys.atstat ∧ t.sys.otk = s.sys.otk) ∧
      (s.sys.otk < 2 ^ 20 → ∃ t, exec (.nonceWrite 0x218 v) s = .next t ∧ Mem.readN t.sys.nonce 0x18 8 = leBytes 8 v.toNat ∧
        t.sys.atstat = 1 ∧ t.sys.otk = s.sys.otk + 1) ∧
      (2 ^ 20 ≤ s.sys.otk → s.bar0Read 0x7180 8 = 3 ∧
        ∃ t, exec (.nonceWrite 0x218 v) s = .next t ∧ t.sys.atstat = 3 ∧ t.sys.otk = s.sys.otk) ∧
      exec .signatureReady s = .next s) ∧
    (s.sys.atstat = 1 → exec .signatureReady s = .next { s with sys := { s.sys with
      sig := Config.signature (Mem.readN s.sys.nonce 0 32 ++ s.sys.meas ++ leBytes 8 (s.sys.otk - 1)),
      idx := BitVec.ofNat 64 (s.sys.otk - 1), atstat := 2 } })

/-- The recovery mailbox erases and programs flash but never the slot that runs, raises MINVER and never lowers it, and
resets; MSTAT then tells success or failure. At boot a valid configuration block and the valid firmware slot of higher
version start the device, A at a tie, and its ports and links train; otherwise it is in the recovery state with every core
parked. A warm reset keeps main memory, but for journal records and the last lines of jobs that ran, and the registers of the host;
a running LAUNCH runs again on a REPLAYABLE queue and is INTERRUPTED on another (13_queues.md R361, R386; 14_system.md R388, R398,
R400 to R402). The sizes of the flash regions, the erased byte, what signatures verify and the width that a port's partner offers are
the model's free values (log entries 13, 33 and 81); that every pod link trains, with an event each, what a warm reset keeps beyond
R386, and that the command processor's own writes stay under way, are its readings (log entries 50, 35 and 83). -/
def Obligations.BootAndRecovery : Prop :=
  ∀ (s : State),
    (∀ c n, s.sys.mstat = 1 → s.sys.running = none → s.sys.cmd = c → s.sys.arg.toNat = n →
      let guarded := s.sys.state = 1 ∧ n = s.sys.fwB.toNat
      (c = 1 → ¬ guarded → n < 3 → ∃ t, exec .mailboxErase s = .next t ∧ t.sys.running = some ⟨true⟩ ∧ t.sys.erased = some n ∧
        region t.sys n = List.replicate (Config.regionSize n) Config.erasedByte ∧
        ∀ m < 3, m ≠ n → region t.sys m = region s.sys m) ∧
      (c = 1 → (guarded ∨ 3 ≤ n) → exec .mailboxErase s = .next { s with sys := { s.sys with running := some ⟨false⟩ } }) ∧
      (∀ m, c = 2 → s.sys.erased = some m → m < 3 → ¬ (s.sys.state = 1 ∧ m = s.sys.fwB.toNat) →
        n + 0x10000 ≤ (region s.sys m).length →
        ∃ t, exec .mailboxProgram s = .next t ∧ t.sys.running = some ⟨true⟩ ∧
          region t.sys m = (region s.sys m).take n ++ Mem.readN s.sys.window 0 0x10000 ++ (region s.sys m).drop (n + 0x10000) ∧
          ∀ k < 3, k ≠ m → region t.sys k = region s.sys k) ∧
      (c = 2 → (s.sys.erased = none ∨ ∃ m, s.sys.erased = some m ∧ s.sys.state = 1 ∧ m = s.sys.fwB.toNat) →
        exec .mailboxProgram s = .next { s with sys := { s.sys with running := some ⟨false⟩ } }) ∧
      (c = 3 → s.sys.state = 1 → ∃ t, exec .mailboxCommitver s = .next t ∧ t.sys.running = some ⟨true⟩ ∧
        t.sys.minver.toNat = max s.sys.minver.toNat s.sys.fwver.toNat) ∧
      (c = 3 → s.sys.state ≠ 1 →
        exec .mailboxCommitver s = .next { s with sys := { s.sys with running := some ⟨false⟩ } }) ∧
      (c = 4 → exec .mailboxReset s = exec .warmReset s) ∧
      ((c.toNat = 0 ∨ 4 < c.toNat) → exec .mailboxCommandDone s = .next { s with sys := { s.sys with mstat := 2 } })) ∧
    (∀ ok, s.sys.mstat = 1 → s.sys.running = some ⟨ok⟩ →
      exec .mailboxCommandDone s = .next { s with sys := { s.sys with mstat := if ok then 0 else 2, running := none } }) ∧
    (s.sys.state ≠ 0 → exec .powerOnBoot s = .next s) ∧
    (s.sys.state = 0 →
      (∀ b, Config.configAuthentic s.sys.flashC = true → bootsFrom s b →
        ∃ t, exec .powerOnBoot s = .next t ∧ t.sys.state = 1 ∧ t.sys.fwB = b ∧ t.sys.dev = Config.configDev s.sys.flashC ∧
          t.sys.fwver = Config.firmwareVersion (if b then s.sys.flashB else s.sys.flashA) ∧
          t.sys.meas = shake256 s.sys.flashC 64 ++ shake256 s.sys.flashA 64 ++ shake256 s.sys.flashB 64 ∧
          (∀ n < 512, ∀ i < 9, (t.core n).slmap.getLsbD i = (Config.configPresent s.sys.flashC n).getLsbD i) ∧ t.homes = s.homes ∧
          (∀ l < 16, SMap.get t.sys.links false l = true) ∧
          t.sys.events.length = s.sys.events.length + (List.range 16).countP (fun l => !SMap.get s.sys.links false l) ∧
          (s.sys.port0 = 0 → Config.partnerWidth false ∈ [4, 8, 16] → t.sys.port0 = Config.partnerWidth false) ∧
          (s.sys.port2 = 0 → Config.partnerWidth true ∈ [4, 8, 16] → t.sys.port2 = Config.partnerWidth true)) ∧
      ((Config.configAuthentic s.sys.flashC = false ∨ (¬ slotRuns s s.sys.flashA ∧ ¬ slotRuns s s.sys.flashB)) →
        ∃ t, exec .powerOnBoot s = .next t ∧ t.sys.state = 2 ∧ (∀ f ∈ t.air, f ∈ s.air ∧ ∃ r, f.load = .req r ∧ r.org = cpOwn) ∧ t.stops = [] ∧
          (∀ n, (t.core n).seq = .idle) ∧ ∀ p, t.runOf p = none)) ∧
    (∃ t, exec .warmReset s = .next t ∧ t.sys.state ≠ 0 ∧ (∀ n, (t.core n).seq = .idle) ∧ (∀ p < 64, t.runOf p = none) ∧
      t.hostMem = s.hostMem ∧ t.sys.minver = s.sys.minver ∧ t.sys.otk = s.sys.otk ∧ t.sys.ptab = s.sys.ptab ∧
      t.sys.qtab = s.sys.qtab ∧ t.sys.flashA = s.sys.flashA ∧ t.sys.flashB = s.sys.flashB ∧ t.sys.flashC = s.sys.flashC ∧
      t.journal.length = s.journal.length ∧ t.slots = s.slots ∧
      (∀ e, (t.home e).commit = (s.home e).commit ∧ (t.home e).artb = (s.home e).artb ∧ (t.home e).views = (s.home e).views) ∧
      ((∀ x ∈ s.parts, x.2.run = none) → isDev s.sys.jrnl.toNat = false → ∀ e, (t.home e).mem = (s.home e).mem) ∧
      ∀ p < 64, ∀ r, s.runOf p = some r →
        (r.adm.desc.replayable = true → r.adm.again ∈ (t.part p).adms) ∧
        (∀ k, r.adm.desc.replayable = false → s.pkt? r.adm.q r.adm.seq = some k → leAt k.body 0 1 = 1 →
          ∃ k', t.pkt? r.adm.q r.adm.seq = some k' ∧ k'.status = some 4))

/-- The event arbiter writes the event that has come first, in one fabric cycle by stop and source, as a 32-byte record, advances
EVPROD and sends MSI-X at most once per µs; while the ring is full it takes none, and none of a trap or a fault during a take-over; a trap event makes
its stand park. Power windows grant every die, with one throttle event for a window in which a die was throttled. Beacons
and the servo steer the clocks. A failed bole core hands over to its twin, or the device is in the recovery state; a
failed twig core's queues move on and fetch again. A pod link that fails hands what waits at it to another link of its edge die
that reaches the same switch; a job without one ends with LINKDOWN. Ports train, scrubbing counts what it corrects (01_machine.md
R31; 10_phase_sync.md R292, R293; 12_traps.md R326; 13_queues.md R349, R385; 14_system.md R388, R396, R398, R399, R404, R405). Where
a payload holds its fields and when an event reaches the arbiter (log entry 18), when the servo counts as locked (log entry 17), that
the arbiter takes an event in a later fabric cycle (log entry 84), and which edge die and link a core's traffic takes, with LINKDOWN
for its requests (log entries 50 and 64), are the model's choices. -/
def Obligations.TheModuleRuns : Prop :=
  ∀ (s : State),
    (∀ e, s.sys.events[s.obj]? = some e →
      let size := 2 ^ (s.sys.evbase.toNat % 32)
      let a := s.sys.evbase.toNat / 4096 * 4096 + 32 * (s.sys.evprod.toNat % size)
      let soon := s.sys.msixSent = 0 ∨ s.sys.msixLast + 2000 ≤ s.fabric
      let full := (s.sys.evprod - s.sys.evcons).toNat = size
      ((full ∨ ¬ EventTurn s s.obj e ∨ hostPut s a (e.record s.now) = none) → exec .eventArbitrate s = .next s) ∧
      (∀ u, ¬ full → EventTurn s s.obj e → hostPut s a (e.record s.now) = some u →
        ∃ t, exec .eventArbitrate s = .next t ∧ t.sys.events = dropAt u.sys.events s.obj ∧ t.homes = u.homes ∧ t.hostMem = u.hostMem ∧
          t.sys.evprod = s.sys.evprod + 1 ∧
          (s.window a = none → u.homes = s.homes ∧ u.sys = s.sys ∧
            Mem.le t.hostMem a 1 = e.ty % 256 ∧ Mem.le t.hostMem (a + 1) 1 = e.stop % 256 ∧ Mem.le t.hostMem (a + 8) 8 = s.now ∧
            (∀ i < 16, Mem.read t.hostMem (a + 16 + i) = e.payload.getD i 0) ∧
            (∀ x, (x < a ∨ a + 32 ≤ x) → Mem.read t.hostMem x = Mem.read s.hostMem x)) ∧
          (soon → t.sys.msixSent = s.sys.msixSent + 1 ∧ t.sys.msixWait = false) ∧
          (¬ soon → t.sys.msixSent = s.sys.msixSent ∧ t.sys.msixWait = true) ∧
          (e.ty ≠ 2 → t.parts = s.parts) ∧
          (∀ p n c r, e.ty = 2 → e.payload = leBytes 2 p ++ leBytes 2 n ++ [c] → p < 64 → n < 65536 → s.runOf p = some r →
            n % 512 ∈ r.cores → (s.core (n % 512)).seq = .parked → r.st = .running →
            t.runOf p = some { r with st := .parking, first := some (r.first.getD c) }))) ∧
    ((s.sys.msixWait = false ∨ (s.sys.msixSent ≠ 0 ∧ s.fabric < s.sys.msixLast + 2000)) → exec .msixCoalesceExpiry s = .next s) ∧
    (s.sys.msixWait = true → (s.sys.msixSent = 0 ∨ s.sys.msixLast + 2000 ≤ s.fabric) →
      ∃ t, exec .msixCoalesceExpiry s = .next t ∧ t.sys.msixWait = false ∧ t.sys.msixSent = s.sys.msixSent + 1 ∧
        t.sys.msixLast = s.fabric) ∧
    (∀ gs, ((s.now < s.sys.window0 + 10000 ∨ gs.length ≠ 64) → exec (.powerWindow gs) s = .next s) ∧
      (s.sys.window0 + 10000 ≤ s.now → gs.length = 64 → (∀ g ∈ gs, 1 ≤ g ∧ g ≤ 16) →
        ∃ t, exec (.powerWindow gs) s = .next t ∧ t.sys.window0 = s.sys.window0 + 10000 ∧
          (∀ d g, gs[d]? = some g → (t.die d).grant = g ∧ (t.die d).clock = (s.die d).clock) ∧
          ((∀ d < 64, 16 ≤ (s.die d).grant) → t.sys.events = s.sys.events) ∧
          ((∃ d < 64, (s.die d).grant < 16) → ∃ e, t.sys.events = s.sys.events ++ [e] ∧ e.ty = 5 ∧
            leAt e.payload 0 7 = s.sys.window0 % 2 ^ 56 ∧ (∀ d < 64, leAt e.payload 7 1 ≤ (s.die d).grant) ∧
            ∀ d < 64, (leAt e.payload 8 8).testBit d = decide ((s.die d).grant < 16)))) ∧
    (∃ t, exec .girdleBeacon s = .next t ∧ t.sys = { s.sys with edges := t.sys.edges } ∧
      (∀ e, 1 ≤ e → e < 4 → let k := SMap.get t.sys.edges Clock.start e
        k.dtc = (SMap.get s.sys.edges Clock.start e).dtc ∧ k.corr = (s.sys.clock.dtc - k.dtc).toInt ∧ k.credit = 0) ∧
      ∀ d < 64, (t.die d).clock.corr = (s.sys.clock.dtc - (s.die d).clock.dtc).toInt ∧
        (t.die d).clock.dtc = (s.die d).clock.dtc ∧ (t.die d).clock.credit = 0 ∧ (t.die d).grant = (s.die d).grant) ∧
    (∀ off bound, ((∀ l < 16, SMap.get s.sys.links false l = false) → exec (.ptpSync off bound) s = .next s) ∧
      ((∃ l < 16, SMap.get s.sys.links false l = true) →
        ∃ t, exec (.ptpSync off bound) s = .next t ∧ t.sys.clock = ⟨s.sys.clock.dtc, off, 0⟩ ∧
          t.sys.syncs = (if off.natAbs < 1000 then min 16 (s.sys.syncs + 1) else 0) ∧
          (t.sys.locked = true ↔ t.sys.syncs = 16) ∧ (t.sys.syncs ≠ 16 → t.sys.dtskew = BitVec.allOnes 64))) ∧
    (∀ i, (i = .heartbeatMiss ∨ i = .boleCoreError) →
      let twin := if s.sys.activeB then s.sys.bole0 else s.sys.bole1
      (twin = true → ∃ t, exec i s = .next t ∧ t.sys.takeover = true ∧ t.sys.activeB = !s.sys.activeB ∧
        t.sys.events = s.sys.events ++ [⟨6, 0xFF, 16, s.fabric, []⟩] ∧ t.cores = s.cores ∧ t.parts = s.parts ∧ t.queues = s.queues) ∧
      (twin = false → ∃ t, exec i s = .next t ∧ t.sys.state = 2 ∧ (∀ n, (t.core n).seq = .idle) ∧ ∀ p, t.runOf p = none)) ∧
    (s.sys.takeover = true → s.sys.state = 1 → ∃ t, exec .boleTakeover s = .next t ∧ t.sys.takeover = false ∧
      ∀ q, (t.queue q).fidx = (s.queue q).fidx) ∧
    (s.sys.takeover = false → exec .boleTakeover s = .next s) ∧
    (∃ t, exec .twigFailover s = .next t ∧ (∀ q x, t.twigOf q = some x → x ≠ s.obj) ∧
      ∀ q, (t.queue q).pkts = (s.queue q).pkts ∧ (t.queue q).fidx = (s.queue q).fidx ∧
        (s.twigOf q = some s.obj → (t.queue q).fetched = []) ∧
        (s.twigOf q ≠ some s.obj → (t.queue q).fetched = (s.queue q).fetched)) ∧
    (s.obj < 16 →
      let other (l : Nat) : Prop := l ≠ s.obj ∧ l / 4 = s.obj / 4 ∧ SMap.get s.sys.links false l = true ∧
        SMap.get s.sys.switches 0 l = SMap.get s.sys.switches 0 (4 * (s.obj / 4))
      (∃ t, exec (.podLinkFail true) s = .next t ∧ SMap.get t.sys.links false s.obj = true ∧ t.cores = s.cores ∧
        t.sys.events.length = s.sys.events.length + (if SMap.get s.sys.links false s.obj then 2 else 1)) ∧
      (∃ t, exec (.podLinkFail false) s = .next t ∧ SMap.get t.sys.links false s.obj = false ∧
        (∀ l, l ≠ s.obj → SMap.get t.sys.links false l = SMap.get s.sys.links false l) ∧
        ((∃ l < 16, other l) →
          (∀ l < 16, l / 4 = s.obj / 4 → ∀ f ∈ (s.stop (68 + l)).wait, ∀ r, f.load = .req r → r.exit = s.obj / 4) →
          t.cores = s.cores ∧ t.air = s.air ∧ (t.stop (68 + s.obj)).wait = [] ∧
            ∀ f ∈ (s.stop (68 + s.obj)).wait, ∃ l < 16, other l ∧
              ∃ g ∈ (t.stop (68 + l)).wait, g.load = f.load) ∧
        (∀ n tag j, s.uses = [] → (∀ l < 16, ¬ other l) →
          n / 8 / 16 = s.obj / 4 → (s.core n).job? tag = some j → j.ended = none →
          ((∃ c r, (⟨c, .req r⟩ : Flit) ∈ (s.stop (68 + s.obj)).wait ∧ r.org = .job n tag) ∨
            (j.asked = true ∧ s.pending (.job n tag) = false ∧ s.pending (.coll n tag) = false)) →
          ∃ j', (t.core n).job? tag = some j' ∧ j'.ended = some 7))) ∧
    (∀ w, (w ≠ 4 ∧ w ≠ 8 ∧ w ≠ 16) → ∀ x, exec (.cxlPortTrain x w) s = .next s) ∧
    (∀ w, (w = 4 ∨ w = 8 ∨ w = 16) →
      exec (.cxlPortTrain false w) s = .next { s with sys := { s.sys with port0 := w } } ∧
      exec (.cxlPortTrain true w) s = .next { s with sys := { s.sys with port2 := w } }) ∧
    (s.obj < 4 → (∀ n, exec (.patrolScrub n) s =
        .next (s.setHome s.obj { s.home s.obj with corrected := (s.home s.obj).corrected + n })) ∧
      (∀ x, (s.home s.obj).summed = some x → s.nowAt s.obj < x + 1000000000 → exec .correctedErrorSummary s = .next s) ∧
      ((∀ x, (s.home s.obj).summed = some x → x + 1000000000 ≤ s.nowAt s.obj) →
        ∃ t e, exec .correctedErrorSummary s = .next t ∧ (t.home s.obj).summed = some (s.nowAt s.obj) ∧
          t.sys.events = s.sys.events ++ [e] ∧ e.ty = 8 ∧ leAt e.payload 0 8 = s.obj ∧
          leAt e.payload 8 8 = (s.home s.obj).corrected % 2 ^ 64))

/-! ### The whole machine -/

/-- Decode and encode agree: the word of a well-formed move decodes, in its slot, to the move itself, and a word that decodes
is the word of the move it stands for, so that no bit of a move word is dropped; the eight words of a bundle come back from
its 24 stored bytes, slot 0 first, each word little-endian (03_encoding.md R62, R65 to R72). -/
def Obligations.EncodingRoundTrip : Prop :=
  (∀ (i : Instr) (slot : Fin 8) (w : BitVec 24), i.wf = true → encode i = some (slot.val, w) → decodeMove slot w = some i) ∧
  (∀ (slot : Fin 8) (w : BitVec 24) (i : Instr), decodeMove slot w = some i → i.wf = true ∧ encode i = some (slot.val, w)) ∧
  ∀ ws : List (BitVec 24), ws.length = 8 → bundleWords (ws.flatMap (fun w => leBytes 3 w.toNat)) = ws

/-- What every step keeps: the device state is booting, running or recovery, MSTAT and ATSTAT hold a value of their
tables, at most 2^20 one-time keys are used; a signature that starts takes the next key of the counter, which no other signature
takes, and its index is that key's; MINVER never decreases (14_system.md R391, R402, R403). -/
def Obligations.FirmwareStateStaysLegal : Prop :=
  ∀ s t : State, s.firmwareOk = true → step s = .next t →
    t.firmwareOk = true ∧ s.sys.minver.toNat ≤ t.sys.minver.toNat ∧ s.sys.otk ≤ t.sys.otk ∧
    (s.sys.atstat ≠ 1 → t.sys.atstat = 1 → t.sys.otk = s.sys.otk + 1) ∧
    (s.sys.atstat = 1 → t.sys.otk = s.sys.otk ∧ (t.sys.atstat = 2 → t.sys.idx = BitVec.ofNat 64 (s.sys.otk - 1)))

/-- Every step keeps every memory in its canonical form, so that equal contents are equal data: the scratchpads, the quad pools,
the main memory of the homes and the host's (05_local_memory.md R135, R136; 01_machine.md R25; the form is the model's, log
entry 5). -/
def Obligations.MemoriesStayCanonical : Prop :=
  ∀ s t : State, s.MemoriesWf → step s = .next t → t.MemoriesWf

/-- Every form completes in every state, and a step stops only where the schedule names a core the device does not have
(01_machine.md R18). A form of the SCA, VEC, STR and MEM engines, and each step inside these engines, changes its own core alone,
and of it neither the code, the constants and the identity, nor the scratchpad and the jobs; a trigger that stands at the head of
its queue leaves it, unless it waits, changing nothing, or its core parks (03_encoding.md R66, R83, R86; 04_scalar_control.md
R106; 12_traps.md R335). The model's turns are log entries 1 and 4. -/
def Obligations.EngineFormsKeepTheRest : Prop :=
  (∀ (i : Instr) (s : State), ∃ t, exec i s = .next t) ∧
  (∀ s : State, (∃ t, step s = .next t) ∨ ∃ n, 512 ≤ n ∧ step s = .fault (.noSuchCore n)) ∧
  ∀ (i : Instr) (s : State), inEngines i = true →
    ∃ t, exec i s = .next t ∧ (t = s ∨ t = s.setMe t.me) ∧ t.me.fixedPart = s.me.fixedPart ∧
      ∀ e en v, s.AtHead e i en v → t.me.q e = (s.me.q e).tail ∨ t = s ∨ t = s.setMe s.me ∨ t.me.trap.isSome = true

/-- A step is exec of the instruction of its turn, in the state in which the turn's core is current, what happens from outside has
happened and its time has passed, a core without a limit in that time counting its cycles: a step of the machine is itself; at the
head of a queue the trigger that stands there, or the capture of its operand; at the pc of a core the move that the bundle's bytes
decode to, or the issue of a bundle of several moves, of one queue trigger alone, or of a word that is no move. An empty schedule
takes the model's default turn (03_encoding.md R62, R82, R83; 10_phase_sync.md R280, R292; the schedule and what comes from outside
are the model's own, log entries 1, 2 and 59). -/
def Obligations.StepRunsTheDecodedInstruction : Prop :=
  ∀ (s : State),
    (∀ t r, s.agenda = t :: r → t.core < 512 →
      let e := s.enter t r
      let u := t.env.foldl State.happen { s with agenda := r, cur := t.core, obj := t.obj }
      let words := bundleWords (e.me.code.readN (24 * e.me.pc) 24)
      (e.cur = t.core ∧ e.obj = t.obj ∧ e.agenda = r ∧ e.homes = u.homes ∧ e.queues = u.queues ∧ e.quads = u.quads ∧
        e.hostMem = u.hostMem ∧ e.fabric = u.fabric + 2 * t.ns ∧
        e.sys = { u.sys with clock := u.sys.clock.tick t.ns, edges := e.sys.edges } ∧
        (u.sys.clock.corr = 0 → e.sys.clock.dtc = u.sys.clock.dtc + BitVec.ofNat 64 t.ns) ∧
        ((∀ d, (u.tickNs t.ns).nextDue = some d → t.cc < d) →
          ∀ n, (∀ k, (u.core n).seq ≠ .frozen .slot k) → (∀ p r, u.standOf n = some (p, r) → r.st ≠ .parking) → e.core n = (u.core n).tick t.cc)) ∧
      (∀ i, t.what = .step i → step s = exec i e) ∧
      (∀ g en q, t.what = .head g → e.me.q g = en :: q → step s = exec (en.trig.getD (.operandEntryCapture g)) e) ∧
      (∀ (k : Fin 8) (w : BitVec 24) (i : Instr), t.what = .fetch → w ≠ 0 →
        words = List.replicate k.val 0 ++ w :: List.replicate (7 - k.val) 0 → decodeMove k w = some i → isQueueTrig i = false →
        step s = exec i e) ∧
      (∀ (k : Fin 8) (w : BitVec 24), t.what = .fetch → w ≠ 0 →
        words = List.replicate k.val 0 ++ w :: List.replicate (7 - k.val) 0 →
        (∀ i, decodeMove k w = some i → isQueueTrig i = true) → step s = exec .bundleIssue e) ∧
      (t.what = .fetch → words.countP (fun w => decide (w ≠ 0)) ≠ 1 → step s = exec .bundleIssue e)) ∧
    (s.agenda = [] → step s = step { s with agenda := [s.defaultTurn] }) ∧
    (∀ t r, s.agenda = t :: r → 512 ≤ t.core → step s = .fault (.noSuchCore t.core))

/-- What power-on leaves where the spec gives it: the device is booting and no stand runs; COMMIT is 1 TiB and HOLDLIM
1,000 µs; no slot is valid; a job's registers begin full with QCFG 0x1C, SPREC 4 and SLEN 256; and the registers of
firmware and attestation are legal, and every memory is in its canonical form (03_encoding.md R77; 02_numbers.md R50; 07_stream_array.md R193; 11_translation.md
R323; 13_queues.md, "Resident slots"; 14_system.md R391). -/
def Obligations.ResetIsAsTheSpecSays : Prop :=
  State.reset.sys.state = 0 ∧ State.reset.firmwareOk = true ∧ State.reset.MemoriesWf ∧
  (∀ e, (State.reset.home e).commit = 2 ^ 40 ∧ (State.reset.home e).holdlim = 1000) ∧
  (∀ n, (State.reset.slot n).valid = false) ∧ (∀ p, State.reset.runOf p = none) ∧ (∀ n, (State.reset.core n).seq = .idle) ∧
  Ctx.start.qcfg = 0x1C ∧ Ctx.start.rmode = 0 ∧ Ctx.start.afl = 0 ∧ Ctx.start.str.sprec = 4 ∧ Ctx.start.str.slen = 256 ∧
  (∀ r, (Ctx.start.readReg r) = .full (match r with | .v _ => .v 0 | .vm _ => .m 0 | .s _ | .o _ | .a _ | .g _ => .s 0)) ∧
  ∀ k < 128, Ctx.start.str.tag0[k]? = some (BitVec.ofNat 2 (k / 32))

/-- Words the spec writes out decode to the moves it gives them for: register, operand-port, XPORT, vector-register and
collective moves, and triggers of CTL, VEC, STR, MEM and COL; sca.add has the port of R92 (log entry 44); and the 24 bytes
of its first worked bundle are two words and six no-ops (03_encoding.md R62, R65 to R72, R91 to R96;
15_programs_stream.md; 16_programs_exchange.md; 17_programs_fault.md). -/
def Obligations.WordsOfTheSpec : Prop :=
  decodeMove 0 0x0C4003 = some (.moveXport 0 .sca .o ⟨0, .reg (.s 3) false⟩) ∧
  decodeMove 0 0x002870 = some (.moveSreg 0 (.s 5) ⟨0, .port .scaR false⟩) ∧
  decodeMove 7 0x403FFB = some (.moveSreg 7 (.s 7) ⟨2, .lit (-5)⟩) ∧
  decodeMove 1 0x044004 = some (.scaAdd ⟨0, .reg (.s 4) false⟩) ∧
  decodeMove 2 0x050E01 = some (.vecSel .v0 ⟨0, .lit 1⟩) ∧
  decodeMove 3 0x050E01 = some (.vecSel .v1 ⟨0, .lit 1⟩) ∧
  decodeMove 4 0x0CD22D = some (.moveXport 4 .vec1 .m ⟨0, .port .vec1M false⟩) ∧
  decodeMove 4 0x054E40 = some (.strMgn ⟨0, .lit 64⟩) ∧
  decodeMove 4 0x046600 = some (.strPushak ⟨0, .lit 0⟩) ∧
  decodeMove 0 0x0D0406 = some (.moveXport 0 .str .o ⟨0, .const 6 false⟩) ∧
  decodeMove 0 0x0D4062 = some (.moveXport 0 .mem .o ⟨0, .bind 2 false⟩) ∧
  decodeMove 7 0x060A01 = some (.memSend ⟨0, .reg (.v 1) false⟩) ∧
  decodeMove 0 0x053601 = some (.ctlTime ⟨0, .lit 1⟩) ∧
  decodeMove 2 0x001243 = some (.moveVreg 2 (.v 2) ⟨0, .lndV 3 false⟩) ∧
  decodeMove 5 0x080614 = some (.moveColOperand .s5 .o ⟨0, .lit 20⟩) ∧
  decodeMove 6 0x08440A = some (.colGo .s6 ⟨0, .const 10 false⟩) ∧
  decodeMove 0 0x24561F = some (.ctlCall ⟨1, .lit 31⟩) ∧
  decodeMove 0 0x04A60A = some (.ctlGnot ⟨0, .lit 10⟩) ∧
  bundleWords (leBytes 3 0x0C4003 ++ leBytes 3 0x044804 ++ List.replicate 18 0) = [0x0C4003, 0x044804, 0, 0, 0, 0, 0, 0]
end

