-- ==== Sys2Proof/Laws/Map.lean ====
section
/-! SUPPORT. Sparse maps and memory: what a read gives after a write, and that every operation keeps the canonical form. -/

namespace Sys2Proof.Machine

variable {α : Type}

@[simp] theorem SMap.get_nil (d : α) (k : Nat) : SMap.get [] d k = d := rfl

theorem SMap.get_cons (m : SMap α) (d v : α) (k k' : Nat) :
    SMap.get ((k', v) :: m) d k = if k' = k then v else SMap.get m d k := rfl

theorem SMap.get_insert (m : SMap α) (d v : α) (k j : Nat) :
    (SMap.insert m k v).get d j = if k = j then v else m.get d j := by
  induction m with
  | nil => rfl
  | cons p m ih =>
    obtain ⟨k', v'⟩ := p
    simp only [SMap.insert]
    split
    · rfl
    · split
      · subst k'
        simp only [SMap.get_cons]
        split <;> rfl
      · simp only [SMap.get_cons, ih]
        grind

theorem SMap.get_filter_ne (m : SMap α) (d : α) (k j : Nat) :
    SMap.get (m.filter (fun p => p.1 != k)) d j = if k = j then d else SMap.get m d j := by
  induction m with
  | nil => simp
  | cons p m ih =>
    obtain ⟨k', v'⟩ := p
    simp only [List.filter_cons]
    split
    · simp only [SMap.get_cons, ih]
      grind
    · simp only [SMap.get_cons, ih]
      grind

/-- Reading after a write: the value written at its key, the old one elsewhere. -/
theorem SMap.get_set [DecidableEq α] (m : SMap α) (d v : α) (k j : Nat) :
    (SMap.set m d k v).get d j = if k = j then v else m.get d j := by
  unfold SMap.set
  split
  · next h => rw [SMap.get_filter_ne, h]
  · exact SMap.get_insert m d v k j

@[simp] theorem SMap.get_set_same [DecidableEq α] (m : SMap α) (d v : α) (k : Nat) : (SMap.set m d k v).get d k = v := by
  simp [SMap.get_set]

theorem SMap.get_set_ne [DecidableEq α] (m : SMap α) (d v : α) (k j : Nat) (h : k ≠ j) :
    (SMap.set m d k v).get d j = m.get d j := by
  simp [SMap.get_set, h]

theorem SMap.get_append_right (m n : SMap α) (d : α) (j : Nat) (h : ∀ p ∈ m, p.1 ≠ j) :
    SMap.get (m ++ n) d j = SMap.get n d j := by
  induction m with
  | nil => rfl
  | cons p m ih =>
    obtain ⟨k, v⟩ := p
    rw [List.cons_append, SMap.get_cons, if_neg (h (k, v) (by simp))]
    exact ih (fun p hp => h p (List.mem_cons_of_mem _ hp))

theorem SMap.get_of_absent (m : SMap α) (d : α) (j : Nat) (h : ∀ p ∈ m, p.1 ≠ j) : SMap.get m d j = d := by
  simpa using SMap.get_append_right m [] d j h

theorem SMap.get_append_left (m n : SMap α) (d : α) (j : Nat) (h : ∀ p ∈ n, p.1 ≠ j) :
    SMap.get (m ++ n) d j = SMap.get m d j := by
  induction m with
  | nil => simpa using SMap.get_of_absent n d j h
  | cons p m ih =>
    obtain ⟨k, v⟩ := p
    rw [List.cons_append, SMap.get_cons, SMap.get_cons, ih]

theorem SMap.get_filter (m : SMap α) (d : α) (f : Nat → Bool) (j : Nat) (h : f j = true) :
    SMap.get (m.filter (fun p => f p.1)) d j = SMap.get m d j := by
  induction m with
  | nil => rfl
  | cons p m ih =>
    obtain ⟨k, v⟩ := p
    simp only [List.filter_cons]
    split
    · simp only [SMap.get_cons, ih]
    · next hk =>
      rw [ih, SMap.get_cons, if_neg]
      rintro rfl
      exact hk h

theorem SMap.mem_range [DecidableEq α] (d : α) (lo n : Nat) (f : Nat → α) (p : Nat × α)
    (h : p ∈ (List.range n).filterMap (fun i => if f i = d then none else some (lo + i, f i))) :
    lo ≤ p.1 ∧ p.1 < lo + n ∧ p.2 ≠ d := by
  obtain ⟨i, hi, he⟩ := List.mem_filterMap.mp h
  rw [List.mem_range] at hi
  split at he
  · cases he
  · next hd => cases he; exact ⟨Nat.le_add_right _ _, Nat.add_lt_add_left hi _, hd⟩

theorem SMap.get_range [DecidableEq α] (d : α) (lo n j : Nat) (f : Nat → α) :
    SMap.get ((List.range n).filterMap (fun i => if f i = d then none else some (lo + i, f i))) d j =
      if lo ≤ j ∧ j < lo + n then f (j - lo) else d := by
  induction n with
  | zero =>
    rw [if_neg (by omega)]
    rfl
  | succ n ih =>
    rw [List.range_succ, List.filterMap_append]
    by_cases hj : j = lo + n
    · subst hj
      rw [SMap.get_append_right, if_pos (by omega)]
      · by_cases hd : f n = d
        · simp [hd]
        · simp [hd, SMap.get]
      · intro p hp
        have := (SMap.mem_range d lo n f p hp).2.1
        omega
    · rw [SMap.get_append_left, ih]
      · grind
      · intro p hp
        obtain ⟨i, hi, he⟩ := List.mem_filterMap.mp hp
        rw [List.mem_singleton] at hi
        subst hi
        split at he
        · cases he
        · cases he; simp; omega

/-- Reading after a range is written. -/
theorem SMap.get_fill [DecidableEq α] (m : SMap α) (d : α) (lo n j : Nat) (f : Nat → α) :
    (SMap.fill m d lo n f).get d j = if lo ≤ j ∧ j < lo + n then f (j - lo) else m.get d j := by
  unfold SMap.fill
  have hlow : ∀ p ∈ m.filter (fun p => decide (p.1 < lo)), p.1 < lo := by
    intro p hp
    simpa using (List.mem_filter.mp hp).2
  have hhigh : ∀ p ∈ m.filter (fun p => decide (lo + n ≤ p.1)), lo + n ≤ p.1 := by
    intro p hp
    simpa using (List.mem_filter.mp hp).2
  have hmid := SMap.mem_range d lo n f
  by_cases h1 : j < lo
  · rw [if_neg (by omega), SMap.get_append_left, SMap.get_append_left]
    · exact SMap.get_filter m d (fun k => decide (k < lo)) j (by simpa using h1)
    · intro p hp; have := (hmid p hp).1; omega
    · intro p hp; have := hhigh p hp; omega
  · by_cases h2 : j < lo + n
    · rw [if_pos (by omega), SMap.get_append_left, SMap.get_append_right, SMap.get_range, if_pos (by omega)]
      · intro p hp; have := hlow p hp; omega
      · intro p hp; have := hhigh p hp; omega
    · rw [if_neg (by omega), SMap.get_append_right]
      · exact SMap.get_filter m d (fun k => decide (lo + n ≤ k)) j (by simp; omega)
      · intro p hp
        rcases List.mem_append.mp hp with hp | hp
        · have := hlow p hp; omega
        · have := (hmid p hp).2.1; omega

/-! ### The canonical form -/

theorem SMap.wf_iff [DecidableEq α] (m : SMap α) (d : α) :
    SMap.wf m d = true ↔ m.Pairwise (fun p q => p.1 < q.1) ∧ ∀ p ∈ m, p.2 ≠ d := by
  simp [SMap.wf]

theorem SMap.mem_insert (m : SMap α) (k : Nat) (v : α) (p : Nat × α) (h : p ∈ SMap.insert m k v) : p = (k, v) ∨ p ∈ m := by
  induction m with
  | nil => simpa [SMap.insert] using h
  | cons q m ih =>
    obtain ⟨k', v'⟩ := q
    simp only [SMap.insert] at h
    split at h
    · simpa using h
    · split at h
      · simp only [List.mem_cons] at h
        rcases h with h | h
        · exact .inl h
        · exact .inr (List.mem_cons_of_mem _ h)
      · simp only [List.mem_cons] at h
        rcases h with h | h
        · exact .inr (by simp [h])
        · rcases ih h with h | h
          · exact .inl h
          · exact .inr (List.mem_cons_of_mem _ h)

theorem SMap.pairwise_insert (m : SMap α) (k : Nat) (v : α) (h : m.Pairwise (fun p q => p.1 < q.1)) :
    (SMap.insert m k v).Pairwise (fun p q => p.1 < q.1) := by
  induction m with
  | nil => simp [SMap.insert]
  | cons q m ih =>
    obtain ⟨k', v'⟩ := q
    rw [List.pairwise_cons] at h
    simp only [SMap.insert]
    split
    · next hk =>
      rw [List.pairwise_cons, List.pairwise_cons]
      refine ⟨?_, h⟩
      intro p hp
      rcases List.mem_cons.mp hp with rfl | hp
      · exact hk
      · exact Nat.lt_trans hk (h.1 p hp)
    · split
      · next hk =>
        subst hk
        exact List.pairwise_cons.mpr ⟨h.1, h.2⟩
      · next h1 h2 =>
        rw [List.pairwise_cons]
        refine ⟨?_, ih h.2⟩
        intro p hp
        rcases SMap.mem_insert _ _ _ _ hp with rfl | hp
        · exact Nat.lt_of_le_of_ne (Nat.le_of_not_lt h1) (Ne.symm h2)
        · exact h.1 p hp

/-- A write keeps the canonical form. -/
theorem SMap.wf_set [DecidableEq α] (m : SMap α) (d v : α) (k : Nat) (h : SMap.wf m d = true) :
    SMap.wf (SMap.set m d k v) d = true := by
  rw [SMap.wf_iff] at h ⊢
  unfold SMap.set
  split
  · exact ⟨h.1.filter _, fun p hp => h.2 p (List.mem_filter.mp hp).1⟩
  · next hv =>
    refine ⟨SMap.pairwise_insert m k v h.1, fun p hp => ?_⟩
    rcases SMap.mem_insert _ _ _ _ hp with rfl | hp
    · exact hv
    · exact h.2 p hp

/-- Keys taken out keep the canonical form. -/
theorem SMap.wf_filter [DecidableEq α] (m : SMap α) (d : α) (f : Nat × α → Bool) (h : SMap.wf m d = true) :
    SMap.wf (m.filter f) d = true := by
  rw [SMap.wf_iff] at h ⊢
  exact ⟨h.1.filter _, fun p hp => h.2 p (List.mem_filter.mp hp).1⟩

/-- A range written keeps the canonical form. -/
theorem SMap.wf_fill [DecidableEq α] (m : SMap α) (d : α) (lo n : Nat) (f : Nat → α) (h : SMap.wf m d = true) :
    SMap.wf (SMap.fill m d lo n f) d = true := by
  rw [SMap.wf_iff] at h ⊢
  have hmid := SMap.mem_range d lo n f
  unfold SMap.fill
  constructor
  · rw [List.pairwise_append, List.pairwise_append]
    refine ⟨⟨h.1.filter _, ?_, ?_⟩, h.1.filter _, ?_⟩
    · rw [List.pairwise_filterMap]
      refine (List.pairwise_lt_range).imp ?_
      intro a b hab x hx y hy
      grind
    · intro x hx y hy
      have := (List.mem_filter.mp hx).2
      have := (hmid y hy).1
      simp at *
      omega
    · intro x hx y hy
      have hy' := (List.mem_filter.mp hy).2
      simp only [decide_eq_true_eq] at hy'
      rcases List.mem_append.mp hx with hx | hx
      · have := (List.mem_filter.mp hx).2
        simp at this
        omega
      · have := (hmid x hx).2.1
        omega
  · intro p hp
    rcases List.mem_append.mp hp with hp | hp
    · rcases List.mem_append.mp hp with hp | hp
      · exact h.2 p (List.mem_filter.mp hp).1
      · exact (hmid p hp).2.2
    · exact h.2 p (List.mem_filter.mp hp).1

/-! ### Memory -/

theorem Mem.read_write (m : Mem) (a j : Nat) (b : Byte) : (m.write a b).read j = if a = j then b else m.read j :=
  SMap.get_set m 0 b a j

@[simp] theorem Mem.read_write_same (m : Mem) (a : Nat) (b : Byte) : (m.write a b).read a = b := by
  simp [Mem.read_write]

theorem Mem.wf_write (m : Mem) (a : Nat) (b : Byte) (h : m.wf = true) : (m.write a b).wf = true := SMap.wf_set m 0 b a h

/-- Bytes written in a row: byte i of the list at a + i, the rest as before. -/
theorem Mem.read_writeL (m : Mem) (a j : Nat) (l : List Byte) :
    (m.writeL a l).read j = if a ≤ j ∧ j < a + l.length then l.getD (j - a) 0 else m.read j := by
  induction l generalizing m a with
  | nil => simp [Mem.writeL]
  | cons b l ih =>
    simp only [Mem.writeL, ih, Mem.read_write, List.length_cons]
    by_cases h : a = j
    · subst h
      simp
    · by_cases h2 : a + 1 ≤ j ∧ j < a + 1 + l.length
      · rw [if_pos h2, if_pos (by omega)]
        have : j - a = (j - (a + 1)) + 1 := by omega
        rw [this, List.getD_cons_succ]
      · rw [if_neg h2, if_neg h, if_neg (by omega)]

theorem Mem.wf_writeL (m : Mem) (a : Nat) (l : List Byte) (h : m.wf = true) : (m.writeL a l).wf = true := by
  induction l generalizing m a with
  | nil => exact h
  | cons b l ih => exact ih _ _ (Mem.wf_write _ _ _ h)

theorem Mem.wf_writeFn (m : Mem) (a n : Nat) (f : Nat → Byte) (h : m.wf = true) : (m.writeFn a n f).wf = true :=
  SMap.wf_fill m 0 a n f h

/-! ### The parts of the machine -/

theorem State.core_setCore (s : State) (n j : Nat) (c : Core) : (s.setCore n c).core j = if n = j then c else s.core j :=
  SMap.get_set _ _ _ _ _

@[simp] theorem State.core_setCore_same (s : State) (n : Nat) (c : Core) : (s.setCore n c).core n = c := by
  simp [State.core_setCore]

@[simp] theorem State.me_setMe (s : State) (c : Core) : (s.setMe c).me = c := by
  simp [State.me, State.setMe, State.setCore, State.core]

theorem State.quad_setQuad (s : State) (n j : Nat) (q : Quad) : (s.setQuad n q).quad j = if n = j then q else s.quad j :=
  SMap.get_set _ _ _ _ _

theorem State.home_setHome (s : State) (n j : Nat) (h : Home) : (s.setHome n h).home j = if n = j then h else s.home j :=
  SMap.get_set _ _ _ _ _

theorem State.part_setPart (s : State) (n j : Nat) (p : Part) : (s.setPart n p).part j = if n = j then p else s.part j :=
  SMap.get_set _ _ _ _ _

theorem State.queue_setQueue (s : State) (n j : Nat) (q : Queue) :
    (s.setQueue n q).queue j = if n = j then q else s.queue j :=
  SMap.get_set _ _ _ _ _

theorem State.slot_setSlot (s : State) (n j : Nat) (x : RSlot) : (s.setSlot n x).slot j = if n = j then x else s.slot j :=
  SMap.get_set _ _ _ _ _

theorem State.stop_setStop (s : State) (n j : Nat) (x : Stop) : (s.setStop n x).stop j = if n = j then x else s.stop j :=
  SMap.get_set _ _ _ _ _

theorem State.die_setDie (s : State) (n j : Nat) (x : Die) : (s.setDie n x).die j = if n = j then x else s.die j :=
  SMap.get_set _ _ _ _ _

end Sys2Proof.Machine
end

