-- ==== Sys2Proof/Laws/State.lean ====
section
/-! SUPPORT. What each update of the state and of a core leaves: one lemma per field per update, true by rfl. -/

namespace Sys2Proof.Machine

@[simp] theorem State.setCore_agenda (s : State) (n : Nat) (c : Core) : (s.setCore n c).agenda = s.agenda := rfl
@[simp] theorem State.setCore_cur (s : State) (n : Nat) (c : Core) : (s.setCore n c).cur = s.cur := rfl
@[simp] theorem State.setCore_obj (s : State) (n : Nat) (c : Core) : (s.setCore n c).obj = s.obj := rfl
@[simp] theorem State.setCore_fabric (s : State) (n : Nat) (c : Core) : (s.setCore n c).fabric = s.fabric := rfl
@[simp] theorem State.setCore_quads (s : State) (n : Nat) (c : Core) : (s.setCore n c).quads = s.quads := rfl
@[simp] theorem State.setCore_dies (s : State) (n : Nat) (c : Core) : (s.setCore n c).dies = s.dies := rfl
@[simp] theorem State.setCore_stops (s : State) (n : Nat) (c : Core) : (s.setCore n c).stops = s.stops := rfl
@[simp] theorem State.setCore_air (s : State) (n : Nat) (c : Core) : (s.setCore n c).air = s.air := rfl
@[simp] theorem State.setCore_parts (s : State) (n : Nat) (c : Core) : (s.setCore n c).parts = s.parts := rfl
@[simp] theorem State.setCore_uses (s : State) (n : Nat) (c : Core) : (s.setCore n c).uses = s.uses := rfl
@[simp] theorem State.setCore_taken (s : State) (n : Nat) (c : Core) : (s.setCore n c).taken = s.taken := rfl
@[simp] theorem State.setCore_homes (s : State) (n : Nat) (c : Core) : (s.setCore n c).homes = s.homes := rfl
@[simp] theorem State.setCore_queues (s : State) (n : Nat) (c : Core) : (s.setCore n c).queues = s.queues := rfl
@[simp] theorem State.setCore_slots (s : State) (n : Nat) (c : Core) : (s.setCore n c).slots = s.slots := rfl
@[simp] theorem State.setCore_journal (s : State) (n : Nat) (c : Core) : (s.setCore n c).journal = s.journal := rfl
@[simp] theorem State.setCore_sys (s : State) (n : Nat) (c : Core) : (s.setCore n c).sys = s.sys := rfl
@[simp] theorem State.setCore_hostMem (s : State) (n : Nat) (c : Core) : (s.setCore n c).hostMem = s.hostMem := rfl
@[simp] theorem State.setCore_pasids (s : State) (n : Nat) (c : Core) : (s.setCore n c).pasids = s.pasids := rfl
@[simp] theorem State.setMe_agenda (s : State) (c : Core) : (s.setMe c).agenda = s.agenda := rfl
@[simp] theorem State.setMe_cur (s : State) (c : Core) : (s.setMe c).cur = s.cur := rfl
@[simp] theorem State.setMe_obj (s : State) (c : Core) : (s.setMe c).obj = s.obj := rfl
@[simp] theorem State.setMe_fabric (s : State) (c : Core) : (s.setMe c).fabric = s.fabric := rfl
@[simp] theorem State.setMe_quads (s : State) (c : Core) : (s.setMe c).quads = s.quads := rfl
@[simp] theorem State.setMe_dies (s : State) (c : Core) : (s.setMe c).dies = s.dies := rfl
@[simp] theorem State.setMe_stops (s : State) (c : Core) : (s.setMe c).stops = s.stops := rfl
@[simp] theorem State.setMe_air (s : State) (c : Core) : (s.setMe c).air = s.air := rfl
@[simp] theorem State.setMe_parts (s : State) (c : Core) : (s.setMe c).parts = s.parts := rfl
@[simp] theorem State.setMe_uses (s : State) (c : Core) : (s.setMe c).uses = s.uses := rfl
@[simp] theorem State.setMe_taken (s : State) (c : Core) : (s.setMe c).taken = s.taken := rfl
@[simp] theorem State.setMe_homes (s : State) (c : Core) : (s.setMe c).homes = s.homes := rfl
@[simp] theorem State.setMe_queues (s : State) (c : Core) : (s.setMe c).queues = s.queues := rfl
@[simp] theorem State.setMe_slots (s : State) (c : Core) : (s.setMe c).slots = s.slots := rfl
@[simp] theorem State.setMe_journal (s : State) (c : Core) : (s.setMe c).journal = s.journal := rfl
@[simp] theorem State.setMe_sys (s : State) (c : Core) : (s.setMe c).sys = s.sys := rfl
@[simp] theorem State.setMe_hostMem (s : State) (c : Core) : (s.setMe c).hostMem = s.hostMem := rfl
@[simp] theorem State.setMe_pasids (s : State) (c : Core) : (s.setMe c).pasids = s.pasids := rfl
@[simp] theorem State.setQuad_agenda (s : State) (n : Nat) (q : Quad) : (s.setQuad n q).agenda = s.agenda := rfl
@[simp] theorem State.setQuad_cur (s : State) (n : Nat) (q : Quad) : (s.setQuad n q).cur = s.cur := rfl
@[simp] theorem State.setQuad_obj (s : State) (n : Nat) (q : Quad) : (s.setQuad n q).obj = s.obj := rfl
@[simp] theorem State.setQuad_fabric (s : State) (n : Nat) (q : Quad) : (s.setQuad n q).fabric = s.fabric := rfl
@[simp] theorem State.setQuad_cores (s : State) (n : Nat) (q : Quad) : (s.setQuad n q).cores = s.cores := rfl
@[simp] theorem State.setQuad_dies (s : State) (n : Nat) (q : Quad) : (s.setQuad n q).dies = s.dies := rfl
@[simp] theorem State.setQuad_stops (s : State) (n : Nat) (q : Quad) : (s.setQuad n q).stops = s.stops := rfl
@[simp] theorem State.setQuad_air (s : State) (n : Nat) (q : Quad) : (s.setQuad n q).air = s.air := rfl
@[simp] theorem State.setQuad_parts (s : State) (n : Nat) (q : Quad) : (s.setQuad n q).parts = s.parts := rfl
@[simp] theorem State.setQuad_uses (s : State) (n : Nat) (q : Quad) : (s.setQuad n q).uses = s.uses := rfl
@[simp] theorem State.setQuad_taken (s : State) (n : Nat) (q : Quad) : (s.setQuad n q).taken = s.taken := rfl
@[simp] theorem State.setQuad_homes (s : State) (n : Nat) (q : Quad) : (s.setQuad n q).homes = s.homes := rfl
@[simp] theorem State.setQuad_queues (s : State) (n : Nat) (q : Quad) : (s.setQuad n q).queues = s.queues := rfl
@[simp] theorem State.setQuad_slots (s : State) (n : Nat) (q : Quad) : (s.setQuad n q).slots = s.slots := rfl
@[simp] theorem State.setQuad_journal (s : State) (n : Nat) (q : Quad) : (s.setQuad n q).journal = s.journal := rfl
@[simp] theorem State.setQuad_sys (s : State) (n : Nat) (q : Quad) : (s.setQuad n q).sys = s.sys := rfl
@[simp] theorem State.setQuad_hostMem (s : State) (n : Nat) (q : Quad) : (s.setQuad n q).hostMem = s.hostMem := rfl
@[simp] theorem State.setQuad_pasids (s : State) (n : Nat) (q : Quad) : (s.setQuad n q).pasids = s.pasids := rfl
@[simp] theorem State.setDie_agenda (s : State) (n : Nat) (d : Die) : (s.setDie n d).agenda = s.agenda := rfl
@[simp] theorem State.setDie_cur (s : State) (n : Nat) (d : Die) : (s.setDie n d).cur = s.cur := rfl
@[simp] theorem State.setDie_obj (s : State) (n : Nat) (d : Die) : (s.setDie n d).obj = s.obj := rfl
@[simp] theorem State.setDie_fabric (s : State) (n : Nat) (d : Die) : (s.setDie n d).fabric = s.fabric := rfl
@[simp] theorem State.setDie_cores (s : State) (n : Nat) (d : Die) : (s.setDie n d).cores = s.cores := rfl
@[simp] theorem State.setDie_quads (s : State) (n : Nat) (d : Die) : (s.setDie n d).quads = s.quads := rfl
@[simp] theorem State.setDie_stops (s : State) (n : Nat) (d : Die) : (s.setDie n d).stops = s.stops := rfl
@[simp] theorem State.setDie_air (s : State) (n : Nat) (d : Die) : (s.setDie n d).air = s.air := rfl
@[simp] theorem State.setDie_parts (s : State) (n : Nat) (d : Die) : (s.setDie n d).parts = s.parts := rfl
@[simp] theorem State.setDie_uses (s : State) (n : Nat) (d : Die) : (s.setDie n d).uses = s.uses := rfl
@[simp] theorem State.setDie_taken (s : State) (n : Nat) (d : Die) : (s.setDie n d).taken = s.taken := rfl
@[simp] theorem State.setDie_homes (s : State) (n : Nat) (d : Die) : (s.setDie n d).homes = s.homes := rfl
@[simp] theorem State.setDie_queues (s : State) (n : Nat) (d : Die) : (s.setDie n d).queues = s.queues := rfl
@[simp] theorem State.setDie_slots (s : State) (n : Nat) (d : Die) : (s.setDie n d).slots = s.slots := rfl
@[simp] theorem State.setDie_journal (s : State) (n : Nat) (d : Die) : (s.setDie n d).journal = s.journal := rfl
@[simp] theorem State.setDie_sys (s : State) (n : Nat) (d : Die) : (s.setDie n d).sys = s.sys := rfl
@[simp] theorem State.setDie_hostMem (s : State) (n : Nat) (d : Die) : (s.setDie n d).hostMem = s.hostMem := rfl
@[simp] theorem State.setDie_pasids (s : State) (n : Nat) (d : Die) : (s.setDie n d).pasids = s.pasids := rfl
@[simp] theorem State.setStop_agenda (s : State) (n : Nat) (x : Stop) : (s.setStop n x).agenda = s.agenda := rfl
@[simp] theorem State.setStop_cur (s : State) (n : Nat) (x : Stop) : (s.setStop n x).cur = s.cur := rfl
@[simp] theorem State.setStop_obj (s : State) (n : Nat) (x : Stop) : (s.setStop n x).obj = s.obj := rfl
@[simp] theorem State.setStop_fabric (s : State) (n : Nat) (x : Stop) : (s.setStop n x).fabric = s.fabric := rfl
@[simp] theorem State.setStop_cores (s : State) (n : Nat) (x : Stop) : (s.setStop n x).cores = s.cores := rfl
@[simp] theorem State.setStop_quads (s : State) (n : Nat) (x : Stop) : (s.setStop n x).quads = s.quads := rfl
@[simp] theorem State.setStop_dies (s : State) (n : Nat) (x : Stop) : (s.setStop n x).dies = s.dies := rfl
@[simp] theorem State.setStop_air (s : State) (n : Nat) (x : Stop) : (s.setStop n x).air = s.air := rfl
@[simp] theorem State.setStop_parts (s : State) (n : Nat) (x : Stop) : (s.setStop n x).parts = s.parts := rfl
@[simp] theorem State.setStop_uses (s : State) (n : Nat) (x : Stop) : (s.setStop n x).uses = s.uses := rfl
@[simp] theorem State.setStop_taken (s : State) (n : Nat) (x : Stop) : (s.setStop n x).taken = s.taken := rfl
@[simp] theorem State.setStop_homes (s : State) (n : Nat) (x : Stop) : (s.setStop n x).homes = s.homes := rfl
@[simp] theorem State.setStop_queues (s : State) (n : Nat) (x : Stop) : (s.setStop n x).queues = s.queues := rfl
@[simp] theorem State.setStop_slots (s : State) (n : Nat) (x : Stop) : (s.setStop n x).slots = s.slots := rfl
@[simp] theorem State.setStop_journal (s : State) (n : Nat) (x : Stop) : (s.setStop n x).journal = s.journal := rfl
@[simp] theorem State.setStop_sys (s : State) (n : Nat) (x : Stop) : (s.setStop n x).sys = s.sys := rfl
@[simp] theorem State.setStop_hostMem (s : State) (n : Nat) (x : Stop) : (s.setStop n x).hostMem = s.hostMem := rfl
@[simp] theorem State.setStop_pasids (s : State) (n : Nat) (x : Stop) : (s.setStop n x).pasids = s.pasids := rfl
@[simp] theorem State.setPart_agenda (s : State) (n : Nat) (x : Part) : (s.setPart n x).agenda = s.agenda := rfl
@[simp] theorem State.setPart_cur (s : State) (n : Nat) (x : Part) : (s.setPart n x).cur = s.cur := rfl
@[simp] theorem State.setPart_obj (s : State) (n : Nat) (x : Part) : (s.setPart n x).obj = s.obj := rfl
@[simp] theorem State.setPart_fabric (s : State) (n : Nat) (x : Part) : (s.setPart n x).fabric = s.fabric := rfl
@[simp] theorem State.setPart_cores (s : State) (n : Nat) (x : Part) : (s.setPart n x).cores = s.cores := rfl
@[simp] theorem State.setPart_quads (s : State) (n : Nat) (x : Part) : (s.setPart n x).quads = s.quads := rfl
@[simp] theorem State.setPart_dies (s : State) (n : Nat) (x : Part) : (s.setPart n x).dies = s.dies := rfl
@[simp] theorem State.setPart_stops (s : State) (n : Nat) (x : Part) : (s.setPart n x).stops = s.stops := rfl
@[simp] theorem State.setPart_air (s : State) (n : Nat) (x : Part) : (s.setPart n x).air = s.air := rfl
@[simp] theorem State.setPart_uses (s : State) (n : Nat) (x : Part) : (s.setPart n x).uses = s.uses := rfl
@[simp] theorem State.setPart_taken (s : State) (n : Nat) (x : Part) : (s.setPart n x).taken = s.taken := rfl
@[simp] theorem State.setPart_homes (s : State) (n : Nat) (x : Part) : (s.setPart n x).homes = s.homes := rfl
@[simp] theorem State.setPart_queues (s : State) (n : Nat) (x : Part) : (s.setPart n x).queues = s.queues := rfl
@[simp] theorem State.setPart_slots (s : State) (n : Nat) (x : Part) : (s.setPart n x).slots = s.slots := rfl
@[simp] theorem State.setPart_journal (s : State) (n : Nat) (x : Part) : (s.setPart n x).journal = s.journal := rfl
@[simp] theorem State.setPart_sys (s : State) (n : Nat) (x : Part) : (s.setPart n x).sys = s.sys := rfl
@[simp] theorem State.setPart_hostMem (s : State) (n : Nat) (x : Part) : (s.setPart n x).hostMem = s.hostMem := rfl
@[simp] theorem State.setPart_pasids (s : State) (n : Nat) (x : Part) : (s.setPart n x).pasids = s.pasids := rfl
@[simp] theorem State.setRun_agenda (s : State) (p : Nat) (r : Option Run) : (s.setRun p r).agenda = s.agenda := rfl
@[simp] theorem State.setRun_cur (s : State) (p : Nat) (r : Option Run) : (s.setRun p r).cur = s.cur := rfl
@[simp] theorem State.setRun_obj (s : State) (p : Nat) (r : Option Run) : (s.setRun p r).obj = s.obj := rfl
@[simp] theorem State.setRun_fabric (s : State) (p : Nat) (r : Option Run) : (s.setRun p r).fabric = s.fabric := rfl
@[simp] theorem State.setRun_cores (s : State) (p : Nat) (r : Option Run) : (s.setRun p r).cores = s.cores := rfl
@[simp] theorem State.setRun_quads (s : State) (p : Nat) (r : Option Run) : (s.setRun p r).quads = s.quads := rfl
@[simp] theorem State.setRun_dies (s : State) (p : Nat) (r : Option Run) : (s.setRun p r).dies = s.dies := rfl
@[simp] theorem State.setRun_stops (s : State) (p : Nat) (r : Option Run) : (s.setRun p r).stops = s.stops := rfl
@[simp] theorem State.setRun_air (s : State) (p : Nat) (r : Option Run) : (s.setRun p r).air = s.air := rfl
@[simp] theorem State.setRun_uses (s : State) (p : Nat) (r : Option Run) : (s.setRun p r).uses = s.uses := rfl
@[simp] theorem State.setRun_taken (s : State) (p : Nat) (r : Option Run) : (s.setRun p r).taken = s.taken := rfl
@[simp] theorem State.setRun_homes (s : State) (p : Nat) (r : Option Run) : (s.setRun p r).homes = s.homes := rfl
@[simp] theorem State.setRun_queues (s : State) (p : Nat) (r : Option Run) : (s.setRun p r).queues = s.queues := rfl
@[simp] theorem State.setRun_slots (s : State) (p : Nat) (r : Option Run) : (s.setRun p r).slots = s.slots := rfl
@[simp] theorem State.setRun_journal (s : State) (p : Nat) (r : Option Run) : (s.setRun p r).journal = s.journal := rfl
@[simp] theorem State.setRun_sys (s : State) (p : Nat) (r : Option Run) : (s.setRun p r).sys = s.sys := rfl
@[simp] theorem State.setRun_hostMem (s : State) (p : Nat) (r : Option Run) : (s.setRun p r).hostMem = s.hostMem := rfl
@[simp] theorem State.setRun_pasids (s : State) (p : Nat) (r : Option Run) : (s.setRun p r).pasids = s.pasids := rfl
@[simp] theorem State.setHome_agenda (s : State) (n : Nat) (x : Home) : (s.setHome n x).agenda = s.agenda := rfl
@[simp] theorem State.setHome_cur (s : State) (n : Nat) (x : Home) : (s.setHome n x).cur = s.cur := rfl
@[simp] theorem State.setHome_obj (s : State) (n : Nat) (x : Home) : (s.setHome n x).obj = s.obj := rfl
@[simp] theorem State.setHome_fabric (s : State) (n : Nat) (x : Home) : (s.setHome n x).fabric = s.fabric := rfl
@[simp] theorem State.setHome_cores (s : State) (n : Nat) (x : Home) : (s.setHome n x).cores = s.cores := rfl
@[simp] theorem State.setHome_quads (s : State) (n : Nat) (x : Home) : (s.setHome n x).quads = s.quads := rfl
@[simp] theorem State.setHome_dies (s : State) (n : Nat) (x : Home) : (s.setHome n x).dies = s.dies := rfl
@[simp] theorem State.setHome_stops (s : State) (n : Nat) (x : Home) : (s.setHome n x).stops = s.stops := rfl
@[simp] theorem State.setHome_air (s : State) (n : Nat) (x : Home) : (s.setHome n x).air = s.air := rfl
@[simp] theorem State.setHome_parts (s : State) (n : Nat) (x : Home) : (s.setHome n x).parts = s.parts := rfl
@[simp] theorem State.setHome_uses (s : State) (n : Nat) (x : Home) : (s.setHome n x).uses = s.uses := rfl
@[simp] theorem State.setHome_taken (s : State) (n : Nat) (x : Home) : (s.setHome n x).taken = s.taken := rfl
@[simp] theorem State.setHome_queues (s : State) (n : Nat) (x : Home) : (s.setHome n x).queues = s.queues := rfl
@[simp] theorem State.setHome_slots (s : State) (n : Nat) (x : Home) : (s.setHome n x).slots = s.slots := rfl
@[simp] theorem State.setHome_journal (s : State) (n : Nat) (x : Home) : (s.setHome n x).journal = s.journal := rfl
@[simp] theorem State.setHome_sys (s : State) (n : Nat) (x : Home) : (s.setHome n x).sys = s.sys := rfl
@[simp] theorem State.setHome_hostMem (s : State) (n : Nat) (x : Home) : (s.setHome n x).hostMem = s.hostMem := rfl
@[simp] theorem State.setHome_pasids (s : State) (n : Nat) (x : Home) : (s.setHome n x).pasids = s.pasids := rfl
@[simp] theorem State.setQueue_agenda (s : State) (n : Nat) (x : Queue) : (s.setQueue n x).agenda = s.agenda := rfl
@[simp] theorem State.setQueue_cur (s : State) (n : Nat) (x : Queue) : (s.setQueue n x).cur = s.cur := rfl
@[simp] theorem State.setQueue_obj (s : State) (n : Nat) (x : Queue) : (s.setQueue n x).obj = s.obj := rfl
@[simp] theorem State.setQueue_fabric (s : State) (n : Nat) (x : Queue) : (s.setQueue n x).fabric = s.fabric := rfl
@[simp] theorem State.setQueue_cores (s : State) (n : Nat) (x : Queue) : (s.setQueue n x).cores = s.cores := rfl
@[simp] theorem State.setQueue_quads (s : State) (n : Nat) (x : Queue) : (s.setQueue n x).quads = s.quads := rfl
@[simp] theorem State.setQueue_dies (s : State) (n : Nat) (x : Queue) : (s.setQueue n x).dies = s.dies := rfl
@[simp] theorem State.setQueue_stops (s : State) (n : Nat) (x : Queue) : (s.setQueue n x).stops = s.stops := rfl
@[simp] theorem State.setQueue_air (s : State) (n : Nat) (x : Queue) : (s.setQueue n x).air = s.air := rfl
@[simp] theorem State.setQueue_parts (s : State) (n : Nat) (x : Queue) : (s.setQueue n x).parts = s.parts := rfl
@[simp] theorem State.setQueue_uses (s : State) (n : Nat) (x : Queue) : (s.setQueue n x).uses = s.uses := rfl
@[simp] theorem State.setQueue_taken (s : State) (n : Nat) (x : Queue) : (s.setQueue n x).taken = s.taken := rfl
@[simp] theorem State.setQueue_homes (s : State) (n : Nat) (x : Queue) : (s.setQueue n x).homes = s.homes := rfl
@[simp] theorem State.setQueue_slots (s : State) (n : Nat) (x : Queue) : (s.setQueue n x).slots = s.slots := rfl
@[simp] theorem State.setQueue_journal (s : State) (n : Nat) (x : Queue) : (s.setQueue n x).journal = s.journal := rfl
@[simp] theorem State.setQueue_sys (s : State) (n : Nat) (x : Queue) : (s.setQueue n x).sys = s.sys := rfl
@[simp] theorem State.setQueue_hostMem (s : State) (n : Nat) (x : Queue) : (s.setQueue n x).hostMem = s.hostMem := rfl
@[simp] theorem State.setQueue_pasids (s : State) (n : Nat) (x : Queue) : (s.setQueue n x).pasids = s.pasids := rfl
@[simp] theorem State.setSlot_agenda (s : State) (n : Nat) (x : RSlot) : (s.setSlot n x).agenda = s.agenda := rfl
@[simp] theorem State.setSlot_cur (s : State) (n : Nat) (x : RSlot) : (s.setSlot n x).cur = s.cur := rfl
@[simp] theorem State.setSlot_obj (s : State) (n : Nat) (x : RSlot) : (s.setSlot n x).obj = s.obj := rfl
@[simp] theorem State.setSlot_fabric (s : State) (n : Nat) (x : RSlot) : (s.setSlot n x).fabric = s.fabric := rfl
@[simp] theorem State.setSlot_cores (s : State) (n : Nat) (x : RSlot) : (s.setSlot n x).cores = s.cores := rfl
@[simp] theorem State.setSlot_quads (s : State) (n : Nat) (x : RSlot) : (s.setSlot n x).quads = s.quads := rfl
@[simp] theorem State.setSlot_dies (s : State) (n : Nat) (x : RSlot) : (s.setSlot n x).dies = s.dies := rfl
@[simp] theorem State.setSlot_stops (s : State) (n : Nat) (x : RSlot) : (s.setSlot n x).stops = s.stops := rfl
@[simp] theorem State.setSlot_air (s : State) (n : Nat) (x : RSlot) : (s.setSlot n x).air = s.air := rfl
@[simp] theorem State.setSlot_parts (s : State) (n : Nat) (x : RSlot) : (s.setSlot n x).parts = s.parts := rfl
@[simp] theorem State.setSlot_uses (s : State) (n : Nat) (x : RSlot) : (s.setSlot n x).uses = s.uses := rfl
@[simp] theorem State.setSlot_taken (s : State) (n : Nat) (x : RSlot) : (s.setSlot n x).taken = s.taken := rfl
@[simp] theorem State.setSlot_homes (s : State) (n : Nat) (x : RSlot) : (s.setSlot n x).homes = s.homes := rfl
@[simp] theorem State.setSlot_queues (s : State) (n : Nat) (x : RSlot) : (s.setSlot n x).queues = s.queues := rfl
@[simp] theorem State.setSlot_journal (s : State) (n : Nat) (x : RSlot) : (s.setSlot n x).journal = s.journal := rfl
@[simp] theorem State.setSlot_sys (s : State) (n : Nat) (x : RSlot) : (s.setSlot n x).sys = s.sys := rfl
@[simp] theorem State.setSlot_hostMem (s : State) (n : Nat) (x : RSlot) : (s.setSlot n x).hostMem = s.hostMem := rfl
@[simp] theorem State.setSlot_pasids (s : State) (n : Nat) (x : RSlot) : (s.setSlot n x).pasids = s.pasids := rfl
@[simp] theorem State.sendEvent_agenda (s : State) (ty stop src : Nat) (payload : List Byte) : (s.sendEvent ty stop src payload).agenda = s.agenda := rfl
@[simp] theorem State.sendEvent_cur (s : State) (ty stop src : Nat) (payload : List Byte) : (s.sendEvent ty stop src payload).cur = s.cur := rfl
@[simp] theorem State.sendEvent_obj (s : State) (ty stop src : Nat) (payload : List Byte) : (s.sendEvent ty stop src payload).obj = s.obj := rfl
@[simp] theorem State.sendEvent_fabric (s : State) (ty stop src : Nat) (payload : List Byte) : (s.sendEvent ty stop src payload).fabric = s.fabric := rfl
@[simp] theorem State.sendEvent_cores (s : State) (ty stop src : Nat) (payload : List Byte) : (s.sendEvent ty stop src payload).cores = s.cores := rfl
@[simp] theorem State.sendEvent_quads (s : State) (ty stop src : Nat) (payload : List Byte) : (s.sendEvent ty stop src payload).quads = s.quads := rfl
@[simp] theorem State.sendEvent_dies (s : State) (ty stop src : Nat) (payload : List Byte) : (s.sendEvent ty stop src payload).dies = s.dies := rfl
@[simp] theorem State.sendEvent_stops (s : State) (ty stop src : Nat) (payload : List Byte) : (s.sendEvent ty stop src payload).stops = s.stops := rfl
@[simp] theorem State.sendEvent_air (s : State) (ty stop src : Nat) (payload : List Byte) : (s.sendEvent ty stop src payload).air = s.air := rfl
@[simp] theorem State.sendEvent_parts (s : State) (ty stop src : Nat) (payload : List Byte) : (s.sendEvent ty stop src payload).parts = s.parts := rfl
@[simp] theorem State.sendEvent_uses (s : State) (ty stop src : Nat) (payload : List Byte) : (s.sendEvent ty stop src payload).uses = s.uses := rfl
@[simp] theorem State.sendEvent_taken (s : State) (ty stop src : Nat) (payload : List Byte) : (s.sendEvent ty stop src payload).taken = s.taken := rfl
@[simp] theorem State.sendEvent_homes (s : State) (ty stop src : Nat) (payload : List Byte) : (s.sendEvent ty stop src payload).homes = s.homes := rfl
@[simp] theorem State.sendEvent_queues (s : State) (ty stop src : Nat) (payload : List Byte) : (s.sendEvent ty stop src payload).queues = s.queues := rfl
@[simp] theorem State.sendEvent_slots (s : State) (ty stop src : Nat) (payload : List Byte) : (s.sendEvent ty stop src payload).slots = s.slots := rfl
@[simp] theorem State.sendEvent_journal (s : State) (ty stop src : Nat) (payload : List Byte) : (s.sendEvent ty stop src payload).journal = s.journal := rfl
@[simp] theorem State.sendEvent_hostMem (s : State) (ty stop src : Nat) (payload : List Byte) : (s.sendEvent ty stop src payload).hostMem = s.hostMem := rfl
@[simp] theorem State.sendEvent_pasids (s : State) (ty stop src : Nat) (payload : List Byte) : (s.sendEvent ty stop src payload).pasids = s.pasids := rfl
@[simp] theorem State.tickNs_agenda (s : State) (ns : Nat) : (s.tickNs ns).agenda = s.agenda := rfl
@[simp] theorem State.tickNs_cur (s : State) (ns : Nat) : (s.tickNs ns).cur = s.cur := rfl
@[simp] theorem State.tickNs_obj (s : State) (ns : Nat) : (s.tickNs ns).obj = s.obj := rfl
@[simp] theorem State.tickNs_cores (s : State) (ns : Nat) : (s.tickNs ns).cores = s.cores := rfl
@[simp] theorem State.tickNs_quads (s : State) (ns : Nat) : (s.tickNs ns).quads = s.quads := rfl
@[simp] theorem State.tickNs_stops (s : State) (ns : Nat) : (s.tickNs ns).stops = s.stops := rfl
@[simp] theorem State.tickNs_air (s : State) (ns : Nat) : (s.tickNs ns).air = s.air := rfl
@[simp] theorem State.tickNs_parts (s : State) (ns : Nat) : (s.tickNs ns).parts = s.parts := rfl
@[simp] theorem State.tickNs_uses (s : State) (ns : Nat) : (s.tickNs ns).uses = s.uses := rfl
@[simp] theorem State.tickNs_taken (s : State) (ns : Nat) : (s.tickNs ns).taken = s.taken := rfl
@[simp] theorem State.tickNs_homes (s : State) (ns : Nat) : (s.tickNs ns).homes = s.homes := rfl
@[simp] theorem State.tickNs_queues (s : State) (ns : Nat) : (s.tickNs ns).queues = s.queues := rfl
@[simp] theorem State.tickNs_slots (s : State) (ns : Nat) : (s.tickNs ns).slots = s.slots := rfl
@[simp] theorem State.tickNs_journal (s : State) (ns : Nat) : (s.tickNs ns).journal = s.journal := rfl
@[simp] theorem State.tickNs_hostMem (s : State) (ns : Nat) : (s.tickNs ns).hostMem = s.hostMem := rfl
@[simp] theorem State.tickNs_pasids (s : State) (ns : Nat) : (s.tickNs ns).pasids = s.pasids := rfl
@[simp] theorem State.tickCc_agenda (s : State) (cc : Nat) : (s.tickCc cc).agenda = s.agenda := rfl
@[simp] theorem State.tickCc_cur (s : State) (cc : Nat) : (s.tickCc cc).cur = s.cur := rfl
@[simp] theorem State.tickCc_obj (s : State) (cc : Nat) : (s.tickCc cc).obj = s.obj := rfl
@[simp] theorem State.tickCc_fabric (s : State) (cc : Nat) : (s.tickCc cc).fabric = s.fabric := rfl
@[simp] theorem State.tickCc_quads (s : State) (cc : Nat) : (s.tickCc cc).quads = s.quads := rfl
@[simp] theorem State.tickCc_dies (s : State) (cc : Nat) : (s.tickCc cc).dies = s.dies := rfl
@[simp] theorem State.tickCc_stops (s : State) (cc : Nat) : (s.tickCc cc).stops = s.stops := rfl
@[simp] theorem State.tickCc_air (s : State) (cc : Nat) : (s.tickCc cc).air = s.air := rfl
@[simp] theorem State.tickCc_uses (s : State) (cc : Nat) : (s.tickCc cc).uses = s.uses := rfl
@[simp] theorem State.tickCc_taken (s : State) (cc : Nat) : (s.tickCc cc).taken = s.taken := rfl
@[simp] theorem State.tickCc_homes (s : State) (cc : Nat) : (s.tickCc cc).homes = s.homes := rfl
@[simp] theorem State.tickCc_queues (s : State) (cc : Nat) : (s.tickCc cc).queues = s.queues := rfl
@[simp] theorem State.tickCc_slots (s : State) (cc : Nat) : (s.tickCc cc).slots = s.slots := rfl
@[simp] theorem State.tickCc_journal (s : State) (cc : Nat) : (s.tickCc cc).journal = s.journal := rfl
@[simp] theorem State.tickCc_sys (s : State) (cc : Nat) : (s.tickCc cc).sys = s.sys := rfl
@[simp] theorem State.tickCc_hostMem (s : State) (cc : Nat) : (s.tickCc cc).hostMem = s.hostMem := rfl
@[simp] theorem State.tickCc_pasids (s : State) (cc : Nat) : (s.tickCc cc).pasids = s.pasids := rfl
@[simp] theorem State.putFlit_agenda (s : State) (stop : Nat) (f : Flit) : (s.putFlit stop f).agenda = s.agenda := rfl
@[simp] theorem State.putFlit_cur (s : State) (stop : Nat) (f : Flit) : (s.putFlit stop f).cur = s.cur := rfl
@[simp] theorem State.putFlit_obj (s : State) (stop : Nat) (f : Flit) : (s.putFlit stop f).obj = s.obj := rfl
@[simp] theorem State.putFlit_fabric (s : State) (stop : Nat) (f : Flit) : (s.putFlit stop f).fabric = s.fabric := rfl
@[simp] theorem State.putFlit_cores (s : State) (stop : Nat) (f : Flit) : (s.putFlit stop f).cores = s.cores := rfl
@[simp] theorem State.putFlit_quads (s : State) (stop : Nat) (f : Flit) : (s.putFlit stop f).quads = s.quads := rfl
@[simp] theorem State.putFlit_dies (s : State) (stop : Nat) (f : Flit) : (s.putFlit stop f).dies = s.dies := rfl
@[simp] theorem State.putFlit_air (s : State) (stop : Nat) (f : Flit) : (s.putFlit stop f).air = s.air := rfl
@[simp] theorem State.putFlit_parts (s : State) (stop : Nat) (f : Flit) : (s.putFlit stop f).parts = s.parts := rfl
@[simp] theorem State.putFlit_uses (s : State) (stop : Nat) (f : Flit) : (s.putFlit stop f).uses = s.uses := rfl
@[simp] theorem State.putFlit_taken (s : State) (stop : Nat) (f : Flit) : (s.putFlit stop f).taken = s.taken := rfl
@[simp] theorem State.putFlit_homes (s : State) (stop : Nat) (f : Flit) : (s.putFlit stop f).homes = s.homes := rfl
@[simp] theorem State.putFlit_queues (s : State) (stop : Nat) (f : Flit) : (s.putFlit stop f).queues = s.queues := rfl
@[simp] theorem State.putFlit_slots (s : State) (stop : Nat) (f : Flit) : (s.putFlit stop f).slots = s.slots := rfl
@[simp] theorem State.putFlit_journal (s : State) (stop : Nat) (f : Flit) : (s.putFlit stop f).journal = s.journal := rfl
@[simp] theorem State.putFlit_sys (s : State) (stop : Nat) (f : Flit) : (s.putFlit stop f).sys = s.sys := rfl
@[simp] theorem State.putFlit_hostMem (s : State) (stop : Nat) (f : Flit) : (s.putFlit stop f).hostMem = s.hostMem := rfl
@[simp] theorem State.putFlit_pasids (s : State) (stop : Nat) (f : Flit) : (s.putFlit stop f).pasids = s.pasids := rfl
@[simp] theorem State.setPkt_agenda (s : State) (q seq : Nat) (f : Pkt → Pkt) : (s.setPkt q seq f).agenda = s.agenda := rfl
@[simp] theorem State.setPkt_cur (s : State) (q seq : Nat) (f : Pkt → Pkt) : (s.setPkt q seq f).cur = s.cur := rfl
@[simp] theorem State.setPkt_obj (s : State) (q seq : Nat) (f : Pkt → Pkt) : (s.setPkt q seq f).obj = s.obj := rfl
@[simp] theorem State.setPkt_fabric (s : State) (q seq : Nat) (f : Pkt → Pkt) : (s.setPkt q seq f).fabric = s.fabric := rfl
@[simp] theorem State.setPkt_cores (s : State) (q seq : Nat) (f : Pkt → Pkt) : (s.setPkt q seq f).cores = s.cores := rfl
@[simp] theorem State.setPkt_quads (s : State) (q seq : Nat) (f : Pkt → Pkt) : (s.setPkt q seq f).quads = s.quads := rfl
@[simp] theorem State.setPkt_dies (s : State) (q seq : Nat) (f : Pkt → Pkt) : (s.setPkt q seq f).dies = s.dies := rfl
@[simp] theorem State.setPkt_stops (s : State) (q seq : Nat) (f : Pkt → Pkt) : (s.setPkt q seq f).stops = s.stops := rfl
@[simp] theorem State.setPkt_air (s : State) (q seq : Nat) (f : Pkt → Pkt) : (s.setPkt q seq f).air = s.air := rfl
@[simp] theorem State.setPkt_parts (s : State) (q seq : Nat) (f : Pkt → Pkt) : (s.setPkt q seq f).parts = s.parts := rfl
@[simp] theorem State.setPkt_uses (s : State) (q seq : Nat) (f : Pkt → Pkt) : (s.setPkt q seq f).uses = s.uses := rfl
@[simp] theorem State.setPkt_taken (s : State) (q seq : Nat) (f : Pkt → Pkt) : (s.setPkt q seq f).taken = s.taken := rfl
@[simp] theorem State.setPkt_homes (s : State) (q seq : Nat) (f : Pkt → Pkt) : (s.setPkt q seq f).homes = s.homes := rfl
@[simp] theorem State.setPkt_slots (s : State) (q seq : Nat) (f : Pkt → Pkt) : (s.setPkt q seq f).slots = s.slots := rfl
@[simp] theorem State.setPkt_journal (s : State) (q seq : Nat) (f : Pkt → Pkt) : (s.setPkt q seq f).journal = s.journal := rfl
@[simp] theorem State.setPkt_sys (s : State) (q seq : Nat) (f : Pkt → Pkt) : (s.setPkt q seq f).sys = s.sys := rfl
@[simp] theorem State.setPkt_hostMem (s : State) (q seq : Nat) (f : Pkt → Pkt) : (s.setPkt q seq f).hostMem = s.hostMem := rfl
@[simp] theorem State.setPkt_pasids (s : State) (q seq : Nat) (f : Pkt → Pkt) : (s.setPkt q seq f).pasids = s.pasids := rfl
@[simp] theorem State.sendEvent_sys (s : State) (ty stop src : Nat) (payload : List Byte) :
    (s.sendEvent ty stop src payload).sys = { s.sys with events := s.sys.events ++ [⟨ty, stop, src, s.fabric, payload⟩] } := rfl
@[simp] theorem Core.setQ_ctx (c : Core) (e : Eng) (l : List Entry) : (c.setQ e l).ctx = c.ctx := rfl
@[simp] theorem Core.setQ_shadow (c : Core) (e : Eng) (l : List Entry) : (c.setQ e l).shadow = c.shadow := rfl
@[simp] theorem Core.setQ_pc (c : Core) (e : Eng) (l : List Entry) : (c.setQ e l).pc = c.pc := rfl
@[simp] theorem Core.setQ_seq (c : Core) (e : Eng) (l : List Entry) : (c.setQ e l).seq = c.seq := rfl
@[simp] theorem Core.setQ_was (c : Core) (e : Eng) (l : List Entry) : (c.setQ e l).was = c.was := rfl
@[simp] theorem Core.setQ_code (c : Core) (e : Eng) (l : List Entry) : (c.setQ e l).code = c.code := rfl
@[simp] theorem Core.setQ_nbundle (c : Core) (e : Eng) (l : List Entry) : (c.setQ e l).nbundle = c.nbundle := rfl
@[simp] theorem Core.setQ_consts (c : Core) (e : Eng) (l : List Entry) : (c.setQ e l).consts = c.consts := rfl
@[simp] theorem Core.setQ_codeGen (c : Core) (e : Eng) (l : List Entry) : (c.setQ e l).codeGen = c.codeGen := rfl
@[simp] theorem Core.setQ_slmap (c : Core) (e : Eng) (l : List Entry) : (c.setQ e l).slmap = c.slmap := rfl
@[simp] theorem Core.setQ_standId (c : Core) (e : Eng) (l : List Entry) : (c.setQ e l).standId = c.standId := rfl
@[simp] theorem Core.setQ_ncores (c : Core) (e : Eng) (l : List Entry) : (c.setQ e l).ncores = c.ncores := rfl
@[simp] theorem Core.setQ_lrank (c : Core) (e : Eng) (l : List Entry) : (c.setQ e l).lrank = c.lrank := rfl
@[simp] theorem Core.setQ_det (c : Core) (e : Eng) (l : List Entry) : (c.setQ e l).det = c.det := rfl
@[simp] theorem Core.setQ_disc (c : Core) (e : Eng) (l : List Entry) : (c.setQ e l).disc = c.disc := rfl
@[simp] theorem Core.setQ_part (c : Core) (e : Eng) (l : List Entry) : (c.setQ e l).part = c.part := rfl
@[simp] theorem Core.setQ_ssc (c : Core) (e : Eng) (l : List Entry) : (c.setQ e l).ssc = c.ssc := rfl
@[simp] theorem Core.setQ_ldq (c : Core) (e : Eng) (l : List Entry) : (c.setQ e l).ldq = c.ldq := rfl
@[simp] theorem Core.setQ_stq (c : Core) (e : Eng) (l : List Entry) : (c.setQ e l).stq = c.stq := rfl
@[simp] theorem Core.setQ_lda (c : Core) (e : Eng) (l : List Entry) : (c.setQ e l).lda = c.lda := rfl
@[simp] theorem Core.setQ_sta (c : Core) (e : Eng) (l : List Entry) : (c.setQ e l).sta = c.sta := rfl
@[simp] theorem Core.setQ_pends (c : Core) (e : Eng) (l : List Entry) : (c.setQ e l).pends = c.pends := rfl
@[simp] theorem Core.setQ_flights (c : Core) (e : Eng) (l : List Entry) : (c.setQ e l).flights = c.flights := rfl
@[simp] theorem Core.setQ_rep (c : Core) (e : Eng) (l : List Entry) : (c.setQ e l).rep = c.rep := rfl
@[simp] theorem Core.setQ_repNext (c : Core) (e : Eng) (l : List Entry) : (c.setQ e l).repNext = c.repNext := rfl
@[simp] theorem Core.setQ_resumeBreak (c : Core) (e : Eng) (l : List Entry) : (c.setQ e l).resumeBreak = c.resumeBreak := rfl
@[simp] theorem Core.setQ_scratch (c : Core) (e : Eng) (l : List Entry) : (c.setQ e l).scratch = c.scratch := rfl
@[simp] theorem Core.setQ_wq (c : Core) (e : Eng) (l : List Entry) : (c.setQ e l).wq = c.wq := rfl
@[simp] theorem Core.setQ_lnd (c : Core) (e : Eng) (l : List Entry) : (c.setQ e l).lnd = c.lnd := rfl
@[simp] theorem Core.setQ_jobs (c : Core) (e : Eng) (l : List Entry) : (c.setQ e l).jobs = c.jobs := rfl
@[simp] theorem Core.setQ_cards (c : Core) (e : Eng) (l : List Entry) : (c.setQ e l).cards = c.cards := rfl
@[simp] theorem Core.setQ_refused (c : Core) (e : Eng) (l : List Entry) : (c.setQ e l).refused = c.refused := rfl
@[simp] theorem Core.setQ_deferred (c : Core) (e : Eng) (l : List Entry) : (c.setQ e l).deferred = c.deferred := rfl
@[simp] theorem Core.setQ_arrivals (c : Core) (e : Eng) (l : List Entry) : (c.setQ e l).arrivals = c.arrivals := rfl
@[simp] theorem Core.setQ_breakpt (c : Core) (e : Eng) (l : List Entry) : (c.setQ e l).breakpt = c.breakpt := rfl
@[simp] theorem Core.setQ_trap (c : Core) (e : Eng) (l : List Entry) : (c.setQ e l).trap = c.trap := rfl
@[simp] theorem Core.setQ_capEmpty (c : Core) (e : Eng) (l : List Entry) : (c.setQ e l).capEmpty = c.capEmpty := rfl
@[simp] theorem Core.setQ_exitw (c : Core) (e : Eng) (l : List Entry) : (c.setQ e l).exitw = c.exitw := rfl
@[simp] theorem Core.setQ_exited (c : Core) (e : Eng) (l : List Entry) : (c.setQ e l).exited = c.exited := rfl
@[simp] theorem Core.setQ_beats (c : Core) (e : Eng) (l : List Entry) : (c.setQ e l).beats = c.beats := rfl
@[simp] theorem Core.setQ_bytes (c : Core) (e : Eng) (l : List Entry) : (c.setQ e l).bytes = c.bytes := rfl
@[simp] theorem Core.setQ_bad (c : Core) (e : Eng) (l : List Entry) : (c.setQ e l).bad = c.bad := rfl
@[simp] theorem Core.setQ_nextTag (c : Core) (e : Eng) (l : List Entry) : (c.setQ e l).nextTag = c.nextTag := rfl
@[simp] theorem Core.setQ_fresh (c : Core) (e : Eng) (l : List Entry) : (c.setQ e l).fresh = c.fresh := rfl
@[simp] theorem Core.popHead_ctx (c : Core) (e : Eng) : (c.popHead e).ctx = c.ctx := rfl
@[simp] theorem Core.popHead_shadow (c : Core) (e : Eng) : (c.popHead e).shadow = c.shadow := rfl
@[simp] theorem Core.popHead_pc (c : Core) (e : Eng) : (c.popHead e).pc = c.pc := rfl
@[simp] theorem Core.popHead_seq (c : Core) (e : Eng) : (c.popHead e).seq = c.seq := rfl
@[simp] theorem Core.popHead_was (c : Core) (e : Eng) : (c.popHead e).was = c.was := rfl
@[simp] theorem Core.popHead_code (c : Core) (e : Eng) : (c.popHead e).code = c.code := rfl
@[simp] theorem Core.popHead_nbundle (c : Core) (e : Eng) : (c.popHead e).nbundle = c.nbundle := rfl
@[simp] theorem Core.popHead_consts (c : Core) (e : Eng) : (c.popHead e).consts = c.consts := rfl
@[simp] theorem Core.popHead_codeGen (c : Core) (e : Eng) : (c.popHead e).codeGen = c.codeGen := rfl
@[simp] theorem Core.popHead_slmap (c : Core) (e : Eng) : (c.popHead e).slmap = c.slmap := rfl
@[simp] theorem Core.popHead_standId (c : Core) (e : Eng) : (c.popHead e).standId = c.standId := rfl
@[simp] theorem Core.popHead_ncores (c : Core) (e : Eng) : (c.popHead e).ncores = c.ncores := rfl
@[simp] theorem Core.popHead_lrank (c : Core) (e : Eng) : (c.popHead e).lrank = c.lrank := rfl
@[simp] theorem Core.popHead_det (c : Core) (e : Eng) : (c.popHead e).det = c.det := rfl
@[simp] theorem Core.popHead_disc (c : Core) (e : Eng) : (c.popHead e).disc = c.disc := rfl
@[simp] theorem Core.popHead_part (c : Core) (e : Eng) : (c.popHead e).part = c.part := rfl
@[simp] theorem Core.popHead_ssc (c : Core) (e : Eng) : (c.popHead e).ssc = c.ssc := rfl
@[simp] theorem Core.popHead_ldq (c : Core) (e : Eng) : (c.popHead e).ldq = c.ldq := rfl
@[simp] theorem Core.popHead_stq (c : Core) (e : Eng) : (c.popHead e).stq = c.stq := rfl
@[simp] theorem Core.popHead_lda (c : Core) (e : Eng) : (c.popHead e).lda = c.lda := rfl
@[simp] theorem Core.popHead_sta (c : Core) (e : Eng) : (c.popHead e).sta = c.sta := rfl
@[simp] theorem Core.popHead_pends (c : Core) (e : Eng) : (c.popHead e).pends = c.pends := rfl
@[simp] theorem Core.popHead_flights (c : Core) (e : Eng) : (c.popHead e).flights = c.flights := rfl
@[simp] theorem Core.popHead_rep (c : Core) (e : Eng) : (c.popHead e).rep = c.rep := rfl
@[simp] theorem Core.popHead_repNext (c : Core) (e : Eng) : (c.popHead e).repNext = c.repNext := rfl
@[simp] theorem Core.popHead_resumeBreak (c : Core) (e : Eng) : (c.popHead e).resumeBreak = c.resumeBreak := rfl
@[simp] theorem Core.popHead_scratch (c : Core) (e : Eng) : (c.popHead e).scratch = c.scratch := rfl
@[simp] theorem Core.popHead_wq (c : Core) (e : Eng) : (c.popHead e).wq = c.wq := rfl
@[simp] theorem Core.popHead_lnd (c : Core) (e : Eng) : (c.popHead e).lnd = c.lnd := rfl
@[simp] theorem Core.popHead_jobs (c : Core) (e : Eng) : (c.popHead e).jobs = c.jobs := rfl
@[simp] theorem Core.popHead_cards (c : Core) (e : Eng) : (c.popHead e).cards = c.cards := rfl
@[simp] theorem Core.popHead_refused (c : Core) (e : Eng) : (c.popHead e).refused = c.refused := rfl
@[simp] theorem Core.popHead_deferred (c : Core) (e : Eng) : (c.popHead e).deferred = c.deferred := rfl
@[simp] theorem Core.popHead_arrivals (c : Core) (e : Eng) : (c.popHead e).arrivals = c.arrivals := rfl
@[simp] theorem Core.popHead_breakpt (c : Core) (e : Eng) : (c.popHead e).breakpt = c.breakpt := rfl
@[simp] theorem Core.popHead_trap (c : Core) (e : Eng) : (c.popHead e).trap = c.trap := rfl
@[simp] theorem Core.popHead_capEmpty (c : Core) (e : Eng) : (c.popHead e).capEmpty = c.capEmpty := rfl
@[simp] theorem Core.popHead_exitw (c : Core) (e : Eng) : (c.popHead e).exitw = c.exitw := rfl
@[simp] theorem Core.popHead_exited (c : Core) (e : Eng) : (c.popHead e).exited = c.exited := rfl
@[simp] theorem Core.popHead_beats (c : Core) (e : Eng) : (c.popHead e).beats = c.beats := rfl
@[simp] theorem Core.popHead_bytes (c : Core) (e : Eng) : (c.popHead e).bytes = c.bytes := rfl
@[simp] theorem Core.popHead_bad (c : Core) (e : Eng) : (c.popHead e).bad = c.bad := rfl
@[simp] theorem Core.popHead_nextTag (c : Core) (e : Eng) : (c.popHead e).nextTag = c.nextTag := rfl
@[simp] theorem Core.popHead_fresh (c : Core) (e : Eng) : (c.popHead e).fresh = c.fresh := rfl
@[simp] theorem Core.setOp_shadow (c : Core) (e : Eng) (p : OPorts) : (c.setOp e p).shadow = c.shadow := rfl
@[simp] theorem Core.setOp_pc (c : Core) (e : Eng) (p : OPorts) : (c.setOp e p).pc = c.pc := rfl
@[simp] theorem Core.setOp_seq (c : Core) (e : Eng) (p : OPorts) : (c.setOp e p).seq = c.seq := rfl
@[simp] theorem Core.setOp_was (c : Core) (e : Eng) (p : OPorts) : (c.setOp e p).was = c.was := rfl
@[simp] theorem Core.setOp_code (c : Core) (e : Eng) (p : OPorts) : (c.setOp e p).code = c.code := rfl
@[simp] theorem Core.setOp_nbundle (c : Core) (e : Eng) (p : OPorts) : (c.setOp e p).nbundle = c.nbundle := rfl
@[simp] theorem Core.setOp_consts (c : Core) (e : Eng) (p : OPorts) : (c.setOp e p).consts = c.consts := rfl
@[simp] theorem Core.setOp_codeGen (c : Core) (e : Eng) (p : OPorts) : (c.setOp e p).codeGen = c.codeGen := rfl
@[simp] theorem Core.setOp_slmap (c : Core) (e : Eng) (p : OPorts) : (c.setOp e p).slmap = c.slmap := rfl
@[simp] theorem Core.setOp_standId (c : Core) (e : Eng) (p : OPorts) : (c.setOp e p).standId = c.standId := rfl
@[simp] theorem Core.setOp_ncores (c : Core) (e : Eng) (p : OPorts) : (c.setOp e p).ncores = c.ncores := rfl
@[simp] theorem Core.setOp_lrank (c : Core) (e : Eng) (p : OPorts) : (c.setOp e p).lrank = c.lrank := rfl
@[simp] theorem Core.setOp_det (c : Core) (e : Eng) (p : OPorts) : (c.setOp e p).det = c.det := rfl
@[simp] theorem Core.setOp_disc (c : Core) (e : Eng) (p : OPorts) : (c.setOp e p).disc = c.disc := rfl
@[simp] theorem Core.setOp_part (c : Core) (e : Eng) (p : OPorts) : (c.setOp e p).part = c.part := rfl
@[simp] theorem Core.setOp_ssc (c : Core) (e : Eng) (p : OPorts) : (c.setOp e p).ssc = c.ssc := rfl
@[simp] theorem Core.setOp_qs (c : Core) (e : Eng) (p : OPorts) : (c.setOp e p).qs = c.qs := rfl
@[simp] theorem Core.setOp_ldq (c : Core) (e : Eng) (p : OPorts) : (c.setOp e p).ldq = c.ldq := rfl
@[simp] theorem Core.setOp_stq (c : Core) (e : Eng) (p : OPorts) : (c.setOp e p).stq = c.stq := rfl
@[simp] theorem Core.setOp_lda (c : Core) (e : Eng) (p : OPorts) : (c.setOp e p).lda = c.lda := rfl
@[simp] theorem Core.setOp_sta (c : Core) (e : Eng) (p : OPorts) : (c.setOp e p).sta = c.sta := rfl
@[simp] theorem Core.setOp_pends (c : Core) (e : Eng) (p : OPorts) : (c.setOp e p).pends = c.pends := rfl
@[simp] theorem Core.setOp_flights (c : Core) (e : Eng) (p : OPorts) : (c.setOp e p).flights = c.flights := rfl
@[simp] theorem Core.setOp_rep (c : Core) (e : Eng) (p : OPorts) : (c.setOp e p).rep = c.rep := rfl
@[simp] theorem Core.setOp_repNext (c : Core) (e : Eng) (p : OPorts) : (c.setOp e p).repNext = c.repNext := rfl
@[simp] theorem Core.setOp_resumeBreak (c : Core) (e : Eng) (p : OPorts) : (c.setOp e p).resumeBreak = c.resumeBreak := rfl
@[simp] theorem Core.setOp_scratch (c : Core) (e : Eng) (p : OPorts) : (c.setOp e p).scratch = c.scratch := rfl
@[simp] theorem Core.setOp_wq (c : Core) (e : Eng) (p : OPorts) : (c.setOp e p).wq = c.wq := rfl
@[simp] theorem Core.setOp_lnd (c : Core) (e : Eng) (p : OPorts) : (c.setOp e p).lnd = c.lnd := rfl
@[simp] theorem Core.setOp_jobs (c : Core) (e : Eng) (p : OPorts) : (c.setOp e p).jobs = c.jobs := rfl
@[simp] theorem Core.setOp_cards (c : Core) (e : Eng) (p : OPorts) : (c.setOp e p).cards = c.cards := rfl
@[simp] theorem Core.setOp_refused (c : Core) (e : Eng) (p : OPorts) : (c.setOp e p).refused = c.refused := rfl
@[simp] theorem Core.setOp_deferred (c : Core) (e : Eng) (p : OPorts) : (c.setOp e p).deferred = c.deferred := rfl
@[simp] theorem Core.setOp_arrivals (c : Core) (e : Eng) (p : OPorts) : (c.setOp e p).arrivals = c.arrivals := rfl
@[simp] theorem Core.setOp_breakpt (c : Core) (e : Eng) (p : OPorts) : (c.setOp e p).breakpt = c.breakpt := rfl
@[simp] theorem Core.setOp_trap (c : Core) (e : Eng) (p : OPorts) : (c.setOp e p).trap = c.trap := rfl
@[simp] theorem Core.setOp_capEmpty (c : Core) (e : Eng) (p : OPorts) : (c.setOp e p).capEmpty = c.capEmpty := rfl
@[simp] theorem Core.setOp_exitw (c : Core) (e : Eng) (p : OPorts) : (c.setOp e p).exitw = c.exitw := rfl
@[simp] theorem Core.setOp_exited (c : Core) (e : Eng) (p : OPorts) : (c.setOp e p).exited = c.exited := rfl
@[simp] theorem Core.setOp_beats (c : Core) (e : Eng) (p : OPorts) : (c.setOp e p).beats = c.beats := rfl
@[simp] theorem Core.setOp_bytes (c : Core) (e : Eng) (p : OPorts) : (c.setOp e p).bytes = c.bytes := rfl
@[simp] theorem Core.setOp_bad (c : Core) (e : Eng) (p : OPorts) : (c.setOp e p).bad = c.bad := rfl
@[simp] theorem Core.setOp_nextTag (c : Core) (e : Eng) (p : OPorts) : (c.setOp e p).nextTag = c.nextTag := rfl
@[simp] theorem Core.setOp_fresh (c : Core) (e : Eng) (p : OPorts) : (c.setOp e p).fresh = c.fresh := rfl
@[simp] theorem Core.setPort_shadow (c : Core) (p : RPort) (x : PCell) : (c.setPort p x).shadow = c.shadow := rfl
@[simp] theorem Core.setPort_pc (c : Core) (p : RPort) (x : PCell) : (c.setPort p x).pc = c.pc := rfl
@[simp] theorem Core.setPort_seq (c : Core) (p : RPort) (x : PCell) : (c.setPort p x).seq = c.seq := rfl
@[simp] theorem Core.setPort_was (c : Core) (p : RPort) (x : PCell) : (c.setPort p x).was = c.was := rfl
@[simp] theorem Core.setPort_code (c : Core) (p : RPort) (x : PCell) : (c.setPort p x).code = c.code := rfl
@[simp] theorem Core.setPort_nbundle (c : Core) (p : RPort) (x : PCell) : (c.setPort p x).nbundle = c.nbundle := rfl
@[simp] theorem Core.setPort_consts (c : Core) (p : RPort) (x : PCell) : (c.setPort p x).consts = c.consts := rfl
@[simp] theorem Core.setPort_codeGen (c : Core) (p : RPort) (x : PCell) : (c.setPort p x).codeGen = c.codeGen := rfl
@[simp] theorem Core.setPort_slmap (c : Core) (p : RPort) (x : PCell) : (c.setPort p x).slmap = c.slmap := rfl
@[simp] theorem Core.setPort_standId (c : Core) (p : RPort) (x : PCell) : (c.setPort p x).standId = c.standId := rfl
@[simp] theorem Core.setPort_ncores (c : Core) (p : RPort) (x : PCell) : (c.setPort p x).ncores = c.ncores := rfl
@[simp] theorem Core.setPort_lrank (c : Core) (p : RPort) (x : PCell) : (c.setPort p x).lrank = c.lrank := rfl
@[simp] theorem Core.setPort_det (c : Core) (p : RPort) (x : PCell) : (c.setPort p x).det = c.det := rfl
@[simp] theorem Core.setPort_disc (c : Core) (p : RPort) (x : PCell) : (c.setPort p x).disc = c.disc := rfl
@[simp] theorem Core.setPort_part (c : Core) (p : RPort) (x : PCell) : (c.setPort p x).part = c.part := rfl
@[simp] theorem Core.setPort_ssc (c : Core) (p : RPort) (x : PCell) : (c.setPort p x).ssc = c.ssc := rfl
@[simp] theorem Core.setPort_qs (c : Core) (p : RPort) (x : PCell) : (c.setPort p x).qs = c.qs := rfl
@[simp] theorem Core.setPort_ldq (c : Core) (p : RPort) (x : PCell) : (c.setPort p x).ldq = c.ldq := rfl
@[simp] theorem Core.setPort_stq (c : Core) (p : RPort) (x : PCell) : (c.setPort p x).stq = c.stq := rfl
@[simp] theorem Core.setPort_lda (c : Core) (p : RPort) (x : PCell) : (c.setPort p x).lda = c.lda := rfl
@[simp] theorem Core.setPort_sta (c : Core) (p : RPort) (x : PCell) : (c.setPort p x).sta = c.sta := rfl
@[simp] theorem Core.setPort_pends (c : Core) (p : RPort) (x : PCell) : (c.setPort p x).pends = c.pends := rfl
@[simp] theorem Core.setPort_flights (c : Core) (p : RPort) (x : PCell) : (c.setPort p x).flights = c.flights := rfl
@[simp] theorem Core.setPort_rep (c : Core) (p : RPort) (x : PCell) : (c.setPort p x).rep = c.rep := rfl
@[simp] theorem Core.setPort_repNext (c : Core) (p : RPort) (x : PCell) : (c.setPort p x).repNext = c.repNext := rfl
@[simp] theorem Core.setPort_resumeBreak (c : Core) (p : RPort) (x : PCell) : (c.setPort p x).resumeBreak = c.resumeBreak := rfl
@[simp] theorem Core.setPort_scratch (c : Core) (p : RPort) (x : PCell) : (c.setPort p x).scratch = c.scratch := rfl
@[simp] theorem Core.setPort_wq (c : Core) (p : RPort) (x : PCell) : (c.setPort p x).wq = c.wq := rfl
@[simp] theorem Core.setPort_lnd (c : Core) (p : RPort) (x : PCell) : (c.setPort p x).lnd = c.lnd := rfl
@[simp] theorem Core.setPort_jobs (c : Core) (p : RPort) (x : PCell) : (c.setPort p x).jobs = c.jobs := rfl
@[simp] theorem Core.setPort_cards (c : Core) (p : RPort) (x : PCell) : (c.setPort p x).cards = c.cards := rfl
@[simp] theorem Core.setPort_refused (c : Core) (p : RPort) (x : PCell) : (c.setPort p x).refused = c.refused := rfl
@[simp] theorem Core.setPort_deferred (c : Core) (p : RPort) (x : PCell) : (c.setPort p x).deferred = c.deferred := rfl
@[simp] theorem Core.setPort_arrivals (c : Core) (p : RPort) (x : PCell) : (c.setPort p x).arrivals = c.arrivals := rfl
@[simp] theorem Core.setPort_breakpt (c : Core) (p : RPort) (x : PCell) : (c.setPort p x).breakpt = c.breakpt := rfl
@[simp] theorem Core.setPort_trap (c : Core) (p : RPort) (x : PCell) : (c.setPort p x).trap = c.trap := rfl
@[simp] theorem Core.setPort_capEmpty (c : Core) (p : RPort) (x : PCell) : (c.setPort p x).capEmpty = c.capEmpty := rfl
@[simp] theorem Core.setPort_exitw (c : Core) (p : RPort) (x : PCell) : (c.setPort p x).exitw = c.exitw := rfl
@[simp] theorem Core.setPort_exited (c : Core) (p : RPort) (x : PCell) : (c.setPort p x).exited = c.exited := rfl
@[simp] theorem Core.setPort_beats (c : Core) (p : RPort) (x : PCell) : (c.setPort p x).beats = c.beats := rfl
@[simp] theorem Core.setPort_bytes (c : Core) (p : RPort) (x : PCell) : (c.setPort p x).bytes = c.bytes := rfl
@[simp] theorem Core.setPort_bad (c : Core) (p : RPort) (x : PCell) : (c.setPort p x).bad = c.bad := rfl
@[simp] theorem Core.setPort_nextTag (c : Core) (p : RPort) (x : PCell) : (c.setPort p x).nextTag = c.nextTag := rfl
@[simp] theorem Core.setPort_fresh (c : Core) (p : RPort) (x : PCell) : (c.setPort p x).fresh = c.fresh := rfl
@[simp] theorem Core.setCtlR_shadow (c : Core) (v : Word) : (c.setCtlR v).shadow = c.shadow := rfl
@[simp] theorem Core.setCtlR_pc (c : Core) (v : Word) : (c.setCtlR v).pc = c.pc := rfl
@[simp] theorem Core.setCtlR_seq (c : Core) (v : Word) : (c.setCtlR v).seq = c.seq := rfl
@[simp] theorem Core.setCtlR_was (c : Core) (v : Word) : (c.setCtlR v).was = c.was := rfl
@[simp] theorem Core.setCtlR_code (c : Core) (v : Word) : (c.setCtlR v).code = c.code := rfl
@[simp] theorem Core.setCtlR_nbundle (c : Core) (v : Word) : (c.setCtlR v).nbundle = c.nbundle := rfl
@[simp] theorem Core.setCtlR_consts (c : Core) (v : Word) : (c.setCtlR v).consts = c.consts := rfl
@[simp] theorem Core.setCtlR_codeGen (c : Core) (v : Word) : (c.setCtlR v).codeGen = c.codeGen := rfl
@[simp] theorem Core.setCtlR_slmap (c : Core) (v : Word) : (c.setCtlR v).slmap = c.slmap := rfl
@[simp] theorem Core.setCtlR_standId (c : Core) (v : Word) : (c.setCtlR v).standId = c.standId := rfl
@[simp] theorem Core.setCtlR_ncores (c : Core) (v : Word) : (c.setCtlR v).ncores = c.ncores := rfl
@[simp] theorem Core.setCtlR_lrank (c : Core) (v : Word) : (c.setCtlR v).lrank = c.lrank := rfl
@[simp] theorem Core.setCtlR_det (c : Core) (v : Word) : (c.setCtlR v).det = c.det := rfl
@[simp] theorem Core.setCtlR_disc (c : Core) (v : Word) : (c.setCtlR v).disc = c.disc := rfl
@[simp] theorem Core.setCtlR_part (c : Core) (v : Word) : (c.setCtlR v).part = c.part := rfl
@[simp] theorem Core.setCtlR_ssc (c : Core) (v : Word) : (c.setCtlR v).ssc = c.ssc := rfl
@[simp] theorem Core.setCtlR_qs (c : Core) (v : Word) : (c.setCtlR v).qs = c.qs := rfl
@[simp] theorem Core.setCtlR_ldq (c : Core) (v : Word) : (c.setCtlR v).ldq = c.ldq := rfl
@[simp] theorem Core.setCtlR_stq (c : Core) (v : Word) : (c.setCtlR v).stq = c.stq := rfl
@[simp] theorem Core.setCtlR_lda (c : Core) (v : Word) : (c.setCtlR v).lda = c.lda := rfl
@[simp] theorem Core.setCtlR_sta (c : Core) (v : Word) : (c.setCtlR v).sta = c.sta := rfl
@[simp] theorem Core.setCtlR_pends (c : Core) (v : Word) : (c.setCtlR v).pends = c.pends := rfl
@[simp] theorem Core.setCtlR_flights (c : Core) (v : Word) : (c.setCtlR v).flights = c.flights := rfl
@[simp] theorem Core.setCtlR_rep (c : Core) (v : Word) : (c.setCtlR v).rep = c.rep := rfl
@[simp] theorem Core.setCtlR_repNext (c : Core) (v : Word) : (c.setCtlR v).repNext = c.repNext := rfl
@[simp] theorem Core.setCtlR_resumeBreak (c : Core) (v : Word) : (c.setCtlR v).resumeBreak = c.resumeBreak := rfl
@[simp] theorem Core.setCtlR_scratch (c : Core) (v : Word) : (c.setCtlR v).scratch = c.scratch := rfl
@[simp] theorem Core.setCtlR_wq (c : Core) (v : Word) : (c.setCtlR v).wq = c.wq := rfl
@[simp] theorem Core.setCtlR_lnd (c : Core) (v : Word) : (c.setCtlR v).lnd = c.lnd := rfl
@[simp] theorem Core.setCtlR_jobs (c : Core) (v : Word) : (c.setCtlR v).jobs = c.jobs := rfl
@[simp] theorem Core.setCtlR_cards (c : Core) (v : Word) : (c.setCtlR v).cards = c.cards := rfl
@[simp] theorem Core.setCtlR_refused (c : Core) (v : Word) : (c.setCtlR v).refused = c.refused := rfl
@[simp] theorem Core.setCtlR_deferred (c : Core) (v : Word) : (c.setCtlR v).deferred = c.deferred := rfl
@[simp] theorem Core.setCtlR_arrivals (c : Core) (v : Word) : (c.setCtlR v).arrivals = c.arrivals := rfl
@[simp] theorem Core.setCtlR_breakpt (c : Core) (v : Word) : (c.setCtlR v).breakpt = c.breakpt := rfl
@[simp] theorem Core.setCtlR_trap (c : Core) (v : Word) : (c.setCtlR v).trap = c.trap := rfl
@[simp] theorem Core.setCtlR_capEmpty (c : Core) (v : Word) : (c.setCtlR v).capEmpty = c.capEmpty := rfl
@[simp] theorem Core.setCtlR_exitw (c : Core) (v : Word) : (c.setCtlR v).exitw = c.exitw := rfl
@[simp] theorem Core.setCtlR_exited (c : Core) (v : Word) : (c.setCtlR v).exited = c.exited := rfl
@[simp] theorem Core.setCtlR_beats (c : Core) (v : Word) : (c.setCtlR v).beats = c.beats := rfl
@[simp] theorem Core.setCtlR_bytes (c : Core) (v : Word) : (c.setCtlR v).bytes = c.bytes := rfl
@[simp] theorem Core.setCtlR_bad (c : Core) (v : Word) : (c.setCtlR v).bad = c.bad := rfl
@[simp] theorem Core.setCtlR_nextTag (c : Core) (v : Word) : (c.setCtlR v).nextTag = c.nextTag := rfl
@[simp] theorem Core.setCtlR_fresh (c : Core) (v : Word) : (c.setCtlR v).fresh = c.fresh := rfl
@[simp] theorem Core.setGuard_shadow (c : Core) (b : Word) (v : Bool) : (c.setGuard b v).shadow = c.shadow := rfl
@[simp] theorem Core.setGuard_pc (c : Core) (b : Word) (v : Bool) : (c.setGuard b v).pc = c.pc := rfl
@[simp] theorem Core.setGuard_seq (c : Core) (b : Word) (v : Bool) : (c.setGuard b v).seq = c.seq := rfl
@[simp] theorem Core.setGuard_was (c : Core) (b : Word) (v : Bool) : (c.setGuard b v).was = c.was := rfl
@[simp] theorem Core.setGuard_code (c : Core) (b : Word) (v : Bool) : (c.setGuard b v).code = c.code := rfl
@[simp] theorem Core.setGuard_nbundle (c : Core) (b : Word) (v : Bool) : (c.setGuard b v).nbundle = c.nbundle := rfl
@[simp] theorem Core.setGuard_consts (c : Core) (b : Word) (v : Bool) : (c.setGuard b v).consts = c.consts := rfl
@[simp] theorem Core.setGuard_codeGen (c : Core) (b : Word) (v : Bool) : (c.setGuard b v).codeGen = c.codeGen := rfl
@[simp] theorem Core.setGuard_slmap (c : Core) (b : Word) (v : Bool) : (c.setGuard b v).slmap = c.slmap := rfl
@[simp] theorem Core.setGuard_standId (c : Core) (b : Word) (v : Bool) : (c.setGuard b v).standId = c.standId := rfl
@[simp] theorem Core.setGuard_ncores (c : Core) (b : Word) (v : Bool) : (c.setGuard b v).ncores = c.ncores := rfl
@[simp] theorem Core.setGuard_lrank (c : Core) (b : Word) (v : Bool) : (c.setGuard b v).lrank = c.lrank := rfl
@[simp] theorem Core.setGuard_det (c : Core) (b : Word) (v : Bool) : (c.setGuard b v).det = c.det := rfl
@[simp] theorem Core.setGuard_disc (c : Core) (b : Word) (v : Bool) : (c.setGuard b v).disc = c.disc := rfl
@[simp] theorem Core.setGuard_part (c : Core) (b : Word) (v : Bool) : (c.setGuard b v).part = c.part := rfl
@[simp] theorem Core.setGuard_ssc (c : Core) (b : Word) (v : Bool) : (c.setGuard b v).ssc = c.ssc := rfl
@[simp] theorem Core.setGuard_qs (c : Core) (b : Word) (v : Bool) : (c.setGuard b v).qs = c.qs := rfl
@[simp] theorem Core.setGuard_ldq (c : Core) (b : Word) (v : Bool) : (c.setGuard b v).ldq = c.ldq := rfl
@[simp] theorem Core.setGuard_stq (c : Core) (b : Word) (v : Bool) : (c.setGuard b v).stq = c.stq := rfl
@[simp] theorem Core.setGuard_lda (c : Core) (b : Word) (v : Bool) : (c.setGuard b v).lda = c.lda := rfl
@[simp] theorem Core.setGuard_sta (c : Core) (b : Word) (v : Bool) : (c.setGuard b v).sta = c.sta := rfl
@[simp] theorem Core.setGuard_flights (c : Core) (b : Word) (v : Bool) : (c.setGuard b v).flights = c.flights := rfl
@[simp] theorem Core.setGuard_rep (c : Core) (b : Word) (v : Bool) : (c.setGuard b v).rep = c.rep := rfl
@[simp] theorem Core.setGuard_repNext (c : Core) (b : Word) (v : Bool) : (c.setGuard b v).repNext = c.repNext := rfl
@[simp] theorem Core.setGuard_resumeBreak (c : Core) (b : Word) (v : Bool) : (c.setGuard b v).resumeBreak = c.resumeBreak := rfl
@[simp] theorem Core.setGuard_scratch (c : Core) (b : Word) (v : Bool) : (c.setGuard b v).scratch = c.scratch := rfl
@[simp] theorem Core.setGuard_wq (c : Core) (b : Word) (v : Bool) : (c.setGuard b v).wq = c.wq := rfl
@[simp] theorem Core.setGuard_lnd (c : Core) (b : Word) (v : Bool) : (c.setGuard b v).lnd = c.lnd := rfl
@[simp] theorem Core.setGuard_jobs (c : Core) (b : Word) (v : Bool) : (c.setGuard b v).jobs = c.jobs := rfl
@[simp] theorem Core.setGuard_cards (c : Core) (b : Word) (v : Bool) : (c.setGuard b v).cards = c.cards := rfl
@[simp] theorem Core.setGuard_refused (c : Core) (b : Word) (v : Bool) : (c.setGuard b v).refused = c.refused := rfl
@[simp] theorem Core.setGuard_deferred (c : Core) (b : Word) (v : Bool) : (c.setGuard b v).deferred = c.deferred := rfl
@[simp] theorem Core.setGuard_arrivals (c : Core) (b : Word) (v : Bool) : (c.setGuard b v).arrivals = c.arrivals := rfl
@[simp] theorem Core.setGuard_breakpt (c : Core) (b : Word) (v : Bool) : (c.setGuard b v).breakpt = c.breakpt := rfl
@[simp] theorem Core.setGuard_trap (c : Core) (b : Word) (v : Bool) : (c.setGuard b v).trap = c.trap := rfl
@[simp] theorem Core.setGuard_capEmpty (c : Core) (b : Word) (v : Bool) : (c.setGuard b v).capEmpty = c.capEmpty := rfl
@[simp] theorem Core.setGuard_exitw (c : Core) (b : Word) (v : Bool) : (c.setGuard b v).exitw = c.exitw := rfl
@[simp] theorem Core.setGuard_exited (c : Core) (b : Word) (v : Bool) : (c.setGuard b v).exited = c.exited := rfl
@[simp] theorem Core.setGuard_beats (c : Core) (b : Word) (v : Bool) : (c.setGuard b v).beats = c.beats := rfl
@[simp] theorem Core.setGuard_bytes (c : Core) (b : Word) (v : Bool) : (c.setGuard b v).bytes = c.bytes := rfl
@[simp] theorem Core.setGuard_bad (c : Core) (b : Word) (v : Bool) : (c.setGuard b v).bad = c.bad := rfl
@[simp] theorem Core.setGuard_nextTag (c : Core) (b : Word) (v : Bool) : (c.setGuard b v).nextTag = c.nextTag := rfl
@[simp] theorem Core.setGuard_fresh (c : Core) (b : Word) (v : Bool) : (c.setGuard b v).fresh = c.fresh := rfl
@[simp] theorem Core.setWide_shadow (c : Core) (u : VUnit) (k : Nat) (f : Nat → WLane) : (c.setWide u k f).shadow = c.shadow := rfl
@[simp] theorem Core.setWide_pc (c : Core) (u : VUnit) (k : Nat) (f : Nat → WLane) : (c.setWide u k f).pc = c.pc := rfl
@[simp] theorem Core.setWide_seq (c : Core) (u : VUnit) (k : Nat) (f : Nat → WLane) : (c.setWide u k f).seq = c.seq := rfl
@[simp] theorem Core.setWide_was (c : Core) (u : VUnit) (k : Nat) (f : Nat → WLane) : (c.setWide u k f).was = c.was := rfl
@[simp] theorem Core.setWide_code (c : Core) (u : VUnit) (k : Nat) (f : Nat → WLane) : (c.setWide u k f).code = c.code := rfl
@[simp] theorem Core.setWide_nbundle (c : Core) (u : VUnit) (k : Nat) (f : Nat → WLane) : (c.setWide u k f).nbundle = c.nbundle := rfl
@[simp] theorem Core.setWide_consts (c : Core) (u : VUnit) (k : Nat) (f : Nat → WLane) : (c.setWide u k f).consts = c.consts := rfl
@[simp] theorem Core.setWide_codeGen (c : Core) (u : VUnit) (k : Nat) (f : Nat → WLane) : (c.setWide u k f).codeGen = c.codeGen := rfl
@[simp] theorem Core.setWide_slmap (c : Core) (u : VUnit) (k : Nat) (f : Nat → WLane) : (c.setWide u k f).slmap = c.slmap := rfl
@[simp] theorem Core.setWide_standId (c : Core) (u : VUnit) (k : Nat) (f : Nat → WLane) : (c.setWide u k f).standId = c.standId := rfl
@[simp] theorem Core.setWide_ncores (c : Core) (u : VUnit) (k : Nat) (f : Nat → WLane) : (c.setWide u k f).ncores = c.ncores := rfl
@[simp] theorem Core.setWide_lrank (c : Core) (u : VUnit) (k : Nat) (f : Nat → WLane) : (c.setWide u k f).lrank = c.lrank := rfl
@[simp] theorem Core.setWide_det (c : Core) (u : VUnit) (k : Nat) (f : Nat → WLane) : (c.setWide u k f).det = c.det := rfl
@[simp] theorem Core.setWide_disc (c : Core) (u : VUnit) (k : Nat) (f : Nat → WLane) : (c.setWide u k f).disc = c.disc := rfl
@[simp] theorem Core.setWide_part (c : Core) (u : VUnit) (k : Nat) (f : Nat → WLane) : (c.setWide u k f).part = c.part := rfl
@[simp] theorem Core.setWide_ssc (c : Core) (u : VUnit) (k : Nat) (f : Nat → WLane) : (c.setWide u k f).ssc = c.ssc := rfl
@[simp] theorem Core.setWide_qs (c : Core) (u : VUnit) (k : Nat) (f : Nat → WLane) : (c.setWide u k f).qs = c.qs := rfl
@[simp] theorem Core.setWide_ldq (c : Core) (u : VUnit) (k : Nat) (f : Nat → WLane) : (c.setWide u k f).ldq = c.ldq := rfl
@[simp] theorem Core.setWide_stq (c : Core) (u : VUnit) (k : Nat) (f : Nat → WLane) : (c.setWide u k f).stq = c.stq := rfl
@[simp] theorem Core.setWide_lda (c : Core) (u : VUnit) (k : Nat) (f : Nat → WLane) : (c.setWide u k f).lda = c.lda := rfl
@[simp] theorem Core.setWide_sta (c : Core) (u : VUnit) (k : Nat) (f : Nat → WLane) : (c.setWide u k f).sta = c.sta := rfl
@[simp] theorem Core.setWide_pends (c : Core) (u : VUnit) (k : Nat) (f : Nat → WLane) : (c.setWide u k f).pends = c.pends := rfl
@[simp] theorem Core.setWide_flights (c : Core) (u : VUnit) (k : Nat) (f : Nat → WLane) : (c.setWide u k f).flights = c.flights := rfl
@[simp] theorem Core.setWide_rep (c : Core) (u : VUnit) (k : Nat) (f : Nat → WLane) : (c.setWide u k f).rep = c.rep := rfl
@[simp] theorem Core.setWide_repNext (c : Core) (u : VUnit) (k : Nat) (f : Nat → WLane) : (c.setWide u k f).repNext = c.repNext := rfl
@[simp] theorem Core.setWide_resumeBreak (c : Core) (u : VUnit) (k : Nat) (f : Nat → WLane) : (c.setWide u k f).resumeBreak = c.resumeBreak := rfl
@[simp] theorem Core.setWide_scratch (c : Core) (u : VUnit) (k : Nat) (f : Nat → WLane) : (c.setWide u k f).scratch = c.scratch := rfl
@[simp] theorem Core.setWide_wq (c : Core) (u : VUnit) (k : Nat) (f : Nat → WLane) : (c.setWide u k f).wq = c.wq := rfl
@[simp] theorem Core.setWide_lnd (c : Core) (u : VUnit) (k : Nat) (f : Nat → WLane) : (c.setWide u k f).lnd = c.lnd := rfl
@[simp] theorem Core.setWide_jobs (c : Core) (u : VUnit) (k : Nat) (f : Nat → WLane) : (c.setWide u k f).jobs = c.jobs := rfl
@[simp] theorem Core.setWide_cards (c : Core) (u : VUnit) (k : Nat) (f : Nat → WLane) : (c.setWide u k f).cards = c.cards := rfl
@[simp] theorem Core.setWide_refused (c : Core) (u : VUnit) (k : Nat) (f : Nat → WLane) : (c.setWide u k f).refused = c.refused := rfl
@[simp] theorem Core.setWide_deferred (c : Core) (u : VUnit) (k : Nat) (f : Nat → WLane) : (c.setWide u k f).deferred = c.deferred := rfl
@[simp] theorem Core.setWide_arrivals (c : Core) (u : VUnit) (k : Nat) (f : Nat → WLane) : (c.setWide u k f).arrivals = c.arrivals := rfl
@[simp] theorem Core.setWide_breakpt (c : Core) (u : VUnit) (k : Nat) (f : Nat → WLane) : (c.setWide u k f).breakpt = c.breakpt := rfl
@[simp] theorem Core.setWide_trap (c : Core) (u : VUnit) (k : Nat) (f : Nat → WLane) : (c.setWide u k f).trap = c.trap := rfl
@[simp] theorem Core.setWide_capEmpty (c : Core) (u : VUnit) (k : Nat) (f : Nat → WLane) : (c.setWide u k f).capEmpty = c.capEmpty := rfl
@[simp] theorem Core.setWide_exitw (c : Core) (u : VUnit) (k : Nat) (f : Nat → WLane) : (c.setWide u k f).exitw = c.exitw := rfl
@[simp] theorem Core.setWide_exited (c : Core) (u : VUnit) (k : Nat) (f : Nat → WLane) : (c.setWide u k f).exited = c.exited := rfl
@[simp] theorem Core.setWide_beats (c : Core) (u : VUnit) (k : Nat) (f : Nat → WLane) : (c.setWide u k f).beats = c.beats := rfl
@[simp] theorem Core.setWide_bytes (c : Core) (u : VUnit) (k : Nat) (f : Nat → WLane) : (c.setWide u k f).bytes = c.bytes := rfl
@[simp] theorem Core.setWide_bad (c : Core) (u : VUnit) (k : Nat) (f : Nat → WLane) : (c.setWide u k f).bad = c.bad := rfl
@[simp] theorem Core.setWide_nextTag (c : Core) (u : VUnit) (k : Nat) (f : Nat → WLane) : (c.setWide u k f).nextTag = c.nextTag := rfl
@[simp] theorem Core.setWide_fresh (c : Core) (u : VUnit) (k : Nat) (f : Nat → WLane) : (c.setWide u k f).fresh = c.fresh := rfl
@[simp] theorem Core.launchResult_ctx (c : Core) (en : Entry) (e : Eng) (p : Option RPort) (v : Val) (f : Byte) (div : Bool) : (c.launchResult en e p v f div).ctx = c.ctx := rfl
@[simp] theorem Core.launchResult_shadow (c : Core) (en : Entry) (e : Eng) (p : Option RPort) (v : Val) (f : Byte) (div : Bool) : (c.launchResult en e p v f div).shadow = c.shadow := rfl
@[simp] theorem Core.launchResult_pc (c : Core) (en : Entry) (e : Eng) (p : Option RPort) (v : Val) (f : Byte) (div : Bool) : (c.launchResult en e p v f div).pc = c.pc := rfl
@[simp] theorem Core.launchResult_seq (c : Core) (en : Entry) (e : Eng) (p : Option RPort) (v : Val) (f : Byte) (div : Bool) : (c.launchResult en e p v f div).seq = c.seq := rfl
@[simp] theorem Core.launchResult_was (c : Core) (en : Entry) (e : Eng) (p : Option RPort) (v : Val) (f : Byte) (div : Bool) : (c.launchResult en e p v f div).was = c.was := rfl
@[simp] theorem Core.launchResult_code (c : Core) (en : Entry) (e : Eng) (p : Option RPort) (v : Val) (f : Byte) (div : Bool) : (c.launchResult en e p v f div).code = c.code := rfl
@[simp] theorem Core.launchResult_nbundle (c : Core) (en : Entry) (e : Eng) (p : Option RPort) (v : Val) (f : Byte) (div : Bool) : (c.launchResult en e p v f div).nbundle = c.nbundle := rfl
@[simp] theorem Core.launchResult_consts (c : Core) (en : Entry) (e : Eng) (p : Option RPort) (v : Val) (f : Byte) (div : Bool) : (c.launchResult en e p v f div).consts = c.consts := rfl
@[simp] theorem Core.launchResult_codeGen (c : Core) (en : Entry) (e : Eng) (p : Option RPort) (v : Val) (f : Byte) (div : Bool) : (c.launchResult en e p v f div).codeGen = c.codeGen := rfl
@[simp] theorem Core.launchResult_slmap (c : Core) (en : Entry) (e : Eng) (p : Option RPort) (v : Val) (f : Byte) (div : Bool) : (c.launchResult en e p v f div).slmap = c.slmap := rfl
@[simp] theorem Core.launchResult_standId (c : Core) (en : Entry) (e : Eng) (p : Option RPort) (v : Val) (f : Byte) (div : Bool) : (c.launchResult en e p v f div).standId = c.standId := rfl
@[simp] theorem Core.launchResult_ncores (c : Core) (en : Entry) (e : Eng) (p : Option RPort) (v : Val) (f : Byte) (div : Bool) : (c.launchResult en e p v f div).ncores = c.ncores := rfl
@[simp] theorem Core.launchResult_lrank (c : Core) (en : Entry) (e : Eng) (p : Option RPort) (v : Val) (f : Byte) (div : Bool) : (c.launchResult en e p v f div).lrank = c.lrank := rfl
@[simp] theorem Core.launchResult_det (c : Core) (en : Entry) (e : Eng) (p : Option RPort) (v : Val) (f : Byte) (div : Bool) : (c.launchResult en e p v f div).det = c.det := rfl
@[simp] theorem Core.launchResult_disc (c : Core) (en : Entry) (e : Eng) (p : Option RPort) (v : Val) (f : Byte) (div : Bool) : (c.launchResult en e p v f div).disc = c.disc := rfl
@[simp] theorem Core.launchResult_part (c : Core) (en : Entry) (e : Eng) (p : Option RPort) (v : Val) (f : Byte) (div : Bool) : (c.launchResult en e p v f div).part = c.part := rfl
@[simp] theorem Core.launchResult_ssc (c : Core) (en : Entry) (e : Eng) (p : Option RPort) (v : Val) (f : Byte) (div : Bool) : (c.launchResult en e p v f div).ssc = c.ssc := rfl
@[simp] theorem Core.launchResult_qs (c : Core) (en : Entry) (e : Eng) (p : Option RPort) (v : Val) (f : Byte) (div : Bool) : (c.launchResult en e p v f div).qs = c.qs := rfl
@[simp] theorem Core.launchResult_ldq (c : Core) (en : Entry) (e : Eng) (p : Option RPort) (v : Val) (f : Byte) (div : Bool) : (c.launchResult en e p v f div).ldq = c.ldq := rfl
@[simp] theorem Core.launchResult_stq (c : Core) (en : Entry) (e : Eng) (p : Option RPort) (v : Val) (f : Byte) (div : Bool) : (c.launchResult en e p v f div).stq = c.stq := rfl
@[simp] theorem Core.launchResult_lda (c : Core) (en : Entry) (e : Eng) (p : Option RPort) (v : Val) (f : Byte) (div : Bool) : (c.launchResult en e p v f div).lda = c.lda := rfl
@[simp] theorem Core.launchResult_sta (c : Core) (en : Entry) (e : Eng) (p : Option RPort) (v : Val) (f : Byte) (div : Bool) : (c.launchResult en e p v f div).sta = c.sta := rfl
@[simp] theorem Core.launchResult_pends (c : Core) (en : Entry) (e : Eng) (p : Option RPort) (v : Val) (f : Byte) (div : Bool) : (c.launchResult en e p v f div).pends = c.pends := rfl
@[simp] theorem Core.launchResult_rep (c : Core) (en : Entry) (e : Eng) (p : Option RPort) (v : Val) (f : Byte) (div : Bool) : (c.launchResult en e p v f div).rep = c.rep := rfl
@[simp] theorem Core.launchResult_repNext (c : Core) (en : Entry) (e : Eng) (p : Option RPort) (v : Val) (f : Byte) (div : Bool) : (c.launchResult en e p v f div).repNext = c.repNext := rfl
@[simp] theorem Core.launchResult_resumeBreak (c : Core) (en : Entry) (e : Eng) (p : Option RPort) (v : Val) (f : Byte) (div : Bool) : (c.launchResult en e p v f div).resumeBreak = c.resumeBreak := rfl
@[simp] theorem Core.launchResult_scratch (c : Core) (en : Entry) (e : Eng) (p : Option RPort) (v : Val) (f : Byte) (div : Bool) : (c.launchResult en e p v f div).scratch = c.scratch := rfl
@[simp] theorem Core.launchResult_wq (c : Core) (en : Entry) (e : Eng) (p : Option RPort) (v : Val) (f : Byte) (div : Bool) : (c.launchResult en e p v f div).wq = c.wq := rfl
@[simp] theorem Core.launchResult_lnd (c : Core) (en : Entry) (e : Eng) (p : Option RPort) (v : Val) (f : Byte) (div : Bool) : (c.launchResult en e p v f div).lnd = c.lnd := rfl
@[simp] theorem Core.launchResult_jobs (c : Core) (en : Entry) (e : Eng) (p : Option RPort) (v : Val) (f : Byte) (div : Bool) : (c.launchResult en e p v f div).jobs = c.jobs := rfl
@[simp] theorem Core.launchResult_cards (c : Core) (en : Entry) (e : Eng) (p : Option RPort) (v : Val) (f : Byte) (div : Bool) : (c.launchResult en e p v f div).cards = c.cards := rfl
@[simp] theorem Core.launchResult_refused (c : Core) (en : Entry) (e : Eng) (p : Option RPort) (v : Val) (f : Byte) (div : Bool) : (c.launchResult en e p v f div).refused = c.refused := rfl
@[simp] theorem Core.launchResult_deferred (c : Core) (en : Entry) (e : Eng) (p : Option RPort) (v : Val) (f : Byte) (div : Bool) : (c.launchResult en e p v f div).deferred = c.deferred := rfl
@[simp] theorem Core.launchResult_arrivals (c : Core) (en : Entry) (e : Eng) (p : Option RPort) (v : Val) (f : Byte) (div : Bool) : (c.launchResult en e p v f div).arrivals = c.arrivals := rfl
@[simp] theorem Core.launchResult_breakpt (c : Core) (en : Entry) (e : Eng) (p : Option RPort) (v : Val) (f : Byte) (div : Bool) : (c.launchResult en e p v f div).breakpt = c.breakpt := rfl
@[simp] theorem Core.launchResult_trap (c : Core) (en : Entry) (e : Eng) (p : Option RPort) (v : Val) (f : Byte) (div : Bool) : (c.launchResult en e p v f div).trap = c.trap := rfl
@[simp] theorem Core.launchResult_capEmpty (c : Core) (en : Entry) (e : Eng) (p : Option RPort) (v : Val) (f : Byte) (div : Bool) : (c.launchResult en e p v f div).capEmpty = c.capEmpty := rfl
@[simp] theorem Core.launchResult_exitw (c : Core) (en : Entry) (e : Eng) (p : Option RPort) (v : Val) (f : Byte) (div : Bool) : (c.launchResult en e p v f div).exitw = c.exitw := rfl
@[simp] theorem Core.launchResult_exited (c : Core) (en : Entry) (e : Eng) (p : Option RPort) (v : Val) (f : Byte) (div : Bool) : (c.launchResult en e p v f div).exited = c.exited := rfl
@[simp] theorem Core.launchResult_beats (c : Core) (en : Entry) (e : Eng) (p : Option RPort) (v : Val) (f : Byte) (div : Bool) : (c.launchResult en e p v f div).beats = c.beats := rfl
@[simp] theorem Core.launchResult_bytes (c : Core) (en : Entry) (e : Eng) (p : Option RPort) (v : Val) (f : Byte) (div : Bool) : (c.launchResult en e p v f div).bytes = c.bytes := rfl
@[simp] theorem Core.launchResult_bad (c : Core) (en : Entry) (e : Eng) (p : Option RPort) (v : Val) (f : Byte) (div : Bool) : (c.launchResult en e p v f div).bad = c.bad := rfl
@[simp] theorem Core.launchResult_nextTag (c : Core) (en : Entry) (e : Eng) (p : Option RPort) (v : Val) (f : Byte) (div : Bool) : (c.launchResult en e p v f div).nextTag = c.nextTag := rfl
@[simp] theorem Core.launchResult_fresh (c : Core) (en : Entry) (e : Eng) (p : Option RPort) (v : Val) (f : Byte) (div : Bool) : (c.launchResult en e p v f div).fresh = c.fresh := rfl
@[simp] theorem Core.freeze_ctx (c : Core) (f : Freeze) : (c.freeze f).ctx = c.ctx := rfl
@[simp] theorem Core.freeze_shadow (c : Core) (f : Freeze) : (c.freeze f).shadow = c.shadow := rfl
@[simp] theorem Core.freeze_pc (c : Core) (f : Freeze) : (c.freeze f).pc = c.pc := rfl
@[simp] theorem Core.freeze_was (c : Core) (f : Freeze) : (c.freeze f).was = c.was := rfl
@[simp] theorem Core.freeze_code (c : Core) (f : Freeze) : (c.freeze f).code = c.code := rfl
@[simp] theorem Core.freeze_nbundle (c : Core) (f : Freeze) : (c.freeze f).nbundle = c.nbundle := rfl
@[simp] theorem Core.freeze_consts (c : Core) (f : Freeze) : (c.freeze f).consts = c.consts := rfl
@[simp] theorem Core.freeze_codeGen (c : Core) (f : Freeze) : (c.freeze f).codeGen = c.codeGen := rfl
@[simp] theorem Core.freeze_slmap (c : Core) (f : Freeze) : (c.freeze f).slmap = c.slmap := rfl
@[simp] theorem Core.freeze_standId (c : Core) (f : Freeze) : (c.freeze f).standId = c.standId := rfl
@[simp] theorem Core.freeze_ncores (c : Core) (f : Freeze) : (c.freeze f).ncores = c.ncores := rfl
@[simp] theorem Core.freeze_lrank (c : Core) (f : Freeze) : (c.freeze f).lrank = c.lrank := rfl
@[simp] theorem Core.freeze_det (c : Core) (f : Freeze) : (c.freeze f).det = c.det := rfl
@[simp] theorem Core.freeze_disc (c : Core) (f : Freeze) : (c.freeze f).disc = c.disc := rfl
@[simp] theorem Core.freeze_part (c : Core) (f : Freeze) : (c.freeze f).part = c.part := rfl
@[simp] theorem Core.freeze_ssc (c : Core) (f : Freeze) : (c.freeze f).ssc = c.ssc := rfl
@[simp] theorem Core.freeze_qs (c : Core) (f : Freeze) : (c.freeze f).qs = c.qs := rfl
@[simp] theorem Core.freeze_ldq (c : Core) (f : Freeze) : (c.freeze f).ldq = c.ldq := rfl
@[simp] theorem Core.freeze_stq (c : Core) (f : Freeze) : (c.freeze f).stq = c.stq := rfl
@[simp] theorem Core.freeze_lda (c : Core) (f : Freeze) : (c.freeze f).lda = c.lda := rfl
@[simp] theorem Core.freeze_sta (c : Core) (f : Freeze) : (c.freeze f).sta = c.sta := rfl
@[simp] theorem Core.freeze_pends (c : Core) (f : Freeze) : (c.freeze f).pends = c.pends := rfl
@[simp] theorem Core.freeze_flights (c : Core) (f : Freeze) : (c.freeze f).flights = c.flights := rfl
@[simp] theorem Core.freeze_rep (c : Core) (f : Freeze) : (c.freeze f).rep = c.rep := rfl
@[simp] theorem Core.freeze_repNext (c : Core) (f : Freeze) : (c.freeze f).repNext = c.repNext := rfl
@[simp] theorem Core.freeze_resumeBreak (c : Core) (f : Freeze) : (c.freeze f).resumeBreak = c.resumeBreak := rfl
@[simp] theorem Core.freeze_scratch (c : Core) (f : Freeze) : (c.freeze f).scratch = c.scratch := rfl
@[simp] theorem Core.freeze_wq (c : Core) (f : Freeze) : (c.freeze f).wq = c.wq := rfl
@[simp] theorem Core.freeze_lnd (c : Core) (f : Freeze) : (c.freeze f).lnd = c.lnd := rfl
@[simp] theorem Core.freeze_jobs (c : Core) (f : Freeze) : (c.freeze f).jobs = c.jobs := rfl
@[simp] theorem Core.freeze_cards (c : Core) (f : Freeze) : (c.freeze f).cards = c.cards := rfl
@[simp] theorem Core.freeze_refused (c : Core) (f : Freeze) : (c.freeze f).refused = c.refused := rfl
@[simp] theorem Core.freeze_deferred (c : Core) (f : Freeze) : (c.freeze f).deferred = c.deferred := rfl
@[simp] theorem Core.freeze_arrivals (c : Core) (f : Freeze) : (c.freeze f).arrivals = c.arrivals := rfl
@[simp] theorem Core.freeze_breakpt (c : Core) (f : Freeze) : (c.freeze f).breakpt = c.breakpt := rfl
@[simp] theorem Core.freeze_trap (c : Core) (f : Freeze) : (c.freeze f).trap = c.trap := rfl
@[simp] theorem Core.freeze_capEmpty (c : Core) (f : Freeze) : (c.freeze f).capEmpty = c.capEmpty := rfl
@[simp] theorem Core.freeze_exitw (c : Core) (f : Freeze) : (c.freeze f).exitw = c.exitw := rfl
@[simp] theorem Core.freeze_exited (c : Core) (f : Freeze) : (c.freeze f).exited = c.exited := rfl
@[simp] theorem Core.freeze_beats (c : Core) (f : Freeze) : (c.freeze f).beats = c.beats := rfl
@[simp] theorem Core.freeze_bytes (c : Core) (f : Freeze) : (c.freeze f).bytes = c.bytes := rfl
@[simp] theorem Core.freeze_bad (c : Core) (f : Freeze) : (c.freeze f).bad = c.bad := rfl
@[simp] theorem Core.freeze_nextTag (c : Core) (f : Freeze) : (c.freeze f).nextTag = c.nextTag := rfl
@[simp] theorem Core.freeze_fresh (c : Core) (f : Freeze) : (c.freeze f).fresh = c.fresh := rfl
@[simp] theorem Core.wakeAll_shadow (c : Core) (w : Wait) (v : Val) : (c.wakeAll w v).shadow = c.shadow := rfl
@[simp] theorem Core.wakeAll_pc (c : Core) (w : Wait) (v : Val) : (c.wakeAll w v).pc = c.pc := rfl
@[simp] theorem Core.wakeAll_seq (c : Core) (w : Wait) (v : Val) : (c.wakeAll w v).seq = c.seq := rfl
@[simp] theorem Core.wakeAll_was (c : Core) (w : Wait) (v : Val) : (c.wakeAll w v).was = c.was := rfl
@[simp] theorem Core.wakeAll_code (c : Core) (w : Wait) (v : Val) : (c.wakeAll w v).code = c.code := rfl
@[simp] theorem Core.wakeAll_nbundle (c : Core) (w : Wait) (v : Val) : (c.wakeAll w v).nbundle = c.nbundle := rfl
@[simp] theorem Core.wakeAll_consts (c : Core) (w : Wait) (v : Val) : (c.wakeAll w v).consts = c.consts := rfl
@[simp] theorem Core.wakeAll_codeGen (c : Core) (w : Wait) (v : Val) : (c.wakeAll w v).codeGen = c.codeGen := rfl
@[simp] theorem Core.wakeAll_slmap (c : Core) (w : Wait) (v : Val) : (c.wakeAll w v).slmap = c.slmap := rfl
@[simp] theorem Core.wakeAll_standId (c : Core) (w : Wait) (v : Val) : (c.wakeAll w v).standId = c.standId := rfl
@[simp] theorem Core.wakeAll_ncores (c : Core) (w : Wait) (v : Val) : (c.wakeAll w v).ncores = c.ncores := rfl
@[simp] theorem Core.wakeAll_lrank (c : Core) (w : Wait) (v : Val) : (c.wakeAll w v).lrank = c.lrank := rfl
@[simp] theorem Core.wakeAll_det (c : Core) (w : Wait) (v : Val) : (c.wakeAll w v).det = c.det := rfl
@[simp] theorem Core.wakeAll_disc (c : Core) (w : Wait) (v : Val) : (c.wakeAll w v).disc = c.disc := rfl
@[simp] theorem Core.wakeAll_part (c : Core) (w : Wait) (v : Val) : (c.wakeAll w v).part = c.part := rfl
@[simp] theorem Core.wakeAll_ssc (c : Core) (w : Wait) (v : Val) : (c.wakeAll w v).ssc = c.ssc := rfl
@[simp] theorem Core.wakeAll_ldq (c : Core) (w : Wait) (v : Val) : (c.wakeAll w v).ldq = c.ldq := rfl
@[simp] theorem Core.wakeAll_stq (c : Core) (w : Wait) (v : Val) : (c.wakeAll w v).stq = c.stq := rfl
@[simp] theorem Core.wakeAll_lda (c : Core) (w : Wait) (v : Val) : (c.wakeAll w v).lda = c.lda := rfl
@[simp] theorem Core.wakeAll_sta (c : Core) (w : Wait) (v : Val) : (c.wakeAll w v).sta = c.sta := rfl
@[simp] theorem Core.wakeAll_flights (c : Core) (w : Wait) (v : Val) : (c.wakeAll w v).flights = c.flights := rfl
@[simp] theorem Core.wakeAll_rep (c : Core) (w : Wait) (v : Val) : (c.wakeAll w v).rep = c.rep := rfl
@[simp] theorem Core.wakeAll_repNext (c : Core) (w : Wait) (v : Val) : (c.wakeAll w v).repNext = c.repNext := rfl
@[simp] theorem Core.wakeAll_resumeBreak (c : Core) (w : Wait) (v : Val) : (c.wakeAll w v).resumeBreak = c.resumeBreak := rfl
@[simp] theorem Core.wakeAll_scratch (c : Core) (w : Wait) (v : Val) : (c.wakeAll w v).scratch = c.scratch := rfl
@[simp] theorem Core.wakeAll_wq (c : Core) (w : Wait) (v : Val) : (c.wakeAll w v).wq = c.wq := rfl
@[simp] theorem Core.wakeAll_lnd (c : Core) (w : Wait) (v : Val) : (c.wakeAll w v).lnd = c.lnd := rfl
@[simp] theorem Core.wakeAll_jobs (c : Core) (w : Wait) (v : Val) : (c.wakeAll w v).jobs = c.jobs := rfl
@[simp] theorem Core.wakeAll_cards (c : Core) (w : Wait) (v : Val) : (c.wakeAll w v).cards = c.cards := rfl
@[simp] theorem Core.wakeAll_refused (c : Core) (w : Wait) (v : Val) : (c.wakeAll w v).refused = c.refused := rfl
@[simp] theorem Core.wakeAll_deferred (c : Core) (w : Wait) (v : Val) : (c.wakeAll w v).deferred = c.deferred := rfl
@[simp] theorem Core.wakeAll_arrivals (c : Core) (w : Wait) (v : Val) : (c.wakeAll w v).arrivals = c.arrivals := rfl
@[simp] theorem Core.wakeAll_breakpt (c : Core) (w : Wait) (v : Val) : (c.wakeAll w v).breakpt = c.breakpt := rfl
@[simp] theorem Core.wakeAll_trap (c : Core) (w : Wait) (v : Val) : (c.wakeAll w v).trap = c.trap := rfl
@[simp] theorem Core.wakeAll_capEmpty (c : Core) (w : Wait) (v : Val) : (c.wakeAll w v).capEmpty = c.capEmpty := rfl
@[simp] theorem Core.wakeAll_exitw (c : Core) (w : Wait) (v : Val) : (c.wakeAll w v).exitw = c.exitw := rfl
@[simp] theorem Core.wakeAll_exited (c : Core) (w : Wait) (v : Val) : (c.wakeAll w v).exited = c.exited := rfl
@[simp] theorem Core.wakeAll_beats (c : Core) (w : Wait) (v : Val) : (c.wakeAll w v).beats = c.beats := rfl
@[simp] theorem Core.wakeAll_bytes (c : Core) (w : Wait) (v : Val) : (c.wakeAll w v).bytes = c.bytes := rfl
@[simp] theorem Core.wakeAll_bad (c : Core) (w : Wait) (v : Val) : (c.wakeAll w v).bad = c.bad := rfl
@[simp] theorem Core.wakeAll_nextTag (c : Core) (w : Wait) (v : Val) : (c.wakeAll w v).nextTag = c.nextTag := rfl
@[simp] theorem Core.wakeAll_fresh (c : Core) (w : Wait) (v : Val) : (c.wakeAll w v).fresh = c.fresh := rfl
@[simp] theorem Core.arrive_shadow (c : Core) (tag : Nat) (v : Val) : (c.arrive tag v).shadow = c.shadow := rfl
@[simp] theorem Core.arrive_pc (c : Core) (tag : Nat) (v : Val) : (c.arrive tag v).pc = c.pc := rfl
@[simp] theorem Core.arrive_seq (c : Core) (tag : Nat) (v : Val) : (c.arrive tag v).seq = c.seq := rfl
@[simp] theorem Core.arrive_was (c : Core) (tag : Nat) (v : Val) : (c.arrive tag v).was = c.was := rfl
@[simp] theorem Core.arrive_code (c : Core) (tag : Nat) (v : Val) : (c.arrive tag v).code = c.code := rfl
@[simp] theorem Core.arrive_nbundle (c : Core) (tag : Nat) (v : Val) : (c.arrive tag v).nbundle = c.nbundle := rfl
@[simp] theorem Core.arrive_consts (c : Core) (tag : Nat) (v : Val) : (c.arrive tag v).consts = c.consts := rfl
@[simp] theorem Core.arrive_codeGen (c : Core) (tag : Nat) (v : Val) : (c.arrive tag v).codeGen = c.codeGen := rfl
@[simp] theorem Core.arrive_slmap (c : Core) (tag : Nat) (v : Val) : (c.arrive tag v).slmap = c.slmap := rfl
@[simp] theorem Core.arrive_standId (c : Core) (tag : Nat) (v : Val) : (c.arrive tag v).standId = c.standId := rfl
@[simp] theorem Core.arrive_ncores (c : Core) (tag : Nat) (v : Val) : (c.arrive tag v).ncores = c.ncores := rfl
@[simp] theorem Core.arrive_lrank (c : Core) (tag : Nat) (v : Val) : (c.arrive tag v).lrank = c.lrank := rfl
@[simp] theorem Core.arrive_det (c : Core) (tag : Nat) (v : Val) : (c.arrive tag v).det = c.det := rfl
@[simp] theorem Core.arrive_disc (c : Core) (tag : Nat) (v : Val) : (c.arrive tag v).disc = c.disc := rfl
@[simp] theorem Core.arrive_part (c : Core) (tag : Nat) (v : Val) : (c.arrive tag v).part = c.part := rfl
@[simp] theorem Core.arrive_ssc (c : Core) (tag : Nat) (v : Val) : (c.arrive tag v).ssc = c.ssc := rfl
@[simp] theorem Core.arrive_ldq (c : Core) (tag : Nat) (v : Val) : (c.arrive tag v).ldq = c.ldq := rfl
@[simp] theorem Core.arrive_stq (c : Core) (tag : Nat) (v : Val) : (c.arrive tag v).stq = c.stq := rfl
@[simp] theorem Core.arrive_lda (c : Core) (tag : Nat) (v : Val) : (c.arrive tag v).lda = c.lda := rfl
@[simp] theorem Core.arrive_sta (c : Core) (tag : Nat) (v : Val) : (c.arrive tag v).sta = c.sta := rfl
@[simp] theorem Core.arrive_flights (c : Core) (tag : Nat) (v : Val) : (c.arrive tag v).flights = c.flights := rfl
@[simp] theorem Core.arrive_rep (c : Core) (tag : Nat) (v : Val) : (c.arrive tag v).rep = c.rep := rfl
@[simp] theorem Core.arrive_repNext (c : Core) (tag : Nat) (v : Val) : (c.arrive tag v).repNext = c.repNext := rfl
@[simp] theorem Core.arrive_resumeBreak (c : Core) (tag : Nat) (v : Val) : (c.arrive tag v).resumeBreak = c.resumeBreak := rfl
@[simp] theorem Core.arrive_scratch (c : Core) (tag : Nat) (v : Val) : (c.arrive tag v).scratch = c.scratch := rfl
@[simp] theorem Core.arrive_wq (c : Core) (tag : Nat) (v : Val) : (c.arrive tag v).wq = c.wq := rfl
@[simp] theorem Core.arrive_lnd (c : Core) (tag : Nat) (v : Val) : (c.arrive tag v).lnd = c.lnd := rfl
@[simp] theorem Core.arrive_jobs (c : Core) (tag : Nat) (v : Val) : (c.arrive tag v).jobs = c.jobs := rfl
@[simp] theorem Core.arrive_cards (c : Core) (tag : Nat) (v : Val) : (c.arrive tag v).cards = c.cards := rfl
@[simp] theorem Core.arrive_refused (c : Core) (tag : Nat) (v : Val) : (c.arrive tag v).refused = c.refused := rfl
@[simp] theorem Core.arrive_deferred (c : Core) (tag : Nat) (v : Val) : (c.arrive tag v).deferred = c.deferred := rfl
@[simp] theorem Core.arrive_arrivals (c : Core) (tag : Nat) (v : Val) : (c.arrive tag v).arrivals = c.arrivals := rfl
@[simp] theorem Core.arrive_breakpt (c : Core) (tag : Nat) (v : Val) : (c.arrive tag v).breakpt = c.breakpt := rfl
@[simp] theorem Core.arrive_trap (c : Core) (tag : Nat) (v : Val) : (c.arrive tag v).trap = c.trap := rfl
@[simp] theorem Core.arrive_capEmpty (c : Core) (tag : Nat) (v : Val) : (c.arrive tag v).capEmpty = c.capEmpty := rfl
@[simp] theorem Core.arrive_exitw (c : Core) (tag : Nat) (v : Val) : (c.arrive tag v).exitw = c.exitw := rfl
@[simp] theorem Core.arrive_exited (c : Core) (tag : Nat) (v : Val) : (c.arrive tag v).exited = c.exited := rfl
@[simp] theorem Core.arrive_beats (c : Core) (tag : Nat) (v : Val) : (c.arrive tag v).beats = c.beats := rfl
@[simp] theorem Core.arrive_bytes (c : Core) (tag : Nat) (v : Val) : (c.arrive tag v).bytes = c.bytes := rfl
@[simp] theorem Core.arrive_bad (c : Core) (tag : Nat) (v : Val) : (c.arrive tag v).bad = c.bad := rfl
@[simp] theorem Core.arrive_nextTag (c : Core) (tag : Nat) (v : Val) : (c.arrive tag v).nextTag = c.nextTag := rfl
@[simp] theorem Core.arrive_fresh (c : Core) (tag : Nat) (v : Val) : (c.arrive tag v).fresh = c.fresh := rfl
@[simp] theorem Core.sequential_shadow (c : Core) : (c.sequential).shadow = c.shadow := rfl
@[simp] theorem Core.sequential_seq (c : Core) : (c.sequential).seq = c.seq := rfl
@[simp] theorem Core.sequential_was (c : Core) : (c.sequential).was = c.was := rfl
@[simp] theorem Core.sequential_code (c : Core) : (c.sequential).code = c.code := rfl
@[simp] theorem Core.sequential_nbundle (c : Core) : (c.sequential).nbundle = c.nbundle := rfl
@[simp] theorem Core.sequential_consts (c : Core) : (c.sequential).consts = c.consts := rfl
@[simp] theorem Core.sequential_codeGen (c : Core) : (c.sequential).codeGen = c.codeGen := rfl
@[simp] theorem Core.sequential_slmap (c : Core) : (c.sequential).slmap = c.slmap := rfl
@[simp] theorem Core.sequential_standId (c : Core) : (c.sequential).standId = c.standId := rfl
@[simp] theorem Core.sequential_ncores (c : Core) : (c.sequential).ncores = c.ncores := rfl
@[simp] theorem Core.sequential_lrank (c : Core) : (c.sequential).lrank = c.lrank := rfl
@[simp] theorem Core.sequential_det (c : Core) : (c.sequential).det = c.det := rfl
@[simp] theorem Core.sequential_disc (c : Core) : (c.sequential).disc = c.disc := rfl
@[simp] theorem Core.sequential_part (c : Core) : (c.sequential).part = c.part := rfl
@[simp] theorem Core.sequential_ssc (c : Core) : (c.sequential).ssc = c.ssc := rfl
@[simp] theorem Core.sequential_qs (c : Core) : (c.sequential).qs = c.qs := rfl
@[simp] theorem Core.sequential_ldq (c : Core) : (c.sequential).ldq = c.ldq := rfl
@[simp] theorem Core.sequential_stq (c : Core) : (c.sequential).stq = c.stq := rfl
@[simp] theorem Core.sequential_lda (c : Core) : (c.sequential).lda = c.lda := rfl
@[simp] theorem Core.sequential_sta (c : Core) : (c.sequential).sta = c.sta := rfl
@[simp] theorem Core.sequential_pends (c : Core) : (c.sequential).pends = c.pends := rfl
@[simp] theorem Core.sequential_flights (c : Core) : (c.sequential).flights = c.flights := rfl
@[simp] theorem Core.sequential_rep (c : Core) : (c.sequential).rep = c.rep := rfl
@[simp] theorem Core.sequential_repNext (c : Core) : (c.sequential).repNext = c.repNext := rfl
@[simp] theorem Core.sequential_resumeBreak (c : Core) : (c.sequential).resumeBreak = c.resumeBreak := rfl
@[simp] theorem Core.sequential_scratch (c : Core) : (c.sequential).scratch = c.scratch := rfl
@[simp] theorem Core.sequential_wq (c : Core) : (c.sequential).wq = c.wq := rfl
@[simp] theorem Core.sequential_lnd (c : Core) : (c.sequential).lnd = c.lnd := rfl
@[simp] theorem Core.sequential_jobs (c : Core) : (c.sequential).jobs = c.jobs := rfl
@[simp] theorem Core.sequential_cards (c : Core) : (c.sequential).cards = c.cards := rfl
@[simp] theorem Core.sequential_refused (c : Core) : (c.sequential).refused = c.refused := rfl
@[simp] theorem Core.sequential_deferred (c : Core) : (c.sequential).deferred = c.deferred := rfl
@[simp] theorem Core.sequential_arrivals (c : Core) : (c.sequential).arrivals = c.arrivals := rfl
@[simp] theorem Core.sequential_breakpt (c : Core) : (c.sequential).breakpt = c.breakpt := rfl
@[simp] theorem Core.sequential_trap (c : Core) : (c.sequential).trap = c.trap := rfl
@[simp] theorem Core.sequential_capEmpty (c : Core) : (c.sequential).capEmpty = c.capEmpty := rfl
@[simp] theorem Core.sequential_exitw (c : Core) : (c.sequential).exitw = c.exitw := rfl
@[simp] theorem Core.sequential_exited (c : Core) : (c.sequential).exited = c.exited := rfl
@[simp] theorem Core.sequential_beats (c : Core) : (c.sequential).beats = c.beats := rfl
@[simp] theorem Core.sequential_bytes (c : Core) : (c.sequential).bytes = c.bytes := rfl
@[simp] theorem Core.sequential_bad (c : Core) : (c.sequential).bad = c.bad := rfl
@[simp] theorem Core.sequential_nextTag (c : Core) : (c.sequential).nextTag = c.nextTag := rfl
@[simp] theorem Core.sequential_fresh (c : Core) : (c.sequential).fresh = c.fresh := rfl
@[simp] theorem Core.branch_shadow (c : Core) (t : Nat) : (c.branch t).shadow = c.shadow := rfl
@[simp] theorem Core.branch_seq (c : Core) (t : Nat) : (c.branch t).seq = c.seq := rfl
@[simp] theorem Core.branch_was (c : Core) (t : Nat) : (c.branch t).was = c.was := rfl
@[simp] theorem Core.branch_code (c : Core) (t : Nat) : (c.branch t).code = c.code := rfl
@[simp] theorem Core.branch_nbundle (c : Core) (t : Nat) : (c.branch t).nbundle = c.nbundle := rfl
@[simp] theorem Core.branch_consts (c : Core) (t : Nat) : (c.branch t).consts = c.consts := rfl
@[simp] theorem Core.branch_codeGen (c : Core) (t : Nat) : (c.branch t).codeGen = c.codeGen := rfl
@[simp] theorem Core.branch_slmap (c : Core) (t : Nat) : (c.branch t).slmap = c.slmap := rfl
@[simp] theorem Core.branch_standId (c : Core) (t : Nat) : (c.branch t).standId = c.standId := rfl
@[simp] theorem Core.branch_ncores (c : Core) (t : Nat) : (c.branch t).ncores = c.ncores := rfl
@[simp] theorem Core.branch_lrank (c : Core) (t : Nat) : (c.branch t).lrank = c.lrank := rfl
@[simp] theorem Core.branch_det (c : Core) (t : Nat) : (c.branch t).det = c.det := rfl
@[simp] theorem Core.branch_disc (c : Core) (t : Nat) : (c.branch t).disc = c.disc := rfl
@[simp] theorem Core.branch_part (c : Core) (t : Nat) : (c.branch t).part = c.part := rfl
@[simp] theorem Core.branch_ssc (c : Core) (t : Nat) : (c.branch t).ssc = c.ssc := rfl
@[simp] theorem Core.branch_qs (c : Core) (t : Nat) : (c.branch t).qs = c.qs := rfl
@[simp] theorem Core.branch_ldq (c : Core) (t : Nat) : (c.branch t).ldq = c.ldq := rfl
@[simp] theorem Core.branch_stq (c : Core) (t : Nat) : (c.branch t).stq = c.stq := rfl
@[simp] theorem Core.branch_lda (c : Core) (t : Nat) : (c.branch t).lda = c.lda := rfl
@[simp] theorem Core.branch_sta (c : Core) (t : Nat) : (c.branch t).sta = c.sta := rfl
@[simp] theorem Core.branch_pends (c : Core) (t : Nat) : (c.branch t).pends = c.pends := rfl
@[simp] theorem Core.branch_flights (c : Core) (t : Nat) : (c.branch t).flights = c.flights := rfl
@[simp] theorem Core.branch_rep (c : Core) (t : Nat) : (c.branch t).rep = c.rep := rfl
@[simp] theorem Core.branch_repNext (c : Core) (t : Nat) : (c.branch t).repNext = c.repNext := rfl
@[simp] theorem Core.branch_resumeBreak (c : Core) (t : Nat) : (c.branch t).resumeBreak = c.resumeBreak := rfl
@[simp] theorem Core.branch_scratch (c : Core) (t : Nat) : (c.branch t).scratch = c.scratch := rfl
@[simp] theorem Core.branch_wq (c : Core) (t : Nat) : (c.branch t).wq = c.wq := rfl
@[simp] theorem Core.branch_lnd (c : Core) (t : Nat) : (c.branch t).lnd = c.lnd := rfl
@[simp] theorem Core.branch_jobs (c : Core) (t : Nat) : (c.branch t).jobs = c.jobs := rfl
@[simp] theorem Core.branch_cards (c : Core) (t : Nat) : (c.branch t).cards = c.cards := rfl
@[simp] theorem Core.branch_refused (c : Core) (t : Nat) : (c.branch t).refused = c.refused := rfl
@[simp] theorem Core.branch_deferred (c : Core) (t : Nat) : (c.branch t).deferred = c.deferred := rfl
@[simp] theorem Core.branch_arrivals (c : Core) (t : Nat) : (c.branch t).arrivals = c.arrivals := rfl
@[simp] theorem Core.branch_breakpt (c : Core) (t : Nat) : (c.branch t).breakpt = c.breakpt := rfl
@[simp] theorem Core.branch_trap (c : Core) (t : Nat) : (c.branch t).trap = c.trap := rfl
@[simp] theorem Core.branch_capEmpty (c : Core) (t : Nat) : (c.branch t).capEmpty = c.capEmpty := rfl
@[simp] theorem Core.branch_exitw (c : Core) (t : Nat) : (c.branch t).exitw = c.exitw := rfl
@[simp] theorem Core.branch_exited (c : Core) (t : Nat) : (c.branch t).exited = c.exited := rfl
@[simp] theorem Core.branch_beats (c : Core) (t : Nat) : (c.branch t).beats = c.beats := rfl
@[simp] theorem Core.branch_bytes (c : Core) (t : Nat) : (c.branch t).bytes = c.bytes := rfl
@[simp] theorem Core.branch_bad (c : Core) (t : Nat) : (c.branch t).bad = c.bad := rfl
@[simp] theorem Core.branch_nextTag (c : Core) (t : Nat) : (c.branch t).nextTag = c.nextTag := rfl
@[simp] theorem Core.branch_fresh (c : Core) (t : Nat) : (c.branch t).fresh = c.fresh := rfl
@[simp] theorem Core.callTo_shadow (c : Core) (t : Nat) : (c.callTo t).shadow = c.shadow := rfl
@[simp] theorem Core.callTo_seq (c : Core) (t : Nat) : (c.callTo t).seq = c.seq := rfl
@[simp] theorem Core.callTo_was (c : Core) (t : Nat) : (c.callTo t).was = c.was := rfl
@[simp] theorem Core.callTo_code (c : Core) (t : Nat) : (c.callTo t).code = c.code := rfl
@[simp] theorem Core.callTo_nbundle (c : Core) (t : Nat) : (c.callTo t).nbundle = c.nbundle := rfl
@[simp] theorem Core.callTo_consts (c : Core) (t : Nat) : (c.callTo t).consts = c.consts := rfl
@[simp] theorem Core.callTo_codeGen (c : Core) (t : Nat) : (c.callTo t).codeGen = c.codeGen := rfl
@[simp] theorem Core.callTo_slmap (c : Core) (t : Nat) : (c.callTo t).slmap = c.slmap := rfl
@[simp] theorem Core.callTo_standId (c : Core) (t : Nat) : (c.callTo t).standId = c.standId := rfl
@[simp] theorem Core.callTo_ncores (c : Core) (t : Nat) : (c.callTo t).ncores = c.ncores := rfl
@[simp] theorem Core.callTo_lrank (c : Core) (t : Nat) : (c.callTo t).lrank = c.lrank := rfl
@[simp] theorem Core.callTo_det (c : Core) (t : Nat) : (c.callTo t).det = c.det := rfl
@[simp] theorem Core.callTo_disc (c : Core) (t : Nat) : (c.callTo t).disc = c.disc := rfl
@[simp] theorem Core.callTo_part (c : Core) (t : Nat) : (c.callTo t).part = c.part := rfl
@[simp] theorem Core.callTo_ssc (c : Core) (t : Nat) : (c.callTo t).ssc = c.ssc := rfl
@[simp] theorem Core.callTo_qs (c : Core) (t : Nat) : (c.callTo t).qs = c.qs := rfl
@[simp] theorem Core.callTo_ldq (c : Core) (t : Nat) : (c.callTo t).ldq = c.ldq := rfl
@[simp] theorem Core.callTo_stq (c : Core) (t : Nat) : (c.callTo t).stq = c.stq := rfl
@[simp] theorem Core.callTo_lda (c : Core) (t : Nat) : (c.callTo t).lda = c.lda := rfl
@[simp] theorem Core.callTo_sta (c : Core) (t : Nat) : (c.callTo t).sta = c.sta := rfl
@[simp] theorem Core.callTo_pends (c : Core) (t : Nat) : (c.callTo t).pends = c.pends := rfl
@[simp] theorem Core.callTo_flights (c : Core) (t : Nat) : (c.callTo t).flights = c.flights := rfl
@[simp] theorem Core.callTo_rep (c : Core) (t : Nat) : (c.callTo t).rep = c.rep := rfl
@[simp] theorem Core.callTo_repNext (c : Core) (t : Nat) : (c.callTo t).repNext = c.repNext := rfl
@[simp] theorem Core.callTo_resumeBreak (c : Core) (t : Nat) : (c.callTo t).resumeBreak = c.resumeBreak := rfl
@[simp] theorem Core.callTo_scratch (c : Core) (t : Nat) : (c.callTo t).scratch = c.scratch := rfl
@[simp] theorem Core.callTo_wq (c : Core) (t : Nat) : (c.callTo t).wq = c.wq := rfl
@[simp] theorem Core.callTo_lnd (c : Core) (t : Nat) : (c.callTo t).lnd = c.lnd := rfl
@[simp] theorem Core.callTo_jobs (c : Core) (t : Nat) : (c.callTo t).jobs = c.jobs := rfl
@[simp] theorem Core.callTo_cards (c : Core) (t : Nat) : (c.callTo t).cards = c.cards := rfl
@[simp] theorem Core.callTo_refused (c : Core) (t : Nat) : (c.callTo t).refused = c.refused := rfl
@[simp] theorem Core.callTo_deferred (c : Core) (t : Nat) : (c.callTo t).deferred = c.deferred := rfl
@[simp] theorem Core.callTo_arrivals (c : Core) (t : Nat) : (c.callTo t).arrivals = c.arrivals := rfl
@[simp] theorem Core.callTo_breakpt (c : Core) (t : Nat) : (c.callTo t).breakpt = c.breakpt := rfl
@[simp] theorem Core.callTo_trap (c : Core) (t : Nat) : (c.callTo t).trap = c.trap := rfl
@[simp] theorem Core.callTo_capEmpty (c : Core) (t : Nat) : (c.callTo t).capEmpty = c.capEmpty := rfl
@[simp] theorem Core.callTo_exitw (c : Core) (t : Nat) : (c.callTo t).exitw = c.exitw := rfl
@[simp] theorem Core.callTo_exited (c : Core) (t : Nat) : (c.callTo t).exited = c.exited := rfl
@[simp] theorem Core.callTo_beats (c : Core) (t : Nat) : (c.callTo t).beats = c.beats := rfl
@[simp] theorem Core.callTo_bytes (c : Core) (t : Nat) : (c.callTo t).bytes = c.bytes := rfl
@[simp] theorem Core.callTo_bad (c : Core) (t : Nat) : (c.callTo t).bad = c.bad := rfl
@[simp] theorem Core.callTo_nextTag (c : Core) (t : Nat) : (c.callTo t).nextTag = c.nextTag := rfl
@[simp] theorem Core.callTo_fresh (c : Core) (t : Nat) : (c.callTo t).fresh = c.fresh := rfl
@[simp] theorem Core.loop_shadow (c : Core) (o b : Word) : (c.loop o b).shadow = c.shadow := rfl
@[simp] theorem Core.loop_seq (c : Core) (o b : Word) : (c.loop o b).seq = c.seq := rfl
@[simp] theorem Core.loop_was (c : Core) (o b : Word) : (c.loop o b).was = c.was := rfl
@[simp] theorem Core.loop_code (c : Core) (o b : Word) : (c.loop o b).code = c.code := rfl
@[simp] theorem Core.loop_nbundle (c : Core) (o b : Word) : (c.loop o b).nbundle = c.nbundle := rfl
@[simp] theorem Core.loop_consts (c : Core) (o b : Word) : (c.loop o b).consts = c.consts := rfl
@[simp] theorem Core.loop_codeGen (c : Core) (o b : Word) : (c.loop o b).codeGen = c.codeGen := rfl
@[simp] theorem Core.loop_slmap (c : Core) (o b : Word) : (c.loop o b).slmap = c.slmap := rfl
@[simp] theorem Core.loop_standId (c : Core) (o b : Word) : (c.loop o b).standId = c.standId := rfl
@[simp] theorem Core.loop_ncores (c : Core) (o b : Word) : (c.loop o b).ncores = c.ncores := rfl
@[simp] theorem Core.loop_lrank (c : Core) (o b : Word) : (c.loop o b).lrank = c.lrank := rfl
@[simp] theorem Core.loop_det (c : Core) (o b : Word) : (c.loop o b).det = c.det := rfl
@[simp] theorem Core.loop_disc (c : Core) (o b : Word) : (c.loop o b).disc = c.disc := rfl
@[simp] theorem Core.loop_part (c : Core) (o b : Word) : (c.loop o b).part = c.part := rfl
@[simp] theorem Core.loop_ssc (c : Core) (o b : Word) : (c.loop o b).ssc = c.ssc := rfl
@[simp] theorem Core.loop_qs (c : Core) (o b : Word) : (c.loop o b).qs = c.qs := rfl
@[simp] theorem Core.loop_ldq (c : Core) (o b : Word) : (c.loop o b).ldq = c.ldq := rfl
@[simp] theorem Core.loop_stq (c : Core) (o b : Word) : (c.loop o b).stq = c.stq := rfl
@[simp] theorem Core.loop_lda (c : Core) (o b : Word) : (c.loop o b).lda = c.lda := rfl
@[simp] theorem Core.loop_sta (c : Core) (o b : Word) : (c.loop o b).sta = c.sta := rfl
@[simp] theorem Core.loop_pends (c : Core) (o b : Word) : (c.loop o b).pends = c.pends := rfl
@[simp] theorem Core.loop_flights (c : Core) (o b : Word) : (c.loop o b).flights = c.flights := rfl
@[simp] theorem Core.loop_rep (c : Core) (o b : Word) : (c.loop o b).rep = c.rep := rfl
@[simp] theorem Core.loop_repNext (c : Core) (o b : Word) : (c.loop o b).repNext = c.repNext := rfl
@[simp] theorem Core.loop_resumeBreak (c : Core) (o b : Word) : (c.loop o b).resumeBreak = c.resumeBreak := rfl
@[simp] theorem Core.loop_scratch (c : Core) (o b : Word) : (c.loop o b).scratch = c.scratch := rfl
@[simp] theorem Core.loop_wq (c : Core) (o b : Word) : (c.loop o b).wq = c.wq := rfl
@[simp] theorem Core.loop_lnd (c : Core) (o b : Word) : (c.loop o b).lnd = c.lnd := rfl
@[simp] theorem Core.loop_jobs (c : Core) (o b : Word) : (c.loop o b).jobs = c.jobs := rfl
@[simp] theorem Core.loop_cards (c : Core) (o b : Word) : (c.loop o b).cards = c.cards := rfl
@[simp] theorem Core.loop_refused (c : Core) (o b : Word) : (c.loop o b).refused = c.refused := rfl
@[simp] theorem Core.loop_deferred (c : Core) (o b : Word) : (c.loop o b).deferred = c.deferred := rfl
@[simp] theorem Core.loop_arrivals (c : Core) (o b : Word) : (c.loop o b).arrivals = c.arrivals := rfl
@[simp] theorem Core.loop_breakpt (c : Core) (o b : Word) : (c.loop o b).breakpt = c.breakpt := rfl
@[simp] theorem Core.loop_trap (c : Core) (o b : Word) : (c.loop o b).trap = c.trap := rfl
@[simp] theorem Core.loop_capEmpty (c : Core) (o b : Word) : (c.loop o b).capEmpty = c.capEmpty := rfl
@[simp] theorem Core.loop_exitw (c : Core) (o b : Word) : (c.loop o b).exitw = c.exitw := rfl
@[simp] theorem Core.loop_exited (c : Core) (o b : Word) : (c.loop o b).exited = c.exited := rfl
@[simp] theorem Core.loop_beats (c : Core) (o b : Word) : (c.loop o b).beats = c.beats := rfl
@[simp] theorem Core.loop_bytes (c : Core) (o b : Word) : (c.loop o b).bytes = c.bytes := rfl
@[simp] theorem Core.loop_bad (c : Core) (o b : Word) : (c.loop o b).bad = c.bad := rfl
@[simp] theorem Core.loop_nextTag (c : Core) (o b : Word) : (c.loop o b).nextTag = c.nextTag := rfl
@[simp] theorem Core.loop_fresh (c : Core) (o b : Word) : (c.loop o b).fresh = c.fresh := rfl
@[simp] theorem Core.land_ctx (c : Core) (x : Send) : (c.land x).ctx = c.ctx := rfl
@[simp] theorem Core.land_shadow (c : Core) (x : Send) : (c.land x).shadow = c.shadow := rfl
@[simp] theorem Core.land_pc (c : Core) (x : Send) : (c.land x).pc = c.pc := rfl
@[simp] theorem Core.land_seq (c : Core) (x : Send) : (c.land x).seq = c.seq := rfl
@[simp] theorem Core.land_was (c : Core) (x : Send) : (c.land x).was = c.was := rfl
@[simp] theorem Core.land_code (c : Core) (x : Send) : (c.land x).code = c.code := rfl
@[simp] theorem Core.land_nbundle (c : Core) (x : Send) : (c.land x).nbundle = c.nbundle := rfl
@[simp] theorem Core.land_consts (c : Core) (x : Send) : (c.land x).consts = c.consts := rfl
@[simp] theorem Core.land_codeGen (c : Core) (x : Send) : (c.land x).codeGen = c.codeGen := rfl
@[simp] theorem Core.land_slmap (c : Core) (x : Send) : (c.land x).slmap = c.slmap := rfl
@[simp] theorem Core.land_standId (c : Core) (x : Send) : (c.land x).standId = c.standId := rfl
@[simp] theorem Core.land_ncores (c : Core) (x : Send) : (c.land x).ncores = c.ncores := rfl
@[simp] theorem Core.land_lrank (c : Core) (x : Send) : (c.land x).lrank = c.lrank := rfl
@[simp] theorem Core.land_det (c : Core) (x : Send) : (c.land x).det = c.det := rfl
@[simp] theorem Core.land_disc (c : Core) (x : Send) : (c.land x).disc = c.disc := rfl
@[simp] theorem Core.land_part (c : Core) (x : Send) : (c.land x).part = c.part := rfl
@[simp] theorem Core.land_ssc (c : Core) (x : Send) : (c.land x).ssc = c.ssc := rfl
@[simp] theorem Core.land_qs (c : Core) (x : Send) : (c.land x).qs = c.qs := rfl
@[simp] theorem Core.land_ldq (c : Core) (x : Send) : (c.land x).ldq = c.ldq := rfl
@[simp] theorem Core.land_stq (c : Core) (x : Send) : (c.land x).stq = c.stq := rfl
@[simp] theorem Core.land_lda (c : Core) (x : Send) : (c.land x).lda = c.lda := rfl
@[simp] theorem Core.land_sta (c : Core) (x : Send) : (c.land x).sta = c.sta := rfl
@[simp] theorem Core.land_pends (c : Core) (x : Send) : (c.land x).pends = c.pends := rfl
@[simp] theorem Core.land_flights (c : Core) (x : Send) : (c.land x).flights = c.flights := rfl
@[simp] theorem Core.land_rep (c : Core) (x : Send) : (c.land x).rep = c.rep := rfl
@[simp] theorem Core.land_repNext (c : Core) (x : Send) : (c.land x).repNext = c.repNext := rfl
@[simp] theorem Core.land_resumeBreak (c : Core) (x : Send) : (c.land x).resumeBreak = c.resumeBreak := rfl
@[simp] theorem Core.land_scratch (c : Core) (x : Send) : (c.land x).scratch = c.scratch := rfl
@[simp] theorem Core.land_wq (c : Core) (x : Send) : (c.land x).wq = c.wq := rfl
@[simp] theorem Core.land_jobs (c : Core) (x : Send) : (c.land x).jobs = c.jobs := rfl
@[simp] theorem Core.land_cards (c : Core) (x : Send) : (c.land x).cards = c.cards := rfl
@[simp] theorem Core.land_refused (c : Core) (x : Send) : (c.land x).refused = c.refused := rfl
@[simp] theorem Core.land_deferred (c : Core) (x : Send) : (c.land x).deferred = c.deferred := rfl
@[simp] theorem Core.land_arrivals (c : Core) (x : Send) : (c.land x).arrivals = c.arrivals := rfl
@[simp] theorem Core.land_breakpt (c : Core) (x : Send) : (c.land x).breakpt = c.breakpt := rfl
@[simp] theorem Core.land_trap (c : Core) (x : Send) : (c.land x).trap = c.trap := rfl
@[simp] theorem Core.land_capEmpty (c : Core) (x : Send) : (c.land x).capEmpty = c.capEmpty := rfl
@[simp] theorem Core.land_exitw (c : Core) (x : Send) : (c.land x).exitw = c.exitw := rfl
@[simp] theorem Core.land_exited (c : Core) (x : Send) : (c.land x).exited = c.exited := rfl
@[simp] theorem Core.land_beats (c : Core) (x : Send) : (c.land x).beats = c.beats := rfl
@[simp] theorem Core.land_bytes (c : Core) (x : Send) : (c.land x).bytes = c.bytes := rfl
@[simp] theorem Core.land_bad (c : Core) (x : Send) : (c.land x).bad = c.bad := rfl
@[simp] theorem Core.land_nextTag (c : Core) (x : Send) : (c.land x).nextTag = c.nextTag := rfl
@[simp] theorem Core.land_fresh (c : Core) (x : Send) : (c.land x).fresh = c.fresh := rfl
@[simp] theorem Core.setJob_ctx (c : Core) (j : CJob) : (c.setJob j).ctx = c.ctx := rfl
@[simp] theorem Core.setJob_shadow (c : Core) (j : CJob) : (c.setJob j).shadow = c.shadow := rfl
@[simp] theorem Core.setJob_pc (c : Core) (j : CJob) : (c.setJob j).pc = c.pc := rfl
@[simp] theorem Core.setJob_seq (c : Core) (j : CJob) : (c.setJob j).seq = c.seq := rfl
@[simp] theorem Core.setJob_was (c : Core) (j : CJob) : (c.setJob j).was = c.was := rfl
@[simp] theorem Core.setJob_code (c : Core) (j : CJob) : (c.setJob j).code = c.code := rfl
@[simp] theorem Core.setJob_nbundle (c : Core) (j : CJob) : (c.setJob j).nbundle = c.nbundle := rfl
@[simp] theorem Core.setJob_consts (c : Core) (j : CJob) : (c.setJob j).consts = c.consts := rfl
@[simp] theorem Core.setJob_codeGen (c : Core) (j : CJob) : (c.setJob j).codeGen = c.codeGen := rfl
@[simp] theorem Core.setJob_slmap (c : Core) (j : CJob) : (c.setJob j).slmap = c.slmap := rfl
@[simp] theorem Core.setJob_standId (c : Core) (j : CJob) : (c.setJob j).standId = c.standId := rfl
@[simp] theorem Core.setJob_ncores (c : Core) (j : CJob) : (c.setJob j).ncores = c.ncores := rfl
@[simp] theorem Core.setJob_lrank (c : Core) (j : CJob) : (c.setJob j).lrank = c.lrank := rfl
@[simp] theorem Core.setJob_det (c : Core) (j : CJob) : (c.setJob j).det = c.det := rfl
@[simp] theorem Core.setJob_disc (c : Core) (j : CJob) : (c.setJob j).disc = c.disc := rfl
@[simp] theorem Core.setJob_part (c : Core) (j : CJob) : (c.setJob j).part = c.part := rfl
@[simp] theorem Core.setJob_ssc (c : Core) (j : CJob) : (c.setJob j).ssc = c.ssc := rfl
@[simp] theorem Core.setJob_qs (c : Core) (j : CJob) : (c.setJob j).qs = c.qs := rfl
@[simp] theorem Core.setJob_ldq (c : Core) (j : CJob) : (c.setJob j).ldq = c.ldq := rfl
@[simp] theorem Core.setJob_stq (c : Core) (j : CJob) : (c.setJob j).stq = c.stq := rfl
@[simp] theorem Core.setJob_lda (c : Core) (j : CJob) : (c.setJob j).lda = c.lda := rfl
@[simp] theorem Core.setJob_sta (c : Core) (j : CJob) : (c.setJob j).sta = c.sta := rfl
@[simp] theorem Core.setJob_pends (c : Core) (j : CJob) : (c.setJob j).pends = c.pends := rfl
@[simp] theorem Core.setJob_flights (c : Core) (j : CJob) : (c.setJob j).flights = c.flights := rfl
@[simp] theorem Core.setJob_rep (c : Core) (j : CJob) : (c.setJob j).rep = c.rep := rfl
@[simp] theorem Core.setJob_repNext (c : Core) (j : CJob) : (c.setJob j).repNext = c.repNext := rfl
@[simp] theorem Core.setJob_resumeBreak (c : Core) (j : CJob) : (c.setJob j).resumeBreak = c.resumeBreak := rfl
@[simp] theorem Core.setJob_scratch (c : Core) (j : CJob) : (c.setJob j).scratch = c.scratch := rfl
@[simp] theorem Core.setJob_wq (c : Core) (j : CJob) : (c.setJob j).wq = c.wq := rfl
@[simp] theorem Core.setJob_lnd (c : Core) (j : CJob) : (c.setJob j).lnd = c.lnd := rfl
@[simp] theorem Core.setJob_cards (c : Core) (j : CJob) : (c.setJob j).cards = c.cards := rfl
@[simp] theorem Core.setJob_refused (c : Core) (j : CJob) : (c.setJob j).refused = c.refused := rfl
@[simp] theorem Core.setJob_deferred (c : Core) (j : CJob) : (c.setJob j).deferred = c.deferred := rfl
@[simp] theorem Core.setJob_arrivals (c : Core) (j : CJob) : (c.setJob j).arrivals = c.arrivals := rfl
@[simp] theorem Core.setJob_breakpt (c : Core) (j : CJob) : (c.setJob j).breakpt = c.breakpt := rfl
@[simp] theorem Core.setJob_trap (c : Core) (j : CJob) : (c.setJob j).trap = c.trap := rfl
@[simp] theorem Core.setJob_capEmpty (c : Core) (j : CJob) : (c.setJob j).capEmpty = c.capEmpty := rfl
@[simp] theorem Core.setJob_exitw (c : Core) (j : CJob) : (c.setJob j).exitw = c.exitw := rfl
@[simp] theorem Core.setJob_exited (c : Core) (j : CJob) : (c.setJob j).exited = c.exited := rfl
@[simp] theorem Core.setJob_beats (c : Core) (j : CJob) : (c.setJob j).beats = c.beats := rfl
@[simp] theorem Core.setJob_bytes (c : Core) (j : CJob) : (c.setJob j).bytes = c.bytes := rfl
@[simp] theorem Core.setJob_bad (c : Core) (j : CJob) : (c.setJob j).bad = c.bad := rfl
@[simp] theorem Core.setJob_nextTag (c : Core) (j : CJob) : (c.setJob j).nextTag = c.nextTag := rfl
@[simp] theorem Core.setJob_fresh (c : Core) (j : CJob) : (c.setJob j).fresh = c.fresh := rfl

end Sys2Proof.Machine
end

