-- ==== Sys2Proof/Laws/Issue.lean ====
section
/-! SUPPORT. The issue of a bundle that nothing holds and nothing traps, and the performance of a bundle of one move. -/

namespace Sys2Proof.Machine

/-- A clear bundle passes to its waits. -/
theorem issue_clear {s : State} {ms : List BMove} (h : s.Clear ms) : issue s s.cur ms = issueChecked s s.cur ms := by
  have h1 := h.running
  have h2 := h.free
  have h3 := h.legal
  have h4 := h.quiet
  simp only [State.me] at h1 h2 h3 h4
  simp [issue, h1, h2, h3, h4, h.issues]

/-- The issue of one clear move. -/
theorem issueOne_clear {i : Instr} {s : State} (h : s.Clear (oneMove i)) :
    issueOne i s = .next (issueChecked s s.cur (oneMove i)) := by
  rw [issueOne, issue_clear h]

/-- A clear bundle without a CTL trigger is performed. -/
theorem issueChecked_plain {s : State} {ms : List BMove} (h : s.Clear ms) (hc : s.me.ctlTrig ms = none) :
    issueChecked s s.cur ms = performBundle s s.cur ms := by
  have h5 := h.landed
  simp only [State.me] at h5 hc
  simp [issueChecked, h5, hc]

/-- A clear bundle with a CTL trigger that waits for nothing is performed. -/
theorem issueChecked_ctl {s : State} {ms : List BMove} (h : s.Clear ms) {i : Instr} {b : EVal}
    (hc : s.me.ctlTrig ms = some (i, b)) :
    issueChecked s s.cur ms =
      match i with
      | .ctlTfence _ =>
        if !(s.me.queuesEmpty && s.me.triggersDone) then s
        else
          match s.me.deferred with
          | d :: _ => s.setCore s.cur (s.me.raiseDeferred d)
          | [] =>
            if s.me.ctx.afl &&& s.me.ctx.afm ≠ 0 then
              s.setCore s.cur (s.me.takeTrap { Trap.plain Cause.ARITH 0 s.me.pc s.me.pc with
                arg := (s.me.ctx.afl &&& s.me.ctx.afm).setWidth 16, slotEng := slotEngByte (some .ctl) (some 0) })
            else performBundle s s.cur ms
      | .ctlDrain _ => if s.me.drained then performBundle s s.cur ms else s
      | .ctlWaitt _ =>
        if b.scalar.toNat ≤ (s.dtcOf s.cur).toNat then performBundle s s.cur ms else s.setCore s.cur (s.me.freeze .waitt)
      | .ctlBar _ => s.setCore s.cur (s.me.freeze (.bar false))
      | .ctlArrive _ => s.setCore s.cur (s.me.freeze .arrive)
      | .ctlBwait _ => if s.me.barDone b.scalar then performBundle s s.cur ms else s.setCore s.cur (s.me.freeze .bwait)
      | .ctlBwaitt _ =>
        if s.me.barDone b.scalar then performBundle s s.cur ms
        else s.setCore s.cur (s.me.freeze (.bwaitt ((s.me.ctlOperand ms .o).scalar.extractLsb' 0 32).toNat))
      | _ => performBundle s s.cur ms := by
  have h5 := h.landed
  simp only [State.me] at h5 hc
  simp only [issueChecked, h5, hc, Bool.not_true, Bool.false_eq_true, if_false, State.me]
  cases i <;> rfl

/-- The bundle of one encoded move. -/
theorem oneMove_eq {i : Instr} {slot : Nat} {unit : BitVec 3} {port : BitVec 7} {m : Mv}
    (h : i.fields = some (slot, unit, port, m)) : oneMove i = [⟨slot, packMove unit port m, some i⟩] := by
  simp [oneMove, encode, h]

theorem guard_packMove (unit : BitVec 3) (port : BitVec 7) (m : Mv) (slot : Nat) (i : Option Instr) :
    (BMove.mk slot (packMove unit port m) i).guard = m.g.toNat := by
  simp only [BMove.guard, packMove]
  congr 1
  have h : ∀ (g : BitVec 3) (r : BitVec 21), (g ++ r).extractLsb' 21 3 = g := by
    intro g r
    ext k hk
    rw [BitVec.getElem_extractLsb']
    rw [show (g ++ r).getLsbD (21 + k) = if 21 + k < 21 then r.getLsbD (21 + k) else g.getLsbD (21 + k - 21) from
      BitVec.getLsbD_append]
    simp [BitVec.getLsbD_eq_getElem, hk]
  exact h _ _

end Sys2Proof.Machine
end

