-- ==== Sys2Proof/Laws/Lanes.lean ====
section
/-! SUPPORT. What the lanes of a vector built lane by lane read, the bits of a mask, and the flags of many lanes. -/

namespace Sys2Proof.Machine

theorem packN_lt (w : Nat) (f : Nat → Nat) (n : Nat) (h : ∀ i < n, f i < 2 ^ w) : packN w f n < 2 ^ (w * n) := by
  induction n with
  | zero => simp [packN]
  | succ n ih =>
    have h1 := ih (fun i hi => h i (Nat.lt_succ_of_lt hi))
    have h2 := h n (Nat.lt_succ_self n)
    have h3 : f n * 2 ^ (w * n) + 2 ^ (w * n) ≤ 2 ^ w * 2 ^ (w * n) := by
      rw [← Nat.succ_mul]; exact Nat.mul_le_mul_right _ h2
    have h4 : (2 : Nat) ^ (w * (n + 1)) = 2 ^ w * 2 ^ (w * n) := by rw [Nat.mul_succ, Nat.pow_add, Nat.mul_comm]
    simp only [packN]
    omega

/-- The value packed at place i comes back. -/
theorem packN_get (w : Nat) (f : Nat → Nat) (n i : Nat) (hi : i < n) (h : ∀ j < n, f j < 2 ^ w) :
    packN w f n / 2 ^ (w * i) % 2 ^ w = f i := by
  induction n with
  | zero => omega
  | succ n ih =>
    have hlt := packN_lt w f n (fun j hj => h j (Nat.lt_succ_of_lt hj))
    simp only [packN]
    by_cases hin : i = n
    · subst hin
      rw [Nat.add_mul_div_right _ _ (Nat.two_pow_pos _), Nat.div_eq_of_lt hlt, Nat.zero_add]
      exact Nat.mod_eq_of_lt (h i (Nat.lt_succ_self i))
    · have hi' : i < n := by omega
      have hs : w * n = w * i + w * (n - i) := by rw [← Nat.mul_add]; congr 1; omega
      have hw : w * (n - i) = w + w * (n - i - 1) := by
        rw [show n - i = (n - i - 1) + 1 by omega, Nat.mul_succ, Nat.add_comm]
        rfl
      rw [hs, Nat.pow_add, ← Nat.mul_assoc, Nat.mul_right_comm, Nat.add_mul_div_right _ _ (Nat.two_pow_pos _), hw, Nat.pow_add,
        Nat.mul_comm (2 ^ w), ← Nat.mul_assoc, Nat.add_mul_mod_self_right]
      exact ih hi' (fun j hj => h j (Nat.lt_succ_of_lt hj))

theorem packed_field (w k : Nat) (f : Nat → BitVec w) (n i : Nat) (hi : i < n) (hk : k = w * n) :
    (BitVec.ofNat k (packN w (fun j => (f j).toNat) n)).extractLsb' (w * i) w = f i := by
  apply BitVec.eq_of_toNat_eq
  have hlt := packN_lt w (fun j => (f j).toNat) n (fun j _ => (f j).isLt)
  rw [BitVec.extractLsb'_toNat, BitVec.toNat_ofNat, hk, Nat.mod_eq_of_lt hlt, Nat.shiftRight_eq_div_pow]
  exact packN_get w _ n i hi (fun j _ => (f j).isLt)

/-- Lane i of a vector built from its lanes (06_vector.md R166). -/
theorem lane_ofLanes (f : Nat → BitVec 32) (i : Nat) (h : i < 128) : lane (ofLanes f) i = f i :=
  packed_field 32 4096 f 128 i h rfl

theorem half_ofHalves (f : Nat → BitVec 16) (i : Nat) (h : i < 256) : half (ofHalves f) i = f i :=
  packed_field 16 4096 f 256 i h rfl

theorem vbyte_ofBytes (f : Nat → Byte) (i : Nat) (h : i < 512) : vbyte (ofBytes f) i = f i :=
  packed_field 8 4096 f 512 i h rfl

/-- Bit i of a mask built from its bits. -/
theorem getLsbD_ofBits (f : Nat → Bool) (i : Nat) (h : i < 128) : (ofBits f).getLsbD i = f i := by
  have hp := packed_field 1 128 (fun j => BitVec.ofBool (f j)) 128 i h rfl
  have hb : (fun j => (BitVec.ofBool (f j)).toNat) = fun j => (f j).toNat := by
    funext j; cases f j <;> rfl
  rw [hb, Nat.one_mul] at hp
  have h0 := congrArg (fun x => BitVec.getLsbD x 0) hp
  simpa [ofBits] using h0

/-- A flag of many lanes is set where some lane sets it (06_vector.md R168). -/
theorem getLsbD_orAll (n : Nat) (f : Nat → Byte) (k : Nat) :
    (orAll n f).getLsbD k = true ↔ ∃ l < n, (f l).getLsbD k = true := by
  induction n with
  | zero => simp [orAll]
  | succ n ih =>
    simp only [orAll, BitVec.getLsbD_or, Bool.or_eq_true, ih]
    constructor
    · rintro (⟨l, hl, h⟩ | h)
      · exact ⟨l, Nat.lt_succ_of_lt hl, h⟩
      · exact ⟨n, Nat.lt_succ_self n, h⟩
    · rintro ⟨l, hl, h⟩
      by_cases hn : l = n
      · exact .inr (hn ▸ h)
      · exact .inl ⟨l, by omega, h⟩

end Sys2Proof.Machine
end

