-- ==== Sys2Proof/Laws/PerInstr.lean ====
section
/-! SUPPORT. The family Encoding: what the slot and the fields of one instruction's move word are, constructor by
constructor (03_encoding.md R62, R65). -/

namespace Sys2Proof.Laws.Encoding

/-- An instruction that has a move word stands in one of the eight slots, and its word holds its guard, unit, port and source
at the places of R65; an instruction without fields has no word (03_encoding.md R62, R65). -/
def Statement (i : Instr) : Prop :=
  (∀ slot unit port m, i.fields = some (slot, unit, port, m) →
    slot < 8 ∧ encode i = some (slot, m.g ++ (unit ++ (port ++ encodeSrc m.src)))) ∧
  (i.fields = none → encode i = none)

/-- What Statement asks, of an instruction whose fields are known. -/
theorem of_fields {i : Instr} {slot : Nat} {unit : BitVec 3} {port : BitVec 7} {m : Mv}
    (h : i.fields = some (slot, unit, port, m)) (hs : slot < 8) : Statement i := by
  refine ⟨fun s u p n e => ?_, fun e => ?_⟩
  · rw [h] at e
    cases e
    exact ⟨hs, by simp [encode, h, packMove]⟩
  · rw [h] at e
    cases e

/-- What Statement asks, of an instruction that has no move word. -/
theorem of_none {i : Instr} (h : i.fields = none) : Statement i :=
  ⟨fun _ _ _ _ e => (nomatch h.symm.trans e), fun _ => by simp [encode, h]⟩

theorem moveSreg (slot : Fin 8) (d : SDest) (m : Mv) : Statement (.moveSreg slot d m) := of_fields rfl slot.isLt
theorem moveVreg (slot : Fin 8) (d : VDest) (m : Mv) : Statement (.moveVreg slot d m) := of_fields rfl slot.isLt
theorem moveVregSlot7 (d : VDest) (m : Mv) : Statement (.moveVregSlot7 d m) := of_fields rfl (by decide)
theorem moveOperandPort (slot : Fin 8) (p : OPort) (m : Mv) : Statement (.moveOperandPort slot p m) := of_fields rfl slot.isLt
theorem moveColOperand (c : CSlot) (p : OPort) (m : Mv) : Statement (.moveColOperand c p m) := by cases c <;> exact of_fields rfl (by decide)
theorem moveXport (slot : Fin 8) (e : Eng) (p : OPort) (m : Mv) : Statement (.moveXport slot e p m) := of_fields rfl slot.isLt
theorem ctlJmp (m : Mv) : Statement (.ctlJmp m) := of_fields rfl (by decide)
theorem ctlJrel (m : Mv) : Statement (.ctlJrel m) := of_fields rfl (by decide)
theorem ctlCall (m : Mv) : Statement (.ctlCall m) := of_fields rfl (by decide)
theorem ctlRet (m : Mv) : Statement (.ctlRet m) := of_fields rfl (by decide)
theorem ctlLoop (m : Mv) : Statement (.ctlLoop m) := of_fields rfl (by decide)
theorem ctlRep (m : Mv) : Statement (.ctlRep m) := of_fields rfl (by decide)
theorem ctlHalt (m : Mv) : Statement (.ctlHalt m) := of_fields rfl (by decide)
theorem ctlTrap (m : Mv) : Statement (.ctlTrap m) := of_fields rfl (by decide)
theorem ctlTfence (m : Mv) : Statement (.ctlTfence m) := of_fields rfl (by decide)
theorem ctlCsrr (m : Mv) : Statement (.ctlCsrr m) := of_fields rfl (by decide)
theorem ctlCsrw (m : Mv) : Statement (.ctlCsrw m) := of_fields rfl (by decide)
theorem ctlGset (m : Mv) : Statement (.ctlGset m) := of_fields rfl (by decide)
theorem ctlGnot (m : Mv) : Statement (.ctlGnot m) := of_fields rfl (by decide)
theorem ctlGand (m : Mv) : Statement (.ctlGand m) := of_fields rfl (by decide)
theorem ctlGor (m : Mv) : Statement (.ctlGor m) := of_fields rfl (by decide)
theorem ctlDrain (m : Mv) : Statement (.ctlDrain m) := of_fields rfl (by decide)
theorem ctlEndph (m : Mv) : Statement (.ctlEndph m) := of_fields rfl (by decide)
theorem ctlBar (m : Mv) : Statement (.ctlBar m) := of_fields rfl (by decide)
theorem ctlArrive (m : Mv) : Statement (.ctlArrive m) := of_fields rfl (by decide)
theorem ctlBwait (m : Mv) : Statement (.ctlBwait m) := of_fields rfl (by decide)
theorem ctlBwaitt (m : Mv) : Statement (.ctlBwaitt m) := of_fields rfl (by decide)
theorem ctlWaitt (m : Mv) : Statement (.ctlWaitt m) := of_fields rfl (by decide)
theorem ctlTime (m : Mv) : Statement (.ctlTime m) := of_fields rfl (by decide)
theorem scaAdd (m : Mv) : Statement (.scaAdd m) := of_fields rfl (by decide)
theorem scaSub (m : Mv) : Statement (.scaSub m) := of_fields rfl (by decide)
theorem scaMul (m : Mv) : Statement (.scaMul m) := of_fields rfl (by decide)
theorem scaMulhs (m : Mv) : Statement (.scaMulhs m) := of_fields rfl (by decide)
theorem scaMulhn (m : Mv) : Statement (.scaMulhn m) := of_fields rfl (by decide)
theorem scaDivs (m : Mv) : Statement (.scaDivs m) := of_fields rfl (by decide)
theorem scaDivn (m : Mv) : Statement (.scaDivn m) := of_fields rfl (by decide)
theorem scaRems (m : Mv) : Statement (.scaRems m) := of_fields rfl (by decide)
theorem scaRemn (m : Mv) : Statement (.scaRemn m) := of_fields rfl (by decide)
theorem scaAnd (m : Mv) : Statement (.scaAnd m) := of_fields rfl (by decide)
theorem scaOr (m : Mv) : Statement (.scaOr m) := of_fields rfl (by decide)
theorem scaXor (m : Mv) : Statement (.scaXor m) := of_fields rfl (by decide)
theorem scaAndn (m : Mv) : Statement (.scaAndn m) := of_fields rfl (by decide)
theorem scaShl (m : Mv) : Statement (.scaShl m) := of_fields rfl (by decide)
theorem scaShrl (m : Mv) : Statement (.scaShrl m) := of_fields rfl (by decide)
theorem scaShra (m : Mv) : Statement (.scaShra m) := of_fields rfl (by decide)
theorem scaRotl (m : Mv) : Statement (.scaRotl m) := of_fields rfl (by decide)
theorem scaClz (m : Mv) : Statement (.scaClz m) := of_fields rfl (by decide)
theorem scaCtz (m : Mv) : Statement (.scaCtz m) := of_fields rfl (by decide)
theorem scaPopc (m : Mv) : Statement (.scaPopc m) := of_fields rfl (by decide)
theorem scaMins (m : Mv) : Statement (.scaMins m) := of_fields rfl (by decide)
theorem scaMaxs (m : Mv) : Statement (.scaMaxs m) := of_fields rfl (by decide)
theorem scaMinn (m : Mv) : Statement (.scaMinn m) := of_fields rfl (by decide)
theorem scaMaxn (m : Mv) : Statement (.scaMaxn m) := of_fields rfl (by decide)
theorem scaCeq (m : Mv) : Statement (.scaCeq m) := of_fields rfl (by decide)
theorem scaCne (m : Mv) : Statement (.scaCne m) := of_fields rfl (by decide)
theorem scaClts (m : Mv) : Statement (.scaClts m) := of_fields rfl (by decide)
theorem scaCltn (m : Mv) : Statement (.scaCltn m) := of_fields rfl (by decide)
theorem scaCles (m : Mv) : Statement (.scaCles m) := of_fields rfl (by decide)
theorem scaClen (m : Mv) : Statement (.scaClen m) := of_fields rfl (by decide)
theorem scaSel (m : Mv) : Statement (.scaSel m) := of_fields rfl (by decide)
theorem scaSext (m : Mv) : Statement (.scaSext m) := of_fields rfl (by decide)
theorem scaZext (m : Mv) : Statement (.scaZext m) := of_fields rfl (by decide)
theorem scaBfx (m : Mv) : Statement (.scaBfx m) := of_fields rfl (by decide)
theorem scaBfi (m : Mv) : Statement (.scaBfi m) := of_fields rfl (by decide)
theorem scaPass (m : Mv) : Statement (.scaPass m) := of_fields rfl (by decide)
theorem scaCat9 (m : Mv) : Statement (.scaCat9 m) := of_fields rfl (by decide)
theorem memLdb (m : Mv) : Statement (.memLdb m) := of_fields rfl (by decide)
theorem memLdbn (m : Mv) : Statement (.memLdbn m) := of_fields rfl (by decide)
theorem memLdh (m : Mv) : Statement (.memLdh m) := of_fields rfl (by decide)
theorem memLdhn (m : Mv) : Statement (.memLdhn m) := of_fields rfl (by decide)
theorem memLdw (m : Mv) : Statement (.memLdw m) := of_fields rfl (by decide)
theorem memLdwn (m : Mv) : Statement (.memLdwn m) := of_fields rfl (by decide)
theorem memLdd (m : Mv) : Statement (.memLdd m) := of_fields rfl (by decide)
theorem memStb (m : Mv) : Statement (.memStb m) := of_fields rfl (by decide)
theorem memSth (m : Mv) : Statement (.memSth m) := of_fields rfl (by decide)
theorem memStw (m : Mv) : Statement (.memStw m) := of_fields rfl (by decide)
theorem memStd (m : Mv) : Statement (.memStd m) := of_fields rfl (by decide)
theorem memVld (m : Mv) : Statement (.memVld m) := of_fields rfl (by decide)
theorem memVlds (m : Mv) : Statement (.memVlds m) := of_fields rfl (by decide)
theorem memVgat (m : Mv) : Statement (.memVgat m) := of_fields rfl (by decide)
theorem memVst (m : Mv) : Statement (.memVst m) := of_fields rfl (by decide)
theorem memVsts (m : Mv) : Statement (.memVsts m) := of_fields rfl (by decide)
theorem memVsca (m : Mv) : Statement (.memVsca m) := of_fields rfl (by decide)
theorem memVstm (m : Mv) : Statement (.memVstm m) := of_fields rfl (by decide)
theorem memAmoadd (m : Mv) : Statement (.memAmoadd m) := of_fields rfl (by decide)
theorem memAmomins (m : Mv) : Statement (.memAmomins m) := of_fields rfl (by decide)
theorem memAmomaxs (m : Mv) : Statement (.memAmomaxs m) := of_fields rfl (by decide)
theorem memAmominn (m : Mv) : Statement (.memAmominn m) := of_fields rfl (by decide)
theorem memAmomaxn (m : Mv) : Statement (.memAmomaxn m) := of_fields rfl (by decide)
theorem memAmoand (m : Mv) : Statement (.memAmoand m) := of_fields rfl (by decide)
theorem memAmoor (m : Mv) : Statement (.memAmoor m) := of_fields rfl (by decide)
theorem memAmoxor (m : Mv) : Statement (.memAmoxor m) := of_fields rfl (by decide)
theorem memAmoswap (m : Mv) : Statement (.memAmoswap m) := of_fields rfl (by decide)
theorem memAmocas (m : Mv) : Statement (.memAmocas m) := of_fields rfl (by decide)
theorem memAmoaddW (m : Mv) : Statement (.memAmoaddW m) := of_fields rfl (by decide)
theorem memAmominsW (m : Mv) : Statement (.memAmominsW m) := of_fields rfl (by decide)
theorem memAmomaxsW (m : Mv) : Statement (.memAmomaxsW m) := of_fields rfl (by decide)
theorem memAmominnW (m : Mv) : Statement (.memAmominnW m) := of_fields rfl (by decide)
theorem memAmomaxnW (m : Mv) : Statement (.memAmomaxnW m) := of_fields rfl (by decide)
theorem memAmoandW (m : Mv) : Statement (.memAmoandW m) := of_fields rfl (by decide)
theorem memAmoorW (m : Mv) : Statement (.memAmoorW m) := of_fields rfl (by decide)
theorem memAmoxorW (m : Mv) : Statement (.memAmoxorW m) := of_fields rfl (by decide)
theorem memAmoswapW (m : Mv) : Statement (.memAmoswapW m) := of_fields rfl (by decide)
theorem memAmocasW (m : Mv) : Statement (.memAmocasW m) := of_fields rfl (by decide)
theorem memAmofmaxW (m : Mv) : Statement (.memAmofmaxW m) := of_fields rfl (by decide)
theorem memMark (m : Mv) : Statement (.memMark m) := of_fields rfl (by decide)
theorem memSend (m : Mv) : Statement (.memSend m) := of_fields rfl (by decide)
theorem memSends (m : Mv) : Statement (.memSends m) := of_fields rfl (by decide)
theorem vecIadd (u : VUnit) (m : Mv) : Statement (.vecIadd u m) := by cases u <;> exact of_fields rfl (by decide)
theorem vecIsub (u : VUnit) (m : Mv) : Statement (.vecIsub u m) := by cases u <;> exact of_fields rfl (by decide)
theorem vecImul (u : VUnit) (m : Mv) : Statement (.vecImul u m) := by cases u <;> exact of_fields rfl (by decide)
theorem vecImulh (u : VUnit) (m : Mv) : Statement (.vecImulh u m) := by cases u <;> exact of_fields rfl (by decide)
theorem vecImac (u : VUnit) (m : Mv) : Statement (.vecImac u m) := by cases u <;> exact of_fields rfl (by decide)
theorem vecImins (u : VUnit) (m : Mv) : Statement (.vecImins u m) := by cases u <;> exact of_fields rfl (by decide)
theorem vecImaxs (u : VUnit) (m : Mv) : Statement (.vecImaxs u m) := by cases u <;> exact of_fields rfl (by decide)
theorem vecIminn (u : VUnit) (m : Mv) : Statement (.vecIminn u m) := by cases u <;> exact of_fields rfl (by decide)
theorem vecImaxn (u : VUnit) (m : Mv) : Statement (.vecImaxn u m) := by cases u <;> exact of_fields rfl (by decide)
theorem vecIabs (u : VUnit) (m : Mv) : Statement (.vecIabs u m) := by cases u <;> exact of_fields rfl (by decide)
theorem vecAnd (u : VUnit) (m : Mv) : Statement (.vecAnd u m) := by cases u <;> exact of_fields rfl (by decide)
theorem vecOr (u : VUnit) (m : Mv) : Statement (.vecOr u m) := by cases u <;> exact of_fields rfl (by decide)
theorem vecXor (u : VUnit) (m : Mv) : Statement (.vecXor u m) := by cases u <;> exact of_fields rfl (by decide)
theorem vecAndn (u : VUnit) (m : Mv) : Statement (.vecAndn u m) := by cases u <;> exact of_fields rfl (by decide)
theorem vecShl (u : VUnit) (m : Mv) : Statement (.vecShl u m) := by cases u <;> exact of_fields rfl (by decide)
theorem vecShrl (u : VUnit) (m : Mv) : Statement (.vecShrl u m) := by cases u <;> exact of_fields rfl (by decide)
theorem vecShra (u : VUnit) (m : Mv) : Statement (.vecShra u m) := by cases u <;> exact of_fields rfl (by decide)
theorem vecPopc (u : VUnit) (m : Mv) : Statement (.vecPopc u m) := by cases u <;> exact of_fields rfl (by decide)
theorem vecClz (u : VUnit) (m : Mv) : Statement (.vecClz u m) := by cases u <;> exact of_fields rfl (by decide)
theorem vecCeq (u : VUnit) (m : Mv) : Statement (.vecCeq u m) := by cases u <;> exact of_fields rfl (by decide)
theorem vecClts (u : VUnit) (m : Mv) : Statement (.vecClts u m) := by cases u <;> exact of_fields rfl (by decide)
theorem vecCles (u : VUnit) (m : Mv) : Statement (.vecCles u m) := by cases u <;> exact of_fields rfl (by decide)
theorem vecFceq (u : VUnit) (m : Mv) : Statement (.vecFceq u m) := by cases u <;> exact of_fields rfl (by decide)
theorem vecFclt (u : VUnit) (m : Mv) : Statement (.vecFclt u m) := by cases u <;> exact of_fields rfl (by decide)
theorem vecFcle (u : VUnit) (m : Mv) : Statement (.vecFcle u m) := by cases u <;> exact of_fields rfl (by decide)
theorem vecSel (u : VUnit) (m : Mv) : Statement (.vecSel u m) := by cases u <;> exact of_fields rfl (by decide)
theorem vecFadd (u : VUnit) (m : Mv) : Statement (.vecFadd u m) := by cases u <;> exact of_fields rfl (by decide)
theorem vecFsub (u : VUnit) (m : Mv) : Statement (.vecFsub u m) := by cases u <;> exact of_fields rfl (by decide)
theorem vecFmul (u : VUnit) (m : Mv) : Statement (.vecFmul u m) := by cases u <;> exact of_fields rfl (by decide)
theorem vecFfma (u : VUnit) (m : Mv) : Statement (.vecFfma u m) := by cases u <;> exact of_fields rfl (by decide)
theorem vecFmin (u : VUnit) (m : Mv) : Statement (.vecFmin u m) := by cases u <;> exact of_fields rfl (by decide)
theorem vecFmax (u : VUnit) (m : Mv) : Statement (.vecFmax u m) := by cases u <;> exact of_fields rfl (by decide)
theorem vecFabs (u : VUnit) (m : Mv) : Statement (.vecFabs u m) := by cases u <;> exact of_fields rfl (by decide)
theorem vecFneg (u : VUnit) (m : Mv) : Statement (.vecFneg u m) := by cases u <;> exact of_fields rfl (by decide)
theorem vecFrcp (u : VUnit) (m : Mv) : Statement (.vecFrcp u m) := by cases u <;> exact of_fields rfl (by decide)
theorem vecFrsq (u : VUnit) (m : Mv) : Statement (.vecFrsq u m) := by cases u <;> exact of_fields rfl (by decide)
theorem vecFexp2 (u : VUnit) (m : Mv) : Statement (.vecFexp2 u m) := by cases u <;> exact of_fields rfl (by decide)
theorem vecFlog2 (u : VUnit) (m : Mv) : Statement (.vecFlog2 u m) := by cases u <;> exact of_fields rfl (by decide)
theorem vecFsqrt (u : VUnit) (m : Mv) : Statement (.vecFsqrt u m) := by cases u <;> exact of_fields rfl (by decide)
theorem vecF2i (u : VUnit) (m : Mv) : Statement (.vecF2i u m) := by cases u <;> exact of_fields rfl (by decide)
theorem vecI2f (u : VUnit) (m : Mv) : Statement (.vecI2f u m) := by cases u <;> exact of_fields rfl (by decide)
theorem vecF2bf (u : VUnit) (m : Mv) : Statement (.vecF2bf u m) := by cases u <;> exact of_fields rfl (by decide)
theorem vecBf2fl (u : VUnit) (m : Mv) : Statement (.vecBf2fl u m) := by cases u <;> exact of_fields rfl (by decide)
theorem vecBf2fh (u : VUnit) (m : Mv) : Statement (.vecBf2fh u m) := by cases u <;> exact of_fields rfl (by decide)
theorem vecNarrow (u : VUnit) (m : Mv) : Statement (.vecNarrow u m) := by cases u <;> exact of_fields rfl (by decide)
theorem vecWiden (u : VUnit) (m : Mv) : Statement (.vecWiden u m) := by cases u <;> exact of_fields rfl (by decide)
theorem vecBmax (u : VUnit) (m : Mv) : Statement (.vecBmax u m) := by cases u <;> exact of_fields rfl (by decide)
theorem vecQscale (u : VUnit) (m : Mv) : Statement (.vecQscale u m) := by cases u <;> exact of_fields rfl (by decide)
theorem vecQfa4 (u : VUnit) (m : Mv) : Statement (.vecQfa4 u m) := by cases u <;> exact of_fields rfl (by decide)
theorem vecQib8 (u : VUnit) (m : Mv) : Statement (.vecQib8 u m) := by cases u <;> exact of_fields rfl (by decide)
theorem vecDqfa4 (u : VUnit) (m : Mv) : Statement (.vecDqfa4 u m) := by cases u <;> exact of_fields rfl (by decide)
theorem vecDqib8 (u : VUnit) (m : Mv) : Statement (.vecDqib8 u m) := by cases u <;> exact of_fields rfl (by decide)
theorem vecWadd (u : VUnit) (m : Mv) : Statement (.vecWadd u m) := by cases u <;> exact of_fields rfl (by decide)
theorem vecWsub (u : VUnit) (m : Mv) : Statement (.vecWsub u m) := by cases u <;> exact of_fields rfl (by decide)
theorem vecWget (u : VUnit) (m : Mv) : Statement (.vecWget u m) := by cases u <;> exact of_fields rfl (by decide)
theorem vecWclr (u : VUnit) (m : Mv) : Statement (.vecWclr u m) := by cases u <;> exact of_fields rfl (by decide)
theorem vecWfold (u : VUnit) (m : Mv) : Statement (.vecWfold u m) := by cases u <;> exact of_fields rfl (by decide)
theorem vecWgetbf (u : VUnit) (m : Mv) : Statement (.vecWgetbf u m) := by cases u <;> exact of_fields rfl (by decide)
theorem vecIredadd (u : VUnit) (m : Mv) : Statement (.vecIredadd u m) := by cases u <;> exact of_fields rfl (by decide)
theorem vecIredmax (u : VUnit) (m : Mv) : Statement (.vecIredmax u m) := by cases u <;> exact of_fields rfl (by decide)
theorem vecFredmax (u : VUnit) (m : Mv) : Statement (.vecFredmax u m) := by cases u <;> exact of_fields rfl (by decide)
theorem vecFredsum (u : VUnit) (m : Mv) : Statement (.vecFredsum u m) := by cases u <;> exact of_fields rfl (by decide)
theorem vecPerm (u : VUnit) (m : Mv) : Statement (.vecPerm u m) := by cases u <;> exact of_fields rfl (by decide)
theorem vecLrot (u : VUnit) (m : Mv) : Statement (.vecLrot u m) := by cases u <;> exact of_fields rfl (by decide)
theorem vecBcast (u : VUnit) (m : Mv) : Statement (.vecBcast u m) := by cases u <;> exact of_fields rfl (by decide)
theorem vecIns (u : VUnit) (m : Mv) : Statement (.vecIns u m) := by cases u <;> exact of_fields rfl (by decide)
theorem vecExt (u : VUnit) (m : Mv) : Statement (.vecExt u m) := by cases u <;> exact of_fields rfl (by decide)
theorem vecZip (u : VUnit) (m : Mv) : Statement (.vecZip u m) := by cases u <;> exact of_fields rfl (by decide)
theorem vecUnzip (u : VUnit) (m : Mv) : Statement (.vecUnzip u m) := by cases u <;> exact of_fields rfl (by decide)
theorem vecClmul (u : VUnit) (m : Mv) : Statement (.vecClmul u m) := by cases u <;> exact of_fields rfl (by decide)
theorem vecClmulh (u : VUnit) (m : Mv) : Statement (.vecClmulh u m) := by cases u <;> exact of_fields rfl (by decide)
theorem vecBitrev (u : VUnit) (m : Mv) : Statement (.vecBitrev u m) := by cases u <;> exact of_fields rfl (by decide)
theorem strPusha (m : Mv) : Statement (.strPusha m) := of_fields rfl (by decide)
theorem strPushb (m : Mv) : Statement (.strPushb m) := of_fields rfl (by decide)
theorem strPushav (m : Mv) : Statement (.strPushav m) := of_fields rfl (by decide)
theorem strPushbv (m : Mv) : Statement (.strPushbv m) := of_fields rfl (by decide)
theorem strPushak (m : Mv) : Statement (.strPushak m) := of_fields rfl (by decide)
theorem strBank (m : Mv) : Statement (.strBank m) := of_fields rfl (by decide)
theorem strBeat (m : Mv) : Statement (.strBeat m) := of_fields rfl (by decide)
theorem strRun (m : Mv) : Statement (.strRun m) := of_fields rfl (by decide)
theorem strShift (m : Mv) : Statement (.strShift m) := of_fields rfl (by decide)
theorem strFold (m : Mv) : Statement (.strFold m) := of_fields rfl (by decide)
theorem strDrain (m : Mv) : Statement (.strDrain m) := of_fields rfl (by decide)
theorem strDrainbf (m : Mv) : Statement (.strDrainbf m) := of_fields rfl (by decide)
theorem strClra (m : Mv) : Statement (.strClra m) := of_fields rfl (by decide)
theorem strClrc (m : Mv) : Statement (.strClrc m) := of_fields rfl (by decide)
theorem strCnt (m : Mv) : Statement (.strCnt m) := of_fields rfl (by decide)
theorem strSlen (m : Mv) : Statement (.strSlen m) := of_fields rfl (by decide)
theorem strSprec (m : Mv) : Statement (.strSprec m) := of_fields rfl (by decide)
theorem strSeeda (m : Mv) : Statement (.strSeeda m) := of_fields rfl (by decide)
theorem strSeedb (m : Mv) : Statement (.strSeedb m) := of_fields rfl (by decide)
theorem strSmode (m : Mv) : Statement (.strSmode m) := of_fields rfl (by decide)
theorem strSthr (m : Mv) : Statement (.strSthr m) := of_fields rfl (by decide)
theorem strRefexp (m : Mv) : Statement (.strRefexp m) := of_fields rfl (by decide)
theorem strDigit (m : Mv) : Statement (.strDigit m) := of_fields rfl (by decide)
theorem strCkint (m : Mv) : Statement (.strCkint m) := of_fields rfl (by decide)
theorem strMgn (m : Mv) : Statement (.strMgn m) := of_fields rfl (by decide)
theorem strCpair (m : Mv) : Statement (.strCpair m) := of_fields rfl (by decide)
theorem strStat (m : Mv) : Statement (.strStat m) := of_fields rfl (by decide)
theorem cpyGo (u : CUnit) (m : Mv) : Statement (.cpyGo u m) := by cases u <;> exact of_fields rfl (by decide)
theorem cpyCancel (u : CUnit) (m : Mv) : Statement (.cpyCancel u m) := by cases u <;> exact of_fields rfl (by decide)
theorem cpyStatus (u : CUnit) (m : Mv) : Statement (.cpyStatus u m) := by cases u <;> exact of_fields rfl (by decide)
theorem colGo (c : CSlot) (m : Mv) : Statement (.colGo c m) := by cases c <;> exact of_fields rfl (by decide)
theorem colCancel (c : CSlot) (m : Mv) : Statement (.colCancel c m) := by cases c <;> exact of_fields rfl (by decide)
theorem operandEntryCapture (e : Eng) : Statement (.operandEntryCapture e) := of_none rfl
theorem memAccessStart (st : Bool) : Statement (.memAccessStart st) := of_none rfl
theorem memAccessPerformed (st : Bool) : Statement (.memAccessPerformed st) := of_none rfl
theorem atomicApply (pool : Bool) : Statement (.atomicApply pool) := of_none rfl
theorem cardRead (e : Eng) : Statement (.cardRead e) := of_none rfl
theorem jobCopy (n : Nat) : Statement (.jobCopy n) := of_none rfl
theorem jobFill (n : Nat) : Statement (.jobFill n) := of_none rfl
theorem jobGather (n : Nat) : Statement (.jobGather n) := of_none rfl
theorem jobMaxscale (r : Nat) (b : Nat) : Statement (.jobMaxscale r b) := of_none rfl
theorem jobReduce (r : Nat) (b : Nat) : Statement (.jobReduce r b) := of_none rfl
theorem jobAllreduce (r : Nat) (b : Nat) : Statement (.jobAllreduce r b) := of_none rfl
theorem jobAllgather (r : Nat) (b : Nat) : Statement (.jobAllgather r b) := of_none rfl
theorem jobBcast (r : Nat) (b : Nat) : Statement (.jobBcast r b) := of_none rfl
theorem hopCombine (i : Nat) (j : Nat) : Statement (.hopCombine i j) := of_none rfl
theorem quietReport (st : Nat) (tag : Bool) : Statement (.quietReport st tag) := of_none rfl
theorem deadlineExpiry (n : Nat) : Statement (.deadlineExpiry n) := of_none rfl
theorem invalAcknowledge (h : Nat) : Statement (.invalAcknowledge h) := of_none rfl
theorem forwardedRequest (i : Nat) : Statement (.forwardedRequest i) := of_none rfl
theorem homeRequest (t : Option Nat) : Statement (.homeRequest t) := of_none rfl
theorem atsPageResponse (pasid : Nat) (page : Nat) (ok : Bool) (hpa : Nat) (rd : Bool) (wr : Bool) : Statement (.atsPageResponse pasid page ok hpa rd wr) := of_none rfl
theorem atsInvalidation (pasid : Nat) (lo : Nat) (len : Nat) : Statement (.atsInvalidation pasid lo len) := of_none rfl
theorem expansionHoldTimeout (i : Nat) : Statement (.expansionHoldTimeout i) := of_none rfl
theorem hostWrite (port : Bool) (hpa : Nat) (data : List Byte) : Statement (.hostWrite port hpa data) := of_none rfl
theorem hostRead (port : Bool) (hpa : Nat) (len : Nat) : Statement (.hostRead port hpa len) := of_none rfl
theorem powerWindow (gs : List Nat) : Statement (.powerWindow gs) := of_none rfl
theorem ptpSync (off : Int) (bound : Nat) : Statement (.ptpSync off bound) := of_none rfl
theorem dtcsetWrite (v : Word) : Statement (.dtcsetWrite v) := of_none rfl
theorem bar0RegisterWrite (a : BarAccess) (v : Word) : Statement (.bar0RegisterWrite a v) := of_none rfl
theorem wakePageWrite (v : Word) : Statement (.wakePageWrite v) := of_none rfl
theorem nonceWrite (off : Nat) (v : Word) : Statement (.nonceWrite off v) := of_none rfl
theorem podLinkFail (ok : Bool) : Statement (.podLinkFail ok) := of_none rfl
theorem cxlPortTrain (port : Bool) (width : Nat) : Statement (.cxlPortTrain port width) := of_none rfl
theorem bundleIssue : Statement .bundleIssue := of_none rfl
theorem pendingTransferComplete : Statement .pendingTransferComplete := of_none rfl
theorem resultArrival : Statement .resultArrival := of_none rfl
theorem repeatEntry : Statement .repeatEntry := of_none rfl
theorem colCardTake : Statement .colCardTake := of_none rfl
theorem jobAmo : Statement .jobAmo := of_none rfl
theorem jobDelta : Statement .jobDelta := of_none rfl
theorem tokenFill : Statement .tokenFill := of_none rfl
theorem collectiveAssemble : Statement .collectiveAssemble := of_none rfl
theorem flitArbitration : Statement .flitArbitration := of_none rfl
theorem sendArrival : Statement .sendArrival := of_none rfl
theorem discardNotice : Statement .discardNotice := of_none rfl
theorem slotReadable : Statement .slotReadable := of_none rfl
theorem freezeTimeout : Statement .freezeTimeout := of_none rfl
theorem waittRelease : Statement .waittRelease := of_none rfl
theorem barrierArrival : Statement .barrierArrival := of_none rfl
theorem episodeComplete : Statement .episodeComplete := of_none rfl
theorem bwaittTimeout : Statement .bwaittTimeout := of_none rfl
theorem localArrival : Statement .localArrival := of_none rfl
theorem finalArrival : Statement .finalArrival := of_none rfl
theorem boundaryComplete : Statement .boundaryComplete := of_none rfl
theorem scapExceeded : Statement .scapExceeded := of_none rfl
theorem straggler : Statement .straggler := of_none rfl
theorem corePark : Statement .corePark := of_none rfl
theorem captureEnd : Statement .captureEnd := of_none rfl
theorem watchdog : Statement .watchdog := of_none rfl
theorem cpTrapDisposition : Statement .cpTrapDisposition := of_none rfl
theorem standResume : Statement .standResume := of_none rfl
theorem standKill : Statement .standKill := of_none rfl
theorem standReplay : Statement .standReplay := of_none rfl
theorem shadowPrepare : Statement .shadowPrepare := of_none rfl
theorem spillRefillComplete : Statement .spillRefillComplete := of_none rfl
theorem contextWriteback : Statement .contextWriteback := of_none rfl
theorem parkedPreemptEnd : Statement .parkedPreemptEnd := of_none rfl
theorem preemptDecision : Statement .preemptDecision := of_none rfl
theorem dispatch : Statement .dispatch := of_none rfl
theorem wakeWordWrite : Statement .wakeWordWrite := of_none rfl
theorem packetFetch : Statement .packetFetch := of_none rfl
theorem packetDecode : Statement .packetDecode := of_none rfl
theorem launch : Statement .launch := of_none rfl
theorem slotload : Statement .slotload := of_none rfl
theorem slotdrop : Statement .slotdrop := of_none rfl
theorem waitv : Statement .waitv := of_none rfl
theorem waitvEvaluate : Statement .waitvEvaluate := of_none rfl
theorem waitvTimeout : Statement .waitvTimeout := of_none rfl
theorem writevStore : Statement .writevStore := of_none rfl
theorem writevAdd : Statement .writevAdd := of_none rfl
theorem ffence : Statement .ffence := of_none rfl
theorem depend : Statement .depend := of_none rfl
theorem dependEvaluate : Statement .dependEvaluate := of_none rfl
theorem dependTimeout : Statement .dependTimeout := of_none rfl
theorem timestamp : Statement .timestamp := of_none rfl
theorem nop : Statement .nop := of_none rfl
theorem invalInvalidate : Statement .invalInvalidate := of_none rfl
theorem invalRetry : Statement .invalRetry := of_none rfl
theorem invalFail : Statement .invalFail := of_none rfl
theorem migrate : Statement .migrate := of_none rfl
theorem migratePublish : Statement .migratePublish := of_none rfl
theorem balloonDonate : Statement .balloonDonate := of_none rfl
theorem balloonWithdraw : Statement .balloonWithdraw := of_none rfl
theorem viewset : Statement .viewset := of_none rfl
theorem viewsetDrainComplete : Statement .viewsetDrainComplete := of_none rfl
theorem completionWrite : Statement .completionWrite := of_none rfl
theorem expansionHoldRelease : Statement .expansionHoldRelease := of_none rfl
theorem balloonInflate : Statement .balloonInflate := of_none rfl
theorem eventArbitrate : Statement .eventArbitrate := of_none rfl
theorem girdleBeacon : Statement .girdleBeacon := of_none rfl
theorem signatureReady : Statement .signatureReady := of_none rfl
theorem mailboxErase : Statement .mailboxErase := of_none rfl
theorem mailboxProgram : Statement .mailboxProgram := of_none rfl
theorem mailboxCommitver : Statement .mailboxCommitver := of_none rfl
theorem mailboxReset : Statement .mailboxReset := of_none rfl
theorem mailboxCommandDone : Statement .mailboxCommandDone := of_none rfl
theorem powerOnBoot : Statement .powerOnBoot := of_none rfl
theorem warmReset : Statement .warmReset := of_none rfl
theorem heartbeatMiss : Statement .heartbeatMiss := of_none rfl
theorem boleTakeover : Statement .boleTakeover := of_none rfl
theorem twigFailover : Statement .twigFailover := of_none rfl
theorem patrolScrub (found : Nat) : Statement (.patrolScrub found) := of_none rfl
theorem correctedErrorSummary : Statement .correctedErrorSummary := of_none rfl
theorem triggerFullEffect : Statement .triggerFullEffect := of_none rfl
theorem waitvReread : Statement .waitvReread := of_none rfl
theorem msixCoalesceExpiry : Statement .msixCoalesceExpiry := of_none rfl
theorem queueReset : Statement .queueReset := of_none rfl
theorem boleCoreError : Statement .boleCoreError := of_none rfl

end Sys2Proof.Laws.Encoding
end

