-- ==== Sys2Proof/Laws/Serve.lean ====
section
/-! SUPPORT. What serving the head of a queue gives, once for every engine. -/

namespace Sys2Proof.Machine

theorem State.AtHead.queue {s : State} {e : Eng} {i : Instr} {en : Entry} {v : Val} (h : s.AtHead e i en v) :
    ∃ r, s.me.q e = en :: r := by
  have := h.head
  cases hq : s.me.q e with
  | nil => simp [hq] at this
  | cons a r => simp [hq] at this; exact ⟨r, by rw [this]⟩

/-- A trigger at the head is what the engine takes. -/
theorem State.AtHead.headTrig {s : State} {e : Eng} {i : Instr} {en : Entry} {v : Val} (h : s.AtHead e i en v) :
    s.me.headTrig e i = some (en, v) := by
  obtain ⟨r, hq⟩ := h.queue
  simp [Core.headTrig, hq, h.val, h.serves, h.sound, h.is, h.turn]

/-- An SCA trigger that can start does so. -/
theorem scaRun_started {s : State} {i : Instr} {en : Entry} {v : Val} (h : s.AtHead .sca i en v) (div : Bool)
    (f : Word → Word → Word → Word) (hd : div = true → ∀ x ∈ s.me.flights, x.div = false) :
    scaRun i div f s = .next (s.started .sca en (some .scaR)
      (.s (f (s.me.op .sca).o.toScalar v.toScalar (s.me.op .sca).o2.toScalar)) 0 div) := by
  have hf : (div && s.me.flights.any (·.div)) = false := by
    cases div with
    | false => rfl
    | true =>
      simp only [Bool.true_and, List.any_eq_false]
      intro x hx
      simp [hd rfl x hx]
  simp only [scaRun, Core.scaStart, h.headTrig, hf]
  rfl

/-- A divide that finds the divider busy waits. -/
theorem scaRun_busy {s : State} {i : Instr} {en : Entry} {v : Val} (h : s.AtHead .sca i en v) (f : Word → Word → Word → Word)
    (hd : ∃ x ∈ s.me.flights, x.div = true) : scaRun i true f s = .next (s.setMe s.me) := by
  have hf : s.me.flights.any (·.div) = true := by
    obtain ⟨x, hx, hx'⟩ := hd
    exact List.any_eq_true.mpr ⟨x, hx, hx'⟩
  simp [scaRun, Core.scaStart, h.headTrig, hf]

/-- A VEC trigger that fills a port starts. -/
theorem vecStart_started {s : State} {u : VUnit} {i : Instr} {en : Entry} {v : Val} (h : s.AtHead u.eng i en v) (p : RPort)
    (f : VIn → Val × Byte) :
    s.setMe (s.me.vecStart u i p f) = s.started u.eng en (some p) (f (s.me.vecIn u en v)).1 (f (s.me.vecIn u en v)).2 false := by
  simp only [Core.vecStart, h.headTrig]
  rfl

/-- A STR trigger that starts acts on the array, or waits, or faults. -/
theorem strRun_at {s : State} {i : Instr} {en : Entry} {v : Val} (h : s.AtHead .str i en v) (p : Option RPort)
    (f : Str → Word → Word → Val → Entry → StrRes) :
    strRun i p f s = .next (
      if strRange s.me.ctx.str.sprec i v.toScalar = true then
        match f s.me.ctx.str (s.me.op .str).o.toScalar (s.me.op .str).o2.toScalar v en with
        | .wait => s
        | .trap k a => s.setMe (s.me.trapHead .str en k a)
        | .ok t r fl b =>
          s.setMe { s.me with
            qs := s.me.qs.set [] Eng.str.code (s.me.q .str).tail,
            ctx := { s.me.ctx with str := t },
            beats := s.me.beatsPlus b,
            bad := s.me.bad.after s.me.ctx.str i (s.me.op .str).o.toScalar v.toScalar,
            flights := s.me.flights ++ [⟨en.tag, (match r with | some _ => p | none => none), r.getD (.s 0), fl, .str, false⟩] }
      else s.setMe (s.me.trapHead .str en Cause.ILLEGAL_OPERAND 0)) := by
  simp only [strRun, strStart]
  rw [show s.core s.cur = s.me from rfl, h.headTrig]
  dsimp only
  cases strRange s.me.ctx.str.sprec i v.toScalar with
  | false => rfl
  | true =>
    simp only [Bool.not_true, Bool.false_eq_true, if_false, if_true]
    generalize f s.me.ctx.str (s.me.op .str).o.toScalar (s.me.op .str).o2.toScalar v en = r
    cases r <;> rfl

end Sys2Proof.Machine
end

