-- ==== Sys2Proof/Tests/Slice0.lean ====
section
/-! SUPPORT. Tests: ill-formed terms that WellFormed refuses, words written out from the encoding tables of 03_encoding.md and
the meanings they decode to, single steps with results from the spec's own rules, and for each statement states that meet its
hypotheses (wit_ and the statement's name). -/

set_option Elab.async false
set_option linter.unusedVariables false
set_option maxRecDepth 16000
set_option exponentiation.threshold 8192

namespace Sys2Proof.Tests

open Sys2Proof Sys2Proof.Machine Sys2Proof.Claims

/-- A literal source under guard g0. -/
def mv (x : BitVec 9) : Mv := ⟨0, .lit x⟩

/-- Core 0 alone in a stand on partition 0, with i where its next step takes it. -/
def placed (i : Instr) : State := State.reset.place i

/-- The state with the current core replaced. -/
def withMe (s : State) (f : Core → Core) : State := s.setMe (f s.me)

/-! ### Well-formed terms -/

theorem test_wf_sreg : (Instr.moveSreg 2 (.s 1) (mv 0)).wf = false ∧ (Instr.moveSreg 7 (.s 1) (mv 0)).wf = true := by decide
theorem test_wf_vreg : (Instr.moveVreg 7 (.v 1) (mv 0)).wf = false ∧ (Instr.moveVreg 3 (.vm 1) (mv 0)).wf = true := by decide
theorem test_wf_oport : (Instr.moveOperandPort 1 .m (mv 0)).wf = false ∧ (Instr.moveOperandPort 7 .w (mv 0)).wf = false ∧
    (Instr.moveOperandPort 7 .m (mv 0)).wf = true := by decide
theorem test_wf_col : (Instr.moveColOperand .s5 .w (mv 0)).wf = false ∧ (Instr.moveColOperand .s6 .o2 (mv 0)).wf = true := by decide
theorem test_wf_xport : (Instr.moveXport 0 .str .m (mv 0)).wf = false ∧ (Instr.moveXport 0 .mem .m (mv 0)).wf = true := by decide
theorem test_wf_quiet : (Instr.quietReport 68 false).wf = false ∧ (Instr.quietReport 67 false).wf = true := by decide
theorem test_wf_ack : (Instr.invalAcknowledge 4).wf = false ∧ (Instr.invalAcknowledge 3).wf = true := by decide
theorem test_wf_power : (Instr.powerWindow []).wf = false ∧ (Instr.powerWindow (List.replicate 64 16)).wf = true := by decide

/-! ### Decoding: guard 23:21, unit 20:18, port 17:11, kind 10:9, E 8, number 7:0 (03_encoding.md R65) -/

/-! ### Decoding: guard, unit, port, source kind, E and source index, bit by bit (03_encoding.md R65) -/

/-- 03_encoding.md R91: jmp is port 0x08. -/
theorem test_decode_ctl_jmp : decodeMove 0 0b000001000100000000000101#24 = some (.ctlJmp ⟨0, .reg (.s 5) false⟩) := by decide
/-- 03_encoding.md R91: halt is port 0x0E; guard g3. -/
theorem test_decode_ctl_halt : decodeMove 0 0b011001000111011000000111#24 = some (.ctlHalt ⟨3, .lit 7⟩) := by decide
/-- 03_encoding.md R92: add is port 0x08; a literal of -1. -/
theorem test_decode_sca_add : decodeMove 1 0b000001000100011111111111#24 = some (.scaAdd ⟨0, .lit (-1)⟩) := by decide
/-- 03_encoding.md R92: cat9 is port 0x2C; k9. -/
theorem test_decode_sca_cat9 : decodeMove 1 0b000001010110010000001001#24 = some (.scaCat9 ⟨0, .const 9 false⟩) := by decide
/-- 03_encoding.md R94: iadd is port 0x08; v3. -/
theorem test_decode_vec_iadd : decodeMove 2 0b000001000100001000000011#24 = some (.vecIadd .v0 ⟨0, .reg (.v 3) false⟩) := by decide
/-- 03_encoding.md R94; vec0.r with E. -/
theorem test_decode_vec_iadd1 : decodeMove 3 0b000001000100001100101000#24 = some (.vecIadd .v1 ⟨0, .port .vec0R true⟩) := by decide
/-- 03_encoding.md R93: ldb is port 0x08; o2. -/
theorem test_decode_mem_ldb : decodeMove 7 0b000001000100000001000010#24 = some (.memLdb ⟨0, .reg (.o 2) false⟩) := by decide
/-- 03_encoding.md R95: pusha is port 0x08; a1. -/
theorem test_decode_str_pusha : decodeMove 4 0b000001000100000001010001#24 = some (.strPusha ⟨0, .reg (.a 1) false⟩) := by decide
/-- 03_encoding.md R96: go is port 0x08; slot 5 is CPY0. -/
theorem test_decode_cpy_go : decodeMove 5 0b000001000100010000000001#24 = some (.cpyGo .c0 ⟨0, .const 1 false⟩) := by decide
/-- 03_encoding.md R96; slot 6 is CPY1. -/
theorem test_decode_cpy_go1 : decodeMove 6 0b000001000100010000000001#24 = some (.cpyGo .c1 ⟨0, .const 1 false⟩) := by decide
/-- 03_encoding.md R66, R96: COL is unit 2 of slots 5 and 6. -/
theorem test_decode_col_go : decodeMove 5 0b000010000100010000000001#24 = some (.colGo .s5 ⟨0, .const 1 false⟩) := by decide
/-- 03_encoding.md R70: s63; mem.r is source 114. -/
theorem test_decode_sreg : decodeMove 1 0b000000011111100001110010#24 = some (.moveSreg 1 (.s 63) ⟨0, .port .memR false⟩) := by decide
/-- 03_encoding.md R66, R71: VREG is unit 2 of slot 7. -/
theorem test_decode_vreg7 : decodeMove 7 0b000010010000101001000101#24 = some (.moveVregSlot7 (.vm 1) ⟨0, .lndV 5 false⟩) := by decide
/-- 03_encoding.md R68: w is port 3 of VEC0. -/
theorem test_decode_oport : decodeMove 2 0b000001000001111000000001#24 = some (.moveOperandPort 2 .w (mv 1)) := by decide
/-- 03_encoding.md R68, R241: o2 of COL. -/
theorem test_decode_colop : decodeMove 6 0b000010000000111000000001#24 = some (.moveColOperand .s6 .o2 (mv 1)) := by decide
/-- 03_encoding.md R67: engine 5 is MEM, port 2 is m. -/
theorem test_decode_xport : decodeMove 4 0b000011010101001000100110#24 = some (.moveXport 4 .mem .m ⟨0, .reg (.vm 6) false⟩) := by decide

/-- 03_encoding.md R66, R70, R72: reserved units, register ports and sources do not fall through to a neighbour. -/
theorem test_decode_reserved : decodeMove 0 0b000010000000000000000000#24 = none ∧ decodeMove 0 0b000000101111100000000001#24 = none ∧
    decodeMove 0 0b000000000000100001011111#24 = none ∧ decodeMove 2 0b000001000000001000110010#24 = none ∧
    decodeMove 0 0b000100000000011000000000#24 = none ∧ decodeMove 1 0b000001010110111000000000#24 = none := by decide

/-- 05_local_memory.md R143, R147 and the port table of 03_encoding.md R93: what a few MEM triggers do. -/
theorem test_memKind : memKind (.memLdb (mv 0)) = .ld 1 true ∧ memKind (.memLdhn (mv 0)) = .ld 2 false ∧ memKind (.memStd (mv 0)) = .st 8 ∧
    memKind (.memVgat (mv 0)) = .vgat ∧ memKind (.memVstm (mv 0)) = .vstm ∧ memKind (.memMark (mv 0)) = .mark ∧
    (∃ op, memKind (.memAmoadd (mv 0)) = .amo 8 op ∧ memKind (.memAmoaddW (mv 0)) = .amo 4 op) ∧ memKind (.memSends (mv 0)) = .sends := by
  refine ⟨rfl, rfl, rfl, rfl, rfl, rfl, ⟨_, rfl, rfl⟩, rfl⟩

/-! ### Single steps and operations, with results worked out from the rules -/

/-- The value that the step on i put under way, and its flags. -/
def result (o : Res) : Option (Val × Byte) :=
  match o with
  | .next t => t.me.flights.head?.map (fun f => (f.val, f.flags))
  | _ => none

/-- 04_scalar_control.md R109: all ones + 1 wraps to 0, with both sources of 64 bits. -/
theorem test_sca_add_wraps :
    result (step (withMe (placed (.scaAdd (mv 1))) (fun c => { c with ctx := { c.ctx with oports := [(1, ⟨.s (-1), .s 0, 0, 0⟩)] } }))) =
      some (.s 0, 0) := by decide
/-- 04_scalar_control.md R109: a - b, in that order: 0 - 1. -/
theorem test_sca_sub_order : result (step (placed (.scaSub (mv 1)))) = some (.s (-1), 0) := by decide
/-- 04_scalar_control.md R109: a quotient by 0 is all ones. -/
theorem test_sca_divs_zero : result (step (placed (.scaDivs (mv 0)))) = some (.s (-1), 0) := by decide
/-- 04_scalar_control.md R109: clz of 1 is 63. -/
theorem test_sca_clz : result (step (placed (.scaClz (mv 1)))) = some (.s 63, 0) := by decide
/-- 03_encoding.md R70, R84: a literal of -5 reaches s7 sign-extended, and the core goes to bundle 1. -/
theorem test_move_literal :
    (match step (placed (.moveSreg 0 (.s 7) (mv (-5)))) with
     | .next t => decide (t.me.ctx.readReg (.s 7) = .full (.s (-5)) ∧ t.me.pc = 1)
     | _ => false) = true := by decide
/-- 03_encoding.md R70: a move to s0 leaves it 0. -/
theorem test_move_s0 :
    (match step (placed (.moveSreg 0 (.s 0) (mv 9))) with
     | .next t => decide (t.me.ctx.readReg (.s 0) = .full (.s 0) ∧ t.me.pc = 1)
     | _ => false) = true := by decide
/-- 12_traps.md R333: a move to bind0 is PRIVILEGE, 0x03, precise at issue. -/
theorem test_move_bind_traps :
    (match step (placed (.moveSreg 0 (.bind 0) (mv 9))) with
     | .next t => t.me.trap.map (fun k => (k.cause, k.prec))
     | _ => none) = some (0x03, 0) := by decide
/-- 02_numbers.md R38, 06_vector.md R175: 1 + 1 = 2 in FP32, exactly. -/
theorem test_fadd_exact : fadd 0 0x3F800000 0x3F800000 = (0x40000000, 0) := by decide
/-- 06_vector.md R175: 1 + 2^-24 is a tie, to even 1, inexact. -/
theorem test_fadd_tie : (fadd 0 0x3F800000 0x33800000).1 = 0x3F800000 := by decide
/-- 06_vector.md R176: 1.5 * 1.5 = 2.25. -/
theorem test_fmul : fmul 0 0x3FC00000 0x3FC00000 = (0x40100000, 0) := by decide
/-- 05_local_memory.md R135, R136: the own partition of core 5 begins at 1 x POOL of its quad's pool. -/
theorem test_own_partition : locOf 0x1000 5 0x01000010 = some (true, 0x1010) := by decide
/-- 05_local_memory.md R135: an address of the window beyond the allocation names no byte. -/
theorem test_beyond : locOf 0x1000 5 0x01001000 = none := by decide
/-- FIPS 202, the first bytes of SHAKE256 of the empty message: 46 B9 DD 2B. -/
theorem test_shake256 : shake256 [] 4 = [0x46, 0xB9, 0xDD, 0x2B] := by decide +kernel
/-- 11_translation.md R297, R298: bit 63 marks the device half, bits 55:54 the home. -/
theorem test_home_of : isDev 0x8040000000001234 = true ∧ homeOf 0x8040000000001234 = 1 ∧ offOf 0x8040000000001234 = 0x1234 ∧
    isDev 0x0040000000001234 = false := by decide

/-- 02_numbers.md, the worked example of integer conversion: FP32 300.7 to I8. -/
theorem test_to_int : BitVec.ofInt 8 (toIntFmt 0 false 8 (un32 0x4396599A)).1 = 45 ∧
    (toIntFmt 0 false 8 (un32 0x4396599A)).2 = fNV ||| fNX ∧ toIntFmt 0 true 8 (un32 0x4396599A) = (127, fIV ||| fNX) ∧
    BitVec.ofInt 8 (toIntFmt 1 false 8 (un32 0x4396599A)).1 = 44 := by decide +kernel
/-- 02_numbers.md, the worked example of the FA4 quantiser: 0.7, -2.2, -5 and 4.5 under QAUTO. -/
theorem test_quantise : fa4Bytes (quantise false 0x1C
    (([0x3F333333, 0xC00CCCCD, 0xC0A00000, 0x40900000] ++ List.replicate 28 0 : List (BitVec 32)).map (qElOf false)) 0) =
    [0xFA, 0x6D, 0xD2, 0x78] ++ List.replicate 14 0 := by decide +kernel
/-- 06_vector.md, the worked example of fredsum: 2^24 + 1 + 1 in one rounding. -/
theorem test_fredsum : fredsum 0 (BitVec.ofNat 4096 (0x4B800000 + 0x3F800000 * 2 ^ 32 + 0x3F800000 * 2 ^ 64)) = (0x4B800001, 0) := by
  decide +kernel

/-! ### States that meet the hypotheses: the engines of a core -/

/-- The head of an engine's queue. -/
def ent (s : State) (e : Eng) : Entry := (s.me.q e).headD (placedEntry Core.idle .bundleIssue 0 0)

/-- AtHead of the queue's own head, as one decidable fact. -/
theorem atHead_of {s : State} {e : Eng} {i : Instr} {v : Val}
    (h : s.me.serving = true ∧ (s.me.q e).head? = some (ent s e) ∧ (ent s e).trig = some i ∧ (ent s e).val = .ready v ∧
      (ent s e).faulted = false ∧ s.me.twinFirst e (ent s e).tag = false) : s.AtHead e i (ent s e) v :=
  ⟨h.1, h.2.1, h.2.2.1, h.2.2.2.1, h.2.2.2.2.1, h.2.2.2.2.2⟩

/-- Clear, as one decidable fact. -/
theorem clear_of {s : State} {ms : List BMove}
    (h : s.me.seq = .run ∧ s.issuing s.cur = true ∧ stalls s.me ms = false ∧ firstCause s.me (s.exchOf s.cur) ms = none ∧
      asyncRead s.me ms = none ∧ slotsReady s.me ms = true) : s.Clear ms :=
  ⟨h.1, h.2.1, h.2.2.1, h.2.2.2.1, h.2.2.2.2.1, h.2.2.2.2.2⟩

/-- A divide at the head of the SCA queue. -/
def divs : State := placed (.scaDivs (mv 3))
/-- The same while an older divide is under way. -/
def divs2 : State := withMe divs (fun c => { c with flights := [⟨7, some .scaR, .s 0, 0, .sca, true⟩] })

theorem wit_ScaTriggerGivesItsResult : isSca (.scaDivs (mv 3)) = true ∧ isDivide (.scaDivs (mv 3)) = true ∧
    divs.AtHead .sca (.scaDivs (mv 3)) (ent divs .sca) (.s 3) ∧ (∀ f ∈ divs.me.flights, f.div = false) ∧
    divs2.AtHead .sca (.scaDivs (mv 3)) (ent divs2 .sca) (.s 3) ∧ (∃ f ∈ divs2.me.flights, f.div = true) :=
  ⟨rfl, rfl, atHead_of (by decide), by decide, atHead_of (by decide), by decide⟩

theorem wit_VectorIntegerLanes :
    (∃ f, (placed (.vecIadd .v0 (mv 1))).AtHead VUnit.v0.eng (.vecIadd .v0 (mv 1)) (ent (placed (.vecIadd .v0 (mv 1))) .vec0) (.s 1) ∧
      intLane (.vecIadd .v0 (mv 1)) = some (.v0, f)) ∧
    (∃ f, (placed (.vecSel .v1 (mv 1))).AtHead VUnit.v1.eng (.vecSel .v1 (mv 1)) (ent (placed (.vecSel .v1 (mv 1))) .vec1) (.s 1) ∧
      moveLane (.vecSel .v1 (mv 1)) = some (.v1, f)) :=
  ⟨⟨_, atHead_of (by decide), rfl⟩, ⟨_, atHead_of (by decide), rfl⟩⟩

theorem wit_VectorLanesWithFlags : ∃ f, flagLane (.vecFadd .v0 (mv 1)) = some (.v0, f) ∧
    (placed (.vecFadd .v0 (mv 1))).AtHead VUnit.v0.eng (.vecFadd .v0 (mv 1)) (ent (placed (.vecFadd .v0 (mv 1))) .vec0) (.s 1) :=
  ⟨_, rfl, atHead_of (by decide)⟩

theorem wit_VectorComparisons : ∃ f, cmpLane (.vecFclt .v1 (mv 1)) = some (.v1, f) ∧
    (placed (.vecFclt .v1 (mv 1))).AtHead VUnit.v1.eng (.vecFclt .v1 (mv 1)) (ent (placed (.vecFclt .v1 (mv 1))) .vec1) (.s 1) :=
  ⟨_, rfl, atHead_of (by decide)⟩

theorem wit_VectorReductionsAndConversions :
    (∃ f, (placed (.vecFredsum .v0 (mv 1))).AtHead VUnit.v0.eng (.vecFredsum .v0 (mv 1)) (ent (placed (.vecFredsum .v0 (mv 1))) .vec0)
      (.s 1) ∧ scalarOf (.vecFredsum .v0 (mv 1)) = some (.v0, f)) ∧
    (∃ f, (placed (.vecQfa4 .v0 (mv 1))).AtHead VUnit.v0.eng (.vecQfa4 .v0 (mv 1)) (ent (placed (.vecQfa4 .v0 (mv 1))) .vec0) (.s 1) ∧
      convertOf (.vecQfa4 .v0 (mv 1)) = some (.v0, f)) :=
  ⟨⟨_, atHead_of (by decide), rfl⟩, ⟨_, atHead_of (by decide), rfl⟩⟩

/-- A wide addition at the head of VEC0's queue. -/
def wadd : State := placed (.vecWadd .v0 (mv 1))

theorem wit_WideAccumulate : ∃ f, wideOf (.vecWadd .v0 (mv 1)) = some (.v0, f) ∧
    wadd.AtHead VUnit.v0.eng (.vecWadd .v0 (mv 1)) (ent wadd .vec0) (.s 1) ∧ wadd.me.bad.wide = [] :=
  ⟨_, rfl, atHead_of (by decide), rfl⟩

/-- A read of accumulator 0 of VEC0, and the same with an error in its lane 0. -/
def wget : State := placed (.vecWget .v0 (mv 1))
/-- Accumulator 0 of VEC0 has an uncorrectable error in lane 0. -/
def wgetBad : State := withMe wget (fun c => { c with bad := { BadSites.none with wide := [0] } })
/-- A fold of accumulator 1 into accumulator 0, of which accumulator n has an error. -/
def wfoldBad (n : Nat) : State :=
  withMe (placed (.vecWfold .v0 (mv 1))) (fun c => { c with bad := { BadSites.none with wide := [128 * n] } })

theorem wit_WideRead :
    (∃ f, wgetOf (.vecWget .v0 (mv 1)) = some (.v0, f) ∧ wget.AtHead VUnit.v0.eng (.vecWget .v0 (mv 1)) (ent wget .vec0) (.s 1) ∧
      wget.me.wideBad .v0 (wget.me.vecIn .v0 (ent wget .vec0) (.s 1)).k = false) ∧
    wgetBad.AtHead VUnit.v0.eng (.vecWget .v0 (mv 1)) (ent wgetBad .vec0) (.s 1) ∧
    wgetBad.me.wideBad .v0 (wgetBad.me.vecIn .v0 (ent wgetBad .vec0) (.s 1)).k = true ∧ wgetBad.me.trap = none ∧
    (∀ n ∈ [0, 1], (wfoldBad n).AtHead VUnit.v0.eng (.vecWfold .v0 (mv 1)) (ent (wfoldBad n) .vec0) (.s 1) ∧ (wfoldBad n).me.trap = none) ∧
    (wfoldBad 0).me.wideBad .v0 ((wfoldBad 0).me.vecIn .v0 (ent (wfoldBad 0) .vec0) (.s 1)).k = true ∧
    (wfoldBad 1).me.wideBad .v0 ((lane ((wfoldBad 1).me.vecIn .v0 (ent (wfoldBad 1) .vec0) (.s 1)).b 0).toNat % 4) = true := by
  refine ⟨⟨_, rfl, atHead_of (by decide), by decide⟩, atHead_of (by decide), by decide, rfl, fun n hn => ?_, by decide, by decide⟩
  simp only [List.mem_cons, List.not_mem_nil, or_false] at hn
  rcases hn with rfl | rfl <;> exact ⟨atHead_of (by decide), rfl⟩

/-- The sprec trigger with the last legal value, and with the first illegal one. -/
def sprec (x : BitVec 9) : State := placed (.strSprec (mv x))

theorem wit_StreamConfiguration :
    (∃ f, strField (.strSprec (mv 4)) = some f) ∧ (sprec 4).AtHead .str (.strSprec (mv 4)) (ent (sprec 4) .str) (.s 4) ∧
    strRange (sprec 4).me.ctx.str.sprec (.strSprec (mv 4)) 4 = true ∧
    (sprec 5).AtHead .str (.strSprec (mv 5)) (ent (sprec 5) .str) (.s 5) ∧
    strRange (sprec 5).me.ctx.str.sprec (.strSprec (mv 5)) 5 = false ∧ (sprec 5).me.trap = none :=
  ⟨⟨_, rfl⟩, atHead_of (by decide), by decide, atHead_of (by decide), by decide, rfl⟩

/-- A beat with SLEN 256 at SPREC 4. -/
def beat : State := placed (.strBeat (mv 0))
/-- The array and the error sites of a state replaced. -/
def strWith (s : State) (f : Str → Str) (b : BadSites) : State :=
  withMe s (fun c => { c with ctx := { c.ctx with str := f c.ctx.str }, bad := b })
/-- A beat that SLEN stops, and one at the last SLEN that it does not stop. -/
def beatOver (n : BitVec 9) : State := strWith beat (fun t => { t with sprec := 1, slen := n.toNat }) BadSites.none
/-- A beat that reads a TAG entry with an error. -/
def beatBad : State := strWith beat id { BadSites.none with tag := [0] }
/-- A margin written at the index o. -/
def margin (o : Word) : State := withMe (placed (.strMgn (mv 0))) (fun c => { c with ctx := { c.ctx with oports := [(4, ⟨.s o, .s 0, 0, 0⟩)] } })

theorem wit_StreamActs :
    (beat.AtHead .str (.strBeat (mv 0)) (ent beat .str) (.s 0) ∧ strRange beat.me.ctx.str.sprec (.strBeat (mv 0)) 0 = true ∧
      ¬ 4 ^ beat.me.ctx.str.sprec.toNat < beat.me.ctx.str.slen.toNat ∧ ¬ ReadsError beat.me (.s 0) (.strBeat (mv 0)) ∧
      beat.me.ctx.str.slen ≠ 0 ∧ beat.me.ctx.str.edge.wf Dig.dead = true) ∧
    ((beatOver 4).AtHead .str (.strBeat (mv 0)) (ent (beatOver 4) .str) (.s 0) ∧
      ¬ 4 ^ (beatOver 4).me.ctx.str.sprec.toNat < (beatOver 4).me.ctx.str.slen.toNat) ∧
    ((beatOver 5).AtHead .str (.strBeat (mv 0)) (ent (beatOver 5) .str) (.s 0) ∧
      4 ^ (beatOver 5).me.ctx.str.sprec.toNat < (beatOver 5).me.ctx.str.slen.toNat ∧ (beatOver 5).me.trap = none) ∧
    (beatBad.AtHead .str (.strBeat (mv 0)) (ent beatBad .str) (.s 0) ∧ ReadsError beatBad.me (.s 0) (.strBeat (mv 0)) ∧
      beatBad.me.trap = none) ∧
    ((margin 15).AtHead .str (.strMgn (mv 0)) (ent (margin 15) .str) (.s 0) ∧ ((margin 15).me.op .str).o.toScalar.toNat ≤ 15) ∧
    ((margin 16).AtHead .str (.strMgn (mv 0)) (ent (margin 16) .str) (.s 0) ∧ 15 < ((margin 16).me.op .str).o.toScalar.toNat ∧
      (margin 16).me.trap = none) := by
  have clean : ¬ ReadsError beat.me (.s 0) (.strBeat (mv 0)) := by
    rintro (⟨_, h, _⟩ | ⟨_, h, _⟩ | ⟨_, h, _⟩) <;> exact List.not_mem_nil h
  have dirty : ReadsError beatBad.me (.s 0) (.strBeat (mv 0)) := .inr (.inl ⟨0, by decide⟩)
  refine ⟨⟨atHead_of ?_, ?_, ?_, clean, ?_⟩, ⟨atHead_of ?_, ?_⟩, ⟨atHead_of ?_, ?_⟩, ⟨atHead_of ?_, dirty, ?_⟩, ⟨atHead_of ?_, ?_⟩,
    atHead_of ?_, ?_⟩ <;> decide

theorem wit_VectorPushes : Instr.strPushbv (mv 1) = (if true then .strPushbv (mv 1) else .strPushav (mv 1)) ∧
    (placed (.strPushbv (mv 1))).AtHead .str (.strPushbv (mv 1)) (ent (placed (.strPushbv (mv 1))) .str) (.s 1) :=
  ⟨rfl, atHead_of (by decide)⟩

/-- The array's operand ports in a state. -/
def strOp (s : State) (o : Word) : State := withMe s (fun c => { c with ctx := { c.ctx with oports := [(4, ⟨.s o, .s 0, 0, 0⟩)] } })
/-- A pusha of one position of one line at address 2, and the pushak and the mapped pushb of the same. -/
def pushA : State := strOp (placed (.strPusha (mv 2))) 0x10100
/-- A pushak of one position of one line. -/
def pushAk : State := strOp (placed (.strPushak (mv 2))) 0x10100
/-- A pushb under a pending map of one position. -/
def pushB : State :=
  withMe (strOp (placed (.strPushb (mv 2))) 0x100) (fun c => { c with ctx := { c.ctx with str := { c.ctx.str with cmap := some ⟨1, [0], [0]⟩ } } })

/-- What MemoryPushes asks of a push whose head has the value v: its control word is legal, nothing holds it and the bytes of
the blocks qs pass their checks. -/
def pushGoes (s : State) (i : Instr) (v : Val) (ak : Bool) (kext : Option Nat) (qs : List Nat) : Prop :=
  let o := (s.me.op .str).o.toScalar
  let p := pushWord ak kext o (s.me.op .str).o2.toScalar v.toScalar
  s.AtHead .str i (ent s .str) v ∧ ¬ pushWordBad ak kext.isSome o ∧ PushFree s (ent s .str) p qs ∧ PushReads s p qs

/-- The same from facts that decide. -/
theorem pushGoes_of {s : State} {i : Instr} {v : Val} {ak : Bool} {kext : Option Nat} {qs : List Nat}
    (a : s.AtHead .str i (ent s .str) v) (w : ¬ pushWordBad ak kext.isSome (s.me.op .str).o.toScalar)
    (h : let p := pushWord ak kext (s.me.op .str).o.toScalar (s.me.op .str).o2.toScalar v.toScalar
      s.me.pushWaits (s.poolOf s.cur) s.cur (ent s .str).tag (p.lines (s.poolOf s.cur) s.cur qs) = false ∧
      (p.base % 2 = 0 ∧ p.stride % 2 = 0) ∧ ∀ c < 5, 2 ≤ c → ∀ a ∈ p.bytes qs, byteCheck s true 1 c a = none) :
    pushGoes s i v ak kext qs :=
  ⟨a, w, h.1, h.2.1, fun c l u => h.2.2 c (by omega) l⟩

/-- A push at an odd address, and one of each kind at an address that nothing reaches. -/
def pushOdd : State := strOp (placed (.strPusha (mv 1))) 0x10100
/-- A push from the last bytes of the address space. -/
def pushFar (ak : Bool) : State := strOp (placed (if ak then .strPushak (mv (-2)) else .strPusha (mv (-2)))) 0x10100
/-- Its decoded control word. -/
def farWord (ak : Bool) : PushCtl := pushWord ak none 0x10100 0 (-2)

theorem wit_MemoryPushes :
    pushGoes pushA (.strPusha (mv 2)) (.s 2) false none (pushBlocksOf (pushWord false none 0x10100 0 2) none) ∧
    pushGoes pushB (.strPushb (mv 2)) (.s 2) false (some 1) (pushBlocksOf (pushWord false (some 1) 0x100 0 2) (some ⟨1, [0], [0]⟩)) ∧
    (pushGoes pushAk (.strPushak (mv 2)) (.s 2) true none [0] ∧
      Walk (pushWanted pushAk pushAk.me.ctx.str (pushWord true none 0x10100 0 2)) 1 1 [] []) ∧
    (pushA.me.trap = none ∧ pushWordBad false false 0x810100 ∧ ¬ pushWordBad false false 0x800100 ∧ pushWordBad true false 0x0001000C ∧
      ¬ pushWordBad true false 0x00020004) ∧
    (pushOdd.AtHead .str (.strPusha (mv 1)) (ent pushOdd .str) (.s 1) ∧ PushFails pushOdd (pushWord false none 0x10100 0 1) [0] 0x0D) ∧
    (∀ ak : Bool, (pushFar ak).AtHead .str (if ak then .strPushak (mv (-2)) else .strPusha (mv (-2))) (ent (pushFar ak) .str) (.s (-2)) ∧
      PushFree (pushFar ak) (ent (pushFar ak) .str) (farWord ak) [0] ∧ PushFails (pushFar ak) (farWord ak) [0] 0x0B) ∧
    Walk (pushWanted (pushFar true) (pushFar true).me.ctx.str (farWord true)) 1 1 [] [] := by
  have word {ak m : Bool} {o : Word} (h : (m = false ∧ (if ak then 512 else 128) < o.toNat / 2 ^ 16 % 1024) ∨
      128 < o.toNat / 2 ^ 8 % 256 ∨ (ak = true ∧ o.toNat / 2 ^ 16 % 1024 ≠ 0 ∧ o.toNat / 2 ^ 16 % 1024 ≤ o.toNat / 4 % 32)) :
      pushWordBad ak m o := h
  refine ⟨pushGoes_of (atHead_of (by decide)) (fun h => ?_) (by decide), pushGoes_of (atHead_of (by decide)) (fun h => ?_) (by decide),
    ⟨pushGoes_of (atHead_of (by decide)) (fun h => ?_) (by decide), ⟨by decide, by decide, by decide, fun h => absurd h (by decide)⟩⟩,
    ⟨rfl, word (by decide), fun h => ?_, word (by decide), fun h => ?_⟩, ⟨atHead_of (by decide), .inl ⟨.inl (by decide), rfl⟩⟩,
    fun ak => ?_, ⟨by decide, by decide, by decide, fun h => absurd h (by decide)⟩⟩
  case refine_6 =>
    have far : FirstFault (byteCheck (pushFar ak) true 1) 2 ((farWord ak).bytes [0]) 0x0B 0xFFFFFFFE := by
      refine ⟨3, 0, by decide, by decide, ?_⟩
      cases ak <;> refine ⟨by decide, by decide, by decide, fun d l u => ?_⟩ <;> (obtain rfl : d = 2 := by omega) <;> decide
    cases ak <;> exact ⟨atHead_of (by decide), show _ = false by decide, .inr ⟨by decide, by decide, _, far⟩⟩
  all_goals revert h; unfold pushWordBad; decide

theorem wit_MemTriggerEntersItsQueue : isMem (.memMark (mv 0)) = true ∧ isMem (.memLdb (mv 0)) = true ∧
    (placed (.memLdb (mv 0))).AtHead .mem (.memLdb (mv 0)) (ent (placed (.memLdb (mv 0))) .mem) (.s 0) ∧
    (placed (.memLdb (mv 0))).me.ldq.length < 8 ∧ (placed (.memLdb (mv 0))).me.stq.length < 8 :=
  ⟨by decide, by decide, atHead_of (by decide), by decide, by decide⟩

/-! ### Moves and the control engine -/

/-- A move of a literal to s7, to s0 and to v2, and of the empty s4 to s7. -/
def movS7 : Instr := .moveSreg 0 (.s 7) (mv 5)
/-- A move to s0. -/
def movS0 : Instr := .moveSreg 0 (.s 0) (mv 5)
/-- A move to v2 in slot 7. -/
def movV2 : Instr := .moveVregSlot7 (.v 2) (mv 5)
/-- A move of s4. -/
def movS4 : Instr := .moveSreg 0 (.s 7) ⟨0, .reg (.s 4) false⟩
/-- The state in which s4 is empty. -/
def waiting : State := withMe (placed movS4) (fun c => { c with ctx := { c.ctx with s := [(4, .empty)] } })

theorem wit_RegisterMoves :
    (regMove movS7 = some (0, .s 7, mv 5) ∧ movS7.wf = true ∧ (placed movS7).Clear (oneMove movS7) ∧
      (placed movS7).me.guardCell 0 = .full true ∧ (placed movS7).me.bindSrc 0 (mv 5).src = .ready (.s 5)) ∧
    (regMove movS0 = some (0, .s 0, mv 5) ∧ (placed movS0).Clear (oneMove movS0)) ∧
    (regMove movV2 = some (7, .v 2, mv 5) ∧ (placed movV2).Clear (oneMove movV2)) ∧
    (waiting.Clear (oneMove movS4) ∧ waiting.me.bindSrc 0 (.reg (.s 4) false) = .wait (.reg (.s 4))) :=
  ⟨⟨rfl, by decide, clear_of (by decide), by decide, by decide⟩, ⟨rfl, clear_of (by decide)⟩, ⟨rfl, clear_of (by decide)⟩,
   clear_of (by decide), by decide⟩

/-- An operand move to the array from the address register a1, and one to ctl.o. -/
def movOp : Instr := .moveOperandPort 4 .o ⟨0, .reg (.a 1) false⟩
/-- An operand move to ctl.o2. -/
def movCtl : Instr := .moveXport 4 .ctl .o2 ⟨0, .reg (.a 1) false⟩

theorem wit_OperandMoves :
    (operandMove movOp = some (4, .str, .o, ⟨0, .reg (.a 1) false⟩) ∧ movOp.wf = true ∧ (placed movOp).Clear (oneMove movOp) ∧
      (placed movOp).me.guardCell 0 = .full true) ∧
    (operandMove movCtl = some (4, .ctl, .o2, ⟨0, .reg (.a 1) false⟩) ∧ movCtl.wf = true ∧ (placed movCtl).Clear (oneMove movCtl) ∧
      (placed movCtl).me.guardCell 0 = .full true ∧ (placed movCtl).me.bindSrc 4 (.reg (.a 1) false) = .ready (.s 0)) :=
  ⟨⟨rfl, by decide, clear_of (by decide), by decide⟩, rfl, by decide, clear_of (by decide), by decide, by decide⟩

/-- A core at a bundle of two moves: an operand move to SCA and sca.add, under the guard g. -/
def bundle (g : BitVec 24) : State :=
  (State.reset.setCore 0 (oneCore [g * 0x200000 ||| 0x0C4003, g * 0x200000 ||| 0x044804])).setRun 0 (some oneRun)
/-- The same with guard g1 holding 0. -/
def squashed : State := withMe (bundle 1) (fun c => { c with ctx := { c.ctx with g := [(0, .full false)] } })
/-- A jump under g1, which holds 0. -/
def noJump : State := withMe (placed (.ctlJmp ⟨1, .lit 0⟩)) (fun c => { c with ctx := { c.ctx with g := [(0, .full false)] } })

theorem wit_Bundles :
    (squashed.Clear squashed.me.fetch ∧ squashed.me.fetch.length = 2 ∧ ∀ b ∈ squashed.me.fetch, squashed.me.performs b = false) ∧
    ((∃ p, destOf (.ctlJmp ⟨1, .lit 0⟩) = .trig .ctl p) ∧ (Instr.ctlJmp ⟨1, .lit 0⟩).wf = true ∧ noJump.Clear (oneMove (.ctlJmp ⟨1, .lit 0⟩)) ∧
      ∀ b ∈ oneMove (.ctlJmp ⟨1, .lit 0⟩), noJump.me.performs b = false) ∧
    ((bundle 0).Clear (bundle 0).me.fetch ∧ (bundle 0).me.ctlTrig (bundle 0).me.fetch = none) :=
  ⟨⟨clear_of (by decide), by decide, by decide⟩, ⟨⟨_, rfl⟩, by decide, clear_of (by decide), by decide⟩, clear_of (by decide), by decide⟩

/-- The hypotheses of a statement about the CTL trigger i with the literal x, in the state placed with it. -/
def ctlAt (i : Instr) (x : Word) (s : State) : Prop := s.Clear (oneMove i) ∧ s.me.ctlTrig (oneMove i) = some (i, .ready (.s x))

/-- They hold where the facts of clear_of and the trigger itself do. -/
theorem ctlAt_of {i : Instr} {x : Word} {s : State}
    (h : s.me.seq = .run ∧ s.issuing s.cur = true ∧ stalls s.me (oneMove i) = false ∧ firstCause s.me (s.exchOf s.cur) (oneMove i) = none ∧ asyncRead s.me (oneMove i) = none ∧ slotsReady s.me (oneMove i) = true)
    (t : s.me.ctlTrig (oneMove i) = some (i, .ready (.s x))) : ctlAt i x s := ⟨clear_of h, t⟩

/-- The state placed with i, in a program of eight bundles. -/
def inProg (i : Instr) : State := withMe (placed i) (fun c => { c with nbundle := 8 })
/-- The same with ctl.o holding o. -/
def withO (i : Instr) (o : Word) : State := withMe (inProg i) (fun c => { c with ctx := { c.ctx with oports := [(0, ⟨.s o, .s 0, 0, 0⟩)] } })

theorem wit_ControlTriggersAct_branch :
    (ctlAt (.ctlJmp (mv 7)) 7 (inProg (.ctlJmp (mv 7))) ∧ ∃ r, branchOf (inProg (.ctlJmp (mv 7))).me 7 0 (.ctlJmp (mv 7)) = some r) ∧
    ctlAt (.ctlJrel (mv 7)) 7 (inProg (.ctlJrel (mv 7))) ∧ ctlAt (.ctlCall (mv 7)) 7 (inProg (.ctlCall (mv 7))) ∧
    ctlAt (.ctlRet (mv 0)) 0 (withMe (inProg (.ctlRet (mv 0))) (fun c => { c with ctx := { c.ctx with links := [3] } })) ∧
    ctlAt (.ctlLoop (mv 2)) 2 (withO (.ctlLoop (mv 2)) 4) :=
  by refine ⟨⟨?_, _, rfl⟩, ?_, ?_, ?_, ?_⟩ <;> exact ctlAt_of (by decide) (by decide)

theorem wit_ControlTriggersAct :
    (ctlAt (.ctlCsrr (mv 0)) 0 (inProg (.ctlCsrr (mv 0))) ∧ ∃ c, controlOf (inProg (.ctlCsrr (mv 0))) 0 0 (.ctlCsrr (mv 0)) = some c) ∧
    ctlAt (.ctlCsrw (mv 3)) 3 (withO (.ctlCsrw (mv 3)) 0x018) ∧ ctlAt (.ctlTime (mv 1)) 1 (inProg (.ctlTime (mv 1))) ∧
    ctlAt (.ctlGset (mv 9)) 9 (inProg (.ctlGset (mv 9))) ∧ ctlAt (.ctlGand (mv 0x51)) 0x51 (inProg (.ctlGand (mv 0x51))) ∧
    ctlAt (.ctlRep (mv 2)) 2 (inProg (.ctlRep (mv 2))) ∧ ctlAt (.ctlHalt (mv 0)) 0 (inProg (.ctlHalt (mv 0))) ∧
    ctlAt (.ctlEndph (mv 1)) 1 (inProg (.ctlEndph (mv 1))) :=
  by refine ⟨⟨?_, _, rfl⟩, ?_, ?_, ?_, ?_, ?_, ?_, ?_⟩ <;> exact ctlAt_of (by decide) (by decide)

/-- The state placed with i while an older trigger is under way. -/
def busy (i : Instr) : State := withMe (inProg i) (fun c => { c with flights := [⟨0, none, .s 0, 0, .str, false⟩] })

/-- The stand of partition 0 in an exchange superstep. -/
def exch (s : State) : State := s.setRun 0 (some { oneRun with exch := true })

theorem wit_FencesWaitsAndFreezes :
    (ctlAt (.ctlDrain (mv 0)) 0 (inProg (.ctlDrain (mv 0))) ∧ goesOn (inProg (.ctlDrain (mv 0))) 0 (.ctlDrain (mv 0)) = some true) ∧
    (ctlAt (.ctlDrain (mv 0)) 0 (busy (.ctlDrain (mv 0))) ∧ goesOn (busy (.ctlDrain (mv 0))) 0 (.ctlDrain (mv 0)) = some false) ∧
    (ctlAt (.ctlTfence (mv 0)) 0 (inProg (.ctlTfence (mv 0))) ∧ goesOn (inProg (.ctlTfence (mv 0))) 0 (.ctlTfence (mv 0)) = some true) ∧
    (ctlAt (.ctlWaitt (mv 0)) 0 (inProg (.ctlWaitt (mv 0))) ∧ goesOn (inProg (.ctlWaitt (mv 0))) 0 (.ctlWaitt (mv 0)) = some true) ∧
    (ctlAt (.ctlWaitt (mv 1)) 1 (inProg (.ctlWaitt (mv 1))) ∧ goesOn (inProg (.ctlWaitt (mv 1))) 1 (.ctlWaitt (mv 1)) = some false) ∧
    (∃ q, ctlAt (.ctlBar (mv 64)) 64 (exch (inProg (.ctlBar (mv 64)))) ∧ goesOn (exch (inProg (.ctlBar (mv 64)))) 64 (.ctlBar (mv 64)) = none ∧
      waitsAs (exch (inProg (.ctlBar (mv 64)))).me 0 (.ctlBar (mv 64)) = some q) :=
  ⟨⟨ctlAt_of (by decide) (by decide), by decide⟩, ⟨ctlAt_of (by decide) (by decide), by decide⟩,
   ⟨ctlAt_of (by decide) (by decide), by decide⟩, ⟨ctlAt_of (by decide) (by decide), by decide⟩,
   ⟨ctlAt_of (by decide) (by decide), by decide⟩, ⟨_, ctlAt_of (by decide) (by decide), by decide, rfl⟩⟩

/-- A barrier wait on an id of which the core has an arrival, done or not. -/
def bwait (done : Bool) : State := withMe (exch (inProg (.ctlBwait (mv 64)))) (fun c => { c with arrivals := [⟨0, 1, done⟩] })

theorem wit_FencesWaitsAndFreezes_barrier :
    (ctlAt (.ctlBwait (mv 64)) 64 (bwait true) ∧ goesOn (bwait true) 64 (.ctlBwait (mv 64)) = some true) ∧
    (ctlAt (.ctlBwait (mv 64)) 64 (bwait false) ∧ goesOn (bwait false) 64 (.ctlBwait (mv 64)) = some false) :=
  ⟨⟨ctlAt_of (by decide) (by decide), by decide⟩, ctlAt_of (by decide) (by decide), by decide⟩

/-- A fence behind a deferred fault, and with an unmasked flag. -/
def fenceFault : State := withMe (inProg (.ctlTfence (mv 0))) (fun c => { c with deferred := [⟨0, false, 0x0F, 64, 1, [], 0, true⟩] })
/-- A fence with NX set and masked in. -/
def fenceArith : State := withMe (inProg (.ctlTfence (mv 0))) (fun c => { c with ctx := { c.ctx with afl := 0x10, afm := 0x10 } })

theorem wit_IssueTraps :
    ((placed (.moveSreg 7 (.bind 15) (mv 0))).me.trap = none ∧ (placed (.moveSreg 7 (.bind 15) (mv 0))).me.seq = .run ∧
      (placed (.moveSreg 7 (.bind 15) (mv 0))).issuing 0 = true ∧
      stalls (placed (.moveSreg 7 (.bind 15) (mv 0))).me (oneMove (.moveSreg 7 (.bind 15) (mv 0))) = false ∧
      (placed (.moveSreg 7 (.bind 15) (mv 0))).me.guardCell 0 = .full true ∧
      (placed (.moveSreg 7 (.bind 15) (mv 0))).me.pc < (placed (.moveSreg 7 (.bind 15) (mv 0))).me.nbundle ∧
      (placed (.moveSreg 7 (.bind 15) (mv 0))).me.bad.imem = []) ∧
    ctlAt (.ctlTrap (mv 0)) 0 (inProg (.ctlTrap (mv 0))) ∧
    (ctlAt (.ctlTfence (mv 0)) 0 fenceFault ∧ fenceFault.me.queuesEmpty = true ∧ fenceFault.me.triggersDone = true ∧
      fenceFault.me.deferred ≠ []) ∧
    (ctlAt (.ctlTfence (mv 0)) 0 fenceArith ∧ fenceArith.me.queuesEmpty = true ∧ fenceArith.me.triggersDone = true ∧
      fenceArith.me.deferred = [] ∧ fenceArith.me.ctx.afl &&& fenceArith.me.ctx.afm ≠ 0) :=
  ⟨by decide, ctlAt_of (by decide) (by decide), ⟨ctlAt_of (by decide) (by decide), by decide, by decide, by decide⟩,
   ctlAt_of (by decide) (by decide), by decide, by decide, by decide, by decide⟩

/-! ### The steps inside a core, and the MEM engine at work -/

/-- Core 0 of a stand that runs. -/
def running : State := placed (.ctlDrain (mv 0))
/-- A queue entry of the trigger i with the issue number tag and a value. -/
def entry (i : Instr) (tag : Nat) (v : Val) : Entry :=
  { placedEntry Core.idle .bundleIssue 0 7 with trig := some i, tag := tag, val := .ready v }
/-- An access of the trigger i with o and b. -/
def access (i : Instr) (o b : Word) : Access := { ent := entry i 1 (.s b), o := o, o2 := 0, m := 0, b := .s b }

/-- A transfer into s7 whose source has filled. -/
def pending : State := withMe running (fun c => { c with pends := [⟨.s 7, .ready (.s 3), 0⟩] })
theorem wit_PendingTransferCompletes : pending.me.serving = true ∧ pending.me.pends[pending.obj]? = some ⟨.s 7, .ready (.s 3), 0⟩ := by decide

/-- A transfer into a3 whose source has filled with address 5 and stride 1, for which two slot-4 moves to STR and one slot-7
move to MEM wait, in issue order. -/
def pendingAreg : State := withMe running (fun c =>
  let e (slot tag badr : Nat) : Entry := { entry .bundleIssue tag (.s 0) with slot := slot, badr := badr, val := .wait (.reg (.a 3)) }
  { (c.setQ .str [e 4 1 2, e 4 3 4]).setQ .mem [e 7 2 3] with pends := [⟨.a 3, .ready (.s 0x100000005), 0⟩] })
theorem wit_PendingTransferCompletes_areg : pendingAreg.me.serving = true ∧
    pendingAreg.me.pends[pendingAreg.obj]? = some ⟨.a 3, .ready (.s 0x100000005), 0⟩ := by decide
-- 04_scalar_control.md R121: each slot-4 read gets bits 31:0 and adds the stride; another slot reads all 64 bits.
theorem test_areg_fills_late :
    (match exec .pendingTransferComplete pendingAreg with
     | .next t => ((t.me.q .str).map (·.val), (t.me.q .mem).map (·.val), t.me.ctx.readReg (.a 3))
     | _ => ([], [], .empty)) =
      ([.ready (.s 5), .ready (.s 6)], [.ready (.s 0x100000006)], .full (.s 0x100000007)) := by decide

/-- An operand entry for port m at the head of VEC0's queue, and one for o of MEM. -/
def opHead (e : Eng) (p : OPort) (v : Val) : State :=
  withMe running (fun c => c.setQ e [{ entry .bundleIssue 1 v with trig := none, port := p }])
theorem wit_PortsFill_operand :
    (let s := opHead .vec0 .m (.m 5); s.me.serving = true ∧ (s.me.q .vec0).head? = some (ent s .vec0) ∧ (ent s .vec0).trig = none ∧
      (ent s .vec0).val = .ready (.m 5) ∧ (ent s .vec0).port = .m) ∧
    (let s := opHead .mem .o (.s 5); s.me.serving = true ∧ (s.me.q .mem).head? = some (ent s .mem) ∧ (ent s .mem).trig = none ∧
      (ent s .mem).val = .ready (.s 5) ∧ (ent s .mem).port = .o) := by decide

/-- A result under way to sca.r, and a trigger without a port. -/
def flying (p : Option RPort) : State := withMe running (fun c => { c with flights := [⟨3, p, .s 9, 0x10, .sca, false⟩] })
theorem wit_PortsFill_result : (flying (some .scaR)).me.flights[(flying (some .scaR)).obj]? = some ⟨3, some .scaR, .s 9, 0x10, .sca, false⟩ ∧
    (flying none).me.flights[(flying none).obj]? = some ⟨3, none, .s 9, 0x10, .sca, false⟩ := by decide

/-- A repetition of i, the last of them. -/
def repeating (i : Instr) : State := withMe running (fun c => { c with rep := some ⟨1, 4, 0, i, 0, 0, 0x1C⟩ })
theorem wit_RepetitionEnters : strTrigger (.strPushak ⟨0, .reg (.a 1) false⟩) = some ⟨0, .reg (.a 1) false⟩ ∧
    strPort (.strPushak (mv 0)) = some .strR ∧ strTrigger (.strDrain (mv 7)) = some (mv 7) ∧ strPort (.strDrain (mv 7)) = some .strVr ∧
    (let s := repeating (.strPushak ⟨0, .reg (.a 1) false⟩); s.me.serving = true ∧ s.me.trap = none ∧
      s.me.rep = some ⟨1, 4, 0, .strPushak ⟨0, .reg (.a 1) false⟩, 0, 0, 0x1C⟩ ∧ (s.me.q .str).length < depthOf .str) ∧
    (let s := repeating (.moveXport 4 .mem .o (mv 2)); s.me.serving = true ∧ s.me.trap = none ∧
      s.me.rep = some ⟨1, 4, 0, .moveXport 4 .mem .o (mv 2), 0, 0, 0x1C⟩ ∧
      (s.me.q (repEng (.moveXport 4 .mem .o (mv 2)))).length < depthOf (repEng (.moveXport 4 .mem .o (mv 2)))) := by decide

/-- The state whose MEM inner queues hold l and t. -/
def inner (l t : List Access) : State := withMe running (fun c => { c with ldq := l, stq := t })
/-- An access passes its checks, from facts that decide. -/
theorem passes_of {s : State} {x : Access} (h : (x.kind ≠ .send ∧ x.kind ≠ .sends) ∧
    ∀ c < 5, 1 ≤ c → ∀ a ∈ x.addrs, byteCheck s (accessReads x.kind) (accessWidth x.kind) c a = none) : AccessPasses s x :=
  ⟨fun b => b.1.elim h.1.1 h.1.2, fun c l u => h.2 c (by omega) l⟩
/-- An access fails its third check at its lane i, from facts that decide. -/
theorem fails_of {s : State} {x : Access} {k : Byte} {a : Nat} (i : Nat) (h : (x.kind ≠ .send ∧ x.kind ≠ .sends) ∧
    (x.addrs[i]? = some a ∧ byteCheck s (accessReads x.kind) (accessWidth x.kind) 3 a = some k ∧
      ∀ b ∈ x.addrs.take i, byteCheck s (accessReads x.kind) (accessWidth x.kind) 3 b = none) ∧
    ∀ c < 3, 1 ≤ c → ∀ b ∈ x.addrs, byteCheck s (accessReads x.kind) (accessWidth x.kind) c b = none) : AccessFails s x k a :=
  .inr ⟨fun b => b.1.elim h.1.1 h.1.2, 3, i, by decide, by decide, h.2.1.1, h.2.1.2.1, h.2.1.2.2, fun c l u => h.2.2 c u l⟩

theorem wit_MemAccessStarts :
    (let x := access (.memLdd (mv 0)) 0 0x7FFF8; let s := inner [x] []; s.me.serving = true ∧ s.me.ldq = [x] ∧ x.ent.faulted = false ∧
      x.kind ≠ .mark ∧ s.me.jobs.any (fun j => j.blocks (s.poolOf s.cur) s.cur x) = false ∧ s.me.pushBlocks (s.poolOf s.cur) s.cur x = false ∧
      AccessPasses s x) ∧
    (let x := access (.memStd (mv 0)) 0x80000 0; let s := inner [] [x]; s.me.serving = true ∧ s.me.stq = [x] ∧ x.ent.faulted = false ∧
      x.kind ≠ .mark ∧ s.me.jobs.any (fun j => j.blocks (s.poolOf s.cur) s.cur x) = false ∧ s.me.pushBlocks (s.poolOf s.cur) s.cur x = false ∧
      AccessFails s x 0x0B 0x80000 ∧ s.me.trap = none) ∧
    (let x := access (.memVld (mv 0)) 0 0x7FFFC; AccessFails (inner [x] []) x 0x0B 0x80000) ∧
    (let x := access (.memSend (mv 0)) 1 0; AccessFails (inner [] [x]) x 0x02 0) ∧
    (let x := access (.memMark (mv 0)) 0 0; let s := inner [x] [x]; s.me.serving = true ∧ s.me.ldq = [x] ∧ s.me.stq = [x] ∧
      x.kind = .mark ∧ x.ent.faulted = false ∧ s.me.lda = [] ∧ s.me.sta = []) := by
  refine ⟨⟨by decide, by decide, by decide, by decide, by decide, by decide, passes_of (by decide)⟩,
    ⟨by decide, by decide, by decide, by decide, by decide, by decide, fails_of 0 (by decide), by decide⟩, fails_of 1 (by decide),
    .inl ⟨⟨.inl rfl, by decide⟩, rfl, rfl⟩, by decide⟩

/-- The state in which the loads l and the stores t have started. -/
def started (l t : List Access) : State := withMe running (fun c => { c with lda := l, sta := t })
/-- A vector load of which lanes 1 to 127 are performed, in a turn that performs lane 0. -/
def partLoad : State :=
  started [{ access (.memVlds (mv 0)) 0 8 with lanes := BitVec.allOnes 128 <<< 1 }] []
theorem wit_LoadsRead :
    ((started [access (.memLdb (mv 0)) 0 5] []).me.lda = [access (.memLdb (mv 0)) 0 5] ∧ (access (.memLdb (mv 0)) 0 5).lanes = 0 ∧
      (started [access (.memLdb (mv 0)) 0 5] []).obj = 0) ∧ (access (.memLdb (mv 0)) 0 5).kind = .ld 1 true ∧
    (access (.memLdd (mv 0)) 0 8).kind = .ld 8 false ∧ (access (.memVlds (mv 0)) 0 8).kind = .vlds ∧
    (partLoad.me.lda ≠ [] ∧ ∀ x ∈ partLoad.me.lda, x.kind = .vlds ∧ lanesNow partLoad x = [0]) := by decide
theorem wit_StoresWrite : (started [] [access (.memStw (mv 0)) 4 5]).me.sta = [access (.memStw (mv 0)) 4 5] ∧
    isStore (access (.memStw (mv 0)) 4 5).kind = true ∧ isStore (access (.memVsca (mv 0)) 4 5).kind = true := by decide

/-- The stand with 4 KiB of pool per core. -/
def pooled (s : State) : State := s.setRun 0 (some { oneRun with pool := 0x1000 })
/-- An atomic of core 0 in a port's write queue, the access it belongs to having started. -/
def atomicAt (pool : Bool) : State :=
  let s := started [] [access (.memAmoaddW (mv 0)) 0x10 5]
  let p : PortAtomic := ⟨0, 1, false, 0x10, 4, 0x20, 5, 0⟩
  if pool then s.setQuad 0 { Quad.start with wq := [p] } else withMe s (fun c => { c with wq := [p] })
theorem wit_Atomics :
    (let x := access (.memAmoadd (mv 0)) 0x10 5; let s := started [] [x]; s.me.sta = [x] ∧ (∃ op ∈ List.range 64, x.kind = .amo 8 op) ∧
      locOf (s.poolOf s.cur) s.cur (x.addrs.headD 0) = some (false, 0x10) ∧ inWq s.me.wq s.cur x.ent.tag = false) ∧
    (let x := access (.memAmoaddW (mv 0)) 0x1000010 5; let s := pooled (started [] [x]); s.me.sta = [x] ∧
      locOf (s.poolOf s.cur) s.cur (x.addrs.headD 0) = some (true, 0x10) ∧ inWq (s.quad (quadOf s.cur)).wq s.cur x.ent.tag = false) ∧
    ((started [] [access (.memSends (mv 0)) 0 5]).me.sta = [access (.memSends (mv 0)) 0 5] ∧ (access (.memSends (mv 0)) 0 5).kind = .sends) ∧
    (∀ pool : Bool, let s := atomicAt pool; let p : PortAtomic := ⟨0, 1, false, 0x10, 4, 0x20, 5, 0⟩
      (if pool then (s.quad (quadOf s.cur)).wq else s.me.wq) = [p] ∧ p.core = s.cur ∧
      (s.core p.core).sta.find? (fun y => decide (y.ent.tag = p.tag)) = some (access (.memAmoaddW (mv 0)) 0x10 5)) := by decide

/-! ### Copies and collectives -/

/-- A card of 64 bytes from fields at byte offsets. -/
def cardOf (l : List (Nat × Nat)) : BitVec 512 := BitVec.ofNat 512 ((l.map (fun f => f.2 * 2 ^ (8 * f.1))).sum)
/-- A job of CPY0 with issue number 0 and token s5. -/
def jobOf (card : Option (BitVec 512)) : CJob where
  tag := 0
  eng := .cpy0
  tok := 5
  addr := 0
  badr := 0
  card := card
  ptag := false
  step := 0
  rd := []
  wr := []
  started := false
  pos := 0
  off := 0
  rows := []
  doneb := 0
  flags := 0
  buf := none
  asked := false
  flush := none
  held := false
  slog := 0
  cancel := false
  faddr := 0
  ended := none
  cause := 0
  use := none
  part := []
  nfault := 0

/-- Local addresses, priority 1: four bytes from 0x100 to 0x200. -/
def copyCard : BitVec 512 := cardOf [(0, 0x11), (8, 0x100), (16, 0x200), (24, 4), (28, 1), (32, 1)]
/-- A go of CPY0 at the card at address 64 of the scratchpad, with its job. -/
def goAt (card : BitVec 512) (x : BitVec 9) : State :=
  withMe (placed (.cpyGo .c0 (mv x))) (fun c => { c with scratch := Mem.writeL [] 64 (leBytes 64 card.toNat), jobs := [jobOf none] })
/-- The same for a go of COL: MAXSCALE over die 0, 32 elements. -/
def colCard : BitVec 512 := cardOf [(0, 0x18), (8, 0x100), (16, 0x200), (24, 32), (32, 1)]
/-- A go of COL at the card at address 64. -/
def colAt : State :=
  withMe (placed (.colGo .s5 (mv 64))) (fun c => { c with scratch := Mem.writeL [] 64 (leBytes 64 colCard.toNat), jobs := [{ jobOf none with eng := .col }] })

/-- What CopyGos asks of every go whose card it reads: nothing older holds the card's line. -/
def goReads (s : State) (e : Eng) (x : Word) (j : CJob) (card : BitVec 512) : Prop :=
  s.me.goHead e = some (ent s e, x, j) ∧ (j.card = none ∧ j.ended = none ∧ j.tok ≠ 0) ∧
    BitVec.ofNat 512 (ofLe (s.localBytes s.cur x.toNat 64)) = card ∧
    s.me.memBlocks (s.poolOf s.cur) s.cur j.tag [⟨false, lineOf (s.poolOf s.cur) s.cur x.toNat, lineOf (s.poolOf s.cur) s.cur x.toNat + 1⟩] [] = false ∧
    s.me.jobBlocks j.tag [⟨false, lineOf (s.poolOf s.cur) s.cur x.toNat, lineOf (s.poolOf s.cur) s.cur x.toNat + 1⟩] [] = false

/-- What CopyGos asks of a go that its checks pass. -/
def goPasses (s : State) (e : Eng) (x : Word) (card : BitVec 512) : Prop :=
  ∃ j, goReads s e x j card ∧ cardAccessFault s s.cur x.toNat = none ∧
    (if e = .col then collInvalid (s.poolOf s.cur) s.cur (s.modules s.cur card) card else copyInvalid s.me card) = false ∧
    footInvalid s s.cur card = false ∧ inWholeWindow x.toNat = false ∧ s.me.running e < 4 ∧ s.me.cards.length < 4

theorem wit_CopyTriggersAct : (goPasses (goAt copyCard 64) .cpy0 64 copyCard ∧
      (goAt copyCard 64).AtHead .cpy0 (.cpyGo .c0 (mv 64)) (ent (goAt copyCard 64) .cpy0) (.s 64)) ∧
    goPasses colAt .col 64 colCard ∧ colAt.AtHead .col (.colGo .s5 (mv 64)) (ent colAt .col) (.s 64) :=
  ⟨⟨⟨_, ⟨rfl, by decide +kernel⟩, by decide +kernel⟩, atHead_of (by decide)⟩, ⟨_, ⟨rfl, by decide +kernel⟩, by decide +kernel⟩,
   atHead_of (by decide)⟩

/-- A card whose source is main memory, at an address that does not translate. -/
def strayCard : BitVec 512 := cardOf [(0, 0x91), (8, 2 ^ 63), (16, 0x200), (24, 4), (28, 1), (32, 1)]

theorem wit_CopyTriggersAct_refused :
    (goReads (goAt copyCard 65) .cpy0 65 (jobOf none) (BitVec.ofNat 512 (ofLe ((goAt copyCard 65).localBytes 0 65 64))) ∧
      cardAccessFault (goAt copyCard 65) 0 65 = some (Cause.ALIGN, 65) ∧ (goAt copyCard 65).me.trap = none) ∧
    (goReads (goAt 0 64) .cpy0 64 (jobOf none) 0 ∧ cardAccessFault (goAt 0 64) 0 64 = none ∧ copyInvalid (goAt 0 64).me 0 = true) ∧
    (goReads (goAt strayCard 64) .cpy0 64 (jobOf none) strayCard ∧ cardAccessFault (goAt strayCard 64) 0 64 = none ∧
      copyInvalid (goAt strayCard 64).me strayCard = false ∧ footInvalid (goAt strayCard 64) 0 strayCard = true) := by
  unfold goReads; decide +kernel

/-- A copy trigger at its head, with a job that has token s5. -/
def withJob (i : Instr) (j : CJob) : State := withMe (placed i) (fun c => { c with jobs := [j] })

theorem wit_CopyTriggersAct_answer :
    (∃ e p w js ks, let s := withJob (.cpyStatus .c0 (mv 5)) { jobOf (some copyCard) with started := true, doneb := 3 }
      answerOf s.me 5 (.cpyStatus .c0 (mv 5)) = some (e, p, w, js, ks) ∧ s.AtHead e (.cpyStatus .c0 (mv 5)) (ent s e) (.s 5)) ∧
    (∃ e p w js ks, let s := withJob (.cpyCancel .c0 (mv 5)) (jobOf (some copyCard))
      answerOf s.me 5 (.cpyCancel .c0 (mv 5)) = some (e, p, w, js, ks) ∧ s.AtHead e (.cpyCancel .c0 (mv 5)) (ent s e) (.s 5)) ∧
    (∃ e p w js ks, let s := placed (.colCancel .s6 (mv 5))
      answerOf s.me 5 (.colCancel .s6 (mv 5)) = some (e, p, w, js, ks) ∧ s.AtHead e (.colCancel .s6 (mv 5)) (ent s e) (.s 5)) :=
  ⟨⟨_, _, _, _, _, rfl, atHead_of (by decide)⟩, ⟨_, _, _, _, _, rfl, atHead_of (by decide)⟩, ⟨_, _, _, _, _, rfl, atHead_of (by decide)⟩⟩

/-- Core 0 with one job. -/
def jobbing (j : CJob) : State := withMe running (fun c => { c with jobs := [j] })

/-- Runs, as one decidable fact. -/
theorem runs_of {s : State} {k : Nat} {j : CJob} {card : BitVec 512}
    (h : s.me.jobs[s.obj]? = some j ∧ j.card = some card ∧ cardKind card = k ∧ (j.ended = none ∧ j.asked = false ∧ j.cancel = false) ∧
      (j.started = true ∨ canStart s s.cur j = true)) : Runs s k j card := ⟨h.1, h.2.1, h.2.2.1, h.2.2.2.1, h.2.2.2.2⟩

/-- A gather of one row whose index, 0, lies in or beyond its region of len bytes. -/
def gatherCard (len : Nat) : BitVec 512 := cardOf [(0, 0x13), (8, 0x100), (16, 0x200), (24, 4), (28, 1), (32, 1), (52, 0x300), (56, len)]

theorem wit_CopyJobsMoveBytes :
    (let j := { jobOf (some copyCard) with pos := 3 }; let s := jobbing j
      Runs s 1 j copyCard ∧ j.buf = none ∧ j.flush = none ∧ (s.me.dstOf copyCard).main = false ∧ (s.me.srcOf copyCard).main = false ∧
      j.pos < cardTotal copyCard ∧ j.srcAt s s.cur copyCard j.pos = some 0x103) ∧
    (let j := { jobOf (some copyCard) with pos := 4, started := true }; let s := jobbing j
      Runs s 1 j copyCard ∧ cardTotal copyCard ≤ j.pos) ∧
    (let j := jobOf (some (gatherCard 3)); let s := jobbing j
      Runs s 3 j (gatherCard 3) ∧ (s.me.dstOf (gatherCard 3)).main = false ∧ j.pos < cardTotal (gatherCard 3) ∧
      j.srcAt s s.cur (gatherCard 3) j.pos = none) :=
  ⟨⟨runs_of (by decide +kernel), by decide +kernel⟩, ⟨runs_of (by decide +kernel), by decide +kernel⟩,
   runs_of (by decide +kernel), by decide +kernel⟩

/-- The same kinds with absolute main-memory addresses: source, destination, both. -/
def mainSrc : BitVec 512 := cardOf [(0, 0x91), (8, 2 ^ 63), (16, 0x200), (24, 4), (28, 1), (32, 1)]
/-- A fill of main memory. -/
def mainFill : BitVec 512 := cardOf [(0, 0x212), (8, 7), (16, 2 ^ 63), (24, 4), (28, 1), (32, 1)]
/-- An atomic addition of 5 to one word, in main memory or at 0x200. -/
def amoCard (main : Bool) : BitVec 512 :=
  cardOf [(0, if main then 0x214 else 0x14), (8, 5), (16, if main then 2 ^ 63 else 0x200), (24, 4), (28, 1), (32, 1), (52, 0x30)]
/-- A delta of one block. -/
def deltaCard : BitVec 512 := cardOf [(0, 0x295), (8, 2 ^ 63), (16, 2 ^ 63 + 0x10000), (24, 4096), (28, 1), (32, 1), (52, 2 ^ 63 + 0x8000)]

theorem wit_JobsAskMainMemory :
    (let j := jobOf (some mainSrc); let s := jobbing j; jobKind (.jobCopy 1) = some 1 ∧ Runs s 1 j mainSrc ∧ j.buf = none ∧ j.flush = none ∧
      (s.me.dstOf mainSrc).main = false ∧ (s.me.srcOf mainSrc).main = true ∧ j.pos < cardTotal mainSrc ∧
      j.srcAt s s.cur mainSrc j.pos = some (2 ^ 63)) ∧
    (let j := jobOf (some mainFill); let s := jobbing j; jobKind (.jobFill 1) = some 2 ∧ Runs s 2 j mainFill ∧ j.buf = none ∧ j.flush = none ∧
      (s.me.dstOf mainFill).main = true ∧ j.pos < cardTotal mainFill ∧ (j.srcAt s s.cur mainFill j.pos).isSome = true) ∧
    (let j := jobOf (some (amoCard true)); let s := jobbing j; Runs s 4 j (amoCard true) ∧ (s.me.dstOf (amoCard true)).main = true ∧
      j.pos < cardTotal (amoCard true)) ∧
    (let j := jobOf (some deltaCard); let s := jobbing j; Runs s 5 j deltaCard ∧ j.buf = none ∧ j.pos < cf deltaCard 24 4 / 4096) :=
  ⟨⟨rfl, runs_of (by decide +kernel), by decide +kernel⟩, ⟨rfl, runs_of (by decide +kernel), by decide +kernel⟩,
   ⟨runs_of (by decide +kernel), by decide +kernel⟩, runs_of (by decide +kernel), by decide +kernel⟩

/-- The delta job with its block of zeros and a table entry read. -/
def deltaJob (old : List Byte) (done : Nat) : CJob :=
  { jobOf (some deltaCard) with started := true, doneb := done, buf := some (List.replicate 4096 0 ++ old) }

theorem wit_AmoAndDeltaJobs :
    (let j := jobOf (some (amoCard false)); let s := jobbing j; Runs s 4 j (amoCard false) ∧ (s.me.dstOf (amoCard false)).main = false ∧
      j.pos < cardTotal (amoCard false) ∧ dstAt s.me (amoCard false) j.pos = 0x200 ∧
      locOf (s.poolOf s.cur) s.cur 0x200 = some (false, 0x200)) ∧
    (let j := { jobOf (some (amoCard false)) with started := true, pos := 1, doneb := 4 }; let s := jobbing j;
      Runs s 4 j (amoCard false) ∧ cardTotal (amoCard false) ≤ j.pos ∧ j.doneb = j.pos * cf (amoCard false) 24 4) ∧
    (∀ old : List Byte, ∀ done : Nat, Runs (jobbing (deltaJob old done)) 5 (deltaJob old done) deltaCard) ∧
    (0 < cf deltaCard 24 4 / 4096 ∧ cf deltaCard 60 1 = 0 ∧ (deltaJob [] 4159).doneb - (deltaJob [] 4159).off < 4160 ∧
      4160 ≤ (deltaJob [] 4160).doneb - (deltaJob [] 4160).off) :=
  ⟨⟨runs_of (by decide +kernel), by decide +kernel⟩, ⟨runs_of (by decide +kernel), by decide +kernel⟩,
   fun _ _ => ⟨rfl, rfl, by decide +kernel, ⟨rfl, rfl, rfl⟩, .inl rfl⟩, by decide +kernel⟩

/-- A block and the table entry that holds its hash, and one that does not. -/
theorem wit_AmoAndDeltaJobs_hash : (∃ old : List Byte, old = shake256 (List.replicate 4096 0) 16) ∧
    ∃ old : List Byte, old.length = 16 ∧ old ≠ shake256 (List.replicate 4096 0) 16 := by
  refine ⟨⟨_, rfl⟩, ?_⟩
  by_cases h : List.replicate 16 (0 : Byte) = shake256 (List.replicate 4096 0) 16
  · exact ⟨List.replicate 16 1, rfl, fun e => absurd (e.trans h.symm) (by decide)⟩
  · exact ⟨_, rfl, h⟩

theorem wit_TokensFill :
    (let j := { jobOf (some copyCard) with ended := some 0 }; (jobbing j).me.jobs[(jobbing j).obj]? = some j ∧ j.slog = 0 ∧
      j.asked = false ∧ j.use = none ∧ j.tok ≠ 0 ∧ causeOf 0 = 0) ∧
    (let j := { jobOf (some copyCard) with ended := some 8 }; (jobbing j).me.jobs[(jobbing j).obj]? = some j ∧ causeOf 8 ≠ 0) := by
  decide +kernel

/-- A collective job of issue number 0 with its card read. -/
def colJob (card : BitVec 512) : CJob := { jobOf (some card) with eng := .col, started := true, use := some 0 }
/-- The first use of CID 0 with the cards ks. -/
def useOf (ks : List CCard) : Use where
  key := 0
  cid := 0
  k := 0
  cards := ks
  assembled := false
  done := []
  sums := []
  results := []
  flags := []
  clash := false
/-- The card of core 0 alone. -/
def alone (card : BitVec 512) : List CCard := [⟨0, 0, card⟩]
/-- Core 0 with its collective job in the use u. -/
def colState (card : BitVec 512) (u : Use) : State := { jobbing (colJob card) with uses := [u] }

/-- A card over dies 0 and 1, of kind k and in package or pod scope. -/
def card2 (k pod : Nat) : BitVec 512 := cardOf [(0, k + 0x10 + 0x20000 * pod), (8, 0x100), (16, 0x200), (24, 32), (32, 3)]
/-- Cores 0 and 8, of dies 0 and 1, with their jobs in a use of two cards. -/
def pair (u : Use) (x y : CJob) : State := { jobbing x with uses := [u] }.setCore 8 { oneCore [] with jobs := [y] }
/-- A job that waits for its use to assemble. -/
def waits (card : BitVec 512) : CJob := { colJob card with use := none }
/-- A use of dies 0 and 1 whose cards are those given. -/
def use2 (x y : BitVec 512) : Use := useOf [⟨0, 0, x⟩, ⟨8, 0, y⟩]

/-- Whose turn it is, from facts that decide. -/
theorem cardTurn_of {s : State} {fc : Nat} (hf : fc < s.fabric) (h : ∀ i < 8, (s.core (8 * dieOf s.cur + i)).cards.head?.all (fun x =>
    decide (fc < x.2 ∨ (fc = x.2 ∧ s.cur % 8 ≤ i))) = true) : CardTurn s fc := by
  refine ⟨hf, fun i hi x rest hx => ?_⟩
  simpa [hx] using h i hi

/-- Core 0 with a card that arrived in fabric cycle fc, in cycle 6. -/
def cardAt (fc : Nat) : State := { withMe running (fun c => { c with jobs := [waits colCard], cards := [(0, fc)] }) with fabric := 6 }
/-- A use of pod scope, of a group with a member in another module. -/
def farUse : Use := { useOf [⟨0, 0, card2 8 1⟩] with key := 3 }
/-- Its state. -/
def farState : State := let s := { jobbing (waits (card2 8 1)) with uses := [farUse] }; { s with sys := { s.sys with pod := [(1, [5])] } }
/-- A use whose cards are there of both modules, in a module with its first pod link up. -/
def fullUse : Use :=
  { useOf [⟨0, 0, card2 8 1⟩, ⟨8, 0, card2 8 1⟩] with key := 3, far := [⟨2560, 0, card2 8 1⟩, ⟨2568, 0, card2 8 1⟩] }
/-- Its state. -/
def fullState : State :=
  let s := pair fullUse (waits (card2 8 1)) (waits (card2 8 1)); { s with sys := { s.sys with pod := [(1, [5])], links := [(0, true)] } }

/-- A use within one module is cut off from none. -/
theorem linked_of {s : State} {u : Use} (h : s.useFar u = false) : ¬ cutOff s u := fun x => by rw [x.1] at h; exact absurd h (by decide)

theorem wit_CollectivesAssemble :
    ((cardAt 3).me.cards = [(0, 3)] ∧ (cardAt 3).me.job? 0 = some (waits colCard) ∧ CardTurn (cardAt 3) 3 ∧
      cardsWaiting (cardAt 3) 0 < 32) ∧
    (let s := (cardAt 5).setCore 1 { oneCore [] with cards := [(0, 3)] }; s.me.cards = [(0, 5)] ∧ ¬ CardTurn s 5) ∧
    (let s := { cardAt 3 with uses := List.replicate 32 (useOf (alone colCard)) }; s.me.cards = [(0, 3)] ∧ 32 ≤ cardsWaiting s 0) ∧
    (let u := useOf (alone colCard); let s := { jobbing (waits colCard) with uses := [u] }; s.uses[s.obj]? = some u ∧ u.assembled = false ∧
      u.cards ≠ [] ∧ s.useFar u = false ∧ (∀ d ∈ u.dies, heldCard u d) ∧ (∀ k ∈ u.cards, collReady s k = true ∧ (useJob s k).isSome) ∧
      (∀ k ∈ u.cards, agreeKey k.card = agreeKey u.head) ∧ nelem u.head ≠ 0 ∧
      nelem (useOf (alone (cardOf [(0, 0x18), (32, 1)]))).head = 0) ∧
    (let u := use2 (card2 8 0) (card2 12 0); let s := pair u (waits (card2 8 0)) (waits (card2 12 0)); s.uses[s.obj]? = some u ∧
      (∀ d ∈ u.dies, heldCard u d) ∧ (∀ k ∈ u.cards, collReady s k = true ∧ (useJob s k).isSome) ∧ s.useFar u = false ∧
      ∃ k ∈ u.cards, agreeKey k.card ≠ agreeKey u.head) ∧
    (farState.uses[farState.obj]? = some farUse ∧ farUse.cards ≠ [] ∧ cutOff farState farUse) ∧
    (fullState.uses[fullState.obj]? = some fullUse ∧ fullState.useFar fullUse = true ∧ ¬ cutOff fullState fullUse ∧
      (fullState.grouped fullUse).dies = [0, 1, 320, 321] ∧ (∀ d ∈ (fullState.grouped fullUse).dies, heldCard (fullState.grouped fullUse) d) ∧
      (∀ k ∈ fullUse.cards, collReady fullState k = true ∧ (useJob fullState k).isSome) ∧
      ∀ k ∈ fullUse.cards ++ fullUse.far, agreeKey k.card = agreeKey fullUse.head) := by
  unfold heldCard cutOff
  refine ⟨⟨by decide, rfl, cardTurn_of (by decide) (by decide), by decide⟩, ⟨by decide, fun h => ?_⟩, by decide +kernel, by decide +kernel,
    by decide +kernel, by decide +kernel, by decide +kernel⟩
  exact absurd (h.2 1 (by decide) (0, 3) [] (by decide)) (by decide)

/-- No rank is lost where each has its job or has injected all. -/
theorem there_of {s : State} {u : Use} (h : ∀ q < u.dies.length, ((u.rankCard q).bind (useJob s)).isSome = true ∨ unitsIn u.head q ≤ u.injected q) :
    ¬ lostRank s u := by
  rintro ⟨q, d, hd, -, hc, hi⟩
  rcases h q (List.getElem?_eq_some_iff.mp hd).1 with y | y
  · obtain ⟨x, hx⟩ := Option.isSome_iff_exists.mp y
    obtain ⟨c, hc', hx⟩ := Option.bind_eq_some_iff.mp hx
    exact hc c x hc' hx
  · omega

/-- Turns, from its parts. -/
theorem turns_of {s : State} {u : Use} {k : CCard} {j : CJob} {kind r : Nat} (h : (s.uses[s.obj]? = some u ∧ u.assembled = true ∧
    u.rankCard r = some k ∧ cardKind k.card = kind ∧ useJob s k = some j ∧ (j.asked = false ∧ j.held = false ∧ j.ended = none)) ∧
    (∀ x ∈ u.cards.filterMap (useJob s), x.ended ≠ some 2 ∧ x.ended ≠ some 3 ∧ x.ended ≠ some 7) ∧
    (∀ q < u.dies.length, ((u.rankCard q).bind (useJob s)).isSome = true ∨ unitsIn u.head q ≤ u.injected q) ∧
    s.useFar u = false ∧ u.farEnd = none) : Turns s u k j kind r := by
  obtain ⟨⟨h1, h2, h3, h4, h5, h6⟩, h7, h8, h9, h10⟩ := h
  exact ⟨h1, h2, h3, h4, h5, h6, h7, there_of h8, linked_of h9, fun st l e => by simp [h10] at e⟩

/-- Every rank of a use within one module has injected all its flits. -/
theorem injected_of {u : Use} (h : u.devs = [] ∧ ∀ q < u.dies.length, unitsIn u.head q ≤ u.injected q) : AllInjected u :=
  fun q d hd => ⟨fun _ => h.2 q (List.getElem?_eq_some_iff.mp hd).1, fun n => absurd (.inl h.1) n⟩

/-- Rank 0 of a use within one module has not. -/
theorem not_injected_of {u : Use} (h : u.devs = [] ∧ (u.dies[0]?).isSome = true ∧ u.injected 0 < unitsIn u.head 0) : ¬ AllInjected u := by
  intro a
  obtain ⟨d, hd⟩ := Option.isSome_iff_exists.mp h.2.1
  have := (a 0 d hd).1 (.inl h.1)
  omega

/-- MAXSCALE of 32 elements from and to main memory. -/
def colMain : BitVec 512 := cardOf [(0, 0x298), (8, 2 ^ 63), (16, 2 ^ 63), (24, 32), (32, 1)]
/-- A use that injects. -/
def injects (card : BitVec 512) : Use := { useOf (alone card) with assembled := true }
/-- A use that has injected, and whose result of two bytes has arrived. -/
def writes (card : BitVec 512) : Use := { injects card with done := [(0, 0)], results := [(0, [7, 9])] }
/-- A use whose ranks have injected all, with its job at the end of its destination. -/
def wrote : Use := writes colCard
/-- Its job, with the number of its faults. -/
def wroteJob (n : Nat) : CJob := { colJob colCard with pos := 2, nfault := n }

/-- A use of dies 0 and 1 of which only die 0 has its job. -/
def orphaned : Use := { use2 (card2 8 0) (card2 8 0) with assembled := true }

theorem wit_CollectivesRun :
    (∀ card ∈ [colCard, colMain], let s := colState card (injects card); Turns s (injects card) ⟨0, 0, card⟩ (colJob card) 8 0 ∧
      ¬ AllInjected (injects card) ∧ 0 = (injects card).injected 0 ∧ 0 < unitsIn card 0 ∧
      ∀ x ∈ (injects card).cards.filterMap (useJob s), x.held = false) ∧
    (collKind (.jobMaxscale 0 0) = some (8, 0, 0) ∧ ((colState colCard (injects colCard)).me.srcOf colCard).main = false ∧
      ((colState colMain (injects colMain)).me.srcOf colMain).main = true) ∧
    (∀ card ∈ [colCard, colMain], let s := colState card (writes card); Turns s (writes card) ⟨0, 0, card⟩ (colJob card) 8 0 ∧
      AllInjected (writes card) ∧ 0 = (colJob card).lines s.me card ∧ (colJob card).pos < outLen card 1 0 ∧
      2 = min (64 - (s.me.dstOf card).a % 64) (outLen card 1 0) ∧ (writes card).outByte 0 = some 7 ∧ (writes card).outByte 1 = some 9) ∧
    (∀ st ∈ [2, 3, 7], let s := { jobbing { colJob colCard with ended := some st } with uses := [injects colCard] };
      ∃ x ∈ (injects colCard).cards.filterMap (useJob s), x.ended = some st) ∧
    (let s := colState (card2 8 0) orphaned; s.uses[s.obj]? = some orphaned ∧ orphaned.rankCard 0 = some ⟨0, 0, card2 8 0⟩ ∧
      lostRank s orphaned) ∧
    (∀ n ∈ [0, 1], let s := { jobbing (wroteJob n) with uses := [wrote] }; s.uses[s.obj]? = some wrote ∧ AllInjected wrote ∧
      (wrote.rankCard 0).bind (useJob s) = some (wroteJob n) ∧
      outLen wrote.head wrote.dies.length 0 ≤ (wroteJob n).pos ∧ wrote.clash = false ∧ wrote.devs = []) := by
  refine ⟨?_, by decide +kernel, ?_, by decide +kernel, ⟨by decide +kernel, by decide +kernel,
    ⟨1, 1, by decide +kernel, .inl rfl, fun c x hc hx => ?_, by decide +kernel⟩⟩, fun n hn => ?_⟩
  · intro card hc
    simp only [List.mem_cons, List.not_mem_nil, or_false] at hc
    rcases hc with rfl | rfl <;> exact ⟨turns_of (by decide +kernel), not_injected_of (by decide +kernel), by decide +kernel⟩
  · intro card hc
    simp only [List.mem_cons, List.not_mem_nil, or_false] at hc
    rcases hc with rfl | rfl <;> exact ⟨turns_of (by decide +kernel), injected_of (by decide +kernel), by decide +kernel⟩
  · have e : (orphaned.rankCard 1).bind (useJob (colState (card2 8 0) orphaned)) = none := by decide +kernel
    simp [hc, hx] at e
  · simp only [List.mem_cons, List.not_mem_nil, or_false] at hn
    rcases hn with rfl | rfl <;> exact ⟨by decide +kernel, injected_of (by decide +kernel), by decide +kernel⟩

/-- The 256 bytes of an IQ block of 8 bits with block exponent 0 and count 1. -/
def iqFlit : List Byte := [0, 0, 8, 0, 0, 0, 0, 0, 1] ++ List.replicate 247 0
/-- The contribution of rank r to a use, and the chunk of a use of kind 11. -/
def contrib (u : Use) (r : Nat) : CFlit := ⟨u.key, u.cid, u.k, r, false, iqFlit⟩
/-- A use of kind 9 over dies 0 and 1, of package or pod scope, with the sums l. -/
def sumsOf (pod : Nat) (l : List Sum) : Use := { use2 (card2 9 pod) (card2 9 pod) with key := 3, assembled := true, sums := l }
/-- That use, with a flit in the air. -/
def flies (u : Use) (x : CFlit) : State := { colState (card2 9 0) u with air := [⟨0, .coll x⟩] }
/-- A sum of rank r alone. -/
def sumAt (r : Nat) : Sum := ⟨0, [r], iqFlit, false⟩

theorem wit_ContributionsCombine :
    (∀ l ∈ [[], [sumAt 0]], let u := sumsOf 0 l; let s := flies u (contrib u 1); s.uses[s.obj]? = some u ∧ u.assembled = true ∧
      (∀ y ∈ u.sums, y.ranks.length < u.dies.length) ∧ s.air[0]? = some ⟨0, .coll (contrib u 1)⟩ ∧ cardKind u.head ≤ 10 ∧
      1 < u.dies.length ∧ u.pod = false ∧ flitNo 9 iqFlit = 0) ∧
    (let u := sumsOf 1 [sumAt 0, sumAt 1]; u.pod = true ∧ (colState (card2 9 1) u).uses[0]? = some u ∧
      (∀ y ∈ u.sums, y.ranks.length < u.dies.length) ∧ u.sums[0]? = some (sumAt 0) ∧ u.sums[1]? = some (sumAt 1) ∧
      (sumAt 0).ranks.length + (sumAt 1).ranks.length ≤ u.dies.length) ∧
    11 ≤ cardKind { use2 (card2 11 0) (card2 11 0) with assembled := true }.head ∧
    (let u := { sumsOf 1 [] with devs := [0, 5] }; u.devs ≠ [] ∧ u.pod = true ∧ u.dies[0]? = some 0 ∧ u.dies[2]? = some 320 ∧
      0 / 64 = u.dev ∧ 320 / 64 ≠ u.dev ∧ (u.rankCard 0).isSome = true ∧ fullState.podLink (edgeOfDie 0) = some 0) := by decide +kernel

/-! ### The Girdle and the homes -/

/-- A send of core 0 to core 1 of this device, slot 2, in superstep 0. -/
def send1 : Send := ⟨0, 0, 0, 0, 1, 2, 7, 9, 0, 0, 0⟩
/-- Cores 0 and 1 of one stand, with a flit in transit. -/
def flying2 (phc : Nat) (full : Bool) : State :=
  { (running.setCore 1 { oneCore [] with lnd := if full then [(2, some ⟨0, 0⟩)] else [] }).setRun 0 (some { oneRun with cores := [0, 1], phc := phc }) with
    air := [⟨0, .send send1⟩] }
/-- Stop 0 with flits of every class. -/
def stopState (run0 run1 : Nat) (ks : List Nat) : State :=
  { running.setStop 0 ⟨ks.map (fun k => ⟨k, .send send1⟩), run0, run1⟩ with obj := 0 }

/-- A send of partition 0 that finds its target core 1 with the landing slots l and the holds h in partition 1, which runs the
job of a pod group. -/
def meets (pgid : Nat) (exch : Bool) (l : SMap (Option Landed)) (h : List Send) : State :=
  let c := { oneCore [] with part := 1, lnd := l, ctx := { (oneCore []).ctx with holds := h } }
  let r := { oneRun with cores := [1], exch := exch, adm := { oneRun.adm with pgid := 3 } }
  { (running.setCore 1 c).setRun 1 (some r) with air := [⟨0, .send { send1 with pgid := pgid }⟩] }
/-- A send to device 5 in group 3, of which that device is a member or not, with pod links up. -/
def abroad (pod : SMap (List Nat)) (links : SMap Bool) : State :=
  { running with air := [⟨0, .send { send1 with pgid := 3, dest := 5 * 512 + 1 }⟩], sys := { running.sys with pod := pod, links := links } }

/-- The only flit in the air is due. -/
theorem inTurn_alone (s : State) (f : Flit) : InTurn s 0 f := fun _ h => absurd h List.not_mem_nil

theorem wit_SendsTravel :
    (let x := (stopState 15 0 [0, 1, 2]).stop (stopState 15 0 [0, 1, 2]).obj; x.wait ≠ [] ∧ (∀ f ∈ x.wait, f.cls ≤ 2) ∧
      (∃ f ∈ x.wait, f.cls = 0) ∧ (∃ f ∈ x.wait, f.cls = 1) ∧ 15 ≤ x.run0) ∧
    (let x := (stopState 0 7 [1, 2]).stop (stopState 0 7 [1, 2]).obj; x.wait ≠ [] ∧ (∀ f ∈ x.wait, f.cls ≤ 2) ∧ 7 ≤ x.run1) ∧
    (let s := { flying2 0 false with air := [⟨0, .send send1⟩, ⟨0, .send send1⟩], obj := 1 }; s.air[s.obj]? = some ⟨0, .send send1⟩ ∧ ¬ InTurn s s.obj ⟨0, .send send1⟩) ∧
    (∃ r, (flying2 0 false).air[(flying2 0 false).obj]? = some ⟨0, .send send1⟩ ∧ InTurn (flying2 0 false) 0 ⟨0, .send send1⟩ ∧
      send1.dest / 512 = (flying2 0 false).sys.dev.toNat ∧
      (flying2 0 false).standOf (send1.dest % 512) = some (send1.part, r) ∧ r.phc = send1.phc ∧
      (SMap.get ((flying2 0 false).core (send1.dest % 512)).lnd none send1.slot).isSome = false) ∧
    (∃ r, (flying2 0 true).standOf (send1.dest % 512) = some (send1.part, r) ∧ r.phc = send1.phc ∧
      (SMap.get ((flying2 0 true).core (send1.dest % 512)).lnd none send1.slot).isSome = true) ∧
    (∃ r, (flying2 1 false).standOf (send1.dest % 512) = some (send1.part, r) ∧ r.phc ≠ send1.phc) ∧
    (∀ pg ∈ [0, 2, 3], ∀ exch : Bool, ∀ n ∈ [0, 1, 15, 16], let s := meets pg exch [] (List.replicate n send1); ∃ r,
      s.standOf 1 = some (1, r) ∧ 1 ≠ send1.part ∧ r.adm.pgid = 3 ∧ r.exch = exch ∧ (s.core 1).arrived = false ∧ r.st ≠ .swapping ∧
      (s.core 1).ctx.holds.length = n) ∧
    ((SMap.get ((meets 3 true [(2, some ⟨0, 0⟩)] []).core 1).lnd none 2).isSome = true ∧
      (∃ h ∈ ((meets 3 false [] [send1]).core 1).ctx.holds, h.slot = send1.slot) ∧
      ∀ h ∈ ((meets 3 false [] [{ send1 with slot := 3 }]).core 1).ctx.holds, h.slot ≠ send1.slot) ∧
    ({ running with air := [⟨0, .send send1⟩] } : State).standOf 1 = none ∧
    ((abroad [] []).podHas 3 5 = false ∧ (abroad [(3, [5])] []).podHas 3 5 = true ∧ (abroad [(3, [5])] []).podLink 0 = none ∧
      (abroad [(3, [5])] [(0, true)]).podLink 0 = some 0) ∧
    (let s := { running with air := [⟨0, .notice 0 1 2 0x1C⟩] }; s.air[s.obj]? = some ⟨0, .notice 0 1 2 0x1C⟩ ∧
      InTurn s 0 ⟨0, .notice 0 1 2 0x1C⟩) := by
  refine ⟨by decide +kernel, by decide +kernel, ⟨rfl, fun h => ?_⟩, ⟨{ oneRun with cores := [0, 1] }, rfl, inTurn_alone _ _, by decide +kernel⟩,
    ⟨{ oneRun with cores := [0, 1] }, by decide +kernel⟩, ⟨{ oneRun with cores := [0, 1], phc := 1 }, by decide +kernel⟩, ?_,
    by decide +kernel, by decide +kernel, by decide +kernel, rfl, inTurn_alone _ _⟩
  · exact (h ⟨0, .send send1⟩ (by decide) send1 rfl).1 send1 rfl ⟨rfl, rfl, rfl⟩
  · intro pg hp exch n hn
    refine ⟨{ oneRun with cores := [1], exch := exch, adm := { oneRun.adm with pgid := 3 } }, ?_⟩
    revert pg n exch
    decide +kernel

/-- Sends and notices between modules, and a slot that is taken twice while a parked stand still has its boundary to complete. -/
theorem wit_SendsTravel_modules :
    (let s := { running.setStop 68 ⟨[⟨0, .send send1⟩], 0, 0⟩ with obj := 68 }; (s.stop s.obj).wait ≠ [] ∧ 68 ≤ s.obj ∧
      (s.ownCore send1.core).isSome = true ∧ send1.part < 64) ∧
    (let s := flying2 0 false; (s.ownCore send1.core).isSome = true ∧ s.ownCore 512 = none ∧ 512 / 512 ≠ s.sys.dev.toNat) ∧
    (let r := { oneRun with cores := [1], exch := true, pend := true, adm := { oneRun.adm with pgid := 3 } }
      let s := (meets 3 true [(2, some ⟨0, 0⟩)] []).setRun 1 (some r)
      s.standOf 1 = some (1, r) ∧ r.pend = true ∧ (SMap.get (s.core 1).lnd none 2).isSome = true ∧
        ∀ m ∈ r.cores, (s.core m).doing.asks = (s.core 1).doing.asks) ∧
    ((meets 3 true [(2, some ⟨0, 0⟩)] []).setRun 1 none).standOf 1 = none := by
  refine ⟨?_, ?_, ?_, ?_⟩ <;> decide +kernel

/-- The address of offset 64 of home 0 of this module, a request of a job for it, and a translation of its page. -/
def reqOf (k : RKind) : Req := ⟨.job 0 0, 0, k, BitVec.ofNat 64 (2 ^ 63 + 64), false, 1, 0, false, 0, none, false, false, 0, false⟩
/-- A home that holds a translation of its first 4 KiB for ASID 0. -/
def homeTlb : Home := { Home.start with artb := 2 ^ 30, tlb := [⟨0, 0, 4096, 8192, true, true, false, true⟩] }
/-- The job that waits for it. -/
def asking : CJob := { jobOf (some mainSrc) with started := true, asked := true }
/-- A request in transit, its job waiting, home 0 as given. -/
def atHome (o : Home) (r : Req) : State := { (jobbing asking).setHome 0 o with air := [⟨1, .req r⟩] }

/-- Plain, from its parts. -/
theorem plain_of {s : State} {r : Req} {t : Option Nat} {x : Nat → Xl}
    (a : (s.fix r).view = none ∧ 0 < r.kind.len ∧ ∀ i < r.kind.len,
      s.route r.pgid r.asid ((r.addr.toNat + i) % 2 ^ 64) r.kind.needs.1 r.kind.needs.2 t = x i ∧
      s.busyAt r.asid ((r.addr.toNat + i) % 2 ^ 64) = none) (k : ∀ l, r.kind ≠ .cells l) : Plain s r t x :=
  ⟨a.1, k, a.2.1, a.2.2⟩

/-- Lies, from its parts. -/
theorem lies_of {s : State} {r : Req} {t : Option Nat} {h : Nat} {pa : Nat → Nat}
    (p : Plain s r t (fun i => .dev h (pa i) false))
    (a : (∀ e < 4, (s.home e).slog.length ≤ 4096) ∧
      ∀ i < r.kind.len, (s.home h).bad.contains (pa i) = false ∧ s.leafHeld (.dev h (pa i) false) = false) : Lies s r t h pa :=
  ⟨a.1, ⟨fun _ => false, p⟩, a.2⟩

/-- A home takes new content whose leaves the pool could supply if each held 8 chunks. -/
theorem renew_some {h : Home} {f : Mem → Mem} {ls : List Nat}
    (a : 8 * ((h.encoded (f h.mem) ls).mem.length + ls.length + unionSize (h.encoded (f h.mem) ls).pins) ≤ Config.poolChunks) :
    ∃ o, h.renew f ls = (o, true) := ⟨h.encoded (f h.mem) ls, by simp [Home.renew, Home.fits, a]⟩

/-- A home whose root entry of ASID 0 points to a page table of zeros. -/
def homeEmpty : Home := { Home.start with mem := Mem.writeL [] 0 (leBytes 8 0x1001) }
/-- The same request to device 5, for a stand of group 3. -/
def farReq : Req := { reqOf (.read 4) with addr := BitVec.ofNat 64 (2 ^ 63 + 5 * 2 ^ 56 + 64), pgid := 3 }

theorem wit_HomesPerformRequests :
    (let r := reqOf (.read 4); let s := atHome homeTlb r; s.air[s.obj]? = some ⟨1, .req r⟩ ∧ r.org = .job 0 0 ∧ r.replay = false ∧
      Lies (walked s (some 0) r) r (some 0) 0 (fun i => 8192 + 64 + i) ∧ (s.core 0).job? 0 = some asking) ∧
    (let r := reqOf (.atomic 4 0x30 5); let s := atHome homeTlb r; s.air[s.obj]? = some ⟨1, .req r⟩ ∧
      Lies (walked s (some 0) r) r (some 0) 0 (fun i => 8192 + 64 + i) ∧
      ∃ l, newBytes r [0, 0, 0, 0] = some l ∧ l.length = r.kind.len ∧
        ∃ o, ((walked s (some 0) r).home 0).put ((List.range l.length).map (fun i => (8192 + 64 + i, l.getD i 0))) = (o, true)) ∧
    (let r := reqOf (.read 4); let s := atHome homeEmpty r
      Plain (walked s none r) r none (fun i => .absent 0 (2 ^ 63 + 64 + i)) ∧ r.kind.isRead = true) ∧
    (let r := { reqOf (.read 4) with addr := BitVec.ofNat 64 (2 ^ 63 + 2 ^ 48) }; let s := atHome homeTlb r
      Plain (walked s (some 0) r) r (some 0) (fun _ => .fail 0) ∧ asking.buf = none) ∧
    (∀ l ∈ [[], [(0, true)]], let s := { atHome homeTlb farReq with sys := { State.reset.sys with pod := [(3, [5])], links := l } }
      Plain (walked s (some 0) farReq) farReq (some 0) (fun _ => .remote 0) ∧ asking.ended = none ∧
      s.podLink 0 = if l.isEmpty then none else some 0) := by
  refine ⟨⟨rfl, rfl, rfl, lies_of (plain_of (by decide +kernel) nofun) (by decide +kernel), by decide +kernel⟩,
    ⟨rfl, lies_of (plain_of (by decide +kernel) nofun) (by decide +kernel), _, rfl, by decide +kernel, renew_some (by decide +kernel)⟩,
    ⟨plain_of (by decide +kernel) nofun, rfl⟩, ⟨plain_of (by decide +kernel) nofun, rfl⟩, fun l hl => ⟨plain_of ?_ nofun, rfl, ?_⟩⟩
  all_goals revert l; decide +kernel

/-- A write, a table write and an atomic at a page that is not present; a leaf of no root table. -/
theorem wit_HomesPerformRequests_absent :
    (∀ k ∈ [RKind.write [1, 2, 3, 4], .table [1, 2, 3, 4], .atomic 4 0x30 5], let r := reqOf k; let s := atHome homeEmpty r; let w := walked s none r
      ((w.fix r).view = none ∧ 0 < r.kind.len ∧ ∀ i < r.kind.len,
        w.route r.pgid r.asid ((r.addr.toNat + i) % 2 ^ 64) r.kind.needs.1 r.kind.needs.2 none = .absent 0 (2 ^ 63 + 64 + i) ∧
        w.busyAt r.asid ((r.addr.toNat + i) % 2 ^ 64) = none) ∧ (2 ^ 63 + 64) % 64 + r.kind.len ≤ 64 ∧
      ∀ d < 4, (w.home d).slog.length < 4096) ∧
    ∀ i < 4, ((walked (atHome homeTlb (reqOf (.atomic 4 0x30 5))) (some 0) (reqOf (.atomic 4 0x30 5))).home 0).isRoot ((8192 + 64 + i) / 4096) = false := by
  refine ⟨?_, ?_⟩ <;> decide +kernel

/-! ### Phases -/

/-- A bundle that reads landing slot 2, frozen there for k cc; full: its data has landed. -/
def atSlot (full : Bool) (k : Nat) : State :=
  withMe (placed (.moveSreg 0 (.s 7) ⟨0, .lndS 2 false⟩)) (fun c => { c with seq := .frozen .slot k, lnd := if full then [(2, some ⟨0, 5⟩)] else [] })
/-- A bundle of the CTL trigger i, frozen as f for n cc. -/
def frozenAt (i : Instr) (f : Freeze) (n : Nat) : State := withMe (placed i) (fun c => { c with seq := .frozen f n })

theorem wit_FencesWaitsAndFreezes_frozen : waitEnds (atSlot true (2 ^ 32 - 1)) .slotReadable = true ∧
    waitEnds (frozenAt (.ctlWaitt (mv 0)) .waitt 5) .waittRelease = true ∧
    (∀ full : Bool, (atSlot full (2 ^ 32)).me.seq = .frozen .slot (2 ^ 32) ∧
      (atSlot full (2 ^ 32)).limOf (atSlot full (2 ^ 32)).cur < 2 ^ 32 ∧ (atSlot full (2 ^ 32)).me.trap = none) ∧
    ∃ v, let s := frozenAt (.ctlBwaitt (mv 64)) (.bwaitt 9) 10; s.me.seq = .frozen (.bwaitt 9) 10 ∧ s.issuing s.cur = true ∧
      s.me.ctlTrig s.me.fetch = some (.ctlBwaitt (mv 64), v) :=
  ⟨by decide +kernel, by decide +kernel, by decide +kernel, .ready (.s 64), by decide +kernel⟩

/-- The stand's run replaced. -/
def withRun (s : State) (r : Run) : State := s.setRun 0 (some r)
/-- A bar at id 0, scope 1, that core 0 alone participates in. -/
def atBar (i : Instr) (f : Freeze) (r : Run) : State := withRun (frozenAt i f 0) r

theorem wit_Barriers :
    (let s := atBar (.ctlBar (mv 64)) (.bar false) oneRun; s.standOf s.cur = some (0, oneRun) ∧ s.issuing s.cur = true ∧
      s.me.ctlTrig s.me.fetch = some (.ctlBar (mv 64), .ready (.s 64)) ∧ s.me.accessesDone = true ∧ s.me.seq = .frozen (.bar false) 0 ∧
      (∀ x ∈ oneRun.ids, x.1 = barId 64 → x.2 = barScope 64) ∧
      (∀ n ∈ participants ⟨barId 64, barScope 64, 0, []⟩ (podOf s 0 oneRun 1), n = s.cur) ∧
      farOf s oneRun ⟨barId 64, barScope 64, 0, []⟩ = false ∧ s.cur ∈ participants ⟨barId 64, barScope 64, 0, []⟩ (podOf s 0 oneRun 1) ∧
      ∀ x ∈ s.parts, s.part x.1 = x.2) ∧
    (let r := { oneRun with cores := [0, 1] }; let s := atBar (.ctlArrive (mv 64)) .arrive r; s.standOf s.cur = some (0, r) ∧
      s.me.ctlTrig s.me.fetch = some (.ctlArrive (mv 64), .ready (.s 64)) ∧ s.me.accessesDone = true ∧ s.me.seq = .frozen .arrive 0 ∧
      1 ∈ participants ⟨barId 64, barScope 64, 0, []⟩ (podOf s 0 r 1) ∧ 1 ≠ s.cur ∧ r.episodes = []) ∧
    (let r := { oneRun with cores := [0, 1], episodes := [⟨0, 1, 0, [1]⟩] }; let s := atBar (.ctlArrive (mv 64)) .arrive r
      s.standOf s.cur = some (0, r) ∧ ∀ n ∈ participants ⟨barId 64, barScope 64, 0, []⟩ (podOf s 0 r 1), n = s.cur ∨
        ∃ x ∈ podOf s 0 r 1, ∃ y ∈ x.2.episodes, y.id = 0 ∧ y.scope = 1 ∧ y.group = 0 ∧ n ∈ y.arrived) ∧
    (let r := { oneRun with ids := [(0, 2)] }; let s := atBar (.ctlBar (mv 64)) (.bar false) r; s.standOf s.cur = some (0, r) ∧
      s.me.ctlTrig s.me.fetch = some (.ctlBar (mv 64), .ready (.s 64)) ∧ s.me.accessesDone = true ∧
      (∃ x ∈ r.ids, x.1 = barId 64 ∧ x.2 ≠ barScope 64) ∧ s.me.trap = none) ∧
    (let e : Episode := ⟨0, 1, 0, [0]⟩; let r := { oneRun with ids := [(0, 1)], episodes := [e] }
      let s := withMe (atBar (.ctlBar (mv 64)) (.bar true) r) (fun c => { c with arrivals := [⟨0, 1, false⟩] })
      s.standOf s.cur = some (0, r) ∧ r.episodes[s.obj]? = some e ∧ e.scope ≠ 4 ∧ r.cores.Nodup ∧
      (∀ n ∈ participants e [(0, r)], n ∈ e.arrived) ∧ participants e [(0, r)] = [0] ∧ s.issuing 0 = true ∧
      s.me.ctlTrig s.me.fetch = some (.ctlBar (mv 64), .ready (.s 64))) ∧
    (∀ i ∈ [(Instr.ctlBar (mv 64), Freeze.bar true), (.ctlBwait (mv 64), .bwait)],
      let s := withMe (atBar i.1 i.2 oneRun) (fun c => { c with arrivals := [⟨0, 1, true⟩] })
      s.me.seq = .frozen i.2 0 ∧ s.me.ctlTrig s.me.fetch = some (i.1, .ready (.s 64)) ∧ s.me.barDone 64 = true) := by
  refine ⟨?_, ?_, ?_, ?_, ?_, ?_⟩ <;> decide +kernel

/-- An arrival after a higher core's in its fabric cycle. -/
theorem wit_Barriers_early : let r := { oneRun with barAt := (0, 5) }; let s := atBar (.ctlBar (mv 64)) (.bar false) r
    s.standOf s.cur = some (0, r) ∧ r.barAt.1 = s.fabric ∧ s.cur < r.barAt.2 := by decide +kernel

/-- Core 0 with its sequencer in a state, and the run r. -/
def seqState (q : Seq) (r : Run) : State := withRun (withMe running (fun c => { c with seq := q })) r

theorem wit_ArrivalsQuietAndLimits :
    (let s := seqState (.endph true false) oneRun; s.standOf s.cur = some (0, oneRun) ∧ s.me.seq = .endph true false ∧ s.me.quiesced = true) ∧
    (let s := seqState (.halted false) oneRun; s.standOf s.cur = some (0, oneRun) ∧ s.me.seq = .halted false ∧ s.me.drained = true) ∧
    (∀ st ∈ [stopOfDie 0, stopOfEdge 3], ∀ tag : Bool, let s := seqState (.halted true) oneRun; s.runOf s.obj = some oneRun ∧
      oneRun.stops.contains st = true ∧ stopQuiet s oneRun st tag = true ∧ allArrived s oneRun = true ∧
      oneRun.quiet.contains (st, tag) = false) ∧
    (let s := withMe (seqState .run oneRun) (fun c => { c with ssc := 2 ^ 32 - 1 }); s.standOf s.cur = some (0, oneRun) ∧
      s.capOf s.cur ≤ s.me.ssc.toNat ∧ s.me.seq = .run ∧ s.me.trap = none) ∧
    (let r := { oneRun with strag := some (2 ^ 32) }; let s := seqState .run r; s.runOf s.obj = some r ∧ r.adm.lim < 2 ^ 32 ∧
      r.st = .running ∧ r.cores.Nodup ∧ (∃ n ∈ r.cores, (s.core n).arrived = false) ∧ s.me.trap = none) ∧
    (let r := { oneRun with strag := some (2 ^ 32), phc := 1 }; let s := seqState (.halted true) r; s.runOf s.obj = some r ∧ r.adm.lim < 2 ^ 32 ∧ (∀ n ∈ r.cores, (s.core n).arrived = true) ∧ tokensQuiet s r = false ∧ s.me.trap = none) ∧
    (let r := { oneRun with strag := some (2 ^ 32) }; let s := { seqState (.halted true) r with air := [⟨0, .send send1⟩] }
      (∀ n ∈ r.cores, (s.core n).arrived = true) ∧ tokensQuiet s r = true ∧ sendsQuiet s r = false) := by
  refine ⟨?_, ?_, ?_, ?_, ?_, ?_, ?_⟩ <;> decide +kernel

/-- Quiet, from its parts. -/
theorem quiet_of {s : State} {p : Nat} {r : Run} {ask : Option Bool}
    (b : r.incoming.all (fun x => decide (r.adm.d ≤ x.d) || !s.ready x) = true)
    (a : s.runOf p = some r ∧ (r.st = .running ∧ r.pend = false ∧ r.chosen = false ∧ r.cores ≠ [] ∧ r.cores.Nodup) ∧
      (∀ n ∈ r.cores, (s.core n).seq = (match ask with | some e => .endph e true | none => .halted true)) ∧
      tokensQuiet s r = true ∧ sendsQuiet s r = true ∧ (∀ n ∈ r.cores, (s.core n).deferred = []) ∧ r.episodes = [] ∧
      (r.ccSince = 0 ∨ r.ccSince < r.adm.remC) ∧
      ((r.cores.map (fun n => (s.core n).beats)).sum = 0 ∨ (r.cores.map (fun n => (s.core n).beats)).sum < r.adm.remB) ∧
      ((r.cores.map (fun n => (s.core n).bytes)).sum = 0 ∨ (r.cores.map (fun n => (s.core n).bytes)).sum < r.adm.remX)) : Quiet s p r ask :=
  ⟨a.1, a.2.1, fun x hx => by simpa [hx] using b, a.2.2.1, a.2.2.2.1, a.2.2.2.2.1, a.2.2.2.2.2.1, a.2.2.2.2.2.2.1,
    a.2.2.2.2.2.2.2⟩

/-- A packet that has not completed. -/
def pktOf (seq : Nat) (body : List Byte) : Pkt where
  seq := seq
  body := body
  desc := QDesc.zero
  rej := 0
  started := false
  startDtc := 0
  status := none
  cfl := 0
  cause := 0
  exitw := 0
  aflb := 0
  usedC := 0
  usedB := 0
  usedX := 0
  result := 0
  dline := 0
  acks := []
  failed := false
  image := none
  since := none
  old := none
/-- The state with a packet at the head of queue 0. -/
def withPkt (s : State) (p : Pkt) : State := s.setQueue 0 { s.queue 0 with pkts := [p] }

theorem wit_BoundariesComplete :
    (Quiet (seqState (.endph true true) { oneRun with ccSince := 7 }) (seqState (.endph true true) { oneRun with ccSince := 7 }).obj
      { oneRun with ccSince := 7 } (some true)) ∧
    (Quiet (seqState (.endph false true) oneRun) (seqState (.endph false true) oneRun).obj oneRun (some false)) ∧
    (Quiet (withPkt (seqState (.halted true) oneRun) (pktOf 0 [1])) (withPkt (seqState (.halted true) oneRun) (pktOf 0 [1])).obj oneRun none ∧
      (withPkt (seqState (.halted true) oneRun) (pktOf 0 [1])).pkt? oneRun.adm.q oneRun.adm.seq = some (pktOf 0 [1])) :=
  ⟨quiet_of rfl (by decide +kernel), quiet_of rfl (by decide +kernel), quiet_of rfl (by decide +kernel), by decide +kernel⟩

/-! ### Traps -/

/-- A trap of a cause, precise at issue. -/
def trapOf (cause : Byte) : Trap := Trap.plain cause 0 0 0
/-- Core 0 with a trap and its sequencer in a state. -/
def trapped (q : Seq) (cause : Byte) (r : Run) : State := withMe (seqState q r) (fun c => { c with trap := some (trapOf cause) })

/-- Partition 0 with its frames at 0x400000 of home 0, whose OFF 0 to 16 MiB translate for ASID 0. -/
def framed (s : State) : State :=
  (s.setHome 0 { Home.start with tlb := [⟨0, 0, 0x1000000, 0, true, true, false, true⟩] }).setPart 0
    { s.part 0 with desc := some ⟨1, 2 ^ 63 + 0x400000, 1, true, 0xF333⟩ }

/-- A captured core whose mailbox lies in a leaf that the full expansion hold buffer holds. -/
def fullHold : State :=
  let s := framed (trapped (.capture 3) 0x08 oneRun)
  s.setHome 0 { s.home 0 with exph := List.replicate 256 ⟨none, [(0x400000, 1)], 1, 0, 0, 0⟩ }

theorem wit_CoresParkAndCapture :
    (let r := { oneRun with st := .parking }; let s := seqState .run r; s.standOf s.cur = some (0, r) ∧ r.st = .parking ∧
      s.me.trap = none ∧ s.me.serving = true) ∧
    (∀ k ∈ [(0 : Byte), 0x08], let s := trapped (.capture 3) k oneRun; s.me.seq = .capture 3 ∧ s.me.trap = some (trapOf k) ∧
      captureDone s s.cur = true ∧ (trapOf k).cause = k ∧ (writeRecord s s.cur).isSome = true) ∧
    (captureDone fullHold 0 = true ∧ writeRecord fullHold 0 = none) ∧
    (let s := trapped (.capture 65536) 0x08 oneRun; s.me.seq = .capture 65536 ∧ s.me.trap = some (trapOf 0x08) ∧
      (writeRecord (s.setMe { s.me with trap := some { trapOf 0x08 with cause := 0x20, incomplete := true } }) s.cur).isSome = true) := by
  refine ⟨?_, ?_, ?_, ?_⟩ <;> decide +kernel

/-- A run whose first trap had a cause, under a queue's descriptor. -/
def parkedRun (cause : Byte) (dbg replay : Bool) (st : RunSt) : Run :=
  { oneRun with st := st, first := some cause, adm := { oneRun.adm with desc := { QDesc.zero with dbg := dbg, replayable := replay } } }
/-- Its only core, captured. -/
def parkedState (cause : Byte) (dbg replay : Bool) (st : RunSt) : State :=
  withPkt (trapped .parked cause (parkedRun cause dbg replay st)) (pktOf 0 [1])

theorem wit_ParkedStandsAreDisposedOf :
    (∀ dbg replay : Bool, ∀ c ∈ [(0x08 : Byte), 0x1A], let r := parkedRun c dbg replay .parking; let s := parkedState c dbg replay .parking
      s.runOf s.obj = some r ∧ r.st = .parking ∧ r.late = false ∧ s.sys.takeover = false ∧ allParked s r = true ∧ r.adm.desc.dbg = dbg ∧
      r.adm.desc.replayable = replay ∧ r.adm.replayed = false ∧ s.pkt? r.adm.q r.adm.seq = some (pktOf 0 [1])) ∧
    (let r := { parkedRun 0x08 false false .parking with chosen := true }
      let s := (parkedState 0x08 false false .parking).setRun 0 (some r)
      s.obj = 0 ∧ s.runOf s.obj = some r ∧ r.chosen = true ∧ r.adm.desc.dbg = false) ∧
    (∀ dbg : Bool, (parkedRun 0x08 dbg false .parking).chosen = false) ∧
    (eccCause 0x1A = true ∧ eccCause 0x08 = false) ∧
    (let r := parkedRun 0x15 true true .held; let s := parkedState 0x15 true true .held; s.runOf s.obj = some r ∧ r.st = .held ∧
      r.adm.desc.replayable = true ∧ r.cores.Nodup ∧ mayResume s s.obj r = true ∧
      (framed s).imageMapped ((framed s).blockOf 0) = true ∧ s.pkt? r.adm.q r.adm.seq = some (pktOf 0 [1])) ∧
    (let r := parkedRun 0x20 true true .held; let s := parkedState 0x20 true true .held; s.runOf s.obj = some r ∧
      mayResume s s.obj r = false) := by decide +kernel

/-! ### The Canopy unit -/

/-- A number of n bytes at a place of a list of zeros: the little-endian fields of a descriptor or packet. -/
def blob (size : Nat) (l : List (Nat × Nat × Nat)) : List Byte :=
  leBytes size ((l.map (fun f => f.2.2 % 2 ^ (8 * f.2.1) * 2 ^ (8 * f.1))).sum)
/-- Memory that holds byte lists at addresses. -/
def memOf (l : List (Nat × List Byte)) : Mem := l.foldl (fun m x => Mem.writeL m x.1 x.2) []

/-- The device half of home 0. -/
def DEV : Nat := 2 ^ 63
/-- Partition 0: die 0, one frame. -/
def pdescBytes : List Byte := blob 64 [(0, 8, 1), (8, 8, DEV + 0x400000), (0x10, 1, 1), (0x11, 1, 1)]
/-- Queue 0: of partition 0 and ASID 1, eight places, EN, with the flags of byte 0x1F. -/
def qdescBytes (flags : Nat) : List Byte :=
  blob 64 [(0, 8, DEV + 0x4000 + 3), (8, 8, DEV + 0x5000), (0x10, 8, DEV + 0x3000), (0x1F, 1, flags), (0x20, 6, 1000000),
    (0x28, 2, 1), (0x30, 5, 1000), (0x35, 5, 1000), (0x3A, 5, 1000)]
/-- A home whose OFF 0 to 16 MiB is presented address for address to ASID 0 and 1, with contents. -/
def homeWith (m : Mem) : Home := { Home.start with
  mem := m, artb := 2 ^ 30, tlb := [⟨0, 0, 0x1000000, 0, true, true, false, true⟩, ⟨1, 0, 0x1000000, 0, true, true, false, true⟩] }
/-- A device that runs, with partition 0 and queue 0 in memory beside other contents. -/
def world (flags : Nat) (l : List (Nat × List Byte)) : State :=
  ({ State.reset with sys := { Sys.start with
      state := 1, ptab := BitVec.ofNat 64 (DEV + 0x1000), qtab := BitVec.ofNat 64 (DEV + 0x2000), jrnl := BitVec.ofNat 64 (DEV + 0xC00000) } }.setHome
    0 (homeWith (memOf ([(0x1000, pdescBytes), (0x2000, qdescBytes flags)] ++ l)))).setQueue 0
      { Queue.start with desc := parseQueue (qdescBytes flags) }
/-- The descriptor of queue 0. -/
def qd (flags : Nat) : QDesc := parseQueue (qdescBytes flags)
/-- An admitted LAUNCH of queue 0 with a deadline. -/
def adm (d : Nat) : Adm := { oneRun.adm with desc := qd 1, started := false, d := d }
/-- The kernel of an image of eight cores on one die, without DET. -/
def image : Mem := memOf [(0, blob 96 [(0, 4, 0x4B565246), (4, 2, 0x100), (8, 2, 8), (0x0A, 1, 1), (0x0B, 1, 8), (0x10, 4, 100), (0x18, 8, 10),
  (0x38, 4, 1)])]
/-- Partition 0 with an admitted LAUNCH whose packet heads queue 0, and perhaps a job that runs. -/
def canopy (x : Adm) (r : Option Run) (saved : List (Nat × Nat × Nat × Ctx)) : State :=
  ((world 1 []).setPart 0 { Part.start with desc := some ⟨1, DEV + 0x400000, 1, true, 0xF333⟩, adms := [x], run := r, saved := saved }).setQueue 0
    { Queue.start with desc := qd 1, pkts := [{ pktOf x.seq [1] with desc := qd 1 }] } |>.setSlot 0 { RSlot.start with valid := true, image := image }

theorem wit_JobsAreDispatched :
    (let x := adm 5; let s := canopy x none []; s.pick 0 = some x ∧ s.runOf 0 = none ∧ s.obj = 0 ∧ x.preempted = false ∧ x.started = false ∧
      x.next = none ∧ formStand s (s.pdesc 0) (s.slot x.slot).image = some [0, 1, 2, 3, 4, 5, 6, 7] ∧ [0, 1, 2, 3, 4, 5, 6, 7].Nodup ∧
      ∃ k, (s.queue x.q).pkts = [k] ∧ k.seq = x.seq ∧ k.desc.part = 0) ∧
    (let x := { adm 5 with preempted := true, started := true, next := some (3, false) }; let s := canopy x none [(0, 0, 0, Ctx.start)];
      s.pick 0 = some x ∧ s.runOf 0 = none ∧ savedOf s 0 x ≠ [] ∧ ((savedOf s 0 x).map (·.1)).Nodup) ∧
    (let x := adm 5; let r := { oneRun with adm := { oneRun.adm with d := 6, seq := 1 } }; let s := canopy x (some r) []; s.pick 0 = some x ∧
      s.runOf 0 = some r ∧ x.d < r.adm.d ∧ (s.part 0).outgoing = none ∧ r.chosen = false ∧ r.st ≠ .swapping ∧
      ∃ l, incomingCtx s 0 x = some l ∧ (l.map (·.1)).Nodup) ∧
    (let x := adm 5; let r := { oneRun with adm := { oneRun.adm with d := 6, seq := 1 }, incoming := some x }; let s := canopy x (some r) [];
      s.pick 0 = some x ∧ s.obj = 0 ∧ s.runOf 0 = some r ∧ r.incoming = some x ∧ r.chosen = false ∧ r.st = .running ∧ x.d < r.adm.d) :=
  ⟨by refine ⟨by decide +kernel, by decide +kernel, rfl, rfl, rfl, rfl, by decide +kernel, by decide, ⟨_, rfl, by decide +kernel⟩⟩,
   by decide +kernel,
   by refine ⟨by decide +kernel, by decide +kernel, by decide +kernel, rfl, rfl, by decide, ⟨_, rfl, by decide +kernel⟩⟩,
   by decide +kernel⟩

/-- A swapping stand on partition 0, started anew or resumed. -/
def swapping (next : Option (Nat × Bool)) : Run := { oneRun with st := .swapping, adm := { oneRun.adm with desc := qd 1, next := next, started := true } }
/-- The packet of queue 0, number 0, that launched it. -/
def launchPkt : Pkt := { pktOf 0 [1] with desc := qd 1 }
/-- Partition 0 in a state with that packet. -/
def partState (x : Part) : State :=
  ((world 1 []).setPart 0 x).setQueue 0 { Queue.start with desc := qd 1, pkts := [launchPkt] } |>.setSlot 0 { RSlot.start with valid := true, image := image }
/-- A partition with descriptor and run. -/
def partRun (r : Run) : Part := { Part.start with desc := some ⟨1, DEV + 0x400000, 1, true, 0xF333⟩, run := some r }
/-- DTC in ns. -/
def atTime (s : State) (n : Nat) : State := { s with sys := { s.sys with clock := { s.sys.clock with dtc := BitVec.ofNat 64 n } } }
/-- A run under KILL_LATE with D = 5. -/
def lateRun (late : Bool) : Run :=
  { oneRun with late := late, st := if late then .parking else .running, adm := { oneRun.adm with d := 5, desc := { qd 1 with killLate := true } } }

/-- A swapping stand that has the lines of core 0 to write out, one of them listed, the hold buffer full of writes to its place. -/
def spills (hold : Bool) : State :=
  let s := (partState (partRun { swapping (some (3, false)) with spill := some (adm 5, [0]) })).setCore 0 { Core.idle with scratch := [(0, 1)] }
  if hold then s.setHome 0 { s.home 0 with exph := List.replicate 256 ⟨none, [(0x490000, 1)], 1, 0, 0, 0⟩ } else s

theorem wit_JobsSwapAndExpire :
    (∀ next ∈ [none, some (3, false)], let r := swapping next; let s := partState (partRun r); s.runOf s.obj = some r ∧ r.st = .swapping ∧
      r.cores.Nodup ∧ r.spill = none ∧ (spillAll s 0 r).isSome = true ∧ (s.core 0).trap = none ∧
      (match refillLook s s.obj r with | .ok _ => true | _ => false) = true) ∧
    (let r := swapping (some (3, false)); let s := partState (partRun r); let s := s.setHome 0 { s.home 0 with exph := [⟨none, [(0x401000, 1)], 1, 0, 0, 0⟩] }
      (match refillLook s s.obj r with | .ok _ => false | _ => true) = true) ∧
    (∀ hold : Bool, (match (spills hold).runOf 0 with
      | some r => decide (r.st = .swapping) && decide (r.spill ≠ none) && decide ((spillAll (spills hold) 0 r).isNone = hold)
      | none => false) = true) ∧
    (let s := partState (partRun (swapping (some (3, false)))); let s := s.setHome 0 { s.home 0 with bad := [0x401000] }
      frameError s (frameBlock (s.pdesc 0) 0 0 + 0x1000) 0x12C00 = true) ∧
    (let s := partState { partRun oneRun with desc := some ⟨1, 0x400000, 1, true, 0xF333⟩, outgoing := some (adm 9, [(0, Ctx.start)]) };
      (s.part s.obj).outgoing = some (adm 9, [(0, Ctx.start)]) ∧
      (frameWrite s (frameBlock (s.pdesc s.obj) (adm 9).frame 0 + 0x1000) 0x87500 (imageCells Ctx.start)).isSome = true) ∧
    (∀ c ∈ [(0x08 : Byte), 0x1A], let r := { parkedRun c false true .parking with incoming := some { adm 5 with seq := 1 }, chosen := true };
      let s := (partState (partRun r)).setCore 0 { Core.idle with seq := .parked }; s.runOf s.obj = some r ∧ r.st = .parking ∧ r.late = false ∧
      r.adm.desc.dbg = false ∧ r.adm.seq = 0 ∧ (∀ n ∈ r.cores, (s.core n).seq = .parked) ∧ s.pkt? r.adm.q r.adm.seq = some launchPkt) ∧
    (let s := atTime (partState (partRun (lateRun false))) 5; s.runOf s.obj = some (lateRun false) ∧ s.now ≤ (lateRun false).adm.d) ∧
    (let s := atTime (partState (partRun (lateRun false))) 6; s.runOf s.obj = some (lateRun false) ∧ (lateRun false).adm.d < s.now) ∧
    (let s := (atTime (partState (partRun (lateRun true))) 6).setCore 0 { Core.idle with seq := .parked }; s.runOf s.obj = some (lateRun true) ∧
      (lateRun true).adm.d < s.now ∧ allParked s (lateRun true) = true ∧ s.pkt? 0 0 = some launchPkt) ∧
    (let x := { adm 5 with desc := { qd 1 with killLate := true } }; let s := atTime (partState { partRun oneRun with adms := [x] }) 6;
      (s.part s.obj).adms[0]? = some x ∧ x.d < s.now ∧ s.pkt? x.q x.seq = some launchPkt) := by
  refine ⟨?_, ?_, ?_, ?_, ?_, ?_, ?_, ?_, ?_, ?_⟩ <;> decide +kernel

/-! ### Queues -/

/-- The state of queue 0 replaced. -/
def withQueue (s : State) (f : Queue → Queue) : State := s.setQueue 0 (f (s.queue 0))
/-- A NOP packet and a LAUNCH of slot 0 with a deadline. -/
def nopBody : List Byte := blob 128 [(0, 1, 0x0C)]
/-- A LAUNCH of slot 0, generation 1. -/
def launchBody : List Byte := blob 128 [(0, 1, 1), (8, 8, 100000), (0x14, 4, 1), (0x18, 8, 10), (0x20, 8, 10), (0x28, 8, 10), (0x30, 4, 50)]
/-- Queue 0 with a fetched packet and slot 0 valid. -/
def decoding (b : List Byte) : State :=
  (withQueue (world 1 []) (fun k => { k with fetched := [⟨0, b, qd 1⟩] })).setSlot 0 { RSlot.start with valid := true, gen := 1, asid := 1, image := image }

/-- Current and Reads, as facts that decide. -/
def nowEn (s : State) : Bool :=
  match s.look 0 s.sys.qtab.toNat 64 with | .ok l => decide ((parseQueue l).en = (s.queue 0).desc.en) | _ => false
/-- What an access of queue 0 to its ring or wake word finds. -/
def ringReads (s : State) (a n : Nat) (l : List Byte) : Bool :=
  !s.pending (ringOf 0) && decide (s.look (s.queue 0).desc.asid a n = .ok l)

theorem current_of {s : State} (h : nowEn s = true) : Current s 0 := by
  unfold nowEn at h
  split at h
  · exact ⟨_, by assumption, by simpa using h⟩
  · cases h
theorem reads_of {s : State} {a n : Nat} {l : List Byte} (h : ringReads s a n l = true) : Reads s (ringOf 0) (s.queue 0).desc.asid a n l := by
  simpa [ringReads, Reads] using h

/-- The queue with a wake word that its ASID does not map. -/
def badWake : State := withQueue (world 1 []) (fun k => { k with desc := { k.desc with wake := DEV + 2 ^ 54 } })
/-- Eight packets of zeros to fetch. -/
def available : State := withQueue (world 1 []) (fun k => { k with producer := 8 })
/-- The same fabric cycle has seen a LAUNCH of a later queue decided. -/
def decidedLate : State := let s := decoding launchBody; { s with sys := { s.sys with decided := s.fabric + 1 } }

/-- What the checks of a packet other than a MIGRATE read. -/
theorem checks_of {s : State} {f : Fetched} (h : (s.partLooks f.desc.part).all (fun x => match x with | .ok _ => true | _ => false) = true)
    (ht : leAt f.body 0 1 ≠ 0x0A) : ChecksRead s f := by
  refine ⟨fun x hx => ?_, fun h => absurd h ht⟩
  have := List.all_eq_true.mp h x hx
  cases x <;> simp_all

/-- The journal takes a record. -/
theorem journalled_of {s : State} {j : JRec} (h : s.sys.state ≠ 2 ∧ isDev s.sys.jrnl.toNat = true)
    (hp : (({ s with journal := s.journal ++ [j] } : State).poke (s.sys.jrnl.toNat + 256 * j.place) j.bytes).isSome = true) :
    ∃ u, Journalled s j u := by
  obtain ⟨u, hu⟩ := Option.isSome_iff_exists.mp hp
  exact ⟨u, .inr ⟨h.1, h.2, hu⟩⟩

/-- A packet that the decoder holds. -/
theorem decodable_of {b : List Byte} (h : nowEn (decoding b) = true)
    (hc : ((decoding b).partLooks 0).all (fun x => match x with | .ok _ => true | _ => false) = true) (ht : leAt b 0 1 ≠ 0x0A) :
    Decodable (decoding b) 0 ⟨0, b, qd 1⟩ [] :=
  ⟨rfl, current_of h, checks_of hc ht, rfl, rfl, rfl, (by show ([] : List JRec).length < 8192; decide)⟩

/-- A LAUNCH that binds no more than eight buffers reads no list of them. -/
theorem binds_of {s : State} {f : Fetched} (h : leAt f.body 0x11 1 ≤ 8 ∨ 16 < leAt f.body 0x11 1) : BindsRead s f [] := by
  unfold BindsRead; rw [if_pos h]

/-- The record of that packet as it is decoded. -/
def rec0 (b : List Byte) (c : Byte) (d : Nat) (x : Option Adm) : JRec := ⟨(decoding b).freePlace, 0, 0, b, c, d, 0, x, false, false, decide (c ≠ 0)⟩
/-- A LAUNCH of a generation that the slot has not. -/
def staleBody : List Byte := launchBody.set 0x14 2

theorem wit_LaunchesAreDecided :
    ∀ p ∈ [(launchBody, (0 : Byte)), (staleBody, 4)], let s := decoding p.1; let f : Fetched := ⟨0, p.1, qd 1⟩; let y := launchAdm s 0 f [] 0 0
      Decodable s 0 f [] ∧ (rejCode s 0 f = 0 ∧ leAt f.body 0 1 = 0x01 ∧ s.sys.decided ≤ s.fabric) ∧ Releases (s.queue 0) f.desc s.now 0 ∧
        BindsRead s f [] ∧ (s.admitted 0 = [] ∧ 0 < (s.pdesc 0).nframe) ∧ FirstCode (launchCodes s f y) p.2 ∧
        ∃ u, Journalled s (rec0 p.1 p.2 y.d (if p.2 = 0 then some y else none)) u := by
  intro p hp
  simp only [List.mem_cons, List.not_mem_nil, or_false] at hp
  rcases hp with rfl | rfl
  · refine ⟨decodable_of ?_ ?_ ?_, ?_, ⟨fun _ => ?_, fun h => absurd h ?_, fun h => absurd h ?_⟩, binds_of ?_, ?_, ?first, journalled_of ?_ ?_⟩
    case first =>
      refine ⟨fun h => absurd h ?_, fun _ => ⟨fun h => absurd h ?_, fun _ => ⟨fun h => absurd h ?_, fun _ => ⟨fun h => absurd h ?_, fun _ =>
        ⟨fun h => absurd h ?_, fun _ => ⟨fun h => absurd h ?foot, fun _ => ⟨fun h => absurd h ?_, fun _ => ⟨fun h => absurd h ?frame, fun _ =>
          ⟨fun h => absurd h ?util, fun _ => ⟨fun h => absurd h ?demand, fun _ => rfl⟩⟩⟩⟩⟩⟩⟩⟩⟩⟩
      case foot =>
        rintro (⟨h, _⟩ | ⟨g, hg, _⟩ | ⟨h, _⟩)
        · exact absurd h (by decide +kernel)
        · exact absurd (List.length_pos_of_mem hg) (by decide +kernel)
        · exact absurd h (by decide +kernel)
      case util => exact fun h => h (by unfold Utilises; decide +kernel)
      case demand => exact fun h => h (by unfold Demand; decide +kernel)
      all_goals decide +kernel
    all_goals decide +kernel
  · refine ⟨decodable_of ?_ ?_ ?_, ?_, ⟨fun _ => ?_, fun h => absurd h ?_, fun h => absurd h ?_⟩, binds_of ?_, ?_, ⟨fun h => absurd h ?_, fun _ => ⟨fun _ => rfl, fun h => absurd ?_ h⟩⟩,
      journalled_of ?_ ?_⟩ <;> decide +kernel

/-- Nine buffers, the ninth behind BINDX. -/
def bindsBody : List Byte := blob 128 [(0, 1, 1), (0x11, 1, 9), (0x38, 8, DEV + 0x6000)]

theorem wit_LaunchesAreDecided_binds : BindsRead (decoding bindsBody) ⟨0, bindsBody, qd 1⟩ (List.replicate 8 0) := by
  unfold BindsRead
  rw [if_neg (by decide +kernel)]
  exact .inl (by decide +kernel)

/-- Any queue's record of a packet goes into the journal, in the recovery state on its way only; a queue whose EN is set again. -/
theorem wit_QueuesFetchAndDecode_journal :
    (∀ b ∈ [nopBody, launchBody, List.replicate 128 0], ∃ u, Journalled (decoding b) (rec0 b (rejCode (decoding b) 0 ⟨0, b, qd 1⟩) 0 none) u) ∧
    (∃ u, Journalled { decoding nopBody with sys := { (decoding nopBody).sys with state := 2 } } (rec0 nopBody 7 0 none) u) ∧
    (let s := withQueue (world 1 []) (fun k => { k with desc := { k.desc with en := false } }); (s.queue 0).desc.en = false ∧
      s.look 0 s.sys.qtab.toNat 64 = .ok (qdescBytes 1) ∧ (parseQueue (qdescBytes 1)).en = true ∧
      ringReads s (parseQueue (qdescBytes 1)).wake 8 (List.replicate 8 0) = true) := by
  refine ⟨fun b hb => journalled_of ?_ ?_, ⟨_, .inl ⟨rfl, rfl⟩⟩, ?_⟩ <;> first | decide +kernel | (revert b; decide +kernel)

theorem wit_QueuesFetchAndDecode :
    (let s := world 1 [(0x3000, leBytes 8 5)]; Current s 0 ∧ (s.queue 0).desc.en = true ∧
      Reads s (ringOf 0) (s.queue 0).desc.asid (s.queue 0).desc.wake 8 (leBytes 8 5)) ∧
    (let s := world 0 [(0x3000, leBytes 8 5)]; Current s 0 ∧ (s.queue 0).desc.en = false ∧ (s.queue 0).stopped = false ∧
      (s.qdesc 0).asid ≠ 0 ∧ s.look (s.qdesc 0).asid (s.qdesc 0).wake 8 = .ok (leBytes 8 5)) ∧
    (let s := withQueue (decoding nopBody) (fun k => { k with stopped := true }); nowEn s = true ∧ (s.queue 0).stopped = true) ∧
    (Current badWake 0 ∧ (badWake.queue 0).desc.en = true ∧ badWake.pending (ringOf 0) = false ∧
      badWake.look (badWake.queue 0).desc.asid (badWake.queue 0).desc.wake 8 = .fail (DEV + 2 ^ 54) ∧ DEV + 2 ^ 54 < 2 ^ 64 ∧
      badWake.viewAt (badWake.queue 0).desc.asid (DEV + 2 ^ 54) = none ∧
      badWake.xlat (badWake.queue 0).desc.asid (DEV + 2 ^ 54) true false none = .fail 1) ∧
    (Current available 0 ∧ (available.queue 0).stopped = false ∧ available.sys.state ≠ 0 ∧ (available.twigOf 0).isSome = true ∧
      (available.queue 0).fenced = false ∧ (available.queue 0).ahead < 8 ∧ (available.queue 0).nextSeq = 0 ∧
      8 ≤ 2 ^ (available.queue 0).desc.log2n ∧
      Reads available (ringOf 0) (available.queue 0).desc.asid (available.queue 0).desc.pring 128 (List.replicate 128 0)) ∧
    ((world 1 []).queue 0).producer = ((world 1 []).queue 0).nextSeq ∧
    (∀ b ∈ [nopBody, launchBody, List.replicate 128 0], let s := decoding b; nowEn s = true ∧ (s.queue 0).fetched = [⟨0, b, qd 1⟩] ∧
      s.sys.takeover = false ∧ (s.queue 0).slotChange = false ∧ (s.queue 0).stopped = false ∧ s.journal.length < 8192 ∧
      s.sys.decided ≤ s.fabric ∧ ¬ 8 < nbind b ∧ ((s.partLooks 0).all (fun x => match x with | .ok _ => true | _ => false) = true ∧
        leAt b 0 1 ≠ 0x0A) ∧ (s.sys.state ≠ 2 ∧ isDev s.sys.jrnl.toNat = true)) ∧
    (rejCode (decoding nopBody) 0 ⟨0, nopBody, qd 1⟩ = 0 ∧ rejCode (decoding launchBody) 0 ⟨0, launchBody, qd 1⟩ = 0 ∧
      rejCode (decoding (List.replicate 128 0)) 0 ⟨0, List.replicate 128 0, qd 1⟩ = 0x0B) ∧
    (Current decidedLate 0 ∧ decidedLate.fabric < decidedLate.sys.decided ∧
      rejCode decidedLate 0 ⟨0, launchBody, qd 1⟩ = 0) ∧
    (match exec .packetDecode (decoding launchBody) with | .next t => (t.queue 0).pkts.map (·.rej) | _ => []) = [0] := by
  refine ⟨⟨current_of ?_, ?_, reads_of ?_⟩, ⟨current_of ?_, ?_⟩, ?_, ⟨current_of ?_, ?_⟩,
    ⟨current_of ?_, ?_, ?_, ?_, ?_, ?_, ?_, ?_, reads_of ?_⟩, ?_, ?_, ?_, ⟨current_of ?_, ?_, ?_⟩, ?_⟩
  all_goals decide +kernel

/-- A head packet, from its parts. -/
theorem headPkt_of {s : State} {q ty : Nat} {p : Pkt} (h : s.sys.state ≠ 2 ∧ (s.queue q).pkts = [p] ∧ p.status = none ∧ pktType p.body = ty) :
    HeadPkt s q ty p := ⟨h.1, [], h.2.1, h.2.2.1, h.2.2.2, fun _ x => absurd x List.not_mem_nil⟩
/-- A packet of queue 0 with a body, started at DTC 0 or not. -/
def pk (b : List Byte) (started : Bool) : Pkt := { pktOf 0 b with desc := qd 9, started := started }
/-- The device with that packet at the head of queue 0, at a time. -/
def packet (l : List (Nat × List Byte)) (p : Pkt) (now : Nat) : State := atTime (withQueue (world 9 l) (fun k => { k with pkts := [p] })) now
/-- A WAITV for the value x at OFF 0x6000, time-out 10. -/
def waitvBody (x : Nat) : List Byte := blob 128 [(0, 1, 4), (0x10, 8, DEV + 0x6000), (0x18, 8, 2 ^ 64 - 1), (0x20, 8, x), (0x30, 8, 10)]
/-- A DEPEND on entry s of queue 1, time-out 10. -/
def dependBody (s : Nat) : List Byte := blob 128 [(0, 1, 7), (0x10, 2, 1), (0x12, 2, s), (0x18, 8, 10)]
/-- A WRITEV of eight bytes at OFF 0x6000, store or add, and a TIMESTAMP there. -/
def writevBody (op : Nat) : List Byte := blob 128 [(0, 1, 5), (0x10, 8, DEV + 0x6000), (0x18, 8, 9), (0x20, 1, 8), (0x21, 1, op)]
/-- A TIMESTAMP at OFF 0x6000. -/
def stampBody : List Byte := blob 128 [(0, 1, 8), (0x10, 8, DEV + 0x6000)]
/-- The request of a packet of queue 0. -/
def pktReq (b : List Byte) (k : RKind) : Req := cpReq (.pkt 0) 1 k (leAt b 0x10 8)
/-- The device whose packet with body b starts at DTC now. -/
def starts (b : List Byte) (now : Nat) : State := startPkt (packet [] (pk b false) now) 0 (pk b false)

theorem wit_StreamPacketsRun :
    (HeadPkt (packet [] (pk (blob 128 [(0, 1, 6)]) false) 0) 0 0x06 (pk (blob 128 [(0, 1, 6)]) false) ∧
      HeadPkt (packet [] (pk nopBody false) 0) 0 0x0C (pk nopBody false)) ∧
    (∀ x ∈ [5, 6], ∀ b : Bool, ∀ now ∈ [10, 11], let p := pk (waitvBody x) b; let s := packet [(0x6000, leBytes 8 5)] p now;
      s.sys.state ≠ 2 ∧ (s.queue 0).pkts = [p] ∧ p.status = none ∧ pktType p.body = 4 ∧ p.failed = false ∧
      (startPkt s 0 p).pending (.pkt 0) = false ∧ (startPkt s 0 p).look p.desc.asid (leAt p.body 0x10 8) 8 = .ok (leBytes 8 5) ∧ leAt p.body 0x30 8 = 10 ∧ p.startDtc = 0 ∧ s.now = now) ∧
    (let p := pk (blob 128 [(0, 1, 4), (0x10, 8, 0x6000)]) true; isDev (leAt p.body 0x10 8) = false) ∧
    (∀ e ∈ [65535, 0], ∀ b : Bool, let p := pk (dependBody e) b; let s := packet [] p 10; (s.queue 0).pkts = [p] ∧ p.status = none ∧
      pktType p.body = 7 ∧ leAt p.body 0x10 2 < 4096 ∧
      decide (((s.queue 1).cidx + 2 * 65536 - 1 - leAt p.body 0x12 2) % 65536 < 32768) = decide (e = 65535)) := by
  refine ⟨⟨headPkt_of (by decide +kernel), headPkt_of (by decide +kernel)⟩, by decide +kernel, by decide +kernel, by decide +kernel⟩

/-- The write of a packet is performed where its address is presented. -/
theorem wit_StreamPacketsRun_writes :
    (let b := writevBody 0; ∃ l o, pktStores (packet [] (pk b false) 0) (pk b false) .writevStore = some (5, .write (leBytes 8 9), 0) ∧
      HeadPkt (packet [] (pk b false) 0) 0 5 (pk b false) ∧ Lies (starts b 0) (pktReq b (.write (leBytes 8 9))) none 0 (fun i => 0x6000 + i) ∧
      newBytes (pktReq b (.write (leBytes 8 9))) (List.replicate 8 0) = some l ∧ l.length = 8 ∧
      ((starts b 0).home 0).put ((List.range l.length).map (fun j => (0x6000 + j, l.getD j 0))) = (o, true)) ∧
    (let b := writevBody 1; ∃ l, pktStores (packet [] (pk b false) 0) (pk b false) .writevAdd = some (5, .atomic 8 0 9, 0) ∧
      Lies (starts b 0) (pktReq b (.atomic 8 0 9)) none 0 (fun i => 0x6000 + i) ∧
      newBytes (pktReq b (.atomic 8 0 9)) (List.replicate 8 0) = some l ∧ l.length = 8) ∧
    (∃ x, pktStores (packet [] (pk stampBody false) 7) (pk stampBody false) .timestamp = some (8, .write (leBytes 8 7), x) ∧
      Lies (starts stampBody 7) (pktReq stampBody (.write (leBytes 8 7))) none 0 (fun i => 0x6000 + i)) := by
  obtain ⟨o, ho⟩ := renew_some (h := (starts (writevBody 0) 0).home 0)
    (f := fun m => putCells m ((List.range 8).map (fun j => (0x6000 + j, (leBytes 8 9).getD j 0))))
    (ls := leavesOf ((List.range 8).map (fun j => (0x6000 + j, (leBytes 8 9).getD j 0)))) (by decide +kernel)
  refine ⟨⟨leBytes 8 9, o, ?_, headPkt_of ?_, lies_of (plain_of ?_ nofun) ?_, rfl, rfl, ho⟩,
    ⟨_, ?_, lies_of (plain_of ?_ nofun) ?_, rfl, ?_⟩, 7, ?_, lies_of (plain_of ?_ nofun) ?_⟩ <;> decide +kernel

/-- A SLOTLOAD of slot 0 with generation g: image of n bytes at OFF 0x100, table of w regions at OFF 0x7000. -/
def loadBody (g n w : Nat) : List Byte :=
  blob 128 [(0, 1, 2), (0x14, 4, g), (0x18, 8, DEV + 0x100), (0x20, 4, n), (0x24, 1, w), (0x28, 8, DEV + 0x7000)]
/-- The header of an image without tables, with one bundle. -/
def header : List Byte :=
  blob 0x80 [(0, 4, 0x4B565246), (4, 2, 0x100), (8, 2, 1), (0x0A, 1, 1), (0x0B, 1, 1), (0x10, 4, 100), (0x38, 4, 1), (0x40, 4, 0x80), (0x44, 4, 0x80),
    (0x48, 4, 0x80), (0x4C, 4, 0x80), (0x50, 4, 0x80), (0x54, 4, 0x880), (0x58, 4, 0x898)]
/-- Memory with that image, a weight region at OFF 32 MiB, and the tables of ASID 1 that map it, pinned and readable. -/
def slotMem : List (Nat × List Byte) :=
  [(0x100, header), (0x7000, leBytes 8 (DEV + 0x2000000) ++ leBytes 8 4096), (2 ^ 30 + 8, leBytes 8 0x10001), (0x10000, leBytes 8 0x11001),
   (0x11000, leBytes 8 0x12001), (0x12080, leBytes 8 0x13001), (0x13000, leBytes 8 0x200047)]

/-- Writing two lists in turn, and writing 0 past every listed byte. -/
theorem writeL_append (l r : List Byte) (m : Mem) (a : Nat) : m.writeL a (l ++ r) = (m.writeL a l).writeL (a + l.length) r := by
  induction l generalizing m a with
  | nil => rfl
  | cons b l ih => simp [Mem.writeL, ih, Nat.add_assoc, Nat.add_comm 1]
theorem writeL_zeros (n : Nat) (m : Mem) (a : Nat) (h : ∀ p ∈ m, p.1 < a) : m.writeL a (List.replicate n 0) = m := by
  induction n generalizing a with
  | zero => rfl
  | succ n ih =>
    have e : m.write a 0 = m := by
      simp only [Mem.write, SMap.set, if_pos, List.filter_eq_self]
      exact fun p hp => by have := h p hp; simp; omega
    rw [List.replicate_succ, Mem.writeL, e]
    exact ih (a + 1) (fun p hp => by have := h p hp; omega)

theorem wit_SlotsAndCompletions_load :
    (let p := pk (loadBody 0 0x898 0) false; let s := packet slotMem p 0; s.sys.state ≠ 2 ∧ (s.queue 0).pkts = [p] ∧ p.status = none ∧ pktType p.body = 2 ∧
      leAt p.body 0x14 4 = 0) ∧
    (let p := pk (loadBody 1 127 0) false; let s := packet slotMem p 0; let u := startPkt s 0 p; leAt p.body 0x14 4 ≠ (s.slot 0).gen ∧
      s.slotInUse 0 = false ∧ (s.slot 0).valid = false ∧ p.failed = false ∧ u.pending (.pkt 0) = false ∧
      u.look p.desc.asid (leAt p.body 0x18 8) 127 = .ok (header.take 127) ∧ u.look p.desc.asid (leAt p.body 0x28 8) 0 = .ok []) ∧
    (let p := pk (loadBody 1 0x898 1) false; let u := startPkt (packet slotMem p 0) 0 p; u.pending (.pkt 0) = false ∧
      u.look p.desc.asid (leAt p.body 0x28 8) 16 = .ok (leBytes 8 (DEV + 0x2000000) ++ leBytes 8 4096) ∧
      PinnedPage u p.desc.asid (DEV + 0x2000000) ∧ (∀ e < 4, (u.home e).used ≤ Config.poolChunks) ∧
      ¬ PinnedPage u p.desc.asid (DEV + 0x7000) ∧
      let im := header ++ List.replicate 0x818 0; u.look p.desc.asid (leAt p.body 0x18 8) 0x898 = .ok im ∧
      imgLen (Mem.writeL [] 0 im) = 0x898 ∧ imageBad (Mem.writeL [] 0 im) = false) := by
  have e : Mem.writeL [] 0 (header ++ List.replicate 0x818 0) = Mem.writeL [] 0 header := by
    rw [writeL_append, writeL_zeros _ _ _ (by decide +kernel)]
  refine ⟨by decide +kernel, by decide +kernel, by decide +kernel, by decide +kernel,
    ⟨0x200000, ⟨0x2000000, 4096, 0x200000, true, false, true, false⟩, by decide +kernel⟩, by decide +kernel, fun ⟨pa, l, h, _⟩ => ?_, by decide +kernel,
    by rw [e]; decide +kernel, by rw [e]; decide +kernel⟩
  have : (startPkt (packet slotMem (pk (loadBody 1 0x898 1) false) 0) 0 (pk (loadBody 1 0x898 1) false)).xlat 1 (DEV + 0x7000) true false none
      = .dev 0 0x7000 false := by decide +kernel
  exact absurd (this.symm.trans h) nofun

/-- A SLOTDROP of slot 0, generation 1. -/
def dropBody : List Byte := blob 128 [(0, 1, 3), (0x14, 4, 1)]
/-- A completed NOP with NOTIFY and STOPERR. -/
def donePkt (st : Byte) : Pkt := { pk (blob 128 [(0, 1, 0x0C), (1, 1, 3)]) true with status := some st }

/-- The request that writes the entry of a completed packet. -/
def entryReq (st : Byte) : Req :=
  cpReq (ringOf 0) 1 (.write (entryBytes (packet [] (donePkt st) 3) 0 (donePkt st) st 0)) (DEV + 0x5000)

theorem wit_SlotsAndCompletions :
    (let p := pk dropBody false; let s := packet [] p 0; HeadPkt s 0 3 p ∧ (s.slot 0).valid = false) ∧
    (let p := pk dropBody false; let s := (packet [] p 0).setSlot 0 { RSlot.start with valid := true, gen := 1, asid := 1 };
      HeadPkt s 0 3 p ∧ (s.slot 0).valid = true ∧ (s.slot 0).gen = leAt p.body 0x14 4 ∧ (s.slot 0).asid = p.desc.asid ∧ s.slotInUse 0 = false) ∧
    (∀ st ∈ [(0 : Byte), 5], let p := donePkt st; let s := packet [] p 3; (s.queue 0).pkts = [p] ∧ p.status = some st ∧ p.failed = false ∧
      s.sys.takeover = false ∧ (s.queue 0).stopped = false ∧ s.pending (.pkt 0) = false ∧ s.pending (ringOf 0) = false ∧
      ((s.queue 0).cidx + 65536 - s.cread 0) % 65536 ≠ 2 ^ p.desc.log2n ∧
      (match (ringWrite s 0 p.desc.asid (DEV + 0x5000) (entryBytes s 0 p st 0)).2 with | .ok l => l | _ => [0]) = []) ∧
    (let s := withQueue (packet [] (donePkt 0) 3) (fun k => { k with cidx := 8 });
      ((s.queue 0).cidx + 65536 - s.cread 0) % 65536 = 2 ^ (donePkt 0).desc.log2n) ∧
    (Lies (packet [] (donePkt 0) 3) (entryReq 0) none 0 (fun i => 0x5000 + i) ∧
      ∃ o, ((packet [] (donePkt 0) 3).home 0).put ((List.range 64).map (fun j =>
        (0x5000 + j, (entryBytes (packet [] (donePkt 0) 3) 0 (donePkt 0) 0 0).getD j 0))) = (o, true)) := by
  refine ⟨⟨headPkt_of ?_, ?_⟩, ⟨headPkt_of ?_, ?_⟩, ?_, ?_, lies_of (plain_of ?_ nofun) ?_, renew_some ?_⟩ <;> decide +kernel

/-- An INVAL (option a), or MIGRATE (dst home and frame), of n bytes at OFF lo for ASID 1. -/
def rangeBody (ty a lo n dst : Nat) : List Byte := blob 128 [(0, 1, ty), (0x10, 2, 1), (0x12, 1, a), (0x18, 8, DEV + lo), (0x20, 8, n), (0x28, 8, dst)]
/-- Pages of a weight region that a migration freezes, and what keeps an entry from its ring: a ring that does not translate, a page
that is not present, a request under way. -/
theorem wit_SlotsAndCompletions_waits :
    (let p := pk (loadBody 1 0x898 1) false; let s := packet slotMem p 0
      let s := s.setHome 0 { s.home 0 with migs := [⟨1, 0x2000000, 0x2001000, 0, 0x100000, false, 0⟩] }
      (startPkt s 0 p).xlat p.desc.asid (DEV + 0x2000000) true false none = .frozen 0) ∧
    (let p := { donePkt 0 with desc := { qd 9 with cring := DEV + 2 ^ 54 } }; let s := packet [] p 3
      (match (ringWrite s 0 p.desc.asid (p.desc.cring + 64 * (p.seq % 2 ^ p.desc.log2n)) (entryBytes s 0 p 0 0)).2 with | .fail => true | _ => false) = true) ∧
    (let s := withQueue (packet [] (donePkt 0) 3) (fun k => { k with cstop := true }); (s.queue 0).cstop = true) ∧
    (let s := { packet [] (donePkt 0) 3 with journal := [rec0 nopBody 0 0 none] }; (∃ j ∈ s.journal, j.q = 0 ∧ j.seq = (donePkt 0).seq ∧ j.complete = false) ∧
      s.pending (.pkt 0) = false) ∧
    (let s := packet [(2 ^ 30, leBytes 8 0x700001)] (donePkt 0) 3; let s := { s with sys := { s.sys with qtab := BitVec.ofNat 64 (DEV + 2 ^ 40) } }
      ∃ y, s.look 0 (s.sys.qtab.toNat + 0x2E) 2 = .absent y) := by
  refine ⟨?_, ?_, ?_, ?_, ⟨DEV + 2 ^ 40 + 0x2E, ?_⟩⟩ <;> decide +kernel

/-- The device with a started or new packet of queue 0 and home 0 changed. -/
def managed (l : List (Nat × List Byte)) (p : Pkt) (f : Home → Home) : State := let s := packet l p 5; s.setHome 0 (f (s.home 0))
/-- An entry of the migration of queue 0 that is not published yet. -/
def moving : Fwd := ⟨1, 0x8000, 0x9000, 0, 0x100000, false, 0⟩
/-- A BALLOON of one entry at OFF 0x6000, and a VIEWSET of view 2. -/
def balloonBody (w : Nat) : List Byte := blob 128 [(0, 1, 0x0B), (0x11, 1, w), (0x14, 4, 1), (0x18, 8, DEV + 0x6000)]
/-- A VIEWSET of view 2 of home 0. -/
def viewBody : List Byte := blob 128 [(0, 1, 0x0D), (0x11, 1, 2), (0x12, 1, 1), (0x14, 2, 1), (0x18, 8, DEV + 0x8000), (0x20, 5, 4096)]
/-- A valid view of ASID 1. -/
def oldView : View := { View.off with valid := true, asid := 1, abase := DEV + 0x8000, alen := 4096 }
/-- A request of job 0 of core 0 for ASID 1 at OFF 0x8040. -/
def heldReq (k : RKind) : Req := ⟨.job 0 0, 1, k, BitVec.ofNat 64 (DEV + 0x8040), false, 1, 0, false, 0, none, false, false, 0, false⟩
/-- The state managed so, its core 0 with a job that waits for its request. -/
def withAsker (s : State) : State := s.setCore 0 (jobbing asking).me

/-- Drained where nothing is held or forwarded. -/
theorem drained_of {s : State} {b : List Byte} (h : ∀ d < 4, (s.home d).exph = [] ∧ (s.home d).fwded = []) : Drained s b := by
  refine fun d hd => ⟨fun x hx => ?_, fun f hf => ?_⟩
  · rw [(h d hd).1] at hx; cases hx
  · rw [(h d hd).2] at hf; cases hf

theorem wit_PacketsManageMemory :
    (∀ a ∈ [0, 1, 2], let p := pk (rangeBody 9 a 0x8000 4096 0) false; HeadPkt (packet [] p 5) 0 9 p ∧ p.started = false ∧ leAt p.body 0x12 1 = a) ∧
    (let p := pk (rangeBody 9 2 0x8000 4096 0) false; let s := withAsker (managed [] p (fun h => { h with held := [heldReq (.read 4)] }))
      HeadPkt s 0 9 p ∧ heldReq (.read 4) ∈ (s.home (rangeHome p.body)).held ∧ hitsRange p.body (heldReq (.read 4)) = true ∧
      (∃ j, (s.core 0).job? 0 = some j ∧ j.buf = none)) ∧
    (let p := { pk (rangeBody 9 0 0x8000 4096 0) true with acks := [0] }; HeadPkt (packet [] p 5) 0 9 p ∧ 0 ∈ p.acks ∧ 1 ∉ p.acks ∧
      Drained (packet [] p 5) p.body) := by
  refine ⟨fun a ha => ⟨headPkt_of ?_, ?_⟩, ⟨headPkt_of ?_, ?_, ?_, ⟨asking, ?_⟩⟩, headPkt_of ?_, ?_, ?_, drained_of ?_⟩ <;>
    first | decide +kernel | (revert a; decide +kernel)

/-- A boundary's filter is formed anew where a footprint of its stand lies in the range; an entry of the side log is retried. -/
theorem wit_PacketsManageMemory_range :
    (let p := { pk (rangeBody 9 0 0x8000 4096 0) true with acks := [0] }
      let r := { oneRun with adm := { oneRun.adm with desc := { oneRun.adm.desc with asid := 1 } }, footR := [⟨true, (DEV + 0x8000) / 64, (DEV + 0x8000) / 64 + 1⟩] }
      let s := (packet [] p 5).setRun 0 (some r)
      s.runOf 0 = some r ∧ r.adm.desc.asid = rangeAsid p.body ∧ s.viewAt 1 (DEV + 0x8000) = none ∧
      s.xlat 1 (DEV + 0x8000) false false none = .dev 0 0x8000 false) ∧
    (let p := pk (rangeBody 9 1 0x8000 4096 0) false; let c := heldReq (.cells [(0, 7)])
      let s := withAsker (managed [] p (fun h => { h with slog := [c] })); let u := startPkt s 0 p
      HeadPkt s 0 9 p ∧ (u.home 0).slog = [c] ∧ (u.home 0).held = [] ∧ (u.core 0).job? 0 = some asking ∧
      (∀ d < 4, (u.home d).slog.length ≤ 4096) ∧ u.leafHeld (.dev 0 0x8040 false) = false ∧
      u.route 0 1 ((c.addr.toNat + 0) % 2 ^ 64) false true none = .dev 0 0x8040 false ∧ ∃ o, (u.home 0).put [(0x8040, 7)] = (o, true)) := by
  refine ⟨?_, headPkt_of ?_, ?_, ?_, ?_, ?_, ?_, ?_, renew_some ?_⟩ <;> decide +kernel

/-- Writing a cell lists at most one more. -/
theorem insert_length {α : Type} (l : List (Nat × α)) (k : Nat) (v : α) : (SMap.insert l k v).length ≤ l.length + 1 := by
  induction l with
  | nil => simp [SMap.insert]
  | cons p l ih => unfold SMap.insert; split <;> [skip; split] <;> (simp; try omega)
theorem putCells_length (l : List (Nat × Byte)) (m : Mem) : (putCells m l).length ≤ m.length + l.length := by
  induction l generalizing m with
  | nil => simp [putCells]
  | cons p l ih =>
    have hw : (m.write p.1 p.2).length ≤ m.length + 1 := by
      unfold Mem.write SMap.set
      split
      · exact Nat.le_succ_of_le (List.length_filter_le ..)
      · exact insert_length ..
    have := ih (m.write p.1 p.2)
    simp only [putCells, List.foldl_cons, List.length_cons] at this ⊢
    omega

/-- There are no more leaves than cells. -/
theorem leavesOf_length (l : List (Nat × Byte)) : (leavesOf l).length ≤ l.length := by
  have h : ∀ (n : Nat) (k : List Nat), k.length ≤ n → k.eraseDups.length ≤ k.length := by
    intro n
    induction n with
    | zero => intro k hk; simp [List.length_eq_zero_iff.mp (Nat.le_zero.mp hk)]
    | succ n ih =>
      intro k hk
      cases k with
      | nil => simp
      | cons a k =>
        have hf := List.length_filter_le (fun b => !b == a) k
        have := ih (k.filter (fun b => !b == a)) (by simp at hk; omega)
        simp only [List.eraseDups_cons, List.length_cons]
        omega
  simpa [leavesOf] using h _ (l.map (fun p => p.1 / 4096)) le_rfl

/-- Cells of one leaf, no table's, go into a home whose pool could hold them each in a leaf of its own. -/
theorem put_leaf {h : Home} {l : List (Nat × Byte)} {n : Nat} (hl : ∀ p ∈ l, p.1 / 4096 = n) (ht : h.isTable n = false)
    (hp : 8 * (h.mem.length + 2 * l.length + unionSize h.pins) ≤ Config.poolChunks) : ∃ o, h.put l = (o, true) := by
  have hm := putCells_length l h.mem
  have hs := leavesOf_length l
  have ht : ((leavesOf l).any fun x => h.isTable x) = false := by
    simp only [List.any_eq_false, leavesOf, List.mem_eraseDups, List.mem_map]
    rintro _ ⟨p, hq, rfl⟩
    simp [hl p hq, ht]
  refine renew_some ?_
  simp only [Home.encoded, ht, Bool.false_eq_true, if_false]
  omega

/-- A migration of one page is published where the pool can supply the page's chunks. -/
theorem publish_one {src t : State} {g : MmRange} {dh dp e pa n : Nat} {b : Bool} (hn : n = 1)
    (hx : src.xlat g.asid (g.va + 4096 * 0) false false none = .dev e pa b)
    (hp : ∃ o, (t.home dh).put ((Mem.readN (src.home e).mem pa 4096).zipIdx.map (fun b => (dp + 4096 * 0 + b.2, b.1))) = (o, true)) :
    ∃ u, (List.range n).foldl (fun (o : Option State) k => o.bind (fun t => copyPage src g dh dp t k)) (some t) = some u := by
  subst hn
  obtain ⟨o, ho⟩ := hp
  simp only [Nat.mul_zero, Nat.add_zero] at hx ho
  exact ⟨t.setHome dh o, by simp [copyPage, hx, ho]⟩

theorem wit_PacketsManageMemory_migrate :
    (let p := pk (rangeBody 10 0 0x8000 4096 0x100000) false; HeadPkt (packet [] p 5) 0 10 p ∧ p.started = false) ∧
    (let p := pk (rangeBody 10 0 0x8000 4096 0x100000) true; let s := managed [] p (fun h => { h with migs := [moving] }); HeadPkt s 0 10 p ∧
      Drained s p.body ∧ ((s.home 0).migs.filter (fun f => f.published)).length < 256 ∧
      (∀ k < leAt p.body 0x20 8 / 4096, (unfreeze s (mmRange p.body) 0).xlat (rangeAsid p.body) (leAt p.body 0x18 8 + 4096 * k) false false none =
        .dev 0 0x8000 false) ∧
      ∃ u, (List.range (leAt p.body 0x20 8 / 4096)).foldl (fun (o : Option State) k =>
        o.bind (fun t => copyPage (unfreeze s (mmRange p.body) 0) (mmRange p.body) 0 0x100000 t k)) (some (unfreeze s (mmRange p.body) 0)) = some u) ∧
    (let p := pk (rangeBody 10 0 0x2000000 4096 0x100000) true; let s := managed [] p (fun h => { h with migs := [{ moving with lo := 0x2000000, hi := 0x2001000 }] })
      HeadPkt s 0 10 p ∧ Drained s p.body ∧ (s.home 0).mighold.filter (fun r => hitsRange p.body r) = [] ∧ 0 < leAt p.body 0x20 8 / 4096 ∧
      (match (unfreeze s (mmRange p.body) 0).xlat (rangeAsid p.body) (leAt p.body 0x18 8) false false none with | .dev _ _ _ => false | _ => true) = true) := by
  refine ⟨⟨headPkt_of ?_, ?_⟩, ⟨headPkt_of ?_, drained_of ?_, ?_, ?_, publish_one (e := 0) (pa := 0x8000) (b := false) ?_ ?_ (put_leaf (n := 256) ?_ ?_ ?_)⟩,
    headPkt_of ?_, drained_of ?_, ?_⟩ <;> decide +kernel

/-- A migration that has published and waits for the forwarded requests, and one whose range an older forwarding entry leads on. -/
theorem wit_PacketsManageMemory_turns :
    (let p := { pk (rangeBody 10 0 0x8000 4096 0x100000) true with acks := [0] }; HeadPkt (packet [] p 5) 0 10 p ∧ p.acks ≠ [] ∧
      Drained (packet [] p 5) p.body) ∧
    (let p := pk (rangeBody 10 0 0x8000 4096 0x100000) true
      let s := managed [] p (fun h => { h with migs := [moving, ⟨1, 0x8000, 0x9000, 0, 0x8000, true, 1⟩], fwded := [⟨heldReq (.read 4), [some 0x8040]⟩] })
      ∃ k < 1, (unfreeze s (mmRange p.body) 0).xlat 1 (DEV + 0x8000 + 4096 * k) false false none = .behind) := by
  refine ⟨⟨headPkt_of ?_, ?_, drained_of ?_⟩, ⟨0, ?_⟩⟩ <;> decide +kernel

/-- A held request of a range keeps the home from acknowledging. -/
theorem wit_PacketsManageMemory_waits :
    ¬ Drained (managed [] (pk (rangeBody 9 0 0x8000 4096 0) true) (fun h => { h with exph := [⟨some (heldReq (.write [1])), [(0x8040, 1)], 1, 0, 0, 0⟩] }))
      (pk (rangeBody 9 0 0x8000 4096 0) true).body :=
  fun h => absurd ((h 0 (by decide)).1 _ (List.mem_singleton.mpr rfl) _ rfl) (by decide +kernel)

theorem wit_PacketsManageMemory_balloon :
    (∀ w ∈ [0, 1], ∀ listed : Bool, let p := pk (balloonBody w) false
      let s := managed [(0x6000, leBytes 8 0x8000)] p (fun h => { h with balloon := if listed then [8] else [] }); let u := startPkt s 0 p
      HeadPkt s 0 0x0B p ∧ p.failed = false ∧ leAt p.body 0x11 1 = (if decide (w = 0) then 0 else 1) ∧ leAt p.body 0x14 4 = 1 ∧
      (u.pending (.pkt 0) = false ∧ u.look p.desc.asid (leAt p.body 0x18 8) 8 = .ok (leBytes 8 0x8000)) ∧ ¬ ((u.home 0).commit ≤ 0x8000) ∧
      (u.home 0).isPinned 8 = false) ∧
    (let p := pk viewBody false; HeadPkt (packet [] p 5) 0 0x0D p) ∧
    (let p := { pk viewBody true with old := some oldView, startDtc := 5 }; HeadPkt (packet [] p 5) 0 0x0D p ∧ (∀ d < 4, ((packet [] p 5).home d).exph = [] ∧ ((packet [] p 5).home d).fwded = [])) ∧
    (let p := { pk viewBody true with old := some oldView, startDtc := 5 }
      let s := managed [] p (fun h => { h with exph := [⟨some { heldReq (.write [1]) with view := some oldView }, [(0x8040, 1)], 1, 0, 0, 5⟩] })
      HeadPkt s 0 0x0D p ∧ oldView.valid = true ∧ ∃ x ∈ (s.home 0).exph, x.since ≤ p.startDtc ∧ ∃ r, x.req = some r ∧ r.view = some oldView) := by
  refine ⟨fun w hw l => ⟨headPkt_of ?_, ?_⟩, headPkt_of ?_, ⟨headPkt_of ?_, ?_⟩, headPkt_of ?_, ?_, ⟨_, List.mem_singleton.mpr rfl, ?_, _, rfl, ?_⟩⟩ <;>
    first | decide +kernel | (revert w l; decide +kernel)

/-! ### Homes and the host -/

/-- Core 0 with a job that waits for its request, and home 0 changed. -/
def homeIn (f : Home → Home) : State :=
  let s := (jobbing asking).setHome 0 (f homeTlb)
  { s with obj := 0, sys := { s.sys with state := 1 } }
/-- A request of that job, forwarded with its bytes from 128 on. -/
def forwarded (k : RKind) : Fwded := ⟨reqOf k, (List.range k.len).map (fun i => some (128 + i))⟩
/-- A write of job 0 of core 0 that is held since DTC 0. -/
def heldWrite : ExpHold := ⟨some (reqOf (.write [1, 2])), [(64, 1), (65, 2)], 2, 0, 0, 0⟩
/-- Home 0 at DTC n, holding that write. -/
def holding (n : Nat) : State := atTime (homeIn (fun h => { h with exph := [heldWrite] })) n
/-- A write that needs more chunks than the pool has, with no leaf to take, waits. -/
theorem put_short {h : Home} {cells : List (Nat × Byte)} (hb : h.balloon = [])
    (hf : h.fits (h.encoded (putCells h.mem cells) (leavesOf cells)) (leavesOf cells) = false) : h.put cells = (h, false) := by
  have he : (h.encoded (putCells h.mem cells) (leavesOf cells)).balloon = [] := by
    unfold Home.encoded
    simp only [hb, List.filter_nil]
    split <;> simp [Home.repinned]
  have hh : ({ h with balloon := [] } : Home) = h := by cases h; cases hb; rfl
  simp [Home.put, Home.renew, hf, he, hh, Home.inflate]

/-- A home whose pool is full of pinned leaves, the first leaf not among them, nor its root table. -/
def fullPool (h : Home) : Home := { h with artb := 2 ^ 30, pins := [(1, 2 ^ 40)] }

/-- A new leaf finds no chunk where every other one is pinned. -/
theorem fullPool_put {h : Home} {cells : List (Nat × Byte)} (hm : h.mem = []) (hc : h.chunks = []) (ht : h.tables = []) (hb : h.balloon = [])
    (hl : leavesOf cells = [0]) (hu : uniform (leafBytes (putCells [] cells) 0) = false) : (fullPool h).put cells = (fullPool h, false) := by
  refine put_short hb ?_
  have hn : leafChunks (putCells [] cells) 0 ≠ 0 := by
    unfold leafChunks
    simp only [hu]
    simp
  have hs : unionSize [(1, 2 ^ 40)] = 2 ^ 40 - 1 := by decide +kernel
  have hi : (fullPool h).isTable 0 = false := by simp [Home.isTable, Home.isRoot, fullPool, ht]
  have he : ((fullPool h).encoded (putCells [] cells) [0]).used = leafChunks (putCells [] cells) 0 + 8 * (2 ^ 40 - 1) := by
    simp only [Home.encoded, List.any_cons, hi, List.any_nil, Bool.or_false, Bool.false_eq_true, if_false]
    simp only [List.foldl_cons, List.foldl_nil, SMap.set, if_neg hn, fullPool, hc, SMap.insert, Home.used, Home.isPinned, ← hs]
    simp
  have h0 : (fullPool h).used = 8 * (2 ^ 40 - 1) := by simp only [Home.used, fullPool, hc, ← hs]; simp
  rw [hl, show (fullPool h).mem = [] from hm]
  unfold Home.fits
  have hp : ((fullPool h).encoded (putCells [] cells) [0]).pins = [(1, 2 ^ 40)] := by
    unfold Home.encoded
    simp only [List.any_cons, hi, List.any_nil, Bool.or_false, Bool.false_eq_true, if_false]
    rfl
  rw [he, h0, hp, hs]
  rw [Bool.or_eq_false_iff]
  constructor <;> rw [decide_eq_false_iff_not] <;> simp only [Config.poolChunks] <;> omega

/-- The held write finds no chunk there. -/
theorem wit_HomesHoldAndServeTheHost_full :
    ((fullPool homeTlb).put heldWrite.cells).2 = false ∧ ((fullPool homeTlb).put [(64, 1)]).2 = false := by
  refine ⟨?_, ?_⟩ <;> rw [fullPool_put] <;> decide +kernel

theorem wit_HomesHoldAndServeTheHost :
    (∀ k ∈ [RKind.read 4, .write [1, 2, 3, 4], .atomic 4 0 1], ∀ bad ∈ [[], [129]], let f := forwarded k
      let s := homeIn (fun h => { h with fwded := [f], bad := bad })
      s.obj < 4 ∧ (s.home s.obj).fwded = [f] ∧ f.req.org = .job 0 0 ∧ f.req.replay = false ∧ f.req.view = none ∧ 0 < f.req.kind.len ∧
      ((s.core 0).job? 0).isSome = true ∧ (∀ d < 4, (s.home d).slog.length ≤ 4096) ∧
      f.pas = (List.range f.req.kind.len).map (fun i => some ((fun i => 128 + i) i)) ∧
      ∀ i < f.req.kind.len, (s.home s.obj).bad.contains (128 + i) = decide (bad = [129] ∧ i = 1) ∧
        s.leafHeld (.dev s.obj (128 + i) false) = false) ∧
    (newBytes (reqOf (.write [1, 2, 3, 4])) [0, 0, 0, 0] = some [1, 2, 3, 4] ∧
      ∃ o, ((homeIn (fun h => { h with fwded := [forwarded (.write [1, 2, 3, 4])] })).home 0).put
        ((List.range 4).map (fun i => (128 + i, [(1 : Byte), 2, 3, 4].getD i 0))) = (o, true)) ∧
    ((holding 0).home (holding 0).obj).exph = [heldWrite] ∧
    (∃ h, ({ (holding 0).home 0 with exph := [] } : Home).put heldWrite.cells = (h, true)) ∧
    (∃ r, heldWrite.req = some r ∧ r.org = .job 0 0 ∧ r.replay = false) ∧ ((holding 0).core 0).job? 0 = some asking ∧
    ((holding 999).nowAt 0 < heldWrite.since + 1000 * max 1 ((holding 999).home 0).holdlim ∧
      heldWrite.since + 1000 * max 1 ((holding (10 ^ 12)).home 0).holdlim ≤ (holding (10 ^ 12)).nowAt 0 ∧ asking.ended = none) ∧
    (let h := (homeIn id).home 0; h.loww ≤ h.free) ∧
    (let h := (homeIn (fun h => { h with loww := 0x40000000, balloon := [1], chunks := [(1, 8)] })).home 0; h.free < h.loww ∧ h.balloon.Nodup) := by
  refine ⟨?_, ⟨rfl, renew_some ?_⟩, rfl, renew_some ?_, ⟨_, rfl, rfl, rfl⟩, ?_⟩ <;> decide +kernel

/-- The host's accesses: to its own memory, and to OFF 64 of home 0, free, held by the filter of partition 0, and poisoned. -/
def served (up : Bool) (f : Home → Home) (flt : List (Nat × Nat × Nat)) : State :=
  let s := homeIn f
  { s.setPart 0 { Part.start with run := some { oneRun with filter := flt } } with sys := { s.sys with state := if up then 1 else 0, port0 := 16 } }
/-- A host address of OFF 64 of home 0. -/
def hostAddr : Nat := State.reset.sys.hdmb + 64
/-- A host write of partition 0 at that address. -/
def hw : Ingress := ⟨[0], false, 64, [1]⟩
/-- The device with a filter on that line, and with 4,096 held writes. -/
def ingressFull : State := served true (fun h => { h with ingress := List.replicate 4096 hw }) [(0, 64, 128)]

theorem wit_HomesHoldAndServeTheHost_host :
    (let s := { homeIn id with sys := { (homeIn id).sys with pageReqs := [(3, 5)] } }; (3, 5) ∈ s.sys.pageReqs) ∧
    ((served true id []).window (2 ^ 50) = none ∧ (served true id []).window hostAddr = some (0, 64) ∧ (served true id []).portUp false = true ∧
      (homeIn id).portUp false = false ∧ (homeIn id).window hostAddr = some (0, 64)) ∧
    ((served false id []).sys.state ≠ 1 ∧ (served false id []).window hostAddr = some (0, 64) ∧ (served false id []).portUp false = true) ∧
    ((served true id []).sys.state = 1 ∧ 64 + [hw].length ≤ ((served true id []).home 0).commit ∧ 64 % 64 + [hw].length ≤ 64) ∧
    ((served true id [(0, 64, 128)]).holders 0 (64 / 64) ≠ [] ∧ (served true id [(0, 64, 128)]).ingressUsed false < 4096 ∧
      ingressFull.holders 0 (64 / 64) ≠ [] ∧ 4096 ≤ ingressFull.ingressUsed false) ∧
    ((served true id []).holders 0 (64 / 64) = [] ∧ ((served true id []).home 0).ingress = [] ∧
      (served true id []).leafHeld (.dev 0 64 false) = false ∧ ((served true id []).home 0).exph.length < 256) ∧
    (∃ o, ((served true id []).home 0).put ((List.range 1).map (fun i => (64 + i, [(1 : Byte)].getD i 0))) = (o, true)) ∧
    (∀ i < 4, (served true id []).leafHeld (.dev 0 (64 + i) false) = false ∧ ((served true id []).home 0).bad.contains (64 + i) = false) ∧
    (∃ i < 4, ((served true (fun h => { h with bad := [65] }) []).home 0).bad.contains (64 + i) = true) := by
  refine ⟨?_, ?_, ?_, ?_, ?_, ?_, renew_some ?_, ?_⟩ <;> decide +kernel

/-- A line of a root table, and a home whose requests wait in the recovery state. -/
theorem wit_HomesHoldAndServeTheHost_root : (let s := served true id []; s.ingressUsed false < 4096 ∧ s.holders 0 (2 ^ 30 / 64) = [] ∧
      (s.home 0).ingress = [] ∧ (s.home 0).isRoot (2 ^ 30 / 4096) = true) ∧
    (let s := { holding 5 with sys := { (holding 5).sys with state := 2 } }; s.sys.state = 2 ∧ (s.home 0).exph ≠ []) := by
  refine ⟨?_, ?_⟩ <;> decide +kernel

/-- A held read of a page that the host has been asked for. -/
theorem wit_HomesHoldAndServeTheHost_ats :
    let r : Req := { reqOf (.read 4) with addr := BitVec.ofNat 64 (4096 * 5) }
    let s := { homeIn (fun h => { h with held := [r] }) with pasids := [(0, 4)] }
    r ∈ (s.home 0).held ∧ SMap.get s.pasids 0 r.asid = 3 + 1 ∧ r.touches r.asid (4096 * 5) (4096 * 5 + 4096) = true ∧ r.replay = false ∧
      (s.core 0).job? 0 = some asking ∧ asking.buf = none := by
  decide +kernel

/-! ### The module -/

/-- The machine after reset with its system registers replaced. -/
def sysAt (f : Sys → Sys) : State := { State.reset with sys := f Sys.start }
/-- The write of a value to the wake word of queue 0. -/
def wakeReq (v : Word) : Req := cpReq (ringOf 0) 1 (.write (leBytes 8 v.toNat)) (DEV + 0x3000)

theorem wit_HostRegisters :
    ((sysAt (fun y => { y with state := 2 })).sys.state = 2 ∧ (sysAt id).sys.state ≠ 2 ∧ (sysAt id).anyPart = false ∧
      (world 1 []).sys.state ≠ 2 ∧ (partState (partRun oneRun)).anyPart = true ∧ (sysAt id).obj = 0) ∧
    (Current (world 1 []) 0 ∧ ((world 1 []).queue 0).desc.en = true ∧ ((world 1 []).queue 0).desc.asid = 1 ∧
      ((world 1 []).queue 0).desc.wake = DEV + 0x3000) ∧
    (Current (world 0 []) 0 ∧ ((world 0 []).queue 0).desc.en = false ∧ ((world 0 []).qdesc 0).wake = DEV + 0x3000) ∧
    Lies (world 1 []) (wakeReq 3) none 0 (fun i => 0x3000 + i) ∧
    (∃ o, ((world 1 []).home 0).put ((List.range 8).map (fun i => (0x3000 + i, (leBytes 8 3).getD i 0))) = (o, true)) ∧
    ((∀ p ∈ (sysAt id).parts, p.2.run = none) ∧ (∃ p ∈ (partState (partRun oneRun)).parts, p.2.run ≠ none) ∧
      (sysAt (fun y => { y with atstat := 1 })).sys.atstat = 1 ∧ (sysAt id).sys.atstat ≠ 1 ∧ (sysAt id).sys.otk < 2 ^ 20 ∧
      2 ^ 20 ≤ (sysAt (fun y => { y with otk := 2 ^ 20 })).sys.otk) := by
  refine ⟨?_, ⟨current_of ?_, ?_⟩, ⟨current_of ?_, ?_⟩, lies_of (plain_of ?_ nofun) ?_, renew_some ?_, ?_⟩ <;> decide +kernel

/-- The values that the LIM field of COMMIT takes: 512 GiB, 16 TiB less 1 GiB and 0, not 1 GiB less nor what is no multiple. -/
theorem wit_HostRegisters_commit :
    (∀ v ∈ [2 ^ 39, 2 ^ 44 - 2 ^ 30, 2 ^ 44 + 2 ^ 39], v % 2 ^ 44 % 2 ^ 30 = 0 ∧ 2 ^ 39 ≤ v % 2 ^ 44) ∧ (2 ^ 63) % 2 ^ 44 = 0 ∧
    ∀ v ∈ [2 ^ 39 - 2 ^ 30, 2 ^ 39 + 4096], v % 2 ^ 44 ≠ 0 ∧ (v % 2 ^ 44 % 2 ^ 30 ≠ 0 ∨ v % 2 ^ 44 < 2 ^ 39) := by decide +kernel

/-- A mailbox with a command. -/
def mailbox (st : Nat) (c n : Nat) : State := sysAt (fun y => { y with state := st, mstat := 1, cmd := BitVec.ofNat 64 c, arg := BitVec.ofNat 64 n })
/-- A boot or recovery state with the contents of the flash free is of one of the two kinds: which, the signatures tell. -/
theorem wit_BootAndRecovery :
    (∀ st ∈ [1, 2], ∀ c ∈ [1, 2, 3, 4, 5], ∀ n ∈ [0, 1, 2, 3], let s := mailbox st c n; s.sys.mstat = 1 ∧ s.sys.running = none ∧
      s.sys.cmd.toNat = c ∧ s.sys.arg.toNat = n ∧ s.sys.state = st ∧ s.sys.fwB.toNat = 0) ∧
    (let s := { mailbox 1 2 0 with sys := { (mailbox 1 2 0).sys with erased := some 1, flashB := List.replicate 0x10000 0 } };
      s.sys.erased = some 1 ∧ s.sys.arg.toNat + 0x10000 ≤ (region s.sys 1).length) ∧
    (mailbox 1 2 0).sys.erased = none ∧
    (let s := sysAt (fun y => { y with mstat := 1, running := some ⟨true⟩ }); s.sys.mstat = 1 ∧ s.sys.running = some ⟨true⟩) ∧
    (sysAt id).sys.state = 0 ∧
    ((∃ b, Config.configAuthentic (sysAt id).sys.flashC = true ∧ bootsFrom (sysAt id) b) ∨
      Config.configAuthentic (sysAt id).sys.flashC = false ∨
        (¬ slotRuns (sysAt id) (sysAt id).sys.flashA ∧ ¬ slotRuns (sysAt id) (sysAt id).sys.flashB)) ∧
    (∀ e, ((sysAt id).home e).ingress = []) ∧
    (∀ replay : Bool, ∃ r k, let s := parkedState 0 false replay .running; s.runOf 0 = some r ∧ r.adm.desc.replayable = replay ∧
      s.pkt? r.adm.q r.adm.seq = some k ∧ leAt k.body 0 1 = 1) := by
  refine ⟨by decide +kernel, ⟨rfl, ?_⟩, rfl, ⟨rfl, rfl⟩, rfl, ?_, fun e => ?_, ?_⟩
  · show 0 + 0x10000 ≤ (List.replicate 0x10000 (0 : Byte)).length
    exact le_of_eq List.length_replicate.symm
  · by_cases c : Config.configAuthentic (sysAt id).sys.flashC = true
    · by_cases a : slotRuns (sysAt id) (sysAt id).sys.flashA
      · by_cases b : bootsFrom (sysAt id) false
        · exact .inl ⟨_, c, b⟩
        · refine .inl ⟨true, c, ?_⟩
          simp only [bootsFrom, Bool.false_eq_true, if_false, not_and, not_forall] at b
          obtain ⟨h1, h2⟩ := b a
          exact ⟨h1, fun _ => Nat.lt_of_not_le h2⟩
      · by_cases b : slotRuns (sysAt id) (sysAt id).sys.flashB
        · exact .inl ⟨true, c, b, fun h => absurd h a⟩
        · exact .inr (.inr ⟨a, b⟩)
    · exact .inr (.inl (by simpa using c))
  · show (SMap.get ([] : SMap Home) _ _).ingress = []
    rfl
  · exact fun b => ⟨_, _, rfl, rfl, rfl, by cases b <;> decide +kernel⟩

/-- The module with an event of type ty and payload. -/
def event (ty : Nat) (l : List Byte) : Ev := ⟨ty, 0, 3, 0, l⟩
/-- The module in fabric cycle 1 with events, its event ring at a host address of 2^50. -/
def eventful (l : List Ev) (f : Sys → Sys) : State :=
  { sysAt (fun y => f { y with events := l, evbase := BitVec.ofNat 64 (2 ^ 50 + 4) }) with fabric := 1 }
/-- EventTurn, as a fact that decides. -/
def mayGo (s : State) (i : Nat) (e : Ev) : Bool :=
  let stays (x : Ev) : Prop := s.sys.takeover = true ∧ (x.ty = 2 ∨ x.ty = 3)
  let place (y : Ev) : Nat := if y.stop = 0xFF then 0 else y.stop
  let first (x y : Ev) : Prop := x.fc < y.fc ∨ (x.fc = y.fc ∧ (place x < place y ∨ (place x = place y ∧ x.src < y.src)))
  decide (e.fc < s.fabric ∧ ¬ stays e ∧ (∀ x ∈ s.sys.events, ¬ stays x → ¬ first x e) ∧ ∀ x ∈ s.sys.events.take i, ¬ stays x → first e x)

theorem eventTurn_of {s : State} {i : Nat} {e : Ev} (h : mayGo s i e = true) : EventTurn s i e := by
  unfold mayGo at h
  rw [decide_eq_true_eq] at h
  exact h

theorem wit_TheModuleRuns :
    (∀ ty ∈ [1, 2], let s := eventful [event ty []] id; s.sys.events[s.obj]? = some (event ty []) ∧ (s.sys.evprod - s.sys.evcons).toNat ≠ 16 ∧
      s.sys.evbase.toNat % 32 = 4 ∧ mayGo s s.obj (event ty []) = true ∧ s.sys.msixSent = 0 ∧ s.window (2 ^ 50 / 4096 * 4096 + 32 * 0) = none) ∧
    (let s := eventful [{ event 1 [] with stop := 3 }, event 2 []] id; mayGo s 1 (event 2 []) = true ∧ ¬ EventTurn s 0 { event 1 [] with stop := 3 }) ∧
    (let s := eventful [event 1 []] (fun y => { y with evprod := 16 }); (s.sys.evprod - s.sys.evcons).toNat = 16) ∧
    (let s := eventful [event 1 []] (fun y => { y with msixSent := 1 }); ¬ (s.sys.msixSent = 0 ∨ s.sys.msixLast + 2000 ≤ s.fabric)) ∧
    (let s := { parkedState 8 false false .running with
        sys := (eventful [event 2 (leBytes 2 0 ++ leBytes 2 0 ++ [8])] id).sys, fabric := 1 };
      s.sys.events[s.obj]? = some (event 2 (leBytes 2 0 ++ leBytes 2 0 ++ [8])) ∧
      ∃ r, s.runOf 0 = some r ∧ 0 % 512 ∈ r.cores ∧ (s.core 0).seq = .parked ∧ r.st = .running) ∧
    (let s := sysAt (fun y => { y with msixWait := true }); s.sys.msixWait = true ∧ s.sys.msixSent = 0) ∧
    ((sysAt id).now < (sysAt id).sys.window0 + 10000) ∧ (let s := atTime (sysAt id) 10000; s.sys.window0 + 10000 ≤ s.now) ∧
    (∀ g ∈ List.replicate 64 16, 1 ≤ g ∧ g ≤ 16) ∧ (∀ d < 64, 16 ≤ ((sysAt id).die d).grant) ∧
    (∃ d < 64, (({ sysAt id with dies := [(3, { (sysAt id).die 3 with grant := 4 })] } : State).die d).grant < 16) ∧
    (∀ l < 16, SMap.get (sysAt (fun y => { y with links := [] })).sys.links false l = false) ∧
    (∃ l < 16, SMap.get (sysAt (fun y => { y with links := [(0, true)] })).sys.links false l = true) ∧
    (∀ b : Bool, let s := sysAt (fun y => { y with activeB := false, bole1 := b }); (if s.sys.activeB then s.sys.bole0 else s.sys.bole1) = b) ∧
    (let s := sysAt (fun y => { y with takeover := true, state := 1 }); s.sys.takeover = true ∧ s.sys.state = 1) ∧ (sysAt id).sys.takeover = false ∧
    ((sysAt id).obj < 4 ∧ ((sysAt id).home 0).summed = none) ∧
    (let s := (sysAt id).setHome 0 { Home.start with summed := some 0 }; (s.home s.obj).summed = some 0 ∧ s.now < 0 + 1000000000) := by
  refine ⟨?_, ⟨?_, fun h => h.2.2.1 (event 2 []) (List.mem_cons_of_mem _ (List.mem_singleton.mpr rfl)) (fun h => nomatch h.1) (.inr ⟨rfl, .inl ?_⟩)⟩,
    ?_, ?_, ⟨?_, parkedRun 8 false false .running, ?_⟩, ?_, ?_, ?_, ?_, ?_, ⟨3, ?_⟩, ?_, ⟨0, ?_⟩, ?_⟩ <;> decide +kernel

/-- Requests of core 0 to another module wait at links 0 and 1 of its face, or core 0 waits for the answer to one. -/
theorem wit_TheModuleRuns_links :
    let r : Req := { reqOf (.read 8) with addr := BitVec.ofNat 64 (DEV + 2 ^ 56), pgid := 1, fixed := true }
    let s (l : List (Nat × Bool)) (k : Nat) : State :=
      { ({ jobbing asking with sys := { Sys.start with links := l } } : State).setStop (68 + k) { Stop.start with wait := [⟨1, .req r⟩] } with obj := k }
    (let s := s [(0, true), (1, true)] 1; s.obj < 16 ∧ SMap.get s.sys.links false 0 = true ∧ 0 ≠ s.obj ∧ 0 / 4 = s.obj / 4 ∧
      ∀ l < 16, l / 4 = s.obj / 4 → ∀ f ∈ (s.stop (68 + l)).wait, ∀ r, f.load = .req r → r.exit = s.obj / 4) ∧
    (let s := s [(0, true)] 0; s.uses = [] ∧ (∀ l < 16, l ≠ s.obj → l / 4 = s.obj / 4 → SMap.get s.sys.links false l = false) ∧
      0 / 8 / 16 = s.obj / 4 ∧ (⟨1, .req r⟩ : Flit) ∈ (s.stop (68 + s.obj)).wait ∧ r.org = .job 0 0 ∧ (s.core 0).job? 0 = some asking) ∧
    (let s : State := { jobbing asking with sys := { Sys.start with links := [(0, true)] } };
      (s.core 0).job? 0 = some asking ∧ asking.asked = true ∧ asking.ended = none ∧ s.pending (.job 0 0) = false ∧ s.pending (.coll 0 0) = false) := by
  intro r s
  refine ⟨⟨?_, ?_, ?_, ?_, fun l hl hd f hf => ?_⟩, ?_, ?_⟩
  · decide +kernel
  · decide +kernel
  · decide +kernel
  · decide +kernel
  · have : l = 0 ∨ l = 1 ∨ l = 2 ∨ l = 3 := by
      have : l / 4 = 1 / 4 := hd
      omega
    obtain rfl | rfl | rfl | rfl := this
    · exact absurd hf (by show f ∉ ([] : List Flit); exact List.not_mem_nil)
    · have : f = ⟨1, .req r⟩ := List.mem_singleton.mp hf
      subst this
      intro q hq
      obtain rfl : r = q := by simpa using hq
      decide +kernel
    · exact absurd hf (by show f ∉ ([] : List Flit); exact List.not_mem_nil)
    · exact absurd hf (by show f ∉ ([] : List Flit); exact List.not_mem_nil)
  · decide +kernel
  · decide +kernel

/-! ### The whole machine -/

/-- The largest and the smallest data that FloatRules and BlockRules tell apart: a NaN that signals, the infinities, the zeros, a
subnormal and the integers of f2i's range. -/
theorem wit_FloatRules : snan 0x7F800001 = true ∧ nan 0x7FC00000 = true ∧ snan 0x7FC00000 = false ∧ inf 0xFF800000 = true ∧
    zero 0x80000000 = true ∧ zero 1 = false ∧ nan 0x7F7FFFFF = false ∧ inf 0x7F7FFFFF = false ∧ ranks 0x80000000 0 = true ∧
    ranks 0 0x80000000 = false ∧ (WLane.zero.addFp false 0x3F800000).1.x = BitVec.ofNat 320 (2 ^ 149) ∧
    laneOf WLane.zero (2 ^ 319) = ({ WLane.zero with x := BitVec.ofInt 320 (2 ^ 319 - 1), satf := true }, fOF) := by decide

/-- 06_vector.md R185, the worked example: 4.0 under the explicit scale 0.5, by RESCALE and by SAT. -/
theorem test_block_example : (let q (cfg : BitVec 5) := quantise false cfg ((0x40800000 :: List.replicate 31 0 : List (BitVec 32)).map (qElOf false)) 0x1F8
    ((q 0x0C).altm * 2048 + (q 0x0C).scale, (q 0x0C).codes.head?, (q 0x0C).flags) = (0x69F9, some 8, fNX) ∧
    ((q 0x0E).altm * 2048 + (q 0x0E).scale, (q 0x0E).codes.head?, (q 0x0E).flags) = (0x79F8, some 8, fNX ||| fQX)) := by decide +kernel

theorem wit_BlockRules : blockLen false = 18 ∧ blockLen true = 34 ∧ headerOf true ⟨0, 0, 0, 0, 0, 0, 0⟩ 0 5 = 5 ∧
    special ⟨0, 0, BitVec.ofNat 4096 0x7F800000, 0, 0, 0, 0⟩ 0 = true ∧ special ⟨0, 0, BitVec.ofNat 4096 0x7F800000, 1, 0, 0, 0⟩ 0 = false := by
  decide +kernel

theorem wit_EncodingRoundTrip : (Instr.scaAdd ⟨3, .lit (-1)⟩).wf = true ∧ (∃ w, encode (.scaAdd ⟨3, .lit (-1)⟩) = some (1, w)) ∧
    (∃ i, decodeMove 0 0x0C4003 = some i) ∧ (List.replicate 8 (5 : BitVec 24)).length = 8 := by
  refine ⟨by decide, ⟨_, rfl⟩, ⟨_, rfl⟩, rfl⟩

/-- At reset every map is empty, and so canonical. -/
theorem reset_memoriesWf : State.reset.MemoriesWf := ⟨rfl, fun _ => ⟨rfl, rfl, rfl⟩⟩

theorem wit_MemoriesStayCanonical : State.reset.MemoriesWf ∧
    ∃ t, step { State.reset with agenda := [⟨0, 0, 0, 0, [], .step (.bar0RegisterWrite ⟨0x1030, 8⟩ 500)⟩] } = .next t :=
  ⟨reset_memoriesWf, _, rfl⟩

theorem wit_EngineFormsKeepTheRest : inEngines (.scaDivs (mv 3)) = true ∧ inEngines (.memLdb (mv 0)) = true ∧ inEngines .repeatEntry = true ∧
    divs.AtHead .sca (.scaDivs (mv 3)) (ent divs .sca) (.s 3) := ⟨rfl, rfl, rfl, atHead_of (by decide)⟩

theorem wit_FirmwareStateStaysLegal : State.reset.firmwareOk = true ∧ ∃ t, step { State.reset with agenda := [⟨0, 0, 0, 0, [], .step (.bar0RegisterWrite ⟨0x1030, 8⟩ 500)⟩] } = .next t := by
  refine ⟨by decide, _, rfl⟩

/-- The machine with one turn on its agenda. -/
def turn (s : State) (w : What) : State := { s with agenda := [⟨0, 0, 1, 1, [], w⟩] }

theorem wit_StepRunsTheDecodedInstruction :
    (∀ w ∈ [What.step .powerOnBoot, .head .sca, .fetch], (turn divs w).agenda = [⟨0, 0, 1, 1, [], w⟩]) ∧
    (turn divs (.head .sca)).sys.clock.corr = 0 ∧ (∃ en q, ((turn divs (.head .sca)).enter ⟨0, 0, 1, 1, [], .head .sca⟩ []).me.q .sca = en :: q) ∧
    (let s := turn (placed (.moveSreg 0 (.s 7) ⟨0, .lit 5⟩)) .fetch; let e := s.enter ⟨0, 0, 1, 1, [], .fetch⟩ []
      ∃ w, w ≠ 0 ∧ bundleWords (e.me.code.readN (24 * e.me.pc) 24) = List.replicate 0 0 ++ w :: List.replicate 7 0 ∧
        decodeMove 0 w = some (.moveSreg 0 (.s 7) ⟨0, .lit 5⟩) ∧ isQueueTrig (.moveSreg 0 (.s 7) ⟨0, .lit 5⟩) = false) ∧
    (let s := turn divs .fetch; let e := s.enter ⟨0, 0, 1, 1, [], .fetch⟩ []
      (bundleWords (e.me.code.readN (24 * e.me.pc) 24)).countP (fun w => decide (w ≠ 0)) ≠ 1) ∧ State.reset.agenda = [] := by
  refine ⟨by decide, by decide, ⟨_, _, rfl⟩, ⟨0x003E05, by decide +kernel⟩, by decide +kernel, rfl⟩

end Sys2Proof.Tests
end

section
/-! The memory, homes and translations that a host write meets: what the bytes of a write read back as, and how a request that no
view transforms and whose bytes lie at one home is performed there. -/

namespace Sys2Proof.Machine

open Sys2Proof.Claims

/-! ### Bytes -/

@[simp] theorem leBytes_length (n v : Nat) : (leBytes n v).length = n := by simp [leBytes]

/-- The bytes of a write read back, where the range read is one that was written. -/
theorem Mem.readN_writeL_same (m : Mem) (a : Nat) (l : List Byte) : Mem.readN (m.writeL a l) a l.length = l := by
  refine List.ext_getElem (by simp [Mem.readN]) fun i hi hl => ?_
  simp [Mem.readN, Mem.read_writeL, hl]

theorem Mem.readN_writeL_leBytes (m : Mem) (a n v : Nat) : Mem.readN (m.writeL a (leBytes n v)) a n = leBytes n v := by
  simpa using Mem.readN_writeL_same m a (leBytes n v)

/-! ### Writes of translated bytes -/

@[simp] theorem State.home_watchEn (s : State) (xs : List (Xl × Byte)) (e : Nat) : (s.watchEn xs).home e = s.home e := rfl
@[simp] theorem State.cores_watchEn (s : State) (xs : List (Xl × Byte)) : (s.watchEn xs).cores = s.cores := rfl

/-- Bytes translated to addresses of one home: byte i of the first n of a list goes to pa i of home h. -/
def atDev (h : Nat) (pa : Nat → Nat) (pin : Nat → Bool) (l : List Byte) (n : Nat) : List (Xl × Byte) :=
  (List.range n).map (fun i => (.dev h (pa i) (pin i), l.getD i 0))

/-- The cells that those bytes write. -/
def devCells (pa : Nat → Nat) (l : List Byte) (n : Nat) : List (Nat × Byte) := (List.range n).map (fun i => (pa i, l.getD i 0))

section
variable {s : State} {h n : Nat} {pa : Nat → Nat} {pin : Nat → Bool} {l : List Byte}

theorem filter_atDev {f : Xl × Byte → Bool} (hf : ∀ i < n, f (.dev h (pa i) (pin i), l.getD i 0) = true) :
    (atDev h pa pin l n).filter f = atDev h pa pin l n := by
  refine List.filter_eq_self.mpr fun p hp => ?_
  obtain ⟨i, hi, rfl⟩ := List.mem_map.mp hp
  exact hf i (List.mem_range.mp hi)

theorem filterMap_atDev_none {β : Type} {f : Xl × Byte → Option β} (hf : ∀ a p b, f (.dev h a p, b) = none) :
    (atDev h pa pin l n).filterMap f = [] := by
  refine List.filterMap_eq_nil_iff.mpr fun p hp => ?_
  obtain ⟨i, -, rfl⟩ := List.mem_map.mp hp
  exact hf _ _ _

theorem cellsAt_atDev (h n : Nat) (pa : Nat → Nat) (pin : Nat → Bool) (l : List Byte) (e : Nat) :
    cellsAt e (atDev h pa pin l n) = if h = e then devCells pa l n else [] := by
  by_cases he : h = e <;> simp [cellsAt, atDev, devCells, List.filterMap_map, he]

/-- Bytes of no root table are all written (11_translation.md R301). -/
theorem offRoot_atDev (hr : ∀ i < n, (s.home h).isRoot (pa i / 4096) = false) :
    s.offRoot (atDev h pa pin l n) = atDev h pa pin l n :=
  filter_atDev fun i hi => by simp [hr i hi]

/-- Bytes at one home whose pool takes them: that home has the new content, nothing is refused. -/
theorem putXl_atDev {o : Home} (hh : h < 4) (hn : 0 < n) (hp : (s.home h).put (devCells pa l n) = (o, true)) :
    s.putXl (atDev h pa pin l n) = ((s.setHome h o).watchEn (atDev h pa pin l n), []) := by
  have hne : (devCells pa l n).isEmpty = false := by simp [devCells]; omega
  have hr : List.range 4 = [0, 1, 2, 3] := rfl
  have hput : ({ s with hostMem := putCells s.hostMem [] } : State) = s := rfl
  simp only [State.putXl, hr, List.foldl_cons, List.foldl_nil, cellsAt_atDev]
  rw [filterMap_atDev_none (fun _ _ _ => rfl), hput]
  obtain rfl | rfl | rfl | rfl : h = 0 ∨ h = 1 ∨ h = 2 ∨ h = 3 := by omega
  all_goals simp [hne, hp]

/-- Where no byte's leaf has a held write either, the write is done (11_translation.md R325). -/
theorem writeXl_atDev {o : Home} (req : Option Req) (fl : Byte) (m logs : Nat) (hh : h < 4) (hn : 0 < n)
    (hroot : ∀ i < n, (s.home h).isRoot (pa i / 4096) = false)
    (hheld : ∀ i < n, s.leafHeld (.dev h (pa i) false) = false) (hp : (s.home h).put (devCells pa l n) = (o, true)) :
    writeXl s req (atDev h pa pin l n) m fl logs =
      ((s.setHome h o).watchEn (atDev h pa pin l n), .done m fl logs) := by
  have hold : (List.range 4).filter (fun e => (cellsAt e (atDev h pa pin l n)).any (fun c => s.leafHeld (.dev e c.1 false))) = [] := by
    refine List.filter_eq_nil_iff.mpr fun e _ => ?_
    rw [cellsAt_atDev]
    split
    · next he =>
      subst he
      simpa [devCells] using hheld
    · simp
  simp only [writeXl, offRoot_atDev hroot, hold]
  rw [filter_atDev (fun _ _ => rfl), putXl_atDev hh hn hp]
  rfl

end

/-! ### A write request whose bytes lie at one home -/

theorem State.fix_kind (s : State) (r : Req) : (s.fix r).kind = r.kind := by unfold State.fix; split <;> rfl
theorem State.fix_addr (s : State) (r : Req) : (s.fix r).addr = r.addr := by unfold State.fix; split <;> rfl
theorem State.fix_asid (s : State) (r : Req) : (s.fix r).asid = r.asid := by unfold State.fix; split <;> rfl
theorem State.fix_pgid (s : State) (r : Req) : (s.fix r).pgid = r.pgid := by unfold State.fix; split <;> rfl
theorem State.fix_rw (s : State) (r : Req) : (s.fix r).rw = r.rw := by unfold State.fix; split <;> rfl

theorem logLines_nil (s : State) (r : Req) : logLines s r [] = (s, 0) := by
  simp [logLines, lineGroups]

/-- The translations of n bytes at one home. -/
def devRoutes (h : Nat) (pa : Nat → Nat) (pin : Nat → Bool) (n : Nat) : List (Option Xl) :=
  (List.range n).map (fun i => some (.dev h (pa i) (pin i)))

/-- Without a view, and but for cells, the targets are the bytes from the address on (09_copy_collective.md R263). -/
theorem Req.targets_plain {r : Req} (hv : r.view = none) (hc : ∀ l, r.kind ≠ .cells l) :
    r.targets = (List.range r.kind.len).map (fun i => some ((r.addr.toNat + i) % 2 ^ 64)) := by
  unfold Req.targets
  rw [hv]
  cases hk : r.kind with
  | cells l => exact absurd hk (hc l)
  | _ => rfl

/-- The translations of a request that no view transforms (11_translation.md R299). -/
theorem routes_plain {s : State} {r : Req} {t : Option Nat} {x : Nat → Xl} (p : Plain s r t x) (hrw : r.rw = false) :
    s.routes (s.fix r) t true = (List.range r.kind.len).map (fun i => some (x i)) := by
  have hc : ∀ l, (s.fix r).kind ≠ .cells l := fun l => by simpa only [State.fix_kind] using p.cells l
  simp only [State.routes, Req.targets_plain p.view hc, State.fix_kind, State.fix_addr, State.fix_asid, State.fix_pgid, Req.needs,
    State.fix_rw, hrw, List.map_map]
  refine List.map_congr_left fun i hi => ?_
  obtain ⟨hroute, hbusy⟩ := p.at' i (List.mem_range.mp hi)
  simp only [Function.comp_apply, Option.map_some, hbusy, hroute, ite_self, Bool.false_eq_true, if_false]

section
variable {s : State} {h n : Nat} {pa : Nat → Nat} {pin : Nat → Bool} {l : List Byte}

@[simp] theorem length_devRoutes : (devRoutes h pa pin n).length = n := by simp [devRoutes]

theorem takeWhile_devRoutes {f : Option Xl → Bool} (hf : ∀ a p, f (some (.dev h a p)) = true) :
    (devRoutes h pa pin n).takeWhile f = devRoutes h pa pin n := by
  refine List.takeWhile_eq_self_iff.mpr fun x hx => ?_
  obtain ⟨i, -, rfl⟩ := List.mem_map.mp hx
  exact hf _ _

/-- What is picked from the numbered pairs of translations and bytes without regard to the number. -/
theorem filterMap_devRoutes_zip {β : Type} {f : (Option Xl × Byte) × Nat → Option β} {g : Xl × Byte → Option β}
    (hl : l.length = n) (hf : ∀ a p b k, f ((some (.dev h a p), b), k) = g (.dev h a p, b)) :
    (((devRoutes h pa pin n).zip l).take n).zipIdx.filterMap f = (atDev h pa pin l n).filterMap g := by
  have hzip : ((devRoutes h pa pin n).zip l).take n = (atDev h pa pin l n).map (fun p => (some p.1, p.2)) := by
    refine List.ext_getElem (by simp [devRoutes, atDev, hl]) fun i hi _ => ?_
    have : i < l.length := by simp [hl] at hi; omega
    simp [devRoutes, atDev, this]
  rw [hzip, List.zipIdx_map, List.filterMap_map]
  calc (atDev h pa pin l n).zipIdx.filterMap (f ∘ Prod.map (fun p => (some p.1, p.2)) id)
      = (atDev h pa pin l n).zipIdx.filterMap (g ∘ Prod.fst) := List.filterMap_congr fun ⟨x, k⟩ hp => by
        obtain ⟨i, -, rfl⟩ := List.mem_map.mp (List.fst_mem_of_mem_zipIdx hp)
        exact hf _ _ _ _
    _ = (atDev h pa pin l n).filterMap g := by rw [← List.filterMap_map, List.zipIdx_map_fst]

theorem forwardTo_devRoutes (hn : 0 < n) : forwardTo (devRoutes h pa pin n) = none := by
  obtain ⟨m, rfl⟩ : ∃ m, n = m + 1 := ⟨n - 1, by omega⟩
  simp [forwardTo, devRoutes, List.range_succ_eq_map]

theorem settle_devRoutes : (devRoutes h pa pin n).map (fun o => o.map s.settle) = devRoutes h pa pin n := by
  simp [devRoutes, State.settle]

/-- A write at one home, into leaves without a held write: done, with nothing side-logged (11_translation.md R309, R325). -/
theorem writeAt_devRoutes {o : Home} {r : Req} (home : Nat) (fl : Byte) (hk : r.kind.len = n) (hl : l.length = n) (hh : h < 4) (hn : 0 < n)
    (hroom : ∀ e < 4, (s.home e).slog.length ≤ 4096) (hroot : ∀ i < n, (s.home h).isRoot (pa i / 4096) = false)
    (hheld : ∀ i < n, s.leafHeld (.dev h (pa i) false) = false) (hp : (s.home h).put (devCells pa l n) = (o, true)) :
    writeAt s r home (devRoutes h pa pin n) l fl = ((s.setHome h o).watchEn (atDev h pa pin l n), .done n fl 0) := by
  have hne : (devRoutes h pa pin n).isEmpty = false := by simp [devRoutes]; omega
  unfold writeAt
  dsimp only
  rw [takeWhile_devRoutes (fun _ _ => rfl), hne]
  simp only [length_devRoutes, hk]
  rw [filterMap_devRoutes_zip (g := fun _ => none) hl (fun _ _ _ _ => rfl), filterMap_devRoutes_zip (g := some) hl (fun _ _ _ _ => rfl)]
  simp +contextual [hroom, logLines_nil, writeXl_atDev _ _ _ _ hh hn hroot hheld hp, lineGroups]

end

theorem Req.writes_plain {r : Req} {l : List Byte} (hk : r.kind = .write l) (hv : r.view = none) : r.writes = some (l, 0) := by
  simp [Req.writes, hk, hv]

/-- A write request whose bytes lie at one home, none in a root table, is performed there when the pool takes its cells: the home has
its new content, and the command processor has seen each change of EN (11_translation.md R299, R322; 13_queues.md R353). -/
theorem accessMain_write_of_lies {s : State} {r : Req} {t : Option Nat} {h : Nat} {pa : Nat → Nat} {l : List Byte} {o : Home}
    (hk : r.kind = .write l) (hrw : r.rw = false) (hlies : Lies s r t h pa) (hh : h < 4)
    (hroot : ∀ i < l.length, (s.home h).isRoot (pa i / 4096) = false)
    (hp : (s.home h).put (devCells pa l l.length) = (o, true)) :
    ∃ pin, accessMain s r t = ((s.setHome h o).watchEn (atDev h pa pin l l.length), .done l.length 0 0) := by
  obtain ⟨hroom, ⟨pin, hplain⟩, hgood⟩ := hlies
  have hlen : r.kind.len = l.length := by rw [hk]; rfl
  have hn : 0 < l.length := hlen ▸ hplain.some'
  have hheld : ∀ i < l.length, s.leafHeld (.dev h (pa i) false) = false := fun i hi => (hgood i (hlen ▸ hi)).2
  have hroutes : s.routes (s.fix r) t true = devRoutes h pa pin l.length := by rw [routes_plain hplain hrw, hlen]; rfl
  have hkind : (s.fix r).kind = .write l := by rw [State.fix_kind, hk]
  have hattempt : attempt s (s.fix r) t true = ((s.setHome h o).watchEn (atDev h pa pin l l.length), .done l.length 0 0) := by
    simp only [attempt, hroutes, forwardTo_devRoutes hn, settle_devRoutes, performXl, hkind, Req.writes_plain hkind hplain.view]
    exact writeAt_devRoutes _ _ (by rw [hkind]; rfl) rfl hh hn hroom hroot hheld hp
  exact ⟨pin, by simp [accessMain, hattempt]⟩

end Sys2Proof.Machine
end

section
/-! BAR 0 (14_system.md R390 to R395, R399, R403): which page a host access reaches, and what each of its registers takes. -/

namespace Sys2Proof.Machine

open Sys2Proof.Claims

/-! ### Which page an access reaches (14_system.md R390) -/

theorem exec_bar0RegisterWrite (a : BarAccess) (v : Word) (s : State) :
    exec (.bar0RegisterWrite a v) s = .next (bar0Write s a.off a.size v) := rfl
theorem exec_dtcsetWrite (v : Word) (s : State) : exec (.dtcsetWrite v) s = .next (if s.sys.state = 2 then s else loadDtc s v) := rfl
theorem exec_wakePageWrite (v : Word) (s : State) :
    exec (.wakePageWrite v) s = .next (if s.sys.state = 2 then s else wakePage s s.obj v) := rfl
theorem exec_nonceWrite (off : Nat) (v : Word) (s : State) : exec (.nonceWrite off v) s = .next (nonceWrite s off v) := rfl

section
variable {s : State}

theorem reachable_of_trained (hs : s.sys.state ≠ 2) (off : Nat) : s.reachable off = true := by simp [State.reachable, hs]

/-- In the recovery state only the mailbox, the attestation region and the mailbox window answer. -/
theorem reachable_eq_false_of_recovery {off : Nat} (hs : s.sys.state = 2)
    (ho : off < 0x6000 ∨ (0xF000 ≤ off ∧ off < 0x10000) ∨ 0x20000 ≤ off) : s.reachable off = false := by
  simp only [State.reachable, decide_eq_false_iff_not]
  omega

theorem bar0Write_refused {off size : Nat} (v : Word) (h : size ≠ 8 ∨ off % 8 ≠ 0 ∨ s.reachable off = false) :
    bar0Write s off size v = s := if_pos h

theorem bar0Read_refused {off size : Nat} (h : size ≠ 8 ∨ off % 8 ≠ 0 ∨ s.reachable off = false) :
    s.bar0Read off size = BitVec.allOnes 64 := if_pos h

theorem bar0Write_info {off : Nat} (v : Word) (h : off < 0x1000) : bar0Write s off 8 v = s := by
  simp [bar0Write, h]

theorem bar0Write_control {off : Nat} (v : Word) (hs : s.sys.state ≠ 2) (h : off < 0x1000) (ha : off % 8 = 0) :
    bar0Write s (0x1000 + off) 8 v = controlWrite s off v := by
  have hoff : 0x1000 + off - 0x1000 = off := by omega
  rw [bar0Write, if_neg (by simp [reachable_of_trained hs]; omega), if_neg (by omega), if_pos (by omega), hoff]

theorem bar0Write_pool {e n : Nat} (v : Word) (hs : s.sys.state ≠ 2) (he : e < 4) (hn : n < 512) :
    bar0Write s (0x2000 + 0x1000 * e + 8 * n) 8 v = s.setHome e (poolWrite (s.home e) n v.toNat) := by
  have hpage : (0x2000 + 0x1000 * e + 8 * n - 0x2000) / 0x1000 = e := by omega
  have hreg : (0x2000 + 0x1000 * e + 8 * n) % 0x1000 / 8 = n := by omega
  rw [bar0Write, if_neg (by simp [reachable_of_trained hs]; omega), if_neg (by omega), if_neg (by omega), if_pos (by omega)]
  simp only [hpage, hreg]

theorem bar0Read_pool {e n : Nat} (hs : s.sys.state ≠ 2) (he : e < 4) (hn : n < 512) :
    s.bar0Read (0x2000 + 0x1000 * e + 8 * n) 8 = BitVec.ofNat 64 (poolRead (s.home e) n) := by
  have hpage : (0x2000 + 0x1000 * e + 8 * n - 0x2000) / 0x1000 = e := by omega
  have hreg : (0x2000 + 0x1000 * e + 8 * n) % 0x1000 / 8 = n := by omega
  rw [State.bar0Read, if_neg (by simp [reachable_of_trained hs]; omega), if_neg (by omega), if_neg (by omega), if_pos (by omega),
    hpage, hreg]

theorem bar0Write_window {off : Nat} (v : Word) (h : off < 0x10000) (ha : off % 8 = 0) :
    bar0Write s (0x10000 + off) 8 v =
      { s with sys := { s.sys with window := Mem.writeL s.sys.window off (leBytes 8 v.toNat) } } := by
  have hoff : 0x10000 + off - 0x10000 = off := by omega
  rw [bar0Write, if_neg (by simp [State.reachable]; omega), if_neg (by omega), if_neg (by omega), if_neg (by omega),
    if_neg (by omega), if_neg (by omega), if_pos (by omega), hoff]

theorem bar0Write_stand {p off : Nat} (v : Word) (hs : s.sys.state ≠ 2) (hp : p < 64) (h : off < 0x1000) (ha : off % 8 = 0) :
    bar0Write s (0x40000 + 0x1000 * p + off) 8 v = standWrite s p off v := by
  have hpage : (0x40000 + 0x1000 * p + off - 0x40000) / 0x1000 = p := by omega
  have hreg : (0x40000 + 0x1000 * p + off) % 0x1000 = off := by omega
  rw [bar0Write, if_neg (by simp [reachable_of_trained hs]; omega), if_neg (by omega), if_neg (by omega), if_neg (by omega),
    if_neg (by omega), if_neg (by omega), if_neg (by omega), if_pos (by omega), hpage, hreg]

theorem bar0Write_wake {q : Nat} (v : Word) (hs : s.sys.state ≠ 2) (hq : q < 4096) :
    bar0Write s (0x1000000 + 0x1000 * q) 8 v = wakePage s q v := by
  have hpage : (0x1000000 + 0x1000 * q - 0x1000000) / 0x1000 = q := by omega
  rw [bar0Write, if_neg (by simp [reachable_of_trained hs]; omega), if_neg (by omega), if_neg (by omega), if_neg (by omega),
    if_neg (by omega), if_neg (by omega), if_neg (by omega), if_neg (by omega), if_pos (by omega), hpage]

theorem bar0Read_wake {q : Nat} (hs : s.sys.state ≠ 2) (hq : q < 4096) :
    s.bar0Read (0x1000000 + 0x1000 * q) 8 = BitVec.ofNat 64 ((s.queue q).fidx + 65536 * (s.queue q).cidx) := by
  have hpage : (0x1000000 + 0x1000 * q - 0x1000000) / 0x1000 = q := by omega
  rw [State.bar0Read, if_neg (by simp [reachable_of_trained hs]; omega), if_neg (by omega), if_neg (by omega), if_neg (by omega),
    if_neg (by omega), if_neg (by omega), if_neg (by omega), if_neg (by omega), if_pos (by omega), hpage]

theorem bar0Read_atstat : s.bar0Read 0x7180 8 = BitVec.ofNat 64 s.atstat := by
  simp [State.bar0Read, State.reachable, identityRead]

end

/-! ### The registers of a page -/

theorem commitLim_zero {v : Nat} (h : v % 2 ^ 44 = 0) : commitLim v = 2 ^ 44 := if_pos h
theorem commitLim_of_ne_zero {v : Nat} (h : v % 2 ^ 44 ≠ 0) : commitLim v = v % 2 ^ 44 := if_neg h

theorem commitOk_iff (v : Nat) : commitOk v = true ↔ commitLim v % 2 ^ 30 = 0 ∧ 2 ^ 39 ≤ commitLim v := decide_eq_true_iff

/-- COMMIT takes a LIM that R323 allows and keeps its value otherwise (11_translation.md R323). -/
theorem poolWrite_commit (h : Home) (v : Nat) : poolWrite h 0 v = if commitOk v then { h with commit := commitLim v } else h := rfl

/-- FREEC, BALN, HOLDN, SLOGN and ARTB take nothing (14_system.md R393). -/
theorem poolWrite_readOnly (h : Home) (v : Nat) {n : Nat} (hn : n ∈ [1, 4, 5, 7, 8]) : poolWrite h n v = h := by
  simp only [List.mem_cons, List.not_mem_nil, or_false] at hn
  obtain rfl | rfl | rfl | rfl | rfl := hn <;> rfl

theorem State.home_setHome_self (s : State) (e d : Nat) : (s.setHome e (s.home e)).home d = s.home d := by
  rw [State.home_setHome]
  split
  · next h => rw [h]
  · rfl

theorem standWrite_skipm (s : State) (p : Nat) {i : Nat} (v : Word) (hi : i < 8) :
    standWrite s p (0x10 + 8 * i) v = s.setPart p { s.part p with skipm := SMap.set (s.part p).skipm 0 i v } := by
  have hidx : (0x10 + 8 * i - 0x10) / 8 = i := by omega
  rw [standWrite, if_neg (by omega), if_pos (by omega), hidx]

/-! ### Wake pages (14_system.md R394) -/

/-- The descriptor that a read of its 64 bytes gives. The model's own equation is rewritten with, because a check of it by
computation would run the read. -/
theorem qdesc_of_look {s : State} {q : Nat} {l : List Byte} (hl : s.look 0 (s.qAddr q) 64 = .ok l) : s.qdesc q = parseQueue l := by
  rw [State.qdesc, hl]

/-- A descriptor that can be read, with EN as it was seen last, changes nothing (13_queues.md R353). -/
theorem refresh_of_current {s : State} {q : Nat} (h : Current s q) : refresh s q = s := by
  obtain ⟨l, hl, hen⟩ := h
  have hlook : s.look 0 (s.qAddr q) 64 = .ok l := hl
  rw [refresh, hlook, qdesc_of_look hlook]
  simp [State.noteRead, hen]

theorem wakePage_of_lies {s : State} {q h : Nat} {v : Word} {pa : Nat → Nat} {o : Home} (hc : Current s q) (hh : h < 4)
    (hlies : Lies s (cpReq (ringOf q) (if (s.queue q).desc.en then (s.queue q).desc else s.qdesc q).asid (.write (leBytes 8 v.toNat))
      (if (s.queue q).desc.en then (s.queue q).desc else s.qdesc q).wake) none h pa)
    (hroot : ∀ i < 8, (s.home h).isRoot (pa i / 4096) = false)
    (hput : (s.home h).put (devCells pa (leBytes 8 v.toNat) 8) = (o, true)) :
    ∃ pin, wakePage s q v = (s.setHome h o).watchEn (atDev h pa pin (leBytes 8 v.toNat) 8) := by
  have hlen : (leBytes 8 v.toNat).length = 8 := leBytes_length 8 _
  obtain ⟨pin, hx⟩ := accessMain_write_of_lies rfl rfl hlies hh (hlen ▸ hroot) (hlen.symm ▸ hput)
  refine ⟨pin, ?_⟩
  rw [hlen] at hx
  rw [wakePage, refresh_of_current hc]
  simp only [hx]

/-! ### Device time (14_system.md R399) -/

theorem loadDtc_of_busy {s : State} (v : Word) (h : ∃ p ∈ s.parts, p.2.run ≠ none) : loadDtc s v = s :=
  if_pos (by simpa [Option.isSome_iff_ne_none] using h)

/-- While no stand runs every copy of DTC is loaded, the servo starts anew and a power window starts (10_phase_sync.md R292,
R293; 14_system.md R399, R404). -/
theorem loadDtc_of_idle {s : State} (v : Word) (h : ∀ p ∈ s.parts, p.2.run = none) :
    (∀ e < 4, (loadDtc s v).nowAt e = v.toNat) ∧ (loadDtc s v).sys.locked = false ∧
      (loadDtc s v).sys.dtskew = BitVec.allOnes 64 ∧ (loadDtc s v).sys.window0 = v.toNat ∧
      ∀ d < 64, ((loadDtc s v).die d).clock.dtc = v := by
  have hrun : ¬ s.parts.any (fun p => p.2.run.isSome) = true := by simpa using h
  rw [loadDtc, if_neg hrun]
  refine ⟨fun e he => ?_, rfl, rfl, rfl, fun d hd => ?_⟩
  · by_cases h0 : e = 0
    · simp [State.nowAt, State.now, h0]
    · simp only [State.nowAt, if_neg h0, SMap.get_fill]
      rw [if_pos (by omega)]
  · simp only [State.die, SMap.get_fill]
    rw [if_pos (by omega)]

/-! ### Attestation (14_system.md R403) -/

theorem nonceWrite_of_signing {s : State} (off : Nat) (v : Word) (h : s.sys.atstat = 1) : nonceWrite s off v = s := if_pos (.inl h)

/-- A NONCE word before the last only lands. -/
theorem nonceWrite_inner {s : State} {off : Nat} (v : Word) (h : s.sys.atstat ≠ 1) (ho : off ∈ [0x200, 0x208, 0x210]) :
    nonceWrite s off v =
      { s with sys := { s.sys with nonce := Mem.writeL s.sys.nonce (off - 0x200) (leBytes 8 v.toNat) } } := by
  simp only [List.mem_cons, List.not_mem_nil, or_false] at ho
  rw [nonceWrite, if_neg (by omega), if_pos (by omega)]

/-- The last NONCE word reserves the next one-time key and starts a signature. -/
theorem nonceWrite_last {s : State} (v : Word) (h : s.sys.atstat ≠ 1) (hk : s.sys.otk < 2 ^ 20) :
    nonceWrite s 0x218 v =
      { s with sys := { s.sys with nonce := Mem.writeL s.sys.nonce 0x18 (leBytes 8 v.toNat), otk := s.sys.otk + 1, atstat := 1 } } := by
  rw [nonceWrite, if_neg (by omega), if_neg (by omega), if_neg (by simpa using hk)]

/-- The last NONCE word when every one-time key is used: none is reserved, and no signature starts. -/
theorem nonceWrite_last_of_used {s : State} (v : Word) (h : s.sys.atstat ≠ 1) (hk : 2 ^ 20 ≤ s.sys.otk) :
    nonceWrite s 0x218 v =
      { s with sys := { s.sys with nonce := Mem.writeL s.sys.nonce 0x18 (leBytes 8 v.toNat), atstat := 3 } } := by
  rw [nonceWrite, if_neg (by omega), if_neg (by omega), if_pos hk]

theorem atstat_of_used {s : State} (h : s.sys.atstat ≠ 1) (hk : 2 ^ 20 ≤ s.sys.otk) : s.atstat = 3 := if_pos ⟨hk, h⟩

theorem exec_signatureReady_idle {s : State} (h : s.sys.atstat ≠ 1) : exec .signatureReady s = .next s :=
  congrArg Host.Outcome.next (if_neg h)

theorem exec_signatureReady_signing {s : State} (h : s.sys.atstat = 1) :
    exec .signatureReady s = .next { s with sys := { s.sys with
      sig := Config.signature s.quote, idx := BitVec.ofNat 64 (s.sys.otk - 1), atstat := 2 } } :=
  congrArg Host.Outcome.next (if_pos h)

end Sys2Proof.Machine
end

section
/-! The obligation about BAR 0: each clause by the lemma about its page. -/

namespace Sys2Proof.Machine

open Sys2Proof.Claims

/-! ### Host writes, by the page they reach -/

section
variable {s : State} (v : Word)

/-- A write to register off of the host control page (14_system.md R392). -/
theorem exec_controlPage (hs : s.sys.state ≠ 2) {off : Nat} (h : off < 0x1000) (ha : off % 8 = 0) :
    exec (.bar0RegisterWrite ⟨0x1000 + off, 8⟩ v) s = .next (controlWrite s off v) :=
  congrArg Host.Outcome.next (bar0Write_control v hs h ha)

/-- PTAB, QTAB and EVBASE are free while no partition is valid. -/
theorem exec_tables_of_noPart (hs : s.sys.state ≠ 2) (hp : s.anyPart = false) :
    exec (.bar0RegisterWrite ⟨0x1000, 8⟩ v) s = .next { s with sys := { s.sys with ptab := v } } ∧
      exec (.bar0RegisterWrite ⟨0x1008, 8⟩ v) s = .next { s with sys := { s.sys with qtab := v } } ∧
      exec (.bar0RegisterWrite ⟨0x1018, 8⟩ v) s = .next { s with sys := { s.sys with evbase := v } } := by
  have hif {t : State} : (if s.anyPart then s else t) = t := if_neg (by simp [hp])
  exact ⟨(exec_controlPage v hs (off := 0x00) (by omega) rfl).trans (congrArg _ hif),
    (exec_controlPage v hs (off := 0x08) (by omega) rfl).trans (congrArg _ hif),
    (exec_controlPage v hs (off := 0x18) (by omega) rfl).trans (congrArg _ hif)⟩

/-- While a partition is valid the three stand still. -/
theorem exec_tables_of_anyPart (hs : s.sys.state ≠ 2) (hp : s.anyPart = true) :
    exec (.bar0RegisterWrite ⟨0x1000, 8⟩ v) s = .next s ∧ exec (.bar0RegisterWrite ⟨0x1008, 8⟩ v) s = .next s ∧
      exec (.bar0RegisterWrite ⟨0x1018, 8⟩ v) s = .next s := by
  have hif {t : State} : (if s.anyPart then s else t) = s := if_pos hp
  exact ⟨(exec_controlPage v hs (off := 0x00) (by omega) rfl).trans (congrArg _ hif),
    (exec_controlPage v hs (off := 0x08) (by omega) rfl).trans (congrArg _ hif),
    (exec_controlPage v hs (off := 0x18) (by omega) rfl).trans (congrArg _ hif)⟩

/-- A write to register n of pool page e (14_system.md R393). -/
theorem exec_poolPage (hs : s.sys.state ≠ 2) {e n : Nat} (he : e < 4) (hn : n < 512) :
    exec (.bar0RegisterWrite ⟨0x2000 + 0x1000 * e + 8 * n, 8⟩ v) s =
      .next (s.setHome e (poolWrite (s.home e) n v.toNat)) :=
  congrArg Host.Outcome.next (bar0Write_pool v hs he hn)

/-- A pool register that takes nothing leaves every home as it was. -/
theorem exec_poolPage_of_kept (hs : s.sys.state ≠ 2) {e n : Nat} (he : e < 4) (hn : n < 512)
    (hk : poolWrite (s.home e) n v.toNat = s.home e) :
    ∃ t, exec (.bar0RegisterWrite ⟨0x2000 + 0x1000 * e + 8 * n, 8⟩ v) s = .next t ∧ ∀ d, t.home d = s.home d :=
  ⟨_, exec_poolPage v hs he hn, fun d => by rw [hk, State.home_setHome_self]⟩

theorem exec_commit_of_ok (hs : s.sys.state ≠ 2) {e : Nat} (he : e < 4) (hv : commitOk v.toNat = true) :
    exec (.bar0RegisterWrite ⟨0x2000 + 0x1000 * e + 8 * 0, 8⟩ v) s =
      .next (s.setHome e { s.home e with commit := commitLim v.toNat }) := by
  rw [exec_poolPage v hs he (by omega), poolWrite_commit, if_pos hv]

/-- COMMIT takes a multiple of 1 GiB from 512 GiB on (11_translation.md R323; 00_scope.md R2). -/
theorem exec_commit_of_lim (hs : s.sys.state ≠ 2) {e : Nat} (he : e < 4) (h30 : v.toNat % 2 ^ 44 % 2 ^ 30 = 0)
    (h39 : 2 ^ 39 ≤ v.toNat % 2 ^ 44) :
    exec (.bar0RegisterWrite ⟨0x2000 + 0x1000 * e + 8 * 0, 8⟩ v) s =
      .next (s.setHome e { s.home e with commit := v.toNat % 2 ^ 44 }) := by
  have hlim : commitLim v.toNat = v.toNat % 2 ^ 44 := commitLim_of_ne_zero (by omega)
  rw [exec_commit_of_ok v hs he ((commitOk_iff _).mpr (hlim ▸ ⟨h30, h39⟩)), hlim]

/-- LIM 0 stands for 16 TiB (log entry 34). -/
theorem exec_commit_of_zero (hs : s.sys.state ≠ 2) {e : Nat} (he : e < 4) (h0 : v.toNat % 2 ^ 44 = 0) :
    exec (.bar0RegisterWrite ⟨0x2000 + 0x1000 * e + 8 * 0, 8⟩ v) s =
      .next (s.setHome e { s.home e with commit := 2 ^ 44 }) := by
  have hlim : commitLim v.toNat = 2 ^ 44 := commitLim_zero h0
  rw [exec_commit_of_ok v hs he ((commitOk_iff _).mpr (by rw [hlim]; decide)), hlim]

/-- Any other LIM is ignored (log entry 34). -/
theorem exec_commit_of_bad (hs : s.sys.state ≠ 2) {e : Nat} (he : e < 4) (h0 : v.toNat % 2 ^ 44 ≠ 0)
    (hbad : v.toNat % 2 ^ 44 % 2 ^ 30 ≠ 0 ∨ v.toNat % 2 ^ 44 < 2 ^ 39) :
    ∃ t, exec (.bar0RegisterWrite ⟨0x2000 + 0x1000 * e + 8 * 0, 8⟩ v) s = .next t ∧ ∀ d, t.home d = s.home d := by
  have hno : ¬ commitOk v.toNat = true := by
    rw [commitOk_iff, commitLim_of_ne_zero h0]
    omega
  exact exec_poolPage_of_kept v hs he (by omega) ((poolWrite_commit _ _).trans (if_neg hno))

/-- A write to register off of the stand control page of partition p (14_system.md R395). -/
theorem exec_standPage (hs : s.sys.state ≠ 2) {a p off : Nat} (ha : a = 0x40000 + 0x1000 * p + off) (hp : p < 64)
    (h : off < 0x1000) (h8 : off % 8 = 0) : exec (.bar0RegisterWrite ⟨a, 8⟩ v) s = .next (standWrite s p off v) :=
  ha ▸ congrArg Host.Outcome.next (bar0Write_stand v hs hp h h8)

/-- SCMD resumes, kills or replays the partition's stand (14_system.md R395). -/
theorem exec_scmd (hs : s.sys.state ≠ 2) (hp : s.obj < 64) :
    (v = 1 → exec (.bar0RegisterWrite ⟨0x40008 + 0x1000 * s.obj, 8⟩ v) s = exec .standResume s) ∧
      (v = 2 → exec (.bar0RegisterWrite ⟨0x40008 + 0x1000 * s.obj, 8⟩ v) s = exec .standKill s) ∧
      (v = 3 → exec (.bar0RegisterWrite ⟨0x40008 + 0x1000 * s.obj, 8⟩ v) s = exec .standReplay s) := by
  rw [exec_standPage v hs (off := 0x08) (by omega) hp (by omega) rfl]
  refine ⟨?_, ?_, ?_⟩ <;> (rintro rfl; rfl)

/-- A write to the wake page of the queue that the turn names is WAKE_PAGE_WRITE (14_system.md R394). -/
theorem exec_wakePage (hs : s.sys.state ≠ 2) (hq : s.obj < 4096) :
    exec (.bar0RegisterWrite ⟨0x1000000 + 0x1000 * s.obj, 8⟩ v) s = exec (.wakePageWrite v) s := by
  rw [exec_wakePageWrite, if_neg hs]
  exact congrArg Host.Outcome.next (bar0Write_wake v hs hq)

/-- A write to a word of the mailbox window, whatever the state of the device (14_system.md R390, R402). -/
theorem exec_mailboxWindow {off : Nat} (h : off < 0x10000) (h8 : off % 8 = 0) :
    ∃ t, exec (.bar0RegisterWrite ⟨0x10000 + off, 8⟩ v) s = .next t ∧ Mem.readN t.sys.window off 8 = leBytes 8 v.toNat ∧
      t = { s with sys := { s.sys with window := t.sys.window } } :=
  ⟨_, congrArg Host.Outcome.next (bar0Write_window v h h8), Mem.readN_writeL_leBytes _ _ _ _, rfl⟩

/-- A wake page write that its home performs changes that home alone, and no core (14_system.md R394). -/
theorem exec_wakePageWrite_of_lies (hs : s.sys.state ≠ 2) {h : Nat} {pa : Nat → Nat} {o : Home} (hc : Current s s.obj) (hh : h < 4)
    (hlies : Lies s (cpReq (ringOf s.obj) (if (s.queue s.obj).desc.en then (s.queue s.obj).desc else s.qdesc s.obj).asid
      (.write (leBytes 8 v.toNat)) (if (s.queue s.obj).desc.en then (s.queue s.obj).desc else s.qdesc s.obj).wake) none h pa)
    (hroot : ∀ i < 8, (s.home h).isRoot (pa i / 4096) = false)
    (hput : (s.home h).put (devCells pa (leBytes 8 v.toNat) 8) = (o, true)) :
    ∃ t, exec (.wakePageWrite v) s = .next t ∧ t.home h = o ∧ (∀ e, e ≠ h → t.home e = s.home e) ∧ t.cores = s.cores := by
  obtain ⟨pin, ht⟩ := wakePage_of_lies hc hh hlies hroot hput
  refine ⟨_, (exec_wakePageWrite v s).trans (congrArg _ ((if_neg hs).trans ht)), ?_, fun e he => ?_, rfl⟩
  · rw [State.home_watchEn, State.home_setHome, if_pos rfl]
  · rw [State.home_watchEn, State.home_setHome, if_neg he.symm]

end

/-- Settles O51: each page of BAR 0 by the lemma that says which of its registers take a value, the wake page by the request that its
home performs, and the device time and the attestation by what DTCSET and the last NONCE word do. -/
theorem hostRegisters : Obligations.HostRegisters := by
  unfold Obligations.HostRegisters
  intro s off v b
  refine ⟨fun size h => ?_, fun h => congrArg Host.Outcome.next (bar0Write_info v h), fun hs => ?_,
    fun i hi => exec_mailboxWindow v (by omega) (by omega), fun hs => ⟨fun hidle => ?_, fun hbusy => ?_⟩,
    fun hs => ⟨congrArg Host.Outcome.next (if_pos hs), congrArg Host.Outcome.next (if_pos hs)⟩,
    fun h1 => congrArg Host.Outcome.next (nonceWrite_of_signing off v h1), fun h1 => ?_, exec_signatureReady_signing⟩
  · have hno : size ≠ 8 ∨ off % 8 ≠ 0 ∨ s.reachable off = false :=
      h.imp_right (Or.imp_right fun ⟨hs, ho⟩ => reachable_eq_false_of_recovery hs ho)
    exact ⟨congrArg Host.Outcome.next (bar0Write_refused v hno), bar0Read_refused hno⟩
  · refine ⟨exec_tables_of_noPart v hs, exec_tables_of_anyPart v hs, exec_controlPage v hs (off := 0x10) (by omega) rfl,
      exec_controlPage v hs (off := 0x20) (by omega) rfl, exec_controlPage v hs (off := 0x28) (by omega) rfl,
      exec_controlPage v hs (off := 0x30) (by omega) rfl, ?_, fun e he => ?_, fun p hp => ⟨?_, fun i hi => ?_⟩,
      exec_wakePage v hs, fun q hq => bar0Read_wake hs hq, fun h pa o hc hh => exec_wakePageWrite_of_lies v hs hc hh⟩
    · rw [exec_dtcsetWrite, if_neg hs]
      exact exec_controlPage v hs (off := 0x38) (by omega) rfl
    · have write (n : Nat) (hn : n < 512) := exec_poolPage v hs he hn
      have read (n : Nat) (hn : n < 512) := bar0Read_pool hs he hn
      refine ⟨exec_commit_of_lim v hs he, exec_commit_of_zero v hs he, exec_commit_of_bad v hs he, write 2 (by omega),
        write 3 (by omega), write 6 (by omega), fun n hn => ?_, read 0 (by omega), read 1 (by omega), read 4 (by omega),
        read 5 (by omega), read 7 (by omega), read 8 (by omega)⟩
      have hlt : n < 512 := by simp at hn; omega
      exact exec_poolPage_of_kept v hs he hlt (poolWrite_readOnly _ _ hn)
    · rintro rfl
      exact exec_scmd v hs hp
    · rw [← standWrite_skipm s p v hi]
      exact exec_standPage v hs (by omega) hp (by omega) (by omega)
  · exact ⟨_, (exec_dtcsetWrite v s).trans (congrArg _ (if_neg hs)), loadDtc_of_idle v hidle⟩
  · rw [exec_dtcsetWrite, if_neg hs, loadDtc_of_busy v hbusy]
  · refine ⟨fun o ho => ?_, fun hk => ?_, fun hk => ⟨?_, ?_⟩, exec_signatureReady_idle h1⟩
    · exact ⟨_, congrArg Host.Outcome.next (nonceWrite_inner v h1 ho), Mem.readN_writeL_leBytes _ _ _ _, rfl, rfl⟩
    · exact ⟨_, congrArg Host.Outcome.next (nonceWrite_last v h1 hk), Mem.readN_writeL_leBytes _ _ _ _, rfl, rfl⟩
    · rw [bar0Read_atstat, atstat_of_used h1 hk]
      rfl
    · exact ⟨_, congrArg Host.Outcome.next (nonceWrite_last_of_used v h1 hk), rfl, rfl⟩

end Sys2Proof.Machine
end

section
/-! The obligation about the forms of the engines. Its last clause asks of every queue at whose head a trigger stands that the
trigger leaves it, and not only of the queue of the trigger's own engine: a copy of it at the head of a second queue stays there. -/

namespace Sys2Proof.Machine

open Sys2Proof.Claims

/-- A trigger of the SCA engine. -/
def strayTrig : Instr := .scaAdd ⟨0, .lit 1⟩

/-- A queue entry of that trigger with its value at hand. -/
def strayEntry : Entry where
  move := 0
  slot := 1
  badr := 0
  rep := none
  trig := some strayTrig
  port := .o
  val := .ready (.s 1)
  tag := 0
  rmode := 0
  qcfg := 0
  faulted := false
  bid := 0

/-- A running core with that entry at the head of the SCA queue, where it belongs, and of the MEM queue. -/
def strayCore : Core := { Core.idle with seq := .run, qs := [(Eng.sca.code, [strayEntry]), (Eng.mem.code, [strayEntry])] }

/-- The machine with that core as core 0. -/
def strayState : State := State.reset.setMe strayCore

theorem strayState_me : strayState.me = strayCore := State.me_setMe _ _

theorem strayState_atHead_mem : strayState.AtHead .mem strayTrig strayEntry (.s 1) where
  serves := by rw [strayState_me]; rfl
  head := by rw [strayState_me]; rfl
  is := rfl
  val := rfl
  sound := rfl
  turn := by rw [strayState_me]; rfl

theorem exec_strayTrig : exec strayTrig strayState =
    .next (strayState.setMe (strayCore.scaStart strayTrig false (fun a b _ => a + b))) := by
  rw [← strayState_me]
  rfl

/-- Its start takes the entry of the SCA queue alone. -/
theorem queues_strayCore_started : (strayCore.scaStart strayTrig false (fun a b _ => a + b)).q .sca = [] ∧
    (strayCore.scaStart strayTrig false (fun a b _ => a + b)).q .mem = [strayEntry] ∧
    (strayCore.scaStart strayTrig false (fun a b _ => a + b)).trap = none := by
  decide

/-- Refutes O57: sca.add at the head of the SCA queue and of the MEM queue starts from the first and stays in the second, without
a wait and without a trap; the clause about heads names every queue, whatever engine the trigger is of. -/
theorem not_engineFormsKeepTheRest : ¬ Obligations.EngineFormsKeepTheRest := by
  unfold Obligations.EngineFormsKeepTheRest
  rintro ⟨-, -, h⟩
  obtain ⟨t, ht, -, -, hhead⟩ := h strayTrig strayState rfl
  obtain ⟨hsca, hmem, htrap⟩ := queues_strayCore_started
  have hme : t.me = strayCore.scaStart strayTrig false (fun a b _ => a + b) := by
    rw [exec_strayTrig] at ht
    cases ht
    exact State.me_setMe _ _
  have hmoved : t.me ≠ strayCore := fun he => by
    have hq : strayCore.q .sca = [] := by rw [← he, hme, hsca]
    exact absurd hq (by decide)
  obtain hleft | rfl | rfl | hpark := hhead .mem strayEntry (.s 1) strayState_atHead_mem
  · rw [hme, hmem, strayState_me] at hleft
    exact absurd hleft (by decide)
  · exact hmoved strayState_me
  · exact hmoved ((State.me_setMe _ _).trans strayState_me)
  · rw [hme, htrap] at hpark
    exact absurd hpark (by decide)

end Sys2Proof.Machine
end

section
/-! Facts that the obligations about collectives and about the module share: lists, folds, the jobs of a core, the job of a card. -/

namespace Sys2Proof.Machine

/-! ### Lists -/

theorem setAt_eq_set {α : Type} (l : List α) (i : Nat) (x : α) : setAt l i x = l.set i x := by
  induction l generalizing i with
  | nil => rfl
  | cons y l ih =>
    cases i with
    | zero => rfl
    | succ i => exact congrArg (y :: ·) (ih i)

theorem getElem?_setAt_self {α : Type} {l : List α} {i : Nat} {y : α} (x : α) (h : l[i]? = some y) : (setAt l i x)[i]? = some x := by
  rw [setAt_eq_set, List.getElem?_set_self (List.getElem?_eq_some_iff.mp h).1]

/-- What is taken out need not be replaced before. -/
theorem dropAt_setAt {α : Type} (l : List α) (i : Nat) (x : α) : dropAt (setAt l i x) i = dropAt l i := by
  simp only [dropAt, setAt_eq_set, List.take_set, List.drop_set, if_pos (Nat.lt_succ_self i)]
  rw [List.set_eq_of_length_le (by simp)]

/-- A fold reaches what one of its steps brings about and the others keep. -/
theorem foldl_reaches {α β : Type} {f : β → α → β} {P Q : β → Prop} {l : List α} {b : β} {a : α} (ha : a ∈ l) (hb : P b)
    (keepP : ∀ b, ∀ x ∈ l, P b → P (f b x)) (start : ∀ b, P b → Q (f b a)) (keepQ : ∀ b, ∀ x ∈ l, Q b → Q (f b x)) :
    Q (l.foldl f b) := by
  obtain ⟨l₁, l₂, rfl⟩ := List.append_of_mem ha
  rw [List.foldl_append, List.foldl_cons]
  have hP : P (l₁.foldl f b) := List.foldlRecOn l₁ f hb fun c hc x hx => keepP c x (by simp [hx]) hc
  exact List.foldlRecOn l₂ f (start _ hP) fun c hc x hx => keepQ c x (by simp [hx]) hc

/-! ### The jobs of a core -/

theorem Core.tag_of_job? {c : Core} {tag : Nat} {j : CJob} (h : c.job? tag = some j) : j.tag = tag := by
  simpa using List.find?_some h

/-- A job replaced by one of its tag. -/
theorem Core.job?_setJob_self {c : Core} {tag : Nat} {j x : CJob} (h : c.job? tag = some j) (hx : x.tag = tag) :
    (c.setJob x).job? tag = some x := by
  subst hx
  have hlist (l : List CJob) (hl : l.find? (fun j => decide (j.tag = x.tag)) = some j) :
      (l.map (fun y => if y.tag = x.tag then x else y)).find? (fun j => decide (j.tag = x.tag)) = some x := by
    induction l with
    | nil => simp at hl
    | cons y l ih =>
      by_cases hy : y.tag = x.tag
      · simp [hy]
      · simpa [hy] using ih (by simpa [hy] using hl)
  exact hlist c.jobs h

theorem Core.job?_setJob_ne {c : Core} {tag : Nat} {x : CJob} (hx : x.tag ≠ tag) : (c.setJob x).job? tag = c.job? tag := by
  unfold Core.job? Core.setJob
  induction c.jobs with
  | nil => rfl
  | cons y l ih =>
    by_cases hy : y.tag = x.tag
    · simpa [hy, hx] using ih
    · simp only [List.map_cons, if_neg hy, List.find?_cons, ih]

/-! ### The job of a card -/

theorem setUseJob_of_job {s : State} {k : CCard} {j : CJob} (f : CJob → CJob) (h : useJob s k = some j) :
    setUseJob s k f = s.setCore k.core ((s.core k.core).setJob (f j)) := by
  simp only [setUseJob, h]

theorem setUseJob_of_none {s : State} {k : CCard} (f : CJob → CJob) (h : useJob s k = none) : setUseJob s k f = s := by
  simp only [setUseJob, h]

/-- A change of one card's job that keeps its tag is seen by the cards of that job alone. -/
theorem useJob_setUseJob (s : State) (k m : CCard) {f : CJob → CJob} (hf : ∀ j, (f j).tag = j.tag) :
    useJob (setUseJob s k f) m = if k.core = m.core ∧ k.tag = m.tag then (useJob s m).map f else useJob s m := by
  cases h : useJob s k with
  | none =>
    rw [setUseJob_of_none f h]
    split
    · next hm =>
      have : useJob s m = none := by rw [← h]; simp only [useJob, hm.1, hm.2]
      rw [this]
      rfl
    · rfl
  | some j =>
    have htag : (f j).tag = k.tag := (hf j).trans (Core.tag_of_job? h)
    rw [setUseJob_of_job f h]
    by_cases hc : k.core = m.core
    · by_cases ht : k.tag = m.tag
      · have hm : useJob s m = some j := by rw [← h]; simp only [useJob, hc, ht]
        rw [if_pos ⟨hc, ht⟩, hm]
        show ((s.setCore k.core _).core m.core).job? m.tag = _
        rw [← hc, State.core_setCore_same, ← ht]
        exact Core.job?_setJob_self h htag
      · rw [if_neg fun h => ht h.2]
        show ((s.setCore k.core _).core m.core).job? m.tag = _
        rw [← hc, State.core_setCore_same, Core.job?_setJob_ne (by rwa [htag])]
        simp only [useJob, hc]
    · rw [if_neg fun h => hc h.1]
      simp only [useJob, State.core_setCore, if_neg hc]

/-- A change of one card's job is a change of its core's jobs. -/
theorem setUseJob_cores (s : State) (k : CCard) (f : CJob → CJob) : setUseJob s k f = { s with cores := (setUseJob s k f).cores } := by
  cases h : useJob s k with
  | none => rw [setUseJob_of_none f h]
  | some j => rw [setUseJob_of_job f h]; rfl

end Sys2Proof.Machine
end

section
/-! Cards and uses of the collectives (01_machine.md R20; 09_copy_collective.md R245, R266, R267): which card a die takes, the group
of a use, and how a use starts or ends. -/

namespace Sys2Proof.Machine

open Sys2Proof.Claims

/-! ### Taking a card -/

theorem takenOf_countTaken (l : List Taken) (key cid die : Nat) :
    takenOf (countTaken key cid die l) key cid die = takenOf l key cid die + 1 := by
  unfold takenOf
  induction l with
  | nil => simp [countTaken]
  | cons t l ih =>
    by_cases ht : t.key = key ∧ t.cid = cid ∧ t.die = die
    · simp [countTaken, ht]
    · simpa [countTaken, ht] using ih

/-- The card stands in the use that it joins, which has not assembled. -/
theorem exists_mem_joinUse (l : List Use) (key cid k : Nat) (f : Use → Use) :
    ∃ x, f x ∈ joinUse key cid k f l ∧ x.assembled = false ∧ x.key = key ∧ x.cid = cid ∧ x.k = k := by
  induction l with
  | nil => exact ⟨_, List.mem_singleton.mpr rfl, rfl, rfl, rfl, rfl⟩
  | cons u l ih =>
    by_cases hu : u.assembled = false ∧ u.key = key ∧ u.cid = cid ∧ u.k = k
    · exact ⟨u, by simp [joinUse, hu], hu⟩
    · obtain ⟨x, hx, h⟩ := ih
      exact ⟨x, by simp [joinUse, hu, hx], h⟩

theorem cardTurn_iff {s : State} {t : Nat × Nat} {rest : List (Nat × Nat)} (h : s.me.cards = t :: rest) :
    s.cardTurn s.cur = true ↔ CardTurn s t.2 := by
  have hc : (s.core s.cur).cards = t :: rest := h
  simp only [State.cardTurn, hc, CardTurn, Bool.and_eq_true, decide_eq_true_eq, List.all_eq_true, List.mem_range]
  refine and_congr_right fun _ => forall₂_congr fun i _ => ?_
  cases (s.core (8 * dieOf s.cur + i)).cards with
  | nil => simp
  | cons x l => simp

theorem cardsHeld_eq (s : State) (d : Nat) : s.cardsHeld d = cardsWaiting s d := by
  have hsum (l : List Use) (a : Nat) :
      l.foldl (fun a u => a + (u.cards.filter (fun k => decide (dieOf k.core = d))).length) a =
        a + ((l.flatMap (·.cards)).filter (fun k => decide (dieOf k.core = d))).length := by
    induction l generalizing a with
    | nil => rfl
    | cons u l ih => simp [ih, Nat.add_assoc]
  exact (hsum (s.uses.filter (fun u => !u.assembled)) 0).trans (Nat.zero_add _)

/-- COL_CARD_TAKE of a card that has its turn, while the engine has room. -/
theorem exec_colCardTake_of_turn {s : State} {t : Nat × Nat} {rest : List (Nat × Nat)} {j : CJob} {card : BitVec 512}
    (hcards : s.me.cards = t :: rest) (hjob : s.me.job? t.1 = some j) (hcard : j.card = some card) (ht : CardTurn s t.2)
    (hroom : cardsWaiting s (dieOf s.cur) < 32) :
    exec .colCardTake s = .next
      { s.setMe { s.me with cards := rest } with
        uses := joinUse (s.useKey s.cur) (cf card 28 4) (takenOf s.taken (s.useKey s.cur) (cf card 28 4) (dieOf s.cur))
          (fun u => { u with cards := u.cards ++ [⟨s.cur, t.1, card⟩] }) s.uses,
        taken := countTaken (s.useKey s.cur) (cf card 28 4) (dieOf s.cur) s.taken } := by
  show execColCardTake s = _
  have hgo : s.cardTurn s.cur = true ∧ s.cardsHeld (dieOf s.cur) < 32 := ⟨(cardTurn_iff hcards).mpr ht, by rwa [cardsHeld_eq]⟩
  simp only [execColCardTake, hcards, hjob, hcard, Option.bind_some, if_pos hgo]

/-- COL_CARD_TAKE of a card that another goes before, or of one for which there is no room. -/
theorem exec_colCardTake_of_wait {s : State} {t : Nat × Nat} {rest : List (Nat × Nat)} {j : CJob} {card : BitVec 512}
    (hcards : s.me.cards = t :: rest) (hjob : s.me.job? t.1 = some j) (hcard : j.card = some card)
    (hw : ¬ CardTurn s t.2 ∨ 32 ≤ cardsWaiting s (dieOf s.cur)) : exec .colCardTake s = .next s := by
  show execColCardTake s = _
  have hstay : ¬ (s.cardTurn s.cur = true ∧ s.cardsHeld (dieOf s.cur) < 32) := by
    rw [cardTurn_iff hcards, cardsHeld_eq]
    rintro ⟨ht, hroom⟩
    exact hw.elim (· ht) (by omega)
  simp only [execColCardTake, hcards, hjob, hcard, Option.bind_some, if_neg hstay]

/-! ### The group of a use (09_copy_collective.md R266) -/

theorem bit_eq_testBit (e n : Nat) : bit e n = e.testBit n := Nat.testBit_eq_decide_div_mod_eq.symm

/-- The modules of a use of pod scope over several modules, and what they leave of the use. -/
theorem grouped_of_far {s : State} {u : Use} (h : s.useFar u = true) :
    s.grouped u = { u with
      dev := s.sys.dev.toNat,
      devs := (List.range 128).filter
        (fun v => decide (v = s.sys.dev.toNat) || (SMap.get s.sys.pod [] (u.key / 2)).contains v) } := if_pos h

theorem grouped_of_near {s : State} {u : Use} (h : s.useFar u = false) : s.grouped u = u := if_neg (by simp [h])

section
variable (s : State) (u : Use)

@[simp] theorem grouped_cards : (s.grouped u).cards = u.cards := by unfold State.grouped; dsimp only; split <;> rfl
@[simp] theorem grouped_far : (s.grouped u).far = u.far := by unfold State.grouped; dsimp only; split <;> rfl
@[simp] theorem grouped_key : (s.grouped u).key = u.key := by unfold State.grouped; dsimp only; split <;> rfl
@[simp] theorem grouped_cid : (s.grouped u).cid = u.cid := by unfold State.grouped; dsimp only; split <;> rfl
@[simp] theorem grouped_assembled : (s.grouped u).assembled = u.assembled := by unfold State.grouped; dsimp only; split <;> rfl
@[simp] theorem grouped_head : (s.grouped u).head = u.head := by simp only [Use.head, grouped_cards]

theorem useCut_grouped : s.useCut (s.grouped u) = s.useCut u := by
  simp only [State.useCut, State.useFar, Use.pod, grouped_cards, grouped_far, grouped_key]

end

theorem names_iff (u : Use) (m d : Nat) :
    u.names m d = true ↔
      (∃ k ∈ u.cards, (cf k.card 32 8).testBit d = true ∧ (cardScope k.card = 1 ∨ m = u.dev)) ∨
        ∃ k ∈ u.far, (cf k.card 32 8).testBit d = true ∧ (cardScope k.card = 1 ∨ m = k.core / 512) := by
  simp [Use.names, bit_eq_testBit]

/-- A die of a module is among the dies of a use where the module is one of its group and its cards name the die. -/
theorem mem_dies_iff {u : Use} (hd : u.devs ≠ []) (m : Nat) {d : Nat} (h : d < 64) :
    64 * m + d ∈ u.dies ↔ m ∈ u.devs ∧ u.names m d = true := by
  rw [Use.dies, if_neg (by simpa using hd)]
  simp only [List.mem_flatMap, List.mem_map, List.mem_filter, List.mem_range]
  constructor
  · rintro ⟨v, hv, e, ⟨he, hn⟩, heq⟩
    obtain rfl : v = m := by omega
    obtain rfl : e = d := by omega
    exact ⟨hv, hn⟩
  · rintro ⟨hv, hn⟩
    exact ⟨m, hv, d, ⟨h, hn⟩, rfl⟩

theorem mem_dies_grouped_iff {s : State} {u : Use} (hfar : s.useFar u = true) {m d : Nat} (hm : m < 128) (hd : d < 64) :
    64 * m + d ∈ (s.grouped u).dies ↔ inGroup s u m d := by
  have hdevs (v : Nat) : v ∈ (s.grouped u).devs ↔ v < 128 ∧ (v = s.sys.dev.toNat ∨ v ∈ SMap.get s.sys.pod [] (u.key / 2)) := by
    simp [grouped_of_far hfar]
  have hdev : (s.grouped u).dev = s.sys.dev.toNat := by rw [grouped_of_far hfar]
  have hne : (s.grouped u).devs ≠ [] := List.ne_nil_of_mem ((hdevs _).mpr ⟨s.sys.dev.isLt, .inl rfl⟩)
  rw [mem_dies_iff hne m hd, hdevs, names_iff, hdev, grouped_cards, grouped_far, inGroup]
  exact and_congr_left fun _ => and_iff_right hm

theorem holds_iff (u : Use) (d : Nat) : u.holds d = true ↔ heldCard u d := by
  simp [Use.holds, Use.cardAt, heldCard]

theorem useCut_iff (s : State) (u : Use) : s.useCut u = true ↔ cutOff s u := by
  simp [State.useCut, cutOff, State.edgeUp]

/-! ### The end of a use -/

/-- The job of a rank as the end of its use leaves it. -/
def endedJob (fs : List (Nat × Byte × Word)) (st fl : Byte) (r : Nat) (k : CCard) (j : CJob) : CJob :=
  { j with use := none, held := false, ended := if j.ended = some 4 then some 4 else some st,
           flags := j.flags ||| (if cardKind k.card = 10 ∨ r = cardRoot k.card then fl else 0),
           part := if st = 1 then fs.take 4 else [], nfault := if st = 1 then fs.length else 0 }

theorem endedJob_tag (fs : List (Nat × Byte × Word)) (st fl : Byte) (r : Nat) (k : CCard) (j : CJob) :
    (endedJob fs st fl r k j).tag = j.tag := rfl

/-- The end of a use at one rank. -/
def endRank (u : Use) (fs : List (Nat × Byte × Word)) (st fl : Byte) (t : State) (r : Nat) : State :=
  match u.rankCard r with
  | some k => setUseJob t k (endedJob fs st fl r k)
  | none => t

theorem finishUse_of_use {s : State} {i : Nat} {u : Use} (st fl : Byte) (h : s.uses[i]? = some u) :
    finishUse s i st fl = (let s1 := (List.range u.dies.length).foldl (endRank u (faultsOf s u) st fl) s
      dropFlits { s1 with uses := dropAt s1.uses i } u) := by
  simp only [finishUse, h]
  rfl

/-- The end of a use at its ranks changes their cores' jobs. -/
theorem foldl_endRank_cores (u : Use) (fs : List (Nat × Byte × Word)) (st fl : Byte) (l : List Nat) (s : State) :
    l.foldl (endRank u fs st fl) s = { s with cores := (l.foldl (endRank u fs st fl) s).cores } := by
  refine List.foldlRecOn (motive := fun t : State => t = { s with cores := t.cores }) l _ rfl fun t ht r _ => ?_
  unfold endRank
  split
  · rw [setUseJob_cores, ht]
  · exact ht

theorem finishUse_uses {s : State} {i : Nat} {u : Use} (st fl : Byte) (h : s.uses[i]? = some u) :
    (finishUse s i st fl).uses = dropAt s.uses i := by
  rw [finishUse_of_use st fl h]
  show dropAt (State.uses (List.foldl _ _ _)) i = _
  rw [foldl_endRank_cores]

theorem finishUse_sys (s : State) (i : Nat) (st fl : Byte) : (finishUse s i st fl).sys = s.sys := by
  cases h : s.uses[i]? with
  | none => simp only [finishUse, h]
  | some u =>
    rw [finishUse_of_use st fl h]
    show State.sys (List.foldl _ _ _) = _
    rw [foldl_endRank_cores]

/-- The job x is what the job j has become, in an end of its use with status st that may have reached it. -/
structure Ending (st : Byte) (j x : CJob) : Prop where
  flags : x.flags = j.flags
  doneb : x.doneb = j.doneb
  ended : x.ended = j.ended ∨ x.ended = if j.ended = some 4 then some 4 else some st

/-- The job x is what an end of its use with status st has made of the job j. -/
structure Finished (st : Byte) (j x : CJob) : Prop extends Ending st j x where
  use : x.use = none
  held : x.held = false
  status : x.ended = if j.ended = some 4 then some 4 else some st

/-- Without flags the end of a use may reach a job more than once. -/
theorem Ending.endedJob {st : Byte} {j x : CJob} (h : Ending st j x) (hst : st ≠ 4) (fs : List (Nat × Byte × Word)) (r : Nat)
    (k : CCard) : Finished st j (endedJob fs st 0 r k x) := by
  have hended : (if x.ended = some 4 then some 4 else some st) = if j.ended = some 4 then some 4 else some st := by
    obtain he | he := h.ended <;> rw [he]
    by_cases hj : j.ended = some 4
    · rw [if_pos hj, if_pos rfl]
    · rw [if_neg hj, if_neg fun h4 => hst (Option.some.inj h4)]
  exact ⟨⟨by simp [Machine.endedJob, h.flags], h.doneb, .inr hended⟩, rfl, rfl, hended⟩

theorem Ending.of_eq {st : Byte} {j x : CJob} (hf : x.flags = j.flags) (hd : x.doneb = j.doneb) (he : x.ended = j.ended) :
    Ending st j x := ⟨hf, hd, .inl he⟩

theorem lt_of_rankCard {u : Use} {r : Nat} {k : CCard} (h : u.rankCard r = some k) : r < u.dies.length := by
  by_contra hr
  simp [Use.rankCard, List.getElem?_eq_none (Nat.le_of_not_lt hr)] at h

/-- A use that ends without flags leaves every rank's job finished. -/
theorem finishUse_finished {s : State} {i r : Nat} {u : Use} {st : Byte} {k : CCard} {j y : CJob} (hu : s.uses[i]? = some u)
    (hst : st ≠ 4) (hk : u.rankCard r = some k) (hy : useJob s k = some y) (hj : Ending st j y) :
    ∃ x, useJob (finishUse s i st 0) k = some x ∧ Finished st j x := by
  have hstep (t : State) (q : Nat) (h : ∃ x, useJob t k = some x ∧ Ending st j x) :
      useJob (endRank u (faultsOf s u) st 0 t q) k = useJob t k ∨
        ∃ x, useJob (endRank u (faultsOf s u) st 0 t q) k = some x ∧ Finished st j x := by
    obtain ⟨x, hx, hend⟩ := h
    unfold endRank
    split
    · next m _ =>
      rw [useJob_setUseJob t m k (endedJob_tag _ _ _ _ _)]
      split
      · exact .inr ⟨_, by rw [hx]; rfl, hend.endedJob hst _ _ _⟩
      · exact .inl rfl
    · exact .inl rfl
  have hown (t : State) (h : ∃ x, useJob t k = some x ∧ Ending st j x) :
      ∃ x, useJob (endRank u (faultsOf s u) st 0 t r) k = some x ∧ Finished st j x := by
    obtain ⟨x, hx, hend⟩ := h
    simp only [endRank, hk]
    rw [useJob_setUseJob t k k (endedJob_tag _ _ _ _ _), if_pos ⟨rfl, rfl⟩, hx]
    exact ⟨_, rfl, hend.endedJob hst _ _ _⟩
  rw [finishUse_of_use st 0 hu]
  refine foldl_reaches (P := fun t => ∃ x, useJob t k = some x ∧ Ending st j x)
    (Q := fun t => ∃ x, useJob t k = some x ∧ Finished st j x) (List.mem_range.mpr (lt_of_rankCard hk)) ⟨y, hy, hj⟩
    (fun t q _ h => ?_) hown (fun t q _ h => ?_)
  · obtain heq | ⟨x, hx, hfin⟩ := hstep t q h
    · rwa [heq]
    · exact ⟨x, hx, hfin.toEnding⟩
  · obtain ⟨x, hx, hfin⟩ := h
    obtain heq | h := hstep t q ⟨x, hx, hfin.toEnding⟩
    · exact ⟨x, heq.trans hx, hfin⟩
    · exact h

/-- A use of the current object that ends without flags, in a state that differs in uses and jobs from the one it began in. -/
theorem useEnds_finishUse {s t : State} {u v : Use} {st : Byte} (hst : st ≠ 4) (ht : t.uses = setAt s.uses s.obj v)
    (hu : ∃ y, s.uses[s.obj]? = some y) (hrank : v.rankCard = u.rankCard)
    (hjobs : ∀ k j, useJob s k = some j → ∃ y, useJob t k = some y ∧ Ending st j y) : UseEnds s (finishUse t s.obj st 0) u st 0 := by
  obtain ⟨y, hy⟩ := hu
  have hv : t.uses[s.obj]? = some v := by rw [ht, getElem?_setAt_self v hy]
  refine ⟨by rw [finishUse_uses st 0 hv, ht, dropAt_setAt], fun r k j hk hj => ?_⟩
  obtain ⟨y, hy, hend⟩ := hjobs k j hj
  obtain ⟨x, hx, hfin⟩ := finishUse_finished hv hst (hrank ▸ hk) hy hend
  exact ⟨x, hx, hfin.use, hfin.held, hfin.status, by rw [hfin.flags]; simp, hfin.doneb⟩

/-! ### The start of a use (09_copy_collective.md R266) -/

/-- The job of a card as the start of its use leaves it. -/
def startedJob (cid : Nat) (j : CJob) : CJob := { j with started := true, use := some cid }

theorem startedJob_tag (cid : Nat) (j : CJob) : (startedJob cid j).tag = j.tag := rfl

/-- The jobs of cards as the start of their use leaves them. -/
def startJobs (cid : Nat) (l : List CCard) (s : State) : State := l.foldl (fun t k => setUseJob t k (startedJob cid)) s

theorem startJobs_cores (cid : Nat) (l : List CCard) (s : State) : startJobs cid l s = { s with cores := (startJobs cid l s).cores } := by
  refine List.foldlRecOn (motive := fun t : State => t = { s with cores := t.cores }) l _ rfl fun t ht k _ => ?_
  rw [setUseJob_cores, ht]

/-- The start of a use changes nothing of a job but that it has started and its use. -/
theorem useJob_startJobs (cid : Nat) (l : List CCard) {s : State} {k : CCard} {j : CJob} (h : useJob s k = some j) :
    ∃ x, useJob (startJobs cid l s) k = some x ∧ (x = j ∨ x = startedJob cid j) := by
  refine List.foldlRecOn (motive := fun t => ∃ x, useJob t k = some x ∧ (x = j ∨ x = startedJob cid j)) l _ ⟨j, h, .inl rfl⟩
    fun t ht m _ => ?_
  obtain ⟨x, hx, hxj⟩ := ht
  rw [useJob_setUseJob t m k (startedJob_tag cid), hx]
  split
  · exact ⟨_, rfl, by rcases hxj with rfl | rfl <;> exact .inr rfl⟩
  · exact ⟨x, rfl, hxj⟩

theorem useJob_startJobs_of_mem (cid : Nat) {l : List CCard} {s : State} {k : CCard} {j : CJob} (hk : k ∈ l)
    (h : useJob s k = some j) : useJob (startJobs cid l s) k = some (startedJob cid j) := by
  have hstart (t : State) (ht : useJob t k = some j ∨ useJob t k = some (startedJob cid j)) (m : CCard)
      (hm : m.core = k.core ∧ m.tag = k.tag) : useJob (setUseJob t m (startedJob cid)) k = some (startedJob cid j) := by
    rw [useJob_setUseJob t m k (startedJob_tag cid), if_pos hm]
    rcases ht with ht | ht <;> rw [ht] <;> rfl
  have hkeep (t : State) (m : CCard) (hm : ¬ (m.core = k.core ∧ m.tag = k.tag)) :
      useJob (setUseJob t m (startedJob cid)) k = useJob t k := by
    rw [useJob_setUseJob t m k (startedJob_tag cid), if_neg hm]
  refine foldl_reaches (P := fun t => useJob t k = some j ∨ useJob t k = some (startedJob cid j))
    (Q := fun t => useJob t k = some (startedJob cid j)) hk (.inl h) (fun t m _ ht => ?_)
    (fun t ht => hstart t ht k ⟨rfl, rfl⟩) (fun t m _ ht => ?_)
  all_goals
    by_cases hm : m.core = k.core ∧ m.tag = k.tag
  · exact .inr (hstart t ht m hm)
  · rwa [hkeep t m hm]
  · exact hstart t (.inr ht) m hm
  · rwa [hkeep t m hm]

end Sys2Proof.Machine
end

section
/-! The obligation about cards and uses: each clause by the lemma about the step that it is of. -/

namespace Sys2Proof.Machine

open Sys2Proof.Claims

/-- The start of a use of the current object, with its cards' jobs. -/
def assembledState (s : State) (u : Use) : State :=
  { startJobs u.cid u.cards s with uses := setAt s.uses s.obj { u with assembled := true } }

section
variable {s : State} {u : Use}

theorem exec_collectiveAssemble_of_cut (hu : s.uses[s.obj]? = some u) (ha : u.assembled = false) (hc : u.cards ≠ [])
    (hcut : cutOff s u) :
    exec .collectiveAssemble s = .next (finishUse { s with uses := setAt s.uses s.obj (s.grouped u) } s.obj 7 0) := by
  show execCollectiveAssemble s = _
  have hopen : ¬ (u.assembled = true ∨ u.cards = []) := by simp [ha, hc]
  simp only [execCollectiveAssemble, hu, grouped_assembled, grouped_cards, if_neg hopen, useCut_grouped, (useCut_iff s u).mpr hcut,
    if_true]

/-- Whether the cards of a use agree in the fields that R267 names. -/
def Use.agrees (u : Use) : Bool := (u.cards ++ u.far).all (fun k => decide (agreeKey k.card = agreeKey u.head))

theorem agrees_iff (u : Use) : u.agrees = true ↔ ∀ k ∈ u.cards ++ u.far, agreeKey k.card = agreeKey u.head := by
  simp only [Use.agrees, List.all_eq_true, decide_eq_true_eq]

theorem agrees_eq_false_iff (u : Use) : u.agrees = false ↔ ∃ k ∈ u.cards ++ u.far, agreeKey k.card ≠ agreeKey u.head := by
  simp only [Use.agrees, List.all_eq_false, decide_eq_true_eq, ne_eq]

theorem agrees_grouped (s : State) (u : Use) : (s.grouped u).agrees = u.agrees := by
  simp only [Use.agrees, grouped_cards, grouped_far, grouped_head]

/-- COLLECTIVE_ASSEMBLE of a use with a card of every die and with jobs that nothing holds back. -/
theorem exec_collectiveAssemble_of_whole (hu : s.uses[s.obj]? = some u) (ha : u.assembled = false) (hc : u.cards ≠ [])
    (hcut : ¬ cutOff s u) (hheld : ∀ d ∈ (s.grouped u).dies, heldCard (s.grouped u) d)
    (hready : ∀ k ∈ u.cards, collReady s k = true) :
    exec .collectiveAssemble s = .next (
      if !u.agrees then finishUse (assembledState s (s.grouped u)) s.obj 6 0
      else if nelem u.head = 0 then finishUse (assembledState s (s.grouped u)) s.obj 0 0
      else assembledState s (s.grouped u)) := by
  show execCollectiveAssemble s = _
  rw [← agrees_grouped s u, ← grouped_head s u]
  have hopen : ¬ ((s.grouped u).assembled = true ∨ (s.grouped u).cards = []) := by simp [ha, hc]
  have hway : ¬ s.useCut (s.grouped u) = true := by rwa [useCut_grouped, useCut_iff]
  have hgo : ((s.grouped u).dies.all (s.grouped u).holds && (s.grouped u).cards.all (collReady s)) = true := by
    rw [Bool.and_eq_true, List.all_eq_true, List.all_eq_true, grouped_cards]
    exact ⟨fun d hd => (holds_iff _ d).mpr (hheld d hd), hready⟩
  simp only [execCollectiveAssemble, hu]
  generalize s.grouped u = v at hopen hway hgo ⊢
  have hstart : v.cards.foldl (fun t k => setUseJob t k (fun j => { j with started := true, use := some v.cid })) s =
      startJobs v.cid v.cards s := rfl
  have huses : (startJobs v.cid v.cards s).uses = s.uses := by rw [startJobs_cores]
  simp only [if_neg hopen, if_neg hway, hgo, if_true, hstart, huses]
  rfl

/-- The end of a use that has just been assembled, seen from before. -/
theorem useEnds_assembledState {st : Byte} (hst : st ≠ 4) (hu : s.uses[s.obj]? = some u) :
    UseEnds s (finishUse (assembledState s (s.grouped u)) s.obj st 0) (s.grouped u) st 0 := by
  refine useEnds_finishUse (t := assembledState s (s.grouped u)) hst rfl ⟨u, hu⟩ rfl fun k j hj => ?_
  obtain ⟨x, hx, rfl | rfl⟩ := useJob_startJobs (s.grouped u).cid (s.grouped u).cards hj
  · exact ⟨_, hx, .of_eq rfl rfl rfl⟩
  · exact ⟨_, hx, .of_eq rfl rfl rfl⟩

theorem useEnds_cut (hu : s.uses[s.obj]? = some u) :
    UseEnds s (finishUse { s with uses := setAt s.uses s.obj (s.grouped u) } s.obj 7 0) (s.grouped u) 7 0 :=
  useEnds_finishUse (by decide) rfl ⟨u, hu⟩ rfl fun _ j hj => ⟨j, hj, .of_eq rfl rfl rfl⟩

end

/-- Settles O33: a card is taken where cardTurn_iff gives it its turn, and a use of which every die has a card starts or ends as its
cards agree and NELEM says. -/
theorem collectivesAssemble : Obligations.CollectivesAssemble := by
  unfold Obligations.CollectivesAssemble
  intro s
  refine ⟨fun t rest j card hcards hjob hcard => ⟨fun ht hroom => ?_, exec_colCardTake_of_wait hcards hjob hcard⟩,
    fun u hu ha hc => ⟨grouped_of_near, fun hfar m d => mem_dies_grouped_iff hfar,
      fun hcut => ⟨_, exec_collectiveAssemble_of_cut hu ha hc hcut, useEnds_cut hu⟩, fun hcut hheld hready => ?_⟩⟩
  · refine ⟨_, exec_colCardTake_of_turn hcards hjob hcard ht hroom, ?_, ?_, takenOf_countTaken _ _ _ _, ?_⟩
    · exact congrArg Core.cards (State.me_setMe s _)
    · show (State.me (s.setMe { s.me with cards := rest })).ctx = _
      rw [State.me_setMe]
    · obtain ⟨x, hx, hopen, hkey, hcid, hk⟩ := exists_mem_joinUse s.uses (s.useKey s.cur) (cf card 28 4)
        (takenOf s.taken (s.useKey s.cur) (cf card 28 4) (dieOf s.cur)) (fun u => { u with cards := u.cards ++ [⟨s.cur, t.1, card⟩] })
      exact ⟨_, hx, hkey, hcid, hk, hopen, List.mem_append_right _ (List.mem_singleton.mpr rfl)⟩
  · have hexec := exec_collectiveAssemble_of_whole hu ha hc hcut hheld fun k hk => (hready k hk).1
    refine ⟨fun hagree hn => ?_, fun hagree hn => ?_, fun hclash => ?_⟩
    · rw [(agrees_iff u).mpr hagree, if_neg hn] at hexec
      refine ⟨_, hexec, rfl, fun k hk => ?_⟩
      obtain ⟨j, hj⟩ := Option.isSome_iff_exists.mp (hready k hk).2
      have hk' : k ∈ (s.grouped u).cards := by rwa [grouped_cards]
      exact ⟨_, useJob_startJobs_of_mem _ hk' hj, rfl, congrArg some (grouped_cid s u)⟩
    · rw [(agrees_iff u).mpr hagree, if_pos hn] at hexec
      exact ⟨_, hexec, useEnds_assembledState (by decide) hu⟩
    · rw [(agrees_eq_false_iff u).mpr hclash] at hexec
      exact ⟨_, hexec, useEnds_assembledState (by decide) hu⟩

end Sys2Proof.Machine
end

section
/-! What an access to main memory leaves of the machine, whoever makes it: the registers but for the events and the page requests
that it sends, FIDX of every queue, the partitions and the fabric cycle; a write of translated bytes leaves the cores too
(11_translation.md R299 to R325; 13_queues.md R353). -/

namespace Sys2Proof.Machine

open Sys2Proof.Claims

/-- What an access to main memory keeps. -/
structure Aside (s t : State) : Prop where
  sys : t.sys = { s.sys with events := t.sys.events, pageReqs := t.sys.pageReqs }
  fidx : ∀ q, (t.queue q).fidx = (s.queue q).fidx
  parts : t.parts = s.parts
  fabric : t.fabric = s.fabric

/-- What a write of translated bytes keeps. -/
structure Written (s t : State) : Prop extends Aside s t where
  cores : t.cores = s.cores

theorem Aside.refl (s : State) : Aside s s := ⟨rfl, fun _ => rfl, rfl, rfl⟩

theorem Aside.trans {s t u : State} (h : Aside s t) (k : Aside t u) : Aside s u :=
  ⟨by rw [k.sys, h.sys], fun q => (k.fidx q).trans (h.fidx q), k.parts.trans h.parts, k.fabric.trans h.fabric⟩

theorem Written.refl (s : State) : Written s s := ⟨.refl s, rfl⟩

theorem Written.trans {s t u : State} (h : Written s t) (k : Written t u) : Written s u :=
  ⟨h.toAside.trans k.toAside, k.cores.trans h.cores⟩

theorem Aside.foldl {α : Type} {f : State → α → State} (hf : ∀ t a, Aside t (f t a)) (l : List α) (s : State) :
    Aside s (l.foldl f s) :=
  List.foldlRecOn l f (.refl s) fun t ht a _ => ht.trans (hf t a)

/-! ### Single changes -/

/-- A map whose values are rewritten at their keys, seen through what the rewriting keeps. -/
theorem SMap.get_map_of_kept {α β : Type} {f : Nat × α → Nat × α} {g : α → β} (hf : ∀ x, (f x).1 = x.1 ∧ g (f x).2 = g x.2)
    (m : SMap α) (d : α) (k : Nat) : g (SMap.get (m.map f) d k) = g (SMap.get m d k) := by
  induction m with
  | nil => rfl
  | cons x m ih =>
    obtain ⟨hkey, hval⟩ := hf x
    show g (SMap.get (((f x).1, (f x).2) :: m.map f) d k) = g (SMap.get ((x.1, x.2) :: m) d k)
    rw [SMap.get_cons, SMap.get_cons, hkey]
    split
    · exact hval
    · exact ih

theorem written_setHome (s : State) (h : Nat) (x : Home) : Written s (s.setHome h x) := ⟨⟨rfl, fun _ => rfl, rfl, rfl⟩, rfl⟩

theorem written_sendEvent (s : State) (ty stop src : Nat) (l : List Byte) : Written s (s.sendEvent ty stop src l) :=
  ⟨⟨rfl, fun _ => rfl, rfl, rfl⟩, rfl⟩

theorem written_watchEn (s : State) (xs : List (Xl × Byte)) : Written s (s.watchEn xs) := by
  refine ⟨⟨rfl, fun q => SMap.get_map_of_kept (fun x => ?_) s.queues Queue.start q, rfl, rfl⟩, rfl⟩
  split
  · split
    · split
      · split <;> exact ⟨rfl, rfl⟩
      · exact ⟨rfl, rfl⟩
    · exact ⟨rfl, rfl⟩
  · exact ⟨rfl, rfl⟩

theorem aside_setCore (s : State) (n : Nat) (c : Core) : Aside s (s.setCore n c) := ⟨rfl, fun _ => rfl, rfl, rfl⟩

theorem aside_setQueue {s : State} {q : Nat} {x : Queue} (h : x.fidx = (s.queue q).fidx) : Aside s (s.setQueue q x) := by
  refine ⟨rfl, fun p => ?_, rfl, rfl⟩
  rw [State.queue_setQueue]
  split
  · next hp => rw [h, hp]
  · rfl

theorem aside_onJob (s : State) (k tag n : Nat) (f : CJob → CJob) : Aside s (s.onJob k tag n f) := by
  unfold State.onJob
  dsimp only
  split
  · exact .refl s
  · exact aside_setCore s _ _

theorem aside_askHost (s : State) (asid a : Nat) : Aside s (s.askHost asid a) := by
  unfold State.askHost
  dsimp only
  split
  · exact .refl s
  · exact ⟨rfl, fun _ => rfl, rfl, rfl⟩

/-! ### Writes of translated bytes -/

theorem written_putXl (s : State) (xs : List (Xl × Byte)) : Written s (s.putXl xs).1 := by
  refine Written.trans ?_ (written_watchEn _ xs)
  refine List.foldlRecOn (motive := fun o : State × List Nat => Written s o.1) _ _ ⟨⟨rfl, fun _ => rfl, rfl, rfl⟩, rfl⟩
    fun o ho h _ => ?_
  dsimp only
  split
  · exact ho
  · exact ho.trans (written_setHome _ _ _)

theorem written_writeXl (s : State) (req : Option Req) (xs : List (Xl × Byte)) (n : Nat) (fl : Byte) (logs : Nat) :
    Written s (writeXl s req xs n fl logs).1 := by
  unfold writeXl
  dsimp only
  split
  · exact written_putXl s _
  · split
    · exact .refl s
    · have hheld (h : Nat) (x : Home) (l : List (Xl × Byte)) : Written s ((s.putXl l).1.setHome h x) :=
        (written_putXl s l).trans (written_setHome _ h x)
      split
      · exact (hheld _ _ _).trans (written_sendEvent _ _ _ _ _)
      · exact hheld _ _ _
  · exact .refl s

/-! ### Requests at their homes -/

theorem aside_poison (s : State) (xs : List Xl) : Aside s (s.poison xs) := by
  unfold State.poison
  split
  · exact (written_sendEvent _ _ _ _ _).toAside
  · exact .refl s

theorem aside_reqEvent (s : State) (home : Nat) (r : Req) : Aside s (s.reqEvent home r) := (written_sendEvent _ _ _ _ _).toAside

/-- A choice between two answers. -/
theorem aside_ite {s : State} {c : Prop} [Decidable c] {x y : State × RRes} (hx : Aside s x.1) (hy : Aside s y.1) :
    Aside s (if c then x else y).1 := by
  split
  · exact hx
  · exact hy

theorem aside_readAt (s : State) (r : Req) (home : Nat) (xs : List (Option Xl)) : Aside s (readAt s r home xs).1 := by
  unfold readAt
  refine aside_ite (.refl s) <| aside_ite (.refl s) <| aside_ite (.refl s) <| aside_ite (aside_poison s _) ?_
  split <;> exact .refl s

theorem aside_logLines (s : State) (r : Req) (l : List (Nat × Nat × Nat × Byte)) : Aside s (logLines s r l).1 := by
  refine List.foldlRecOn (motive := fun o : State × Nat => Aside s o.1) _ _ (.refl s) fun o ho h _ => ?_
  refine List.foldlRecOn (motive := fun o : State × Nat => Aside s o.1) _ _ ho fun p hp g _ => ?_
  exact hp.trans ((written_setHome _ _ _).trans (written_sendEvent _ _ _ _ _)).toAside

theorem aside_addLogs (s : State) (r : Req) (k : Nat) : Aside s (s.addLogs r k) := by
  unfold State.addLogs
  split
  · exact aside_onJob s _ _ _ _
  · exact aside_onJob s _ _ _ _
  · exact .refl s
  · exact .refl s

theorem aside_writeAt (s : State) (r : Req) (home : Nat) (xs : List (Option Xl)) (data : List Byte) (fl : Byte) :
    Aside s (writeAt s r home xs data fl).1 := by
  have hgo (l : List (Nat × Nat × Nat × Byte)) (w : List (Xl × Byte)) (m : Nat) :
      Aside s (writeXl (logLines s r l).1 (some r) w m fl 0).1 :=
    (aside_logLines s r l).trans (written_writeXl _ _ _ _ _ _).toAside
  have hwrite (l : List (Nat × Nat × Nat × Byte)) (w : List (Xl × Byte)) (m : Nat) : Aside s (
      match (writeXl (logLines s r l).1 (some r) w m fl 0).2 with
      | .stall => (s, RRes.stall)
      | .waiting => ((writeXl (logLines s r l).1 (some r) w m fl 0).1.addLogs r (logLines s r l).2, .waiting)
      | _ => ((writeXl (logLines s r l).1 (some r) w m fl 0).1, .done m fl (logLines s r l).2)).1 := by
    split
    · exact .refl s
    · exact (hgo l w m).trans (aside_addLogs _ _ _)
    · exact hgo l w m
  unfold writeAt
  refine aside_ite (.refl s) <| aside_ite (.refl s) <| aside_ite (.refl s) <| aside_ite (hwrite _ _ _) ?_
  split
  · exact aside_ite (.refl s) (hwrite _ _ _)
  · exact .refl s

theorem aside_performXl (s : State) (r : Req) (home : Nat) (xs : List (Option Xl)) : Aside s (performXl s r home xs).1 := by
  unfold performXl
  split
  · exact aside_readAt s r home xs
  · split
    · exact .refl s
    · exact aside_readAt s r home xs
  · dsimp only
    split
    · exact .refl s
    split
    · exact .refl s
    · exact .refl s
    · split
      · exact .refl s
      split
      · exact aside_poison s _
      · exact (written_writeXl _ _ _ _ _ _).toAside
  · split
    · exact aside_writeAt _ _ _ _ _ _
    · exact .refl s

theorem aside_attempt (s : State) (r : Req) (t : Option Nat) (busy : Bool) : Aside s (attempt s r t busy).1 := by
  unfold attempt
  dsimp only
  split
  · exact .refl s
  · exact aside_performXl _ _ _ _

theorem aside_logAtomic (s : State) (r : Req) (home : Nat) : Aside s (logAtomic s r home) :=
  ((written_setHome _ _ _).trans (written_sendEvent _ _ _ _ _)).toAside

theorem aside_holdReq (s : State) (r : Req) (home : Nat) : Aside s (holdReq s r home) :=
  (written_setHome _ _ _).toAside.trans (aside_reqEvent _ _ _)

theorem aside_forwardReq (s : State) (r : Req) (home : Nat) (xs : List (Option Xl)) : Aside s (forwardReq s r home xs) :=
  (written_setHome _ _ _).toAside

theorem aside_accessMain (s : State) (r : Req) (t : Option Nat) : Aside s (accessMain s r t).1 := by
  have hasked (u : State) (l : List Nat) : Aside u (l.foldl (fun u a => u.askHost (s.fix r).asid a) u) :=
    .foldl (fun t a => aside_askHost t _ a) l u
  have hdone := aside_attempt s (s.fix r) t true
  unfold accessMain
  dsimp only
  split
  · split
    · exact (hasked s _).trans (aside_logAtomic _ _ _)
    · exact (hasked s _).trans (aside_holdReq _ _ _)
  · exact (hasked s _).trans (aside_holdReq _ _ _)
  · exact hdone.trans (aside_reqEvent _ _ _)
  · exact hdone.trans (written_setHome _ _ _).toAside
  · exact aside_forwardReq _ _ _ _
  · split
    · exact hdone
    · exact hdone.trans (hasked _ _)
  · exact hdone.trans (hasked _ _)
  · exact hdone

/-! ### The command processor's own reads and writes (13_queues.md R352 to R354, R384) -/

theorem aside_holdAt (s : State) (o : Origin) (asid y : Nat) : Aside s (holdAt s o asid y) :=
  (aside_askHost s asid y).trans (aside_holdReq _ _ _)

theorem aside_noteRead (s : State) (x : Look) : Aside s (s.noteRead x) := by
  unfold State.noteRead
  split
  · split
    · exact .refl s
    · exact aside_holdAt _ _ _ _
  · split
    · exact aside_accessMain _ _ _
    · exact .refl s
  · exact .refl s
  · exact .refl s

theorem aside_pktRead (s : State) (o : Origin) (asid a n : Nat) : Aside s (pktRead s o asid a n).1 := by
  unfold pktRead
  split
  · exact .refl s
  split
  · exact .refl s
  · exact aside_holdAt _ _ _ _
  · exact aside_accessMain _ _ _
  · exact .refl s

theorem aside_sendLines (fuel : Nat) (s : State) (a : Nat) (l : List Byte) : Aside s (sendLines fuel s a l) := by
  induction fuel generalizing s a l with
  | zero => exact .refl s
  | succ fuel ih =>
    have haway (f : Flit) (a : Nat) (l : List Byte) : Aside s (sendLines fuel { s with air := s.air ++ [f] } a l) :=
      Aside.trans (t := { s with air := s.air ++ [f] }) ⟨rfl, fun _ => rfl, rfl, rfl⟩ (ih _ a l)
    unfold sendLines
    dsimp only
    split
    · exact .refl s
    split
    · exact haway _ _ _
    split
    · exact (aside_accessMain _ _ _).trans (ih _ _ _)
    · exact haway _ _ _
    · exact haway _ _ _
    · exact (aside_accessMain _ _ _).trans (ih _ _ _)

theorem aside_writeDesc (s : State) (q off : Nat) (l : List Byte) : Aside s (writeDesc s q off l) := aside_sendLines _ _ _ _

theorem aside_putRec (s : State) (place : Nat) (l : List Byte) : Aside s (s.putRec place l) := by
  unfold State.putRec
  split
  · exact aside_sendLines _ _ _ _
  · exact .refl s

theorem aside_journal (s : State) (l : List JRec) : Aside s { s with journal := l } := ⟨rfl, fun _ => rfl, rfl, rfl⟩

theorem aside_setRec (s : State) (q seq : Nat) (f : JRec → JRec) : Aside s (s.setRec q seq f) :=
  (aside_journal s _).trans (.foldl (fun t _ => aside_putRec t _ _) _ _)

theorem aside_freeRec (s : State) (q seq : Nat) : Aside s (s.freeRec q seq) :=
  (aside_journal s _).trans (.foldl (fun t _ => aside_putRec t _ _) _ _)

theorem aside_queueDesc (s : State) (q : Nat) (d : QDesc) : Aside s (s.setQueue q { s.queue q with desc := d }) :=
  aside_setQueue rfl

theorem aside_queueStopped (s : State) (q : Nat) (b : Bool) : Aside s (s.setQueue q { s.queue q with stopped := b }) :=
  aside_setQueue rfl

theorem aside_queueProducer (s : State) (q n : Nat) : Aside s (s.setQueue q { s.queue q with producer := n }) :=
  aside_setQueue rfl

theorem aside_queueWake (s : State) (q : Nat) (d : QDesc) (n : Nat) :
    Aside s (s.setQueue q { s.queue q with desc := d, producer := n }) :=
  aside_setQueue rfl

theorem aside_queueCstop (s : State) (q : Nat) (b : Bool) : Aside s (s.setQueue q { s.queue q with cstop := b }) :=
  aside_setQueue rfl

theorem aside_queueEntry (s : State) (q : Nat) (l : List Pkt) (n : Nat) :
    Aside s (s.setQueue q { s.queue q with pkts := l, cidx := n }) :=
  aside_setQueue rfl

theorem aside_clearEn (s : State) (q : Nat) : Aside s (clearEn s q) := (aside_writeDesc s q 0x1F _).trans (aside_queueDesc _ q _)

theorem aside_stopQueue (s : State) (q : Nat) : Aside s (stopQueue s q) := (aside_clearEn s q).trans (aside_queueStopped _ q true)

theorem aside_ringWrite (s : State) (q asid a : Nat) (l : List Byte) : Aside s (ringWrite s q asid a l).1 := by
  unfold ringWrite
  dsimp only
  split
  · exact .refl s
  split
  · exact aside_holdAt _ _ _ _
  · exact aside_reqEvent _ _ _
  · exact .refl s
  · split
    · exact aside_accessMain _ _ _
    · exact aside_accessMain _ _ _
    · exact aside_accessMain _ _ _
    · exact .refl s

theorem aside_queueOn (s : State) (q : Nat) (d : QDesc) : Aside s
    (s.setQueue q { s.queue q with desc := d, rho0 := none, prevRho := none, stopped := false, cstop := false }) :=
  aside_setQueue rfl

/-- `refresh` after the read of the descriptor. -/
def refreshed (t : State) (x : Look) (q : Nat) (d : QDesc) : State :=
  match x with
  | .absent _ | .wait => t
  | _ =>
    if d.en && !(t.queue q).desc.en then
      t.setQueue q { t.queue q with desc := d, rho0 := none, prevRho := none, stopped := false, cstop := false }
    else if !d.en && (t.queue q).desc.en then t.setQueue q { t.queue q with desc := { (t.queue q).desc with en := false } }
    else t

theorem refresh_eq {s : State} {q : Nat} {x : Look} (h : s.look 0 (s.qAddr q) 64 = x) :
    refresh s q = refreshed (s.noteRead x) x q (s.qdesc q) := by
  rw [refresh, h]
  rfl

theorem aside_refreshed (t : State) (x : Look) (q : Nat) (d : QDesc) : Aside t (refreshed t x q d) := by
  unfold refreshed
  split
  · exact .refl t
  · exact .refl t
  · split
    · exact aside_queueOn t q d
    split
    · exact aside_queueDesc t q _
    · exact .refl t

theorem aside_refresh (s : State) (q : Nat) : Aside s (refresh s q) := by
  obtain ⟨x, hx⟩ : ∃ x, s.look 0 (s.qAddr q) 64 = x := ⟨_, rfl⟩
  rw [refresh_eq hx]
  exact (aside_noteRead s x).trans (aside_refreshed _ x q _)

theorem aside_readWakeOff (s : State) (q : Nat) : Aside s (readWakeOff s q) := by
  have hread := aside_pktRead s (ringOf q) (s.qdesc q).asid (s.qdesc q).wake 8
  unfold readWakeOff
  dsimp only
  split
  · exact .refl s
  generalize pktRead s (ringOf q) (s.qdesc q).asid (s.qdesc q).wake 8 = x at hread ⊢
  split
  · exact hread.trans (aside_queueWake _ q _ _)
  · exact hread
  · exact hread.trans (aside_queueStopped _ q true)

/-- `readWake` after the read of the descriptor. -/
def wokenWith (s : State) (q : Nat) : State :=
  if (s.queue q).desc.en then
    match (pktRead s (ringOf q) (s.queue q).desc.asid (s.queue q).desc.wake 8).2 with
    | .ok l => (pktRead s (ringOf q) (s.queue q).desc.asid (s.queue q).desc.wake 8).1.setQueue q
        { (pktRead s (ringOf q) (s.queue q).desc.asid (s.queue q).desc.wake 8).1.queue q with producer := leAt l 0 2 }
    | .wait => (pktRead s (ringOf q) (s.queue q).desc.asid (s.queue q).desc.wake 8).1
    | .fail => stopQueue (pktRead s (ringOf q) (s.queue q).desc.asid (s.queue q).desc.wake 8).1 q
  else readWakeOff s q

theorem readWake_eq (s : State) (q : Nat) : readWake s q = wokenWith (refresh s q) q := by
  rw [readWake]
  rfl

theorem aside_wokenWith (s : State) (q : Nat) : Aside s (wokenWith s q) := by
  have hread := aside_pktRead s (ringOf q) (s.queue q).desc.asid (s.queue q).desc.wake 8
  unfold wokenWith
  split
  · generalize pktRead s (ringOf q) (s.queue q).desc.asid (s.queue q).desc.wake 8 = x at hread ⊢
    split
    · exact hread.trans (aside_queueProducer _ q _)
    · exact hread
    · exact hread.trans (aside_stopQueue _ q)
  · exact aside_readWakeOff s q

theorem aside_readWake (s : State) (q : Nat) : Aside s (readWake s q) := by
  rw [readWake_eq]
  exact (aside_refresh s q).trans (aside_wokenWith _ q)

theorem aside_markDone (s : State) (q : Nat) : Aside s (markDone s q) := by
  unfold markDone
  split
  · split
    · exact aside_setRec _ _ _ _
    · exact .refl s
  · exact .refl s

/-- The entry of a completed packet is written: the ring moves on, and the packet's record becomes free. -/
theorem aside_entryDone (s : State) (q : Nat) (k : List Pkt) (n seq off : Nat) (l pay : List Byte) (clear notify : Bool) :
    Aside s (
      let t2 := writeDesc ((s.setQueue q { s.queue q with pkts := k, cidx := n }).freeRec q seq) q off l
      let t3 := if clear then clearEn t2 q else t2
      if notify then t3.sendEvent 1 0xFF 16 pay else t3) := by
  have hmoved : Aside s (writeDesc ((s.setQueue q { s.queue q with pkts := k, cidx := n }).freeRec q seq) q off l) :=
    ((aside_queueEntry s q k n).trans (aside_freeRec _ q seq)).trans (aside_writeDesc _ q off l)
  dsimp only
  generalize writeDesc _ q off l = t at hmoved ⊢
  have hcleared : Aside t (if clear then clearEn t q else t) := by
    split
    · exact aside_clearEn t q
    · exact .refl t
  split
  · exact (hmoved.trans hcleared).trans (written_sendEvent _ _ _ _ _).toAside
  · exact hmoved.trans hcleared

theorem aside_writeEntry (s : State) (q : Nat) : Aside s (writeEntry s q) := by
  refine (aside_markDone s q).trans ?_
  unfold writeEntry
  dsimp only
  generalize markDone s q = t
  split
  · next p rest _ =>
    split
    · next st0 _ =>
      split
      · exact .refl t
      split
      · exact aside_noteRead _ _
      split
      · exact .refl t
      generalize (if p.failed = true ∧ st0 = 0 then (0x05 : Byte) else st0) = st
      generalize (if p.failed = true ∧ st0 = 0 then REJ_FOOT else p.rej) = rej
      have hring := aside_ringWrite t q p.desc.asid (p.desc.cring + 64 * (p.seq % 2 ^ p.desc.log2n)) (entryBytes t q p st rej)
      generalize ringWrite t q p.desc.asid _ _ = x at hring ⊢
      split
      · exact hring
      · exact (hring.trans (aside_stopQueue _ q)).trans (aside_queueCstop _ q true)
      · exact hring.trans (aside_entryDone x.1 q rest _ p.seq 0x2C _ _ _ _)
    · exact .refl t
  · exact .refl t

end Sys2Proof.Machine
end

section
/-! The small steps of the module: messages, power windows, clocks, ports and soft errors (10_phase_sync.md R292, R293;
14_system.md R388, R396, R399, R404, R405). -/

namespace Sys2Proof.Machine

open Sys2Proof.Claims

/-! ### Little-endian bytes -/

theorem leBytes_succ (n v : Nat) : leBytes (n + 1) v = BitVec.ofNat 8 v :: leBytes n (v / 256) := by
  have hbyte (i : Nat) : v / 2 ^ (8 * (i + 1)) = v / 256 / 2 ^ (8 * i) := by
    rw [Nat.div_div_eq_div_mul, Nat.mul_add, pow_add, Nat.mul_comm]
    rfl
  simp only [leBytes, List.range_succ_eq_map, List.map_cons, List.map_map, Function.comp_def, Nat.succ_eq_add_one, hbyte]
  simp

theorem ofLe_leBytes (n v : Nat) : ofLe (leBytes n v) = v % 2 ^ (8 * n) := by
  induction n generalizing v with
  | zero => simp [leBytes, ofLe, Nat.mod_one]
  | succ n ih =>
    rw [leBytes_succ, ofLe, ih, BitVec.toNat_ofNat, show 2 ^ (8 * (n + 1)) = 2 ^ 8 * 2 ^ (8 * n) from by rw [← pow_add]; congr 1; ring,
      Nat.mod_mul]
    rfl

theorem leAt_leBytes (n v : Nat) : leAt (leBytes n v) 0 n = v % 2 ^ (8 * n) := by
  rw [leAt, List.drop_zero, List.take_of_length_le (by simp), ofLe_leBytes]

theorem leAt_append_left {l r : List Byte} {off n : Nat} (h : off + n ≤ l.length) : leAt (l ++ r) off n = leAt l off n := by
  rw [leAt, List.drop_append_of_le_length (by omega), List.take_append_of_le_length (by simp; omega), leAt]

theorem leAt_append_right {l r : List Byte} {off n : Nat} (h : l.length ≤ off) : leAt (l ++ r) off n = leAt r (off - l.length) n := by
  rw [leAt, List.drop_append, List.drop_eq_nil_of_le h, List.nil_append, leAt]

/-! ### MSI-X (14_system.md R396) -/

theorem msixFree_iff (s : State) : s.msixFree = true ↔ (s.sys.msixSent = 0 ∨ s.sys.msixLast + 2000 ≤ s.fabric) := decide_eq_true_iff

theorem exec_msixCoalesceExpiry_idle {s : State}
    (h : s.sys.msixWait = false ∨ (s.sys.msixSent ≠ 0 ∧ s.fabric < s.sys.msixLast + 2000)) :
    exec .msixCoalesceExpiry s = .next s := by
  have hno : ¬ (s.sys.msixWait && s.msixFree) = true := by
    rw [Bool.and_eq_true, msixFree_iff]
    rintro ⟨hwait, hfree⟩
    obtain h | ⟨hsent, hlast⟩ := h
    · simp [h] at hwait
    · omega
  show Host.Outcome.next (if _ then _ else _) = _
  rw [if_neg hno]

theorem exec_msixCoalesceExpiry_send {s : State} (hwait : s.sys.msixWait = true)
    (hfree : s.sys.msixSent = 0 ∨ s.sys.msixLast + 2000 ≤ s.fabric) : exec .msixCoalesceExpiry s = .next s.sendMsix := by
  show Host.Outcome.next (if _ then _ else _) = _
  rw [if_pos (by rw [hwait, (msixFree_iff s).mpr hfree]; rfl)]

/-! ### Power windows (14_system.md R404) -/

/-- The dies that were throttled. -/
def State.slowDies (s : State) : List Nat := (List.range 64).filter (fun d => decide ((s.die d).grant < 16))

theorem mem_slowDies {s : State} {d : Nat} : d ∈ s.slowDies ↔ d < 64 ∧ (s.die d).grant < 16 := by simp [State.slowDies]

theorem throttleEvent_dies (s : State) : (throttleEvent s).dies = s.dies := by
  unfold throttleEvent
  dsimp only
  split <;> rfl

theorem throttleEvent_window0 (s : State) : (throttleEvent s).sys.window0 = s.sys.window0 := by
  unfold throttleEvent
  dsimp only
  split <;> rfl

theorem throttleEvent_of_none {s : State} (h : ∀ d < 64, 16 ≤ (s.die d).grant) : throttleEvent s = s := by
  have hslow : s.slowDies = [] := List.eq_nil_iff_forall_not_mem.mpr fun d hd => by
    obtain ⟨hlt, hgrant⟩ := mem_slowDies.mp hd
    exact absurd (h d hlt) (by omega)
  show (if s.slowDies.isEmpty then s else _) = s
  rw [hslow]
  rfl

theorem foldl_min_le_init (f : Nat → Nat) (l : List Nat) (b : Nat) : l.foldl (fun g d => min g (f d)) b ≤ b := by
  induction l generalizing b with
  | nil => exact Nat.le_refl b
  | cons x l ih => exact (ih _).trans (Nat.min_le_left _ _)

theorem foldl_min_le_mem (f : Nat → Nat) {l : List Nat} {d : Nat} (hd : d ∈ l) (b : Nat) :
    l.foldl (fun g d => min g (f d)) b ≤ f d := by
  induction l generalizing b with
  | nil => cases hd
  | cons x l ih =>
    rw [List.foldl_cons]
    obtain rfl | hd := List.mem_cons.mp hd
    · exact (foldl_min_le_init f l _).trans (Nat.min_le_right _ _)
    · exact ih hd _

/-- The number with the bits of the numbers below n for which p holds. -/
def bitsWhere (p : Nat → Bool) (n : Nat) : Nat := ((List.range n).filter p).foldl (fun m d => m + 2 ^ d) 0

theorem bitsWhere_succ (p : Nat → Bool) (n : Nat) : bitsWhere p (n + 1) = bitsWhere p n + if p n then 2 ^ n else 0 := by
  unfold bitsWhere
  rw [List.range_succ, List.filter_append, List.foldl_append]
  cases h : p n <;> simp [h]

theorem bitsWhere_lt (p : Nat → Bool) (n : Nat) : bitsWhere p n < 2 ^ n := by
  induction n with
  | zero => exact Nat.one_pos
  | succ n ih =>
    rw [bitsWhere_succ, pow_succ]
    split <;> omega

theorem testBit_bitsWhere (p : Nat → Bool) {n d : Nat} (hd : d < n) : (bitsWhere p n).testBit d = p d := by
  induction n with
  | zero => omega
  | succ n ih =>
    rw [bitsWhere_succ]
    obtain rfl | hlt := Nat.eq_or_lt_of_le (Nat.le_of_lt_succ hd)
    · cases hp : p d
      · simpa using Nat.testBit_lt_two_pow (bitsWhere_lt p d)
      · rw [if_pos rfl, Nat.add_comm, Nat.testBit_two_pow_add_eq, Nat.testBit_lt_two_pow (bitsWhere_lt p d)]
        rfl
    · cases p n
      · simpa using ih hlt
      · rw [if_pos rfl, Nat.add_comm, Nat.testBit_two_pow_add_gt hlt, ih hlt]

theorem throttleEvent_of_slow {s : State} (h : ∃ d < 64, (s.die d).grant < 16) : ∃ g,
    (throttleEvent s).sys.events = s.sys.events ++ [⟨5, 0, 18, s.fabric, leBytes 7 s.sys.window0 ++ leBytes 1 g ++
      leBytes 8 (bitsWhere (fun d => decide ((s.die d).grant < 16)) 64)⟩] ∧ g ≤ 16 ∧ ∀ d < 64, g ≤ (s.die d).grant := by
  have hslow : ¬ s.slowDies.isEmpty = true := by
    obtain ⟨d, hlt, hgrant⟩ := h
    rw [List.isEmpty_iff]
    exact List.ne_nil_of_mem (mem_slowDies.mpr ⟨hlt, hgrant⟩)
  have hle := foldl_min_le_init (fun d => (s.die d).grant) s.slowDies 16
  refine ⟨_, ?_, hle, fun d hd => ?_⟩
  · show (if s.slowDies.isEmpty then s else _).sys.events = _
    rw [if_neg hslow]
    rfl
  · by_cases hgrant : (s.die d).grant < 16
    · exact foldl_min_le_mem (fun d => (s.die d).grant) (mem_slowDies.mpr ⟨hd, hgrant⟩) 16
    · omega

theorem exec_powerWindow_wait {s : State} {gs : List Nat} (h : s.now < s.sys.window0 + 10000 ∨ gs.length ≠ 64) :
    exec (.powerWindow gs) s = .next s := by
  show Host.Outcome.next (if _ then _ else _) = _
  rw [if_neg (by rintro ⟨hnow, hlen, -⟩; omega)]

/-- The state after a power window. -/
def State.granted (s : State) (gs : List Nat) : State :=
  { throttleEvent s with
    dies := (throttleEvent s).dies.fill Die.start 0 64 (fun d => { (throttleEvent s).die d with grant := gs.getD d 16 }),
    sys := { (throttleEvent s).sys with window0 := (throttleEvent s).sys.window0 + 10000 } }

theorem exec_powerWindow {s : State} {gs : List Nat} (hnow : s.sys.window0 + 10000 ≤ s.now) (hlen : gs.length = 64)
    (hgs : ∀ g ∈ gs, 1 ≤ g ∧ g ≤ 16) : exec (.powerWindow gs) s = .next (s.granted gs) := by
  have hall : gs.all (fun g => decide (1 ≤ g ∧ g ≤ 16)) = true := List.all_eq_true.mpr fun g hg => decide_eq_true (hgs g hg)
  show Host.Outcome.next (if _ then _ else _) = _
  rw [if_pos ⟨hnow, hlen, hall⟩]
  rfl

theorem granted_die {s : State} {gs : List Nat} {d : Nat} (hd : d < 64) :
    (s.granted gs).die d = { s.die d with grant := gs.getD d 16 } := by
  show SMap.get (SMap.fill _ _ 0 64 _) _ d = _
  rw [SMap.get_fill, if_pos (by omega), State.die, throttleEvent_dies]
  simp only [Nat.sub_zero]
  rfl

theorem powerWindow_grants (s : State) (gs : List Nat) :
    ((s.now < s.sys.window0 + 10000 ∨ gs.length ≠ 64) → exec (.powerWindow gs) s = .next s) ∧
    (s.sys.window0 + 10000 ≤ s.now → gs.length = 64 → (∀ g ∈ gs, 1 ≤ g ∧ g ≤ 16) →
      ∃ t, exec (.powerWindow gs) s = .next t ∧ t.sys.window0 = s.sys.window0 + 10000 ∧
        (∀ d g, gs[d]? = some g → (t.die d).grant = g ∧ (t.die d).clock = (s.die d).clock) ∧
        ((∀ d < 64, 16 ≤ (s.die d).grant) → t.sys.events = s.sys.events) ∧
        ((∃ d < 64, (s.die d).grant < 16) → ∃ e, t.sys.events = s.sys.events ++ [e] ∧ e.ty = 5 ∧
          leAt e.payload 0 7 = s.sys.window0 % 2 ^ 56 ∧ (∀ d < 64, leAt e.payload 7 1 ≤ (s.die d).grant) ∧
          ∀ d < 64, (leAt e.payload 8 8).testBit d = decide ((s.die d).grant < 16))) := by
  refine ⟨exec_powerWindow_wait, fun hnow hlen hgs => ⟨s.granted gs, exec_powerWindow hnow hlen hgs, ?_, ?_, ?_, ?_⟩⟩
  · exact congrArg (· + 10000) (throttleEvent_window0 s)
  · intro d g hg
    rw [granted_die (by have := (List.getElem?_eq_some_iff.mp hg).1; omega)]
    exact ⟨by simp [List.getD, hg], rfl⟩
  · intro h
    exact congrArg (·.sys.events) (throttleEvent_of_none h)
  · intro h
    obtain ⟨g, hevents, hg16, hg⟩ := throttleEvent_of_slow h
    refine ⟨_, hevents, rfl, ?_, fun d hd => ?_, fun d hd => ?_⟩
    · rw [List.append_assoc, leAt_append_left (by simp), leAt_leBytes]
    · rw [leAt_append_left (by simp), leAt_append_right (by simp), leBytes_length, leAt_leBytes]
      exact (Nat.mod_le _ _).trans (hg d hd)
    · rw [leAt_append_right (by simp), List.length_append, leBytes_length, leBytes_length, leAt_leBytes,
        Nat.mod_eq_of_lt (bitsWhere_lt _ 64), testBit_bitsWhere _ hd]

/-! ### Clocks (14_system.md R399; 10_phase_sync.md R292, R293) -/

theorem girdleBeacon_steers (s : State) :
    ∃ t, exec .girdleBeacon s = .next t ∧ t.sys = { s.sys with edges := t.sys.edges } ∧
      (∀ e, 1 ≤ e → e < 4 → let k := SMap.get t.sys.edges Clock.start e
        k.dtc = (SMap.get s.sys.edges Clock.start e).dtc ∧ k.corr = (s.sys.clock.dtc - k.dtc).toInt ∧ k.credit = 0) ∧
      ∀ d < 64, (t.die d).clock.corr = (s.sys.clock.dtc - (s.die d).clock.dtc).toInt ∧
        (t.die d).clock.dtc = (s.die d).clock.dtc ∧ (t.die d).clock.credit = 0 ∧ (t.die d).grant = (s.die d).grant := by
  refine ⟨_, rfl, rfl, fun e hlo hhi => ?_, fun d hd => ?_⟩
  · dsimp only
    rw [SMap.get_fill, if_pos (by omega), Nat.add_sub_cancel' hlo]
    exact ⟨rfl, rfl, rfl⟩
  · rw [State.die, SMap.get_fill, if_pos (by omega)]
    exact ⟨rfl, rfl, rfl, rfl⟩

/-- The state after a sync interval. -/
def State.synced (s : State) (off : Int) (bound : Nat) : State :=
  let n := if off.natAbs < 1000 then min 16 (s.sys.syncs + 1) else 0
  { s with sys := { s.sys with
      clock := s.sys.clock.aim off, syncs := n, locked := decide (n = 16),
      dtskew := if n = 16 then BitVec.ofNat 64 bound else BitVec.allOnes 64 } }

theorem ptpSync_steers (s : State) (off : Int) (bound : Nat) :
    ((∀ l < 16, SMap.get s.sys.links false l = false) → exec (.ptpSync off bound) s = .next s) ∧
    ((∃ l < 16, SMap.get s.sys.links false l = true) →
      ∃ t, exec (.ptpSync off bound) s = .next t ∧ t.sys.clock = ⟨s.sys.clock.dtc, off, 0⟩ ∧
        t.sys.syncs = (if off.natAbs < 1000 then min 16 (s.sys.syncs + 1) else 0) ∧
        (t.sys.locked = true ↔ t.sys.syncs = 16) ∧ (t.sys.syncs ≠ 16 → t.sys.dtskew = BitVec.allOnes 64)) := by
  have hup : (List.range 16).any s.linkUp = true ↔ ∃ l < 16, SMap.get s.sys.links false l = true := by
    simp [State.linkUp]
  constructor
  · intro h
    show Host.Outcome.next (if _ then _ else _) = _
    rw [if_neg (by rw [hup]; rintro ⟨l, hl, hon⟩; simp [h l hl] at hon)]
  · intro h
    have hgo : exec (.ptpSync off bound) s = .next (s.synced off bound) := by
      show Host.Outcome.next (if _ then _ else _) = _
      rw [if_pos (hup.mpr h)]
      rfl
    exact ⟨_, hgo, rfl, rfl, decide_eq_true_iff, fun hn => if_neg hn⟩

/-! ### Ports and soft errors (14_system.md R388, R405) -/

theorem cxlPortTrain_trains (s : State) :
    (∀ w, (w ≠ 4 ∧ w ≠ 8 ∧ w ≠ 16) → ∀ x, exec (.cxlPortTrain x w) s = .next s) ∧
    (∀ w, (w = 4 ∨ w = 8 ∨ w = 16) →
      exec (.cxlPortTrain false w) s = .next { s with sys := { s.sys with port0 := w } } ∧
      exec (.cxlPortTrain true w) s = .next { s with sys := { s.sys with port2 := w } }) := by
  constructor
  · rintro w ⟨h4, h8, h16⟩ x
    show Host.Outcome.next (if trainWidth w ≠ 0 then _ else _) = _
    rw [if_neg (by simp [trainWidth, h4, h8, h16])]
  · rintro w (rfl | rfl | rfl) <;> exact ⟨rfl, rfl⟩

theorem exec_patrolScrub {s : State} (h : s.obj < 4) (n : Nat) : exec (.patrolScrub n) s =
    .next (s.setHome s.obj { s.home s.obj with corrected := (s.home s.obj).corrected + n }) := by
  show Host.Outcome.next (if 4 ≤ s.obj then _ else _) = _
  rw [if_neg (by omega)]

theorem exec_correctedErrorSummary_early {s : State} {x : Nat} (hx : (s.home s.obj).summed = some x)
    (hnow : s.nowAt s.obj < x + 1000000000) : exec .correctedErrorSummary s = .next s := by
  show Host.Outcome.next (if 4 ≤ s.obj ∨ (match (s.home s.obj).summed with | some t => _ | none => _) = true then _ else _) = _
  rw [hx, if_pos (.inr (decide_eq_true hnow))]

theorem exec_correctedErrorSummary_due {s : State} (h : s.obj < 4)
    (hdue : ∀ x, (s.home s.obj).summed = some x → x + 1000000000 ≤ s.nowAt s.obj) : exec .correctedErrorSummary s =
      .next ((s.setHome s.obj { s.home s.obj with summed := some (s.nowAt s.obj) }).sendEvent 8 (stopOfEdge s.obj) 9
        (leBytes 8 s.obj ++ leBytes 8 (s.home s.obj).corrected)) := by
  show Host.Outcome.next (if 4 ≤ s.obj ∨ (match (s.home s.obj).summed with | some t => _ | none => _) = true then _ else _) = _
  rw [if_neg]
  rintro (h4 | hearly)
  · omega
  · cases hsum : (s.home s.obj).summed with
    | none => simp [hsum] at hearly
    | some x =>
      have := hdue x hsum
      simp [hsum] at hearly
      omega

theorem correctedErrors_counted {s : State} (h : s.obj < 4) :
    (∀ n, exec (.patrolScrub n) s =
        .next (s.setHome s.obj { s.home s.obj with corrected := (s.home s.obj).corrected + n })) ∧
      (∀ x, (s.home s.obj).summed = some x → s.nowAt s.obj < x + 1000000000 → exec .correctedErrorSummary s = .next s) ∧
      ((∀ x, (s.home s.obj).summed = some x → x + 1000000000 ≤ s.nowAt s.obj) →
        ∃ t e, exec .correctedErrorSummary s = .next t ∧ (t.home s.obj).summed = some (s.nowAt s.obj) ∧
          t.sys.events = s.sys.events ++ [e] ∧ e.ty = 8 ∧ leAt e.payload 0 8 = s.obj ∧
          leAt e.payload 8 8 = (s.home s.obj).corrected % 2 ^ 64) := by
  refine ⟨exec_patrolScrub h, fun x => exec_correctedErrorSummary_early, fun hdue =>
    ⟨_, _, exec_correctedErrorSummary_due h hdue, ?_, rfl, rfl, ?_, ?_⟩⟩
  · show ((s.setHome _ _).home s.obj).summed = _
    rw [State.home_setHome, if_pos rfl]
  · rw [leAt_append_left (by simp), leAt_leBytes, Nat.mod_eq_of_lt (by omega)]
  · rw [leAt_append_right (by simp), leBytes_length, leAt_leBytes]

end Sys2Proof.Machine
end

section
/-! The event arbiter: which event goes, the record in the ring, MSI-X and the trap event's effect (01_machine.md R31;
12_traps.md R326; 13_queues.md R385; 14_system.md R396). -/

namespace Sys2Proof.Machine

open Sys2Proof.Claims

/-! ### The turn -/

theorem eventTurn_iff (s : State) (i : Nat) (e : Ev) : s.eventTurn i e = true ↔ EventTurn s i e := by
  have hfree (x : Ev) : (!(s.sys.takeover && decide (x.ty = 2 ∨ x.ty = 3))) = true ↔
      ¬ (s.sys.takeover = true ∧ (x.ty = 2 ∨ x.ty = 3)) := by
    cases s.sys.takeover <;> simp
  have hbefore (x y : Ev) : x.before y = true ↔ Earlier x y := decide_eq_true_iff
  unfold State.eventTurn EventTurn
  simp only [Bool.and_eq_true, Bool.not_eq_true', List.any_eq_false, decide_eq_true_eq, hfree, hbefore, not_and, and_assoc]
  refine and_congr_right fun _ => and_congr_right fun _ => and_congr_right fun _ => forall₂_congr fun x _ => ?_
  rw [← hbefore e x]
  cases e.before x <;> simp

/-! ### The record -/

theorem putCells_zipIdx (l : List Byte) (m : Mem) (a k : Nat) :
    putCells m ((l.zipIdx k).map (fun b => (a + b.2, b.1))) = m.writeL (a + k) l := by
  induction l generalizing m k with
  | nil => rfl
  | cons b l ih => exact ih (m.write (a + k) b) (k + 1)

theorem Mem.le_writeL {l : List Byte} {off n : Nat} (h : off + n ≤ l.length) (m : Mem) (a : Nat) :
    Mem.le (m.writeL a l) (a + off) n = leAt l off n := by
  refine congrArg ofLe (List.ext_getElem (by simp [Mem.readN]; omega) fun i hi _ => ?_)
  have hlt : i < n := by simpa [Mem.readN] using hi
  simp only [Mem.readN, List.getElem_map, List.getElem_range, Mem.read_writeL, List.getElem_take, List.getElem_drop]
  rw [if_pos (by omega), show a + off + i - a = off + i from by omega, List.getD_eq_getElem _ _ (by omega)]

theorem record_length (e : Ev) (dtc : Nat) : (e.record dtc).length = 32 := by simp [Ev.record]

theorem leAt_byte (b : Byte) (l : List Byte) : leAt (b :: l) 0 1 = b.toNat := rfl

theorem leAt_record_type (e : Ev) (dtc : Nat) : leAt (e.record dtc) 0 1 = e.ty % 256 :=
  (leAt_byte (BitVec.ofNat 8 e.ty) _).trans (BitVec.toNat_ofNat _ _)

theorem leAt_record_stop (e : Ev) (dtc : Nat) : leAt (e.record dtc) 1 1 = e.stop % 256 :=
  (leAt_byte (BitVec.ofNat 8 e.stop) _).trans (BitVec.toNat_ofNat _ _)

theorem leAt_record_time (e : Ev) (dtc : Nat) : leAt (e.record dtc) 8 8 = dtc % 2 ^ 64 := by
  rw [Ev.record, leAt_append_left (by simp), leAt_append_right (by simp)]
  exact leAt_leBytes 8 dtc

theorem getD_record_payload (e : Ev) (dtc : Nat) {i : Nat} (h : i < 16) : (e.record dtc).getD (16 + i) 0 = e.payload.getD i 0 := by
  rw [Ev.record, List.getD_append_right _ _ _ _ (by simp)]
  simp only [List.length_append, List.length_cons, List.length_nil, List.length_replicate, leBytes_length]
  rw [show 16 + i - (0 + 1 + 1 + 6 + 8) = i from by omega]
  rw [List.getD_eq_getElem?_getD, List.getElem?_take_of_lt h, List.getElem?_append, List.getD_eq_getElem?_getD]
  split
  · rfl
  · next hi => rw [List.getElem?_replicate_of_lt (by omega), List.getElem?_eq_none (Nat.le_of_not_lt hi)]; rfl

/-! ### The write into the ring -/

theorem written_hostLine {s t : State} {port : Bool} {home pa : Nat} {l : List Byte} (h : hostLine s port home pa l = some t) :
    Written s t := by
  unfold hostLine at h
  dsimp only at h
  split at h
  · cases h
  split at h
  · cases h
    exact written_setHome s _ _
  split at h
  · cases h
  · cases h
    exact written_writeXl s _ _ _ _ _

theorem written_hostLines {port : Bool} {home fuel : Nat} {s t : State} {pa : Nat} {l : List Byte}
    (h : hostLines port home fuel s pa l = some t) : Written s t := by
  induction fuel generalizing s pa l with
  | zero => cases h; exact .refl _
  | succ fuel ih =>
    unfold hostLines at h
    split at h
    · cases h
      exact .refl _
    · obtain ⟨u, hline, hrest⟩ := Option.bind_eq_some_iff.mp h
      exact (written_hostLine hline).trans (ih hrest)

theorem hostPut_of_host {s : State} {a : Nat} (h : s.window a = none) (l : List Byte) :
    hostPut s a l = some { s with hostMem := s.hostMem.writeL a l } := by
  rw [hostPut, h]
  exact congrArg (fun m => some { s with hostMem := m }) (putCells_zipIdx l s.hostMem a 0)

theorem written_hostPut {s t : State} {a : Nat} {l : List Byte} (h : hostPut s a l = some t) : Written s t := by
  cases hw : s.window a with
  | none =>
    rw [hostPut_of_host hw] at h
    cases h
    exact ⟨⟨rfl, fun _ => rfl, rfl, rfl⟩, rfl⟩
  | some x =>
    rw [hostPut, hw] at h
    dsimp only at h
    split at h
    · cases h
      exact .refl s
    · exact written_hostLines h

/-! ### The message and the trap event -/

theorem msix_sys (s : State) : s.msix = { s with sys := { s.sys with
    msixWait := s.msix.sys.msixWait, msixLast := s.msix.sys.msixLast, msixSent := s.msix.sys.msixSent } } := by
  unfold State.msix
  split <;> rfl

theorem msix_of_free {s : State} (h : s.msixFree = true) : s.msix = s.sendMsix := if_pos h

theorem msix_of_busy {s : State} (h : ¬ s.msixFree = true) : s.msix = { s with sys := { s.sys with msixWait := true } } := if_neg h

theorem takeTrapEvent_parts (s : State) (l : List Byte) :
    takeTrapEvent s l = { s with parts := (takeTrapEvent s l).parts } := by
  unfold takeTrapEvent
  dsimp only
  split
  · split <;> rfl
  · rfl

theorem runOf_setRun (s : State) (p : Nat) (r : Option Run) : (s.setRun p r).runOf p = r := by
  rw [State.setRun, State.runOf, State.part_setPart, if_pos rfl]

/-- The fields of a trap event's payload (log entry 18). -/
theorem leAt_trap_payload {p n : Nat} (c : Byte) (hp : p < 64) (hn : n < 65536) :
    let l := leBytes 2 p ++ leBytes 2 n ++ [c]
    leAt l 0 2 = p ∧ leAt l 2 2 = n ∧ BitVec.ofNat 8 (leAt l 4 1) = c := by
  refine ⟨?_, ?_, ?_⟩
  · rw [leAt_append_left (by simp), leAt_append_left (by simp), leAt_leBytes, Nat.mod_eq_of_lt (by omega)]
  · rw [leAt_append_left (by simp), leAt_append_right (by simp), leBytes_length, leAt_leBytes, Nat.mod_eq_of_lt (by omega)]
  · rw [leAt_append_right (by simp)]
    show BitVec.ofNat 8 (leAt (c :: []) 0 1) = c
    rw [leAt_byte, BitVec.ofNat_toNat, BitVec.setWidth_eq]

theorem takeTrapEvent_runOf {s : State} {p n : Nat} {c : Byte} {r : Run} (hp : p < 64) (hn : n < 65536)
    (hrun : s.runOf p = some r) (hmem : n % 512 ∈ r.cores) (hparked : (s.core (n % 512)).seq = .parked) (hst : r.st = .running) :
    (takeTrapEvent s (leBytes 2 p ++ leBytes 2 n ++ [c])).runOf p =
      some { r with st := .parking, first := some (r.first.getD c) } := by
  obtain ⟨hpart, hcore, hcause⟩ := leAt_trap_payload c hp hn
  unfold takeTrapEvent
  simp only [hpart, hcore, hcause, hrun]
  rw [if_pos ⟨List.contains_iff_mem.mpr hmem, hparked⟩, runOf_setRun, hst]
  cases r.first <;> rfl

/-! ### The step -/

/-- The ring's next entry. -/
def State.ringPlace (s : State) : Nat := s.sys.evbase.toNat / 4096 * 4096 + 32 * (s.sys.evprod.toNat % s.ringSize)

theorem exec_eventArbitrate {s : State} {e : Ev} (he : s.sys.events[s.obj]? = some e) : exec .eventArbitrate s = .next (
    if s.eventTurn s.obj e = false ∨ s.eventsOut = s.ringSize then s
    else match hostPut s s.ringPlace (e.record s.now) with
      | none => s
      | some t =>
        let t1 : State := { t with sys := { t.sys with events := dropAt t.sys.events s.obj, evprod := t.sys.evprod + 1 } }
        (if e.ty = 2 then takeTrapEvent t1 e.payload else t1).msix) := by
  show execEventArbitrate s = _
  unfold execEventArbitrate
  rw [he]
  rfl

/-- The event leaves the list and the ring's producer index moves on. -/
def State.ringTook (u : State) (i : Nat) : State :=
  { u with sys := { u.sys with events := dropAt u.sys.events i, evprod := u.sys.evprod + 1 } }

/-- The state after an event has been taken, its record having been written. -/
def arbitrated (u : State) (i : Nat) (e : Ev) : State :=
  (if e.ty = 2 then takeTrapEvent (u.ringTook i) e.payload else u.ringTook i).msix

theorem exec_eventArbitrate_wait {s : State} {e : Ev} (he : s.sys.events[s.obj]? = some e)
    (h : s.eventsOut = s.ringSize ∨ ¬ EventTurn s s.obj e ∨ hostPut s s.ringPlace (e.record s.now) = none) :
    exec .eventArbitrate s = .next s := by
  rw [exec_eventArbitrate he]
  split
  · rfl
  · next hgo =>
    obtain hfull | hturn | hput := h
    · exact absurd (.inr hfull) hgo
    · rw [← eventTurn_iff, Bool.not_eq_true] at hturn
      exact absurd (.inl hturn) hgo
    · rw [hput]

theorem exec_eventArbitrate_go {s u : State} {e : Ev} (he : s.sys.events[s.obj]? = some e) (hfull : ¬ s.eventsOut = s.ringSize)
    (hturn : EventTurn s s.obj e) (hput : hostPut s s.ringPlace (e.record s.now) = some u) :
    exec .eventArbitrate s = .next (arbitrated u s.obj e) := by
  rw [exec_eventArbitrate he, if_neg, hput]
  · rfl
  · rw [← Bool.not_eq_true, eventTurn_iff]
    rintro (h | h)
    · exact h hturn
    · exact hfull h

/-- What taking an event keeps: all but the list, the producer index, the message and, for a trap event, the partitions. -/
theorem arbitrated_eq (u : State) (i : Nat) (e : Ev) : arbitrated u i e = { u with
    parts := (arbitrated u i e).parts,
    sys := { u.sys with
      events := dropAt u.sys.events i, evprod := u.sys.evprod + 1, msixWait := (arbitrated u i e).sys.msixWait,
      msixLast := (arbitrated u i e).sys.msixLast, msixSent := (arbitrated u i e).sys.msixSent } } := by
  unfold arbitrated
  rw [msix_sys]
  split
  · rw [takeTrapEvent_parts]
    rfl
  · rfl

/-- The record's bytes in host memory, where the ring stands there. -/
theorem record_in_host {m k : Mem} {a dtc : Nat} {e : Ev} (hk : k = m.writeL a (e.record dtc)) (hdtc : dtc < 2 ^ 64) :
    Mem.le k a 1 = e.ty % 256 ∧ Mem.le k (a + 1) 1 = e.stop % 256 ∧ Mem.le k (a + 8) 8 = dtc ∧
      (∀ i < 16, Mem.read k (a + 16 + i) = e.payload.getD i 0) ∧
      ∀ x, (x < a ∨ a + 32 ≤ x) → Mem.read k x = Mem.read m x := by
  have hlen := record_length e dtc
  subst hk
  refine ⟨?_, ?_, ?_, fun i hi => ?_, fun x hx => ?_⟩
  · exact (Mem.le_writeL (off := 0) (by omega) m a).trans (leAt_record_type e dtc)
  · rw [Mem.le_writeL (by omega), leAt_record_stop]
  · rw [Mem.le_writeL (by omega), leAt_record_time, Nat.mod_eq_of_lt hdtc]
  · rw [Mem.read_writeL, if_pos (by omega), show a + 16 + i - a = 16 + i from by omega, getD_record_payload e dtc hi]
  · rw [Mem.read_writeL, if_neg (by omega)]

theorem Aside.msixSent {s t : State} (h : Aside s t) : t.sys.msixSent = s.sys.msixSent := by rw [h.sys]

theorem Aside.msixLast {s t : State} (h : Aside s t) : t.sys.msixLast = s.sys.msixLast := by rw [h.sys]

theorem Aside.evprod {s t : State} (h : Aside s t) : t.sys.evprod = s.sys.evprod := by rw [h.sys]

theorem arbitrated_events (u : State) (i : Nat) (e : Ev) : (arbitrated u i e).sys.events = dropAt u.sys.events i := by
  rw [arbitrated_eq]

theorem arbitrated_evprod (u : State) (i : Nat) (e : Ev) : (arbitrated u i e).sys.evprod = u.sys.evprod + 1 := by
  rw [arbitrated_eq]

theorem arbitrated_homes (u : State) (i : Nat) (e : Ev) : (arbitrated u i e).homes = u.homes := by
  rw [arbitrated_eq]

theorem arbitrated_hostMem (u : State) (i : Nat) (e : Ev) : (arbitrated u i e).hostMem = u.hostMem := by
  rw [arbitrated_eq]

theorem arbitrated_msixSent {s u : State} (h : Written s u) (i : Nat) (e : Ev) :
    let soon := s.sys.msixSent = 0 ∨ s.sys.msixLast + 2000 ≤ s.fabric
    (soon → (arbitrated u i e).sys.msixSent = s.sys.msixSent + 1 ∧ (arbitrated u i e).sys.msixWait = false) ∧
    (¬ soon → (arbitrated u i e).sys.msixSent = s.sys.msixSent ∧ (arbitrated u i e).sys.msixWait = true) := by
  intro soon
  have hbase (t : State) (ht : t = { u.ringTook i with parts := t.parts }) :
      t.sys.msixSent = s.sys.msixSent ∧ (t.msixFree = true ↔ soon) := by
    have hsent : t.sys.msixSent = s.sys.msixSent := by rw [ht, ← h.msixSent]; rfl
    have hlast : t.sys.msixLast = s.sys.msixLast := by rw [ht, ← h.msixLast]; rfl
    have hfabric : t.fabric = s.fabric := by rw [ht]; exact h.fabric
    exact ⟨hsent, by rw [msixFree_iff, hsent, hlast, hfabric]⟩
  obtain ⟨t, hmsix, ht⟩ : ∃ t : State, arbitrated u i e = t.msix ∧ t = { u.ringTook i with parts := t.parts } := by
    unfold arbitrated
    split
    · exact ⟨_, rfl, takeTrapEvent_parts _ _⟩
    · exact ⟨_, rfl, rfl⟩
  obtain ⟨hsent, hfree⟩ := hbase t ht
  rw [hmsix]
  refine ⟨fun hsoon => ?_, fun hbusy => ?_⟩
  · rw [msix_of_free (hfree.mpr hsoon)]
    exact ⟨congrArg (· + 1) hsent, rfl⟩
  · rw [msix_of_busy (mt hfree.mp hbusy)]
    exact ⟨hsent, rfl⟩

theorem arbitrated_parts {u : State} {i : Nat} {e : Ev} (h : e.ty ≠ 2) : (arbitrated u i e).parts = u.parts := by
  rw [arbitrated, if_neg h, msix_sys]
  rfl

theorem arbitrated_runOf {s u : State} (h : Written s u) {i : Nat} {e : Ev} {p n : Nat} {c : Byte} {r : Run} (he : e.ty = 2)
    (hpay : e.payload = leBytes 2 p ++ leBytes 2 n ++ [c]) (hp : p < 64) (hn : n < 65536) (hrun : s.runOf p = some r)
    (hmem : n % 512 ∈ r.cores) (hparked : (s.core (n % 512)).seq = .parked) (hst : r.st = .running) :
    (arbitrated u i e).runOf p = some { r with st := .parking, first := some (r.first.getD c) } := by
  have hrun' : (u.ringTook i).runOf p = some r := (congrArg (fun l => (SMap.get l Part.start p).run) h.parts).trans hrun
  have hparked' : ((u.ringTook i).core (n % 512)).seq = .parked :=
    (congrArg (fun l => (SMap.get l Core.idle (n % 512)).seq) h.cores).trans hparked
  rw [arbitrated, if_pos he, hpay, msix_sys]
  exact takeTrapEvent_runOf hp hn hrun' hmem hparked' hst

/-- A record in a ring that stands in host memory. -/
theorem hostPut_record {s u : State} {a : Nat} {e : Ev} (hw : s.window a = none) (h : hostPut s a (e.record s.now) = some u) :
    u.homes = s.homes ∧ u.sys = s.sys ∧
      Mem.le u.hostMem a 1 = e.ty % 256 ∧ Mem.le u.hostMem (a + 1) 1 = e.stop % 256 ∧ Mem.le u.hostMem (a + 8) 8 = s.now ∧
      (∀ i < 16, Mem.read u.hostMem (a + 16 + i) = e.payload.getD i 0) ∧
      ∀ x, (x < a ∨ a + 32 ≤ x) → Mem.read u.hostMem x = Mem.read s.hostMem x := by
  have hnow : s.now < 2 ^ 64 := s.sys.clock.dtc.isLt
  rw [hostPut_of_host hw] at h
  have hu := Option.some.inj h
  exact ⟨(congrArg State.homes hu).symm, (congrArg State.sys hu).symm, record_in_host (congrArg State.hostMem hu).symm hnow⟩

/-- The whole step of the event arbiter. -/
theorem eventArbitrate_takes {s : State} {e : Ev} (he : s.sys.events[s.obj]? = some e) :
    let size := 2 ^ (s.sys.evbase.toNat % 32)
    let a := s.sys.evbase.toNat / 4096 * 4096 + 32 * (s.sys.evprod.toNat % size)
    let soon := s.sys.msixSent = 0 ∨ s.sys.msixLast + 2000 ≤ s.fabric
    let full := (s.sys.evprod - s.sys.evcons).toNat = size
    ((full ∨ ¬ EventTurn s s.obj e ∨ hostPut s a (e.record s.now) = none) → exec .eventArbitrate s = .next s) ∧
    (∀ u, ¬ full → EventTurn s s.obj e → hostPut s a (e.record s.now) = some u →
      ∃ t, exec .eventArbitrate s = .next t ∧ t.sys.events = dropAt u.sys.events s.obj ∧ t.homes = u.homes ∧ t.hostMem = u.hostMem ∧
        t.sys.evprod = s.sys.evprod + 1 ∧
        (s.window a = none → u.homes = s.homes ∧ u.sys = s.sys ∧
          Mem.le t.hostMem a 1 = e.ty % 256 ∧ Mem.le t.hostMem (a + 1) 1 = e.stop % 256 ∧ Mem.le t.hostMem (a + 8) 8 = s.now ∧
          (∀ i < 16, Mem.read t.hostMem (a + 16 + i) = e.payload.getD i 0) ∧
          (∀ x, (x < a ∨ a + 32 ≤ x) → Mem.read t.hostMem x = Mem.read s.hostMem x)) ∧
        (soon → t.sys.msixSent = s.sys.msixSent + 1 ∧ t.sys.msixWait = false) ∧
        (¬ soon → t.sys.msixSent = s.sys.msixSent ∧ t.sys.msixWait = true) ∧
        (e.ty ≠ 2 → t.parts = s.parts) ∧
        (∀ p n c r, e.ty = 2 → e.payload = leBytes 2 p ++ leBytes 2 n ++ [c] → p < 64 → n < 65536 → s.runOf p = some r →
          n % 512 ∈ r.cores → (s.core (n % 512)).seq = .parked → r.st = .running →
          t.runOf p = some { r with st := .parking, first := some (r.first.getD c) })) := by
  intro size a soon full
  refine ⟨exec_eventArbitrate_wait he, fun u hfull hturn hput => ⟨_, exec_eventArbitrate_go he hfull hturn hput, ?_⟩⟩
  have hu := written_hostPut hput
  obtain ⟨hsoon, hbusy⟩ := arbitrated_msixSent hu s.obj e
  refine ⟨arbitrated_events u _ e, arbitrated_homes u _ e, arbitrated_hostMem u _ e, ?_, fun hw => ?_, hsoon, hbusy, fun hty => ?_,
    fun p n c r hty hpay hp hn hrun hmem hparked hst => arbitrated_runOf hu hty hpay hp hn hrun hmem hparked hst⟩
  · rw [arbitrated_evprod, hu.evprod]
  · rw [arbitrated_hostMem]
    exact hostPut_record hw hput
  · rw [arbitrated_parts hty, hu.parts]

end Sys2Proof.Machine
end

section
/-! Fail-over of the bole and the twig cores (13_queues.md R349, R385, R387; 14_system.md R401). -/

namespace Sys2Proof.Machine

open Sys2Proof.Claims

/-- A map whose values are rewritten by their keys, where the default stays. -/
theorem SMap.get_map_key {α : Type} (m : SMap α) (d : α) (f : Nat → α → α) (hd : ∀ k, f k d = d) (k : Nat) :
    SMap.get (m.map fun x => (x.1, f x.1 x.2)) d k = f k (SMap.get m d k) := by
  induction m with
  | nil => exact (hd k).symm
  | cons x m ih =>
    show SMap.get ((x.1, f x.1 x.2) :: m.map fun x => (x.1, f x.1 x.2)) d k = f k (SMap.get ((x.1, x.2) :: m) d k)
    rw [SMap.get_cons, SMap.get_cons]
    split
    · next h => rw [h]
    · exact ih

/-! ### Bole cores -/

theorem enterRecovery_state (s : State) : (enterRecovery s).sys.state = 2 := rfl

theorem enterRecovery_idle (s : State) (n : Nat) : ((enterRecovery s).core n).seq = .idle :=
  congrArg Core.seq (SMap.get_map_key _ Core.idle (fun _ c => { c with seq := .idle }) (fun _ => rfl) n)

theorem enterRecovery_runOf (s : State) (p : Nat) : (enterRecovery s).runOf p = none :=
  congrArg Part.run (SMap.get_map_key _ Part.start (fun _ x => { x with
    run := none, adms := x.adms ++ (match x.run with | some r => [r.adm] | none => []) }) (fun _ => rfl) p)

/-- The registers once the active bole core has failed. -/
def Sys.boleLost (y : Sys) : Sys := if y.activeB then { y with bole1 := false } else { y with bole0 := false }

theorem boleLost_activeB (y : Sys) : y.boleLost.activeB = y.activeB := by unfold Sys.boleLost; split <;> rfl

theorem boleLost_events (y : Sys) : y.boleLost.events = y.events := by unfold Sys.boleLost; split <;> rfl

theorem boleLost_twin (y : Sys) : (y.boleLost.bole0 || y.boleLost.bole1) = if y.activeB then y.bole0 else y.bole1 := by
  unfold Sys.boleLost
  split <;> simp

theorem boleFails_of_twin {s : State} (h : (if s.sys.activeB then s.sys.bole0 else s.sys.bole1) = true) : boleFails s =
    ({ s with sys := { s.sys.boleLost with takeover := true, activeB := !s.sys.activeB } } : State).sendEvent 6 0xFF 16 [] := by
  show (if (s.sys.boleLost.bole0 || s.sys.boleLost.bole1) = true then _ else _) = _
  rw [boleLost_twin, if_pos h]
  rfl

theorem boleFails_of_none {s : State} (h : (if s.sys.activeB then s.sys.bole0 else s.sys.bole1) = false) :
    boleFails s = enterRecovery { s with sys := s.sys.boleLost } := by
  show (if (s.sys.boleLost.bole0 || s.sys.boleLost.bole1) = true then _ else _) = _
  rw [boleLost_twin, if_neg (by simp [h])]
  rfl

theorem exec_of_boleFailure {i : Instr} (hi : i = .heartbeatMiss ∨ i = .boleCoreError) (s : State) :
    exec i s = .next (boleFails s) := by
  obtain rfl | rfl := hi <;> rfl

theorem boleFailure_hands_over {i : Instr} (hi : i = .heartbeatMiss ∨ i = .boleCoreError) (s : State) :
    let twin := if s.sys.activeB then s.sys.bole0 else s.sys.bole1
    (twin = true → ∃ t, exec i s = .next t ∧ t.sys.takeover = true ∧ t.sys.activeB = !s.sys.activeB ∧
      t.sys.events = s.sys.events ++ [⟨6, 0xFF, 16, s.fabric, []⟩] ∧ t.cores = s.cores ∧ t.parts = s.parts ∧ t.queues = s.queues) ∧
    (twin = false → ∃ t, exec i s = .next t ∧ t.sys.state = 2 ∧ (∀ n, (t.core n).seq = .idle) ∧ ∀ p, t.runOf p = none) := by
  intro twin
  rw [exec_of_boleFailure hi]
  refine ⟨fun h => ⟨_, rfl, ?_⟩, fun h => ⟨_, rfl, ?_⟩⟩
  · rw [boleFails_of_twin h]
    exact ⟨rfl, rfl, congrArg (· ++ _) (boleLost_events s.sys), rfl, rfl, rfl⟩
  · rw [boleFails_of_none h]
    exact ⟨enterRecovery_state _, enterRecovery_idle _, enterRecovery_runOf _⟩

/-- The completions that the take-over releases, in record order. -/
def releaseEntries (s : State) : State :=
  s.journal.foldl (fun (u : State) r =>
    match (u.queue r.q).pkts with
    | p :: _ => if p.seq = r.seq then writeEntry u r.q else u
    | [] => u) s

theorem aside_releaseEntries (s : State) : Aside s (releaseEntries s) := by
  refine .foldl (fun u r => ?_) _ s
  split
  · split
    · exact aside_writeEntry u r.q
    · exact .refl u
  · exact .refl u

theorem exec_boleTakeover_none {s : State} (h : s.sys.takeover = false) : exec .boleTakeover s = .next s := by
  show Host.Outcome.next (if _ then _ else _) = _
  rw [if_neg (by simp [h])]

theorem exec_boleTakeover {s : State} (htake : s.sys.takeover = true) (hstate : s.sys.state = 1) : exec .boleTakeover s =
    .next (releaseEntries ((List.range 4096).foldl readWake { s with sys := { s.sys with takeover := false } })) := by
  show Host.Outcome.next (if _ then _ else _) = _
  rw [if_pos ⟨htake, hstate⟩]
  rfl

theorem boleTakeover_ends {s : State} (htake : s.sys.takeover = true) (hstate : s.sys.state = 1) :
    ∃ t, exec .boleTakeover s = .next t ∧ t.sys.takeover = false ∧ ∀ q, (t.queue q).fidx = (s.queue q).fidx := by
  have haside := (Aside.foldl aside_readWake (List.range 4096) { s with sys := { s.sys with takeover := false } }).trans
    (aside_releaseEntries _)
  exact ⟨_, exec_boleTakeover htake hstate, by rw [haside.sys], haside.fidx⟩

/-! ### Twig cores -/

/-- The state after twig core obj has failed. -/
def State.twigLost (s : State) : State :=
  { s with
    sys := { s.sys with twigs := SMap.set s.sys.twigs false s.obj true },
    queues := s.queues.map (fun (k : Nat × Queue) =>
      (k.1, if s.twigOf k.1 = some s.obj then { k.2 with fetched := [] } else k.2)) }

theorem twigLost_queue (s : State) (q : Nat) :
    s.twigLost.queue q = if s.twigOf q = some s.obj then { s.queue q with fetched := [] } else s.queue q :=
  SMap.get_map_key s.queues Queue.start (fun k x => if s.twigOf k = some s.obj then { x with fetched := [] } else x)
    (fun _ => ite_self _) q

theorem twigLost_twigOf {s : State} {q x : Nat} (h : s.twigLost.twigOf q = some x) : x ≠ s.obj := by
  rintro rfl
  have hworks := List.find?_some h
  rw [show s.twigLost.sys.twigs = SMap.set s.sys.twigs false s.obj true from rfl, SMap.get_set_same] at hworks
  simp at hworks

theorem twigFailover_moves (s : State) :
    ∃ t, exec .twigFailover s = .next t ∧ (∀ q x, t.twigOf q = some x → x ≠ s.obj) ∧
      ∀ q, (t.queue q).pkts = (s.queue q).pkts ∧ (t.queue q).fidx = (s.queue q).fidx ∧
        (s.twigOf q = some s.obj → (t.queue q).fetched = []) ∧
        (s.twigOf q ≠ some s.obj → (t.queue q).fetched = (s.queue q).fetched) := by
  refine ⟨s.twigLost, rfl, fun q x => twigLost_twigOf, fun q => ?_⟩
  rw [twigLost_queue]
  split
  · next h => exact ⟨rfl, rfl, fun _ => rfl, fun hne => absurd h hne⟩
  · next h => exact ⟨rfl, rfl, fun he => absurd he h, fun _ => rfl⟩

end Sys2Proof.Machine
end

section
/-! A pod link that fails: what waits at the ports of its edge die, and the jobs and uses without a way left (14_system.md R398;
09_copy_collective.md R247). -/

namespace Sys2Proof.Machine

open Sys2Proof.Claims

/-! ### The job of an issuer -/

theorem Core.job?_charge (c : Core) (n tag : Nat) : (c.charge n).job? tag = c.job? tag := by
  unfold Core.charge
  split <;> rfl

theorem job?_onJob (s : State) (k tag n : Nat) {f : CJob → CJob} (hf : ∀ j, (f j).tag = j.tag) (m tag' : Nat) :
    ((s.onJob k tag n f).core m).job? tag' =
      if k = m ∧ tag = tag' then ((s.core m).job? tag').map f else (s.core m).job? tag' := by
  unfold State.onJob
  dsimp only
  cases hj : (s.core k).job? tag with
  | none =>
    dsimp only
    split
    · next h =>
      obtain ⟨rfl, rfl⟩ := h
      rw [hj]
      rfl
    · rfl
  | some j =>
    have htag : (f j).tag = tag := (hf j).trans (Core.tag_of_job? hj)
    dsimp only
    rw [State.core_setCore]
    by_cases hk : k = m
    · subst hk
      rw [if_pos rfl, Core.job?_charge]
      by_cases ht : tag = tag'
      · subst ht
        rw [if_pos ⟨rfl, rfl⟩, Core.job?_setJob_self hj htag, hj]
        rfl
      · rw [if_neg (fun h => ht h.2), Core.job?_setJob_ne (by rw [htag]; exact ht)]
    · rw [if_neg hk, if_neg (fun h => hk h.1)]

/-! ### The links of an edge die -/

theorem podLink_spec {s : State} {e k : Nat} (h : s.podLink e = some k) :
    (∃ i < 4, k = 4 * e + i) ∧ s.linkUp k = true ∧ s.switchOf k = s.switchOf (4 * e) := by
  have hmem := List.mem_of_find?_eq_some h
  have hup := List.find?_some h
  simp only [List.mem_map, List.mem_range] at hmem
  obtain ⟨i, hi, rfl⟩ := hmem
  rw [Bool.and_eq_true, decide_eq_true_eq] at hup
  exact ⟨⟨i, hi, rfl⟩, hup⟩

theorem podLink_ne {s : State} {e k l : Nat} (h : s.podLink e = some k) (hdown : s.linkUp l = false) : k ≠ l := by
  rintro rfl
  rw [(podLink_spec h).2.1] at hdown
  cases hdown

theorem podLink_of_up {s : State} {e i : Nat} (hi : i < 4) (hup : s.linkUp (4 * e + i) = true)
    (hsw : s.switchOf (4 * e + i) = s.switchOf (4 * e)) : ∃ k, s.podLink e = some k := by
  refine Option.isSome_iff_exists.mp (List.find?_isSome.mpr ⟨4 * e + i, List.mem_map.mpr ⟨i, List.mem_range.mpr hi, rfl⟩, ?_⟩)
  rw [hup, decide_eq_true hsw]
  rfl

theorem podLink_congr {s t : State} (h : t.sys = s.sys) (e : Nat) : t.podLink e = s.podLink e := by
  unfold State.podLink State.linkUp State.switchOf
  rw [h]

/-! ### One flit, one port -/

/-- A flit that waited at a link of edge die e that is down. -/
def moveFlit (e : Nat) (u : State) (f : Flit) : State :=
  match f.load with
  | .req r => sendAway u r
  | _ => (match u.podLink e with
    | some k => u.putFlit (stopOfLink k) f
    | none => { u with air := u.air ++ [f] })

/-- Port i of edge die e. -/
def movePort (e : Nat) (t : State) (i : Nat) : State :=
  if t.linkUp (4 * e + i) then t
  else (t.stop (stopOfLink (4 * e + i))).wait.foldl (moveFlit e)
    (t.setStop (stopOfLink (4 * e + i)) { t.stop (stopOfLink (4 * e + i)) with wait := [] })

theorem reroute_eq (s : State) (e : Nat) : reroute s e = (List.range 4).foldl (movePort e) s := rfl

/-- What moving flits keeps in any case. -/
structure Rerouted (s t : State) : Prop where
  sys : t.sys = s.sys
  uses : t.uses = s.uses
  homes : t.homes = s.homes

theorem Rerouted.refl (s : State) : Rerouted s s := ⟨rfl, rfl, rfl⟩

theorem Rerouted.trans {s t u : State} (h : Rerouted s t) (k : Rerouted t u) : Rerouted s u :=
  ⟨k.sys.trans h.sys, k.uses.trans h.uses, k.homes.trans h.homes⟩

theorem Rerouted.foldl {α : Type} {f : State → α → State} (hf : ∀ t a, Rerouted t (f t a)) (l : List α) (s : State) :
    Rerouted s (l.foldl f s) :=
  List.foldlRecOn l f (.refl s) fun t ht a _ => ht.trans (hf t a)

theorem onJob_cores (s : State) (k tag n : Nat) (f : CJob → CJob) :
    s.onJob k tag n f = { s with cores := (s.onJob k tag n f).cores } := by
  unfold State.onJob
  dsimp only
  split <;> rfl

/-- A request without a link left changes cores and queues alone. -/
theorem linkLost_eq (s : State) (r : Req) :
    linkLost s r = { s with cores := (linkLost s r).cores, queues := (linkLost s r).queues } := by
  unfold linkLost
  split
  · rw [onJob_cores]
  · rw [onJob_cores]
  · rfl
  · rfl

theorem rerouted_linkLost (s : State) (r : Req) : Rerouted s (linkLost s r) := by
  rw [linkLost_eq]
  exact ⟨rfl, rfl, rfl⟩

theorem rerouted_sendAway (s : State) (r : Req) : Rerouted s (sendAway s r) := by
  unfold sendAway
  split
  · exact ⟨rfl, rfl, rfl⟩
  · exact rerouted_linkLost s r

theorem rerouted_moveFlit (e : Nat) (u : State) (f : Flit) : Rerouted u (moveFlit e u f) := by
  unfold moveFlit
  split
  · exact rerouted_sendAway u _
  · split <;> exact ⟨rfl, rfl, rfl⟩

theorem rerouted_movePort (e : Nat) (t : State) (i : Nat) : Rerouted t (movePort e t i) := by
  unfold movePort
  split
  · exact .refl t
  · exact Rerouted.trans (t := t.setStop _ _) ⟨rfl, rfl, rfl⟩ (.foldl (rerouted_moveFlit e) _ _)

theorem rerouted_reroute (s : State) (e : Nat) : Rerouted s (reroute s e) := by
  rw [reroute_eq]
  exact .foldl (rerouted_movePort e) _ s

/-! ### With another link -/

/-- A flit as it goes on to another link: a request in its own class. -/
def reclass (f : Flit) : Flit :=
  match f.load with
  | .req r => ⟨r.prio, .req r⟩
  | _ => f

theorem reclass_load (f : Flit) : (reclass f).load = f.load := by
  unfold reclass
  split
  · next r h => exact h.symm
  · rfl

/-- A flit that leaves the module through edge die e, if it is a request. -/
def LeavesBy (e : Nat) (f : Flit) : Prop := ∀ r, f.load = .req r → r.exit = e

theorem moveFlit_of_path {e k : Nat} {u : State} {f : Flit} (hf : LeavesBy e f) (hk : u.podLink e = some k) :
    moveFlit e u f = u.putFlit (stopOfLink k) (reclass f) := by
  unfold moveFlit reclass
  split
  · next r h => rw [sendAway, hf r h, hk]
  · rw [hk]

theorem stop_putFlit (s : State) (n j : Nat) (f : Flit) :
    ((s.putFlit n f).stop j).wait = if n = j then (s.stop j).wait ++ [f] else (s.stop j).wait := by
  rw [State.putFlit, State.stop_setStop]
  split
  · next h => rw [h]
  · rfl

/-- What waits goes on to link k in order; nothing else changes. -/
theorem foldl_moveFlit {e k : Nat} {u : State} {l : List Flit} (hl : ∀ f ∈ l, LeavesBy e f) (hk : u.podLink e = some k) :
    (l.foldl (moveFlit e) u).cores = u.cores ∧ (l.foldl (moveFlit e) u).air = u.air ∧
      ∀ j, ((l.foldl (moveFlit e) u).stop j).wait =
        if stopOfLink k = j then (u.stop j).wait ++ l.map reclass else (u.stop j).wait := by
  induction l generalizing u with
  | nil => exact ⟨rfl, rfl, fun j => by simp⟩
  | cons f l ih =>
    rw [List.foldl_cons, moveFlit_of_path (hl f (.head l)) hk]
    obtain ⟨hcores, hair, hstop⟩ := ih (u := u.putFlit (stopOfLink k) (reclass f)) (fun g hg => hl g (.tail f hg)) hk
    refine ⟨hcores, hair, fun j => ?_⟩
    rw [hstop, stop_putFlit]
    split <;> simp

theorem LeavesBy.reclass {e : Nat} {f : Flit} (h : LeavesBy e f) : LeavesBy e (reclass f) :=
  fun r hr => h r ((reclass_load f).symm.trans hr)

/-- The rerouting of s under way, with nothing but flits of edge die e at its ports. -/
structure Handing (s : State) (e : Nat) (t : State) : Prop where
  cores : t.cores = s.cores
  air : t.air = s.air
  sys : t.sys = s.sys
  leaves : ∀ i < 4, ∀ f ∈ (t.stop (stopOfLink (4 * e + i))).wait, LeavesBy e f

/-- What waited at link o stands at link k. -/
def Handed (s : State) (k o : Nat) (t : State) : Prop :=
  (t.stop (stopOfLink o)).wait = [] ∧
    ∀ f ∈ (s.stop (stopOfLink o)).wait, ∃ g ∈ (t.stop (stopOfLink k)).wait, g.load = f.load

theorem stopOfLink_inj {k l : Nat} : stopOfLink k = stopOfLink l ↔ k = l := by
  unfold stopOfLink
  omega

section
variable {s t : State} {e k i j : Nat} (hk : s.podLink e = some k)
include hk

/-- The flits of a port that is down go on to link k, in order. -/
theorem Handing.movePort_down (h : Handing s e t) (hi : i < 4) (hdown : t.linkUp (4 * e + i) = false) :
    (movePort e t i).cores = t.cores ∧ (movePort e t i).air = t.air ∧
      ∀ j, ((movePort e t i).stop (stopOfLink j)).wait =
        if k = j then (t.stop (stopOfLink j)).wait ++ (t.stop (stopOfLink (4 * e + i))).wait.map reclass
        else if 4 * e + i = j then [] else (t.stop (stopOfLink j)).wait := by
  have hne := podLink_ne ((podLink_congr h.sys e).trans hk) hdown
  obtain ⟨hcores, hair, hstop⟩ := foldl_moveFlit (u := t.setStop (stopOfLink (4 * e + i))
    { t.stop (stopOfLink (4 * e + i)) with wait := [] }) (h.leaves i hi) ((podLink_congr h.sys e).trans hk)
  rw [movePort, if_neg (by simp [hdown])]
  refine ⟨hcores, hair, fun j => ?_⟩
  rw [hstop, State.stop_setStop]
  simp only [stopOfLink_inj]
  by_cases hj : k = j
  · rw [if_pos hj, if_pos hj, if_neg (by omega)]
  · rw [if_neg hj, if_neg hj]
    split <;> rfl

theorem Handing.movePort (h : Handing s e t) (hi : i < 4) : Handing s e (movePort e t i) := by
  cases hdown : t.linkUp (4 * e + i) with
  | true => rwa [Machine.movePort, if_pos hdown]
  | false =>
    obtain ⟨hcores, hair, hstop⟩ := h.movePort_down hk hi hdown
    refine ⟨hcores.trans h.cores, hair.trans h.air, (rerouted_movePort e t i).sys.trans h.sys, fun j hj f hf => ?_⟩
    rw [hstop] at hf
    split at hf
    · obtain hf | hf := List.mem_append.mp hf
      · exact h.leaves j hj f hf
      · obtain ⟨g, hg, rfl⟩ := List.mem_map.mp hf
        exact (h.leaves i hi g hg).reclass
    split at hf
    · cases hf
    · exact h.leaves j hj f hf

/-- A port other than io leaves what waits at io, the link in use being another one. -/
theorem Handing.movePort_other (h : Handing s e t) (hi : i < 4) (hj : 4 * e + i ≠ j) (hkj : k ≠ j) :
    ((Machine.movePort e t i).stop (stopOfLink j)).wait = (t.stop (stopOfLink j)).wait := by
  cases hdown : t.linkUp (4 * e + i) with
  | true => rw [Machine.movePort, if_pos hdown]
  | false => rw [(h.movePort_down hk hi hdown).2.2, if_neg hkj, if_neg hj]

theorem Handing.mem_movePort (h : Handing s e t) (hi : i < 4) {g : Flit} (hg : g ∈ (t.stop (stopOfLink k)).wait) :
    g ∈ ((Machine.movePort e t i).stop (stopOfLink k)).wait := by
  cases hdown : t.linkUp (4 * e + i) with
  | true => rwa [Machine.movePort, if_pos hdown]
  | false =>
    rw [(h.movePort_down hk hi hdown).2.2, if_pos rfl]
    exact List.mem_append_left _ hg

/-- The port of the link that has failed hands over what waits there. -/
theorem Handing.handed (h : Handing s e t) (hi : i < 4) (hdown : s.linkUp (4 * e + i) = false)
    (hwait : (t.stop (stopOfLink (4 * e + i))).wait = (s.stop (stopOfLink (4 * e + i))).wait) :
    Handed s k (4 * e + i) (Machine.movePort e t i) := by
  have hne := podLink_ne hk hdown
  obtain ⟨-, -, hstop⟩ := h.movePort_down hk hi (by rw [State.linkUp, h.sys]; exact hdown)
  refine ⟨by rw [hstop, if_neg hne, if_pos rfl], fun f hf => ⟨Machine.reclass f, ?_, reclass_load f⟩⟩
  rw [hstop, if_pos rfl]
  exact List.mem_append_right _ (List.mem_map_of_mem (hwait ▸ hf))

theorem Handing.movePort_handed (h : Handing s e t) (hi : i < 4) (hj : j < 4) (hdown : s.linkUp (4 * e + j) = false)
    (hd : Handed s k (4 * e + j) t) : Handed s k (4 * e + j) (Machine.movePort e t i) := by
  have hne := podLink_ne hk hdown
  refine ⟨?_, fun f hf => ?_⟩
  · by_cases hij : i = j
    · subst hij
      rw [(h.movePort_down hk hi (by rw [State.linkUp, h.sys]; exact hdown)).2.2, if_neg hne, if_pos rfl]
    · rw [h.movePort_other hk hi (by omega) hne, hd.1]
  · obtain ⟨g, hg, hload⟩ := hd.2 f hf
    exact ⟨g, h.mem_movePort hk hi hg, hload⟩

theorem reroute_hands_over (hj : j < 4) (hdown : s.linkUp (4 * e + j) = false)
    (hleaves : ∀ i < 4, ∀ f ∈ (s.stop (stopOfLink (4 * e + i))).wait, LeavesBy e f) :
    Handing s e (reroute s e) ∧ Handed s k (4 * e + j) (reroute s e) := by
  have hne := podLink_ne hk hdown
  rw [reroute_eq]
  refine foldl_reaches (a := j) (P := fun t => Handing s e t ∧
      ((t.stop (stopOfLink (4 * e + j))).wait = (s.stop (stopOfLink (4 * e + j))).wait ∨ Handed s k (4 * e + j) t))
    (Q := fun t => Handing s e t ∧ Handed s k (4 * e + j) t)
    (List.mem_range.mpr hj) ⟨⟨rfl, rfl, rfl, hleaves⟩, .inl rfl⟩ ?_ ?_ ?_
  · rintro t i hi ⟨h, hwait⟩
    have hi := List.mem_range.mp hi
    refine ⟨h.movePort hk hi, ?_⟩
    obtain hwait | hd := hwait
    · by_cases hij : i = j
      · subst hij
        exact .inr (h.handed hk hi hdown hwait)
      · exact .inl ((h.movePort_other hk hi (by omega) hne).trans hwait)
    · exact .inr (h.movePort_handed hk hi hj hdown hd)
  · rintro t ⟨h, hwait⟩
    refine ⟨h.movePort hk hj, ?_⟩
    obtain hwait | hd := hwait
    · exact h.handed hk hj hdown hwait
    · exact h.movePort_handed hk hj hj hdown hd
  · rintro t i hi ⟨h, hd⟩
    have hi := List.mem_range.mp hi
    exact ⟨h.movePort hk hi, h.movePort_handed hk hi hj hdown hd⟩

end

end Sys2Proof.Machine
end

section
/-! The jobs of an edge die without a pod link left (14_system.md R398; 09_copy_collective.md R247). -/

namespace Sys2Proof.Machine

open Sys2Proof.Claims

/-! ### Jobs that lose their request -/

/-- A job whose request is lost ends with LINKDOWN, if it has not ended. -/
def lostJob (j : CJob) : CJob := { j with asked := false, held := false, ended := if j.ended.isNone then some 7 else j.ended }

theorem lostJob_tag (j : CJob) : (lostJob j).tag = j.tag := rfl

theorem lostJob_ended_of_none {j : CJob} (h : j.ended = none) : (lostJob j).ended = some 7 := by
  rw [lostJob, h]
  rfl

theorem lostJob_ended_of_down {j : CJob} (h : j.ended = some 7) : (lostJob j).ended = some 7 := by
  rw [lostJob, h]
  rfl

theorem job?_linkLost (s : State) (r : Req) (n tag : Nat) : ((linkLost s r).core n).job? tag =
    if r.org = .job n tag ∨ r.org = .coll n tag then ((s.core n).job? tag).map lostJob else (s.core n).job? tag := by
  unfold linkLost
  split
  · next k tag' h =>
    rw [h]
    refine (job?_onJob s k tag' 0 lostJob_tag n tag).trans (if_congr ?_ rfl rfl)
    simp
  · next k tag' h =>
    rw [h]
    refine (job?_onJob s k tag' 0 lostJob_tag n tag).trans (if_congr ?_ rfl rfl)
    simp
  · next h => rw [h, if_neg (by simp)]; rfl
  · next h => rw [h, if_neg (by simp)]

/-- Job tag of core n has ended with LINKDOWN. -/
def JobDown (n tag : Nat) (t : State) : Prop := ∃ x, (t.core n).job? tag = some x ∧ x.ended = some 7

/-- Job tag of core n is still j, or has ended with LINKDOWN. -/
def JobKept (n tag : Nat) (j : CJob) (t : State) : Prop := (t.core n).job? tag = some j ∨ JobDown n tag t

theorem job?_moveFlit (e : Nat) (u : State) (f : Flit) (n tag : Nat) :
    ((moveFlit e u f).core n).job? tag = (u.core n).job? tag ∨
      ((moveFlit e u f).core n).job? tag = ((u.core n).job? tag).map lostJob := by
  unfold moveFlit
  split
  · unfold sendAway
    split
    · exact .inl rfl
    · rw [job?_linkLost]
      split
      · exact .inr rfl
      · exact .inl rfl
  · left
    split <;> rfl

theorem JobDown.moveFlit {n tag : Nat} {u : State} (h : JobDown n tag u) (e : Nat) (f : Flit) : JobDown n tag (moveFlit e u f) := by
  obtain ⟨x, hx, hend⟩ := h
  obtain hjob | hjob := job?_moveFlit e u f n tag
  · exact ⟨x, hjob.trans hx, hend⟩
  · exact ⟨lostJob x, hjob.trans (by rw [hx]; rfl), lostJob_ended_of_down hend⟩

theorem JobKept.moveFlit {n tag : Nat} {j : CJob} {u : State} (h : JobKept n tag j u) (hj : j.ended = none) (e : Nat) (f : Flit) :
    JobKept n tag j (moveFlit e u f) := by
  obtain hx | hdown := h
  · obtain hjob | hjob := job?_moveFlit e u f n tag
    · exact .inl (hjob.trans hx)
    · exact .inr ⟨lostJob j, hjob.trans (by rw [hx]; rfl), lostJob_ended_of_none hj⟩
  · exact .inr (hdown.moveFlit e f)

theorem JobDown.movePort {n tag : Nat} {t : State} (h : JobDown n tag t) (e i : Nat) : JobDown n tag (movePort e t i) := by
  unfold Machine.movePort
  split
  · exact h
  · exact List.foldlRecOn (motive := JobDown n tag) _ _ h fun u hu f _ => hu.moveFlit e f

theorem JobKept.movePort {n tag : Nat} {j : CJob} {t : State} (h : JobKept n tag j t) (hj : j.ended = none) (e i : Nat) :
    JobKept n tag j (movePort e t i) := by
  unfold Machine.movePort
  split
  · exact h
  · exact List.foldlRecOn (motive := JobKept n tag j) _ _ h fun u hu f _ => hu.moveFlit hj e f

theorem JobKept.reroute {n tag : Nat} {j : CJob} {s : State} (h : JobKept n tag j s) (hj : j.ended = none) (e : Nat) :
    JobKept n tag j (reroute s e) := by
  rw [reroute_eq]
  exact List.foldlRecOn (motive := JobKept n tag j) _ _ h fun t ht i _ => ht.movePort hj e i

theorem mem_wait_moveFlit {u : State} {f : Flit} {m : Nat} (h : f ∈ (u.stop m).wait) (e : Nat) (g : Flit) :
    f ∈ ((moveFlit e u g).stop m).wait := by
  have hput (k : Nat) (x : Flit) : f ∈ ((u.putFlit k x).stop m).wait := by
    rw [stop_putFlit]
    split
    · exact List.mem_append_left _ h
    · exact h
  unfold moveFlit
  split
  · unfold sendAway
    split
    · exact hput _ _
    · rw [linkLost_eq]
      exact h
  · split
    · exact hput _ _
    · exact h

theorem mem_wait_movePort {t : State} {f : Flit} {e i l : Nat} (hne : 4 * e + i ≠ l) (h : f ∈ (t.stop (stopOfLink l)).wait) :
    f ∈ ((movePort e t i).stop (stopOfLink l)).wait := by
  unfold movePort
  split
  · exact h
  · refine List.foldlRecOn (motive := fun u : State => f ∈ (u.stop (stopOfLink l)).wait) _ _ ?_ fun u hu g _ =>
      mem_wait_moveFlit hu e g
    rw [State.stop_setStop, if_neg (by rwa [stopOfLink_inj])]
    exact h

section
variable {n tag e i : Nat} {j : CJob} {f : Flit} {r : Req} (hr : f.load = .req r) (horg : r.org = .job n tag) (hn : n / 8 / 16 = e)
  (hj : j.ended = none)
include hr horg hn hj

/-- A job's request that has no link left ends the job. -/
theorem moveFlit_downs {u : State} (hpath : u.podLink e = none) (h : JobKept n tag j u) : JobDown n tag (moveFlit e u f) := by
  have hexit : r.exit = e := by
    rw [Req.exit, horg]
    exact hn
  have hjob : ((moveFlit e u f).core n).job? tag = ((u.core n).job? tag).map lostJob := by
    rw [moveFlit, hr]
    dsimp only
    rw [sendAway, hexit, hpath]
    dsimp only
    rw [job?_linkLost, if_pos (.inl horg)]
  obtain hx | ⟨x, hx, hend⟩ := h
  · exact ⟨lostJob j, hjob.trans (by rw [hx]; rfl), lostJob_ended_of_none hj⟩
  · exact ⟨lostJob x, hjob.trans (by rw [hx]; rfl), lostJob_ended_of_down hend⟩

theorem movePort_downs {t : State} (hf : f ∈ (t.stop (stopOfLink (4 * e + i))).wait) (hdown : t.linkUp (4 * e + i) = false)
    (hpath : t.podLink e = none) (h : JobKept n tag j t) : JobDown n tag (movePort e t i) := by
  rw [movePort, if_neg (by simp [hdown])]
  exact foldl_reaches (P := fun u => u.sys = t.sys ∧ JobKept n tag j u) (Q := JobDown n tag) hf ⟨rfl, h⟩
    (fun u g _ hu => ⟨(rerouted_moveFlit e u g).sys.trans hu.1, hu.2.moveFlit hj e g⟩)
    (fun u hu => moveFlit_downs hr horg hn hj ((podLink_congr hu.1 e).trans hpath) hu.2)
    (fun u g _ hu => hu.moveFlit e g)

/-- The request of a job that waits at a link that is down ends it, where its edge die has no link left. -/
theorem reroute_downs {s : State} (hi : i < 4) (hf : f ∈ (s.stop (stopOfLink (4 * e + i))).wait)
    (hdown : s.linkUp (4 * e + i) = false) (hpath : s.podLink e = none) (hjob : (s.core n).job? tag = some j) :
    JobDown n tag (reroute s e) := by
  have hport (t : State) (hsys : t.sys = s.sys) (hkept : JobKept n tag j t)
      (hwait : f ∈ (t.stop (stopOfLink (4 * e + i))).wait ∨ JobDown n tag t) : JobDown n tag (movePort e t i) := by
    obtain hwait | hd := hwait
    · exact movePort_downs hr horg hn hj hwait (by rw [State.linkUp, hsys]; exact hdown) ((podLink_congr hsys e).trans hpath) hkept
    · exact hd.movePort e i
  rw [reroute_eq]
  refine foldl_reaches (P := fun t => t.sys = s.sys ∧ JobKept n tag j t ∧
      (f ∈ (t.stop (stopOfLink (4 * e + i))).wait ∨ JobDown n tag t)) (Q := JobDown n tag)
    (List.mem_range.mpr hi) ⟨rfl, .inl hjob, .inl hf⟩ ?_ (fun t ⟨hsys, hkept, hwait⟩ => hport t hsys hkept hwait)
    fun t k _ h => h.movePort e k
  rintro t k - ⟨hsys, hkept, hwait⟩
  refine ⟨(rerouted_movePort e t k).sys.trans hsys, hkept.movePort hj e k, ?_⟩
  by_cases hk : k = i
  · subst hk
    exact .inr (hport t hsys hkept hwait)
  · exact hwait.imp (mem_wait_movePort (by omega)) (·.movePort e k)

end

/-! ### Requests that are still under way -/

/-- A request of an issuer. -/
def Flit.isOf (o : Origin) (f : Flit) : Prop := ∃ r, f.load = .req r ∧ r.org = o

/-- No request of an issuer is in transit or waits at a stop. -/
structure NoFlit (o : Origin) (t : State) : Prop where
  air : ∀ f ∈ t.air, ¬ f.isOf o
  stops : ∀ x ∈ t.stops, ∀ f ∈ x.2.wait, ¬ f.isOf o

theorem isOf_iff (o : Origin) (f : Flit) :
    (match f.load with | .req r => decide (r.org = o) | _ => false) = true ↔ f.isOf o := by
  unfold Flit.isOf
  split
  · next r h => simp [h]
  · next h => exact iff_of_false Bool.false_ne_true fun ⟨r, hr, _⟩ => h r hr

theorem noFlit_of_pending {s : State} {o : Origin} (h : s.pending o = false) : NoFlit o s := by
  unfold State.pending at h
  simp only [Bool.or_eq_false_iff, List.any_eq_false, Bool.not_eq_true] at h
  obtain ⟨⟨-, hair⟩, hstops⟩ := h
  exact ⟨fun f hf => by rw [← isOf_iff, Bool.not_eq_true]; exact hair f hf,
    fun x hx f hf => by rw [← isOf_iff, Bool.not_eq_true]; exact hstops x hx f hf⟩

theorem pending_of_noFlit {s t : State} {o : Origin} (hhomes : t.homes = s.homes) (h : s.pending o = false) (ht : NoFlit o t) :
    t.pending o = false := by
  unfold State.pending at h ⊢
  simp only [Bool.or_eq_false_iff, List.any_eq_false, Bool.not_eq_true, State.home, hhomes] at h ⊢
  obtain ⟨⟨hheld, -⟩, -⟩ := h
  exact ⟨⟨hheld, fun f hf => by rw [← Bool.not_eq_true]; exact (isOf_iff o f).not.mpr (ht.air f hf)⟩,
    fun x hx f hf => by rw [← Bool.not_eq_true]; exact (isOf_iff o f).not.mpr (ht.stops x hx f hf)⟩

theorem SMap.get_mem {α : Type} (m : SMap α) (d : α) (k : Nat) : SMap.get m d k = d ∨ (k, SMap.get m d k) ∈ m := by
  induction m with
  | nil => exact .inl rfl
  | cons x m ih =>
    rw [show SMap.get (x :: m) d k = SMap.get ((x.1, x.2) :: m) d k from rfl, SMap.get_cons]
    split
    · next h => exact .inr (by rw [← h]; exact .head m)
    · exact ih.imp_right (.tail x)

theorem SMap.mem_set {α : Type} [DecidableEq α] {m : SMap α} {d v : α} {k : Nat} {x : Nat × α} (h : x ∈ SMap.set m d k v) :
    x = (k, v) ∨ x ∈ m := by
  unfold SMap.set at h
  split at h
  · exact .inr (List.mem_filter.mp h).1
  · exact SMap.mem_insert m k v x h

section
variable {o : Origin} {t : State} (h : NoFlit o t)
include h

theorem NoFlit.wait {n : Nat} {f : Flit} (hf : f ∈ (t.stop n).wait) : ¬ f.isOf o := by
  obtain hstart | hmem := SMap.get_mem t.stops Stop.start n
  · rw [State.stop, hstart] at hf
    cases hf
  · exact h.stops _ hmem f hf

theorem NoFlit.setStop {n : Nat} {x : Stop} (hx : ∀ f ∈ x.wait, ¬ f.isOf o) : NoFlit o (t.setStop n x) := by
  refine ⟨h.air, fun y hy f hf => ?_⟩
  obtain rfl | hy := SMap.mem_set hy
  · exact hx f hf
  · exact h.stops y hy f hf

theorem NoFlit.putFlit {f : Flit} (hf : ¬ f.isOf o) (n : Nat) : NoFlit o (t.putFlit n f) := by
  refine h.setStop fun g hg => ?_
  obtain hg | hg := List.mem_append.mp hg
  · exact h.wait hg
  · rwa [List.mem_singleton.mp hg]

theorem NoFlit.moveFlit {f : Flit} (hf : ¬ f.isOf o) (e : Nat) : NoFlit o (moveFlit e t f) := by
  unfold Machine.moveFlit
  split
  · next r hr =>
    unfold sendAway
    split
    · exact h.putFlit (fun ⟨r', hr', horg⟩ => hf ⟨r', hr.trans hr', horg⟩) _
    · rw [linkLost_eq]
      exact ⟨h.air, h.stops⟩
  · split
    · exact h.putFlit hf _
    · refine ⟨fun g hg => ?_, h.stops⟩
      obtain hg | hg := List.mem_append.mp hg
      · exact h.air g hg
      · rwa [List.mem_singleton.mp hg]

theorem NoFlit.movePort (e i : Nat) : NoFlit o (movePort e t i) := by
  unfold Machine.movePort
  split
  · exact h
  · exact List.foldlRecOn (motive := NoFlit o) _ _ (h.setStop fun f hf => absurd hf List.not_mem_nil) fun u hu f hf =>
      hu.moveFlit (h.wait hf) e

theorem NoFlit.reroute (e : Nat) : NoFlit o (reroute t e) := by
  rw [reroute_eq]
  exact List.foldlRecOn (motive := NoFlit o) _ _ h fun u hu i _ => hu.movePort e i

end

theorem pending_reroute {s : State} {o : Origin} (h : s.pending o = false) (e : Nat) : (reroute s e).pending o = false :=
  pending_of_noFlit (rerouted_reroute s e).homes h ((noFlit_of_pending h).reroute e)

/-! ### Jobs whose request is in another module -/

/-- A job as the loss of its edge die's last link leaves it. -/
def downJob (s : State) (n : Nat) (j : CJob) : CJob :=
  if j.asked && !s.pending (.job n j.tag) && !s.pending (.coll n j.tag) then lostJob j else j

theorem downJob_tag (s : State) (n : Nat) (j : CJob) : (downJob s n j).tag = j.tag := by
  unfold downJob
  split <;> rfl

theorem downJob_ended_of_down {s : State} {n : Nat} {j : CJob} (h : j.ended = some 7) : (downJob s n j).ended = some 7 := by
  unfold downJob
  split
  · exact lostJob_ended_of_down h
  · exact h

theorem downJobs_core (s : State) {e n : Nat} (hn : n / 8 / 16 = e) :
    (downJobs s e).core n = { s.core n with jobs := (s.core n).jobs.map (downJob s n) } := by
  have hmap : (downJobs s e).cores = s.cores.map fun x => (x.1,
      if edgeOfDie (dieOf x.1) ≠ e then x.2 else { x.2 with jobs := x.2.jobs.map (downJob s x.1) }) :=
    List.map_congr_left fun x _ => by split <;> rfl
  rw [State.core, hmap, SMap.get_map_key _ _ (fun k (c : Core) =>
    if edgeOfDie (dieOf k) ≠ e then c else { c with jobs := c.jobs.map (downJob s k) }) (fun k => ite_self _), 
    if_neg (show ¬ edgeOfDie (dieOf n) ≠ e from not_not.mpr hn)]
  rfl

theorem downJobs_job? (s : State) {e n : Nat} (hn : n / 8 / 16 = e) (tag : Nat) :
    ((downJobs s e).core n).job? tag = ((s.core n).job? tag).map (downJob s n) := by
  rw [downJobs_core s hn, Core.job?, Core.job?, List.find?_map]
  congr 1
  simp only [Function.comp_def, downJob_tag]

theorem downJobs_sys (s : State) (e : Nat) : (downJobs s e).sys = s.sys := rfl

theorem downUses_of_nil {s : State} (h : s.uses = []) : downUses s = s := by
  rw [downUses, h]
  rfl

theorem downUses_sys (s : State) : (downUses s).sys = s.sys := by
  refine List.foldlRecOn (motive := fun t : State => t.sys = s.sys) _ _ rfl fun t ht i _ => ?_
  split
  · split
    · exact (finishUse_sys t i 7 0).trans ht
    · exact ht
  · exact ht

end Sys2Proof.Machine
end

section
/-! The step of a pod link that fails (14_system.md R398). -/

namespace Sys2Proof.Machine

open Sys2Proof.Claims

/-- The state once pod link obj has failed and has come up again or not, with the event of its failure. -/
def linkWent (s : State) (up : Bool) : State :=
  let t := if s.linkUp s.obj then linkEvent s s.obj false else s
  { t with sys := { t.sys with links := SMap.set t.sys.links false s.obj up } }

theorem linkWent_eq (s : State) (up : Bool) : linkWent s up = { s with sys := { s.sys with
    links := SMap.set s.sys.links false s.obj up, events := (linkWent s up).sys.events } } := by
  unfold linkWent
  dsimp only
  split <;> rfl

theorem linkWent_events (s : State) (up : Bool) :
    (linkWent s up).sys.events.length = s.sys.events.length + if SMap.get s.sys.links false s.obj then 1 else 0 := by
  unfold linkWent State.linkUp
  dsimp only
  split
  · exact List.length_append
  · rfl

theorem linkWent_links (s : State) (up : Bool) (l : Nat) :
    SMap.get (linkWent s up).sys.links false l = if s.obj = l then up else SMap.get s.sys.links false l := by
  rw [linkWent_eq]
  exact SMap.get_set _ _ _ _ _

theorem linkWent_switchOf (s : State) (up : Bool) (l : Nat) : (linkWent s up).switchOf l = s.switchOf l := by
  rw [linkWent_eq]
  rfl

theorem linkWent_cores (s : State) (up : Bool) : (linkWent s up).cores = s.cores := by rw [linkWent_eq]

theorem linkWent_air (s : State) (up : Bool) : (linkWent s up).air = s.air := by rw [linkWent_eq]

theorem linkWent_stop (s : State) (up : Bool) (m : Nat) : (linkWent s up).stop m = s.stop m := by
  rw [linkWent_eq]
  rfl

theorem linkWent_uses (s : State) (up : Bool) : (linkWent s up).uses = s.uses := by rw [linkWent_eq]

theorem linkWent_pending (s : State) (up : Bool) (o : Origin) : (linkWent s up).pending o = s.pending o := by
  rw [linkWent_eq]
  rfl

theorem exec_podLinkFail_retrained {s : State} (h : s.obj < 16) :
    exec (.podLinkFail true) s = .next (linkEvent (linkWent s true) s.obj true) := by
  show Host.Outcome.next (if 16 ≤ s.obj then _ else _) = _
  rw [if_neg (by omega)]
  rfl

/-- The state after pod link obj has failed for good. -/
def linkFailed (s : State) : State :=
  let t := reroute (linkWent s false) (s.obj / 4)
  if t.edgeUp (s.obj / 4) then t else downJobs (downUses t) (s.obj / 4)

theorem exec_podLinkFail_lost {s : State} (h : s.obj < 16) : exec (.podLinkFail false) s = .next (linkFailed s) := by
  show Host.Outcome.next (if 16 ≤ s.obj then _ else _) = _
  rw [if_neg (by omega)]
  rfl

theorem linkFailed_sys (s : State) : (linkFailed s).sys = (linkWent s false).sys := by
  have hreroute := (rerouted_reroute (linkWent s false) (s.obj / 4)).sys
  unfold linkFailed
  dsimp only
  split
  · exact hreroute
  · rw [downJobs_sys, downUses_sys, hreroute]

theorem linkFailed_of_path {s : State} {k : Nat} (h : (linkWent s false).podLink (s.obj / 4) = some k) :
    linkFailed s = reroute (linkWent s false) (s.obj / 4) := by
  have hpath := (podLink_congr (rerouted_reroute (linkWent s false) (s.obj / 4)).sys (s.obj / 4)).trans h
  exact if_pos (by rw [State.edgeUp, hpath]; rfl)

theorem linkFailed_of_none {s : State} (h : (linkWent s false).podLink (s.obj / 4) = none) :
    linkFailed s = downJobs (downUses (reroute (linkWent s false) (s.obj / 4))) (s.obj / 4) := by
  have hpath := (podLink_congr (rerouted_reroute (linkWent s false) (s.obj / 4)).sys (s.obj / 4)).trans h
  exact if_neg (by rw [State.edgeUp, hpath]; exact Bool.false_ne_true)

/-- A link of the same edge die, trained, that reaches the same switch as the die's first. -/
def OtherLink (s : State) (l : Nat) : Prop :=
  l ≠ s.obj ∧ l / 4 = s.obj / 4 ∧ SMap.get s.sys.links false l = true ∧
    SMap.get s.sys.switches 0 l = SMap.get s.sys.switches 0 (4 * (s.obj / 4))

theorem otherLink_of_podLink {s : State} {k : Nat} (h : (linkWent s false).podLink (s.obj / 4) = some k) :
    OtherLink s k := by
  obtain ⟨⟨i, hi, rfl⟩, hup, hsw⟩ := podLink_spec h
  rw [linkWent_switchOf, linkWent_switchOf] at hsw
  rw [State.linkUp, linkWent_links] at hup
  split at hup
  · cases hup
  · next hne => exact ⟨Ne.symm hne, by omega, hup, hsw⟩

theorem podLink_of_otherLink {s : State} {l : Nat} (h : OtherLink s l) :
    ∃ k, (linkWent s false).podLink (s.obj / 4) = some k := by
  obtain ⟨hne, hdie, hup, hsw⟩ := h
  obtain ⟨i, hi, rfl⟩ : ∃ i < 4, l = 4 * (s.obj / 4) + i := ⟨l % 4, by omega, by omega⟩
  refine podLink_of_up hi ?_ ?_
  · rw [State.linkUp, linkWent_links, if_neg (Ne.symm hne)]
    exact hup
  · rw [linkWent_switchOf, linkWent_switchOf]
    exact hsw

theorem podLink_of_no_other {s : State} (h16 : s.obj < 16) (h : ∀ l < 16, ¬ OtherLink s l) :
    (linkWent s false).podLink (s.obj / 4) = none := by
  cases hk : (linkWent s false).podLink (s.obj / 4) with
  | none => rfl
  | some k =>
    obtain ⟨⟨i, hi, rfl⟩, -⟩ := podLink_spec hk
    exact absurd (otherLink_of_podLink hk) (h _ (by omega))

theorem podLinkFail_retrains {s : State} (h : s.obj < 16) :
    ∃ t, exec (.podLinkFail true) s = .next t ∧ SMap.get t.sys.links false s.obj = true ∧ t.cores = s.cores ∧
      t.sys.events.length = s.sys.events.length + (if SMap.get s.sys.links false s.obj then 2 else 1) := by
  refine ⟨_, exec_podLinkFail_retrained h, ?_, linkWent_cores s true, ?_⟩
  · exact (linkWent_links s true s.obj).trans (if_pos rfl)
  · refine List.length_append.trans ?_
    rw [linkWent_events]
    split <;> rfl

theorem obj_eq_port (s : State) : 4 * (s.obj / 4) + s.obj % 4 = s.obj := Nat.div_add_mod s.obj 4

theorem linkWent_obj_down (s : State) : (linkWent s false).linkUp (4 * (s.obj / 4) + s.obj % 4) = false := by
  rw [obj_eq_port, State.linkUp, linkWent_links, if_pos rfl]

theorem linkFailed_hands_over {s : State} (h : s.obj < 16) (hother : ∃ l < 16, OtherLink s l)
    (hleaves : ∀ l < 16, l / 4 = s.obj / 4 → ∀ f ∈ (s.stop (68 + l)).wait, ∀ r, f.load = .req r → r.exit = s.obj / 4) :
    (linkFailed s).cores = s.cores ∧ (linkFailed s).air = s.air ∧ ((linkFailed s).stop (68 + s.obj)).wait = [] ∧
      ∀ f ∈ (s.stop (68 + s.obj)).wait, ∃ l < 16, OtherLink s l ∧ ∃ g ∈ ((linkFailed s).stop (68 + l)).wait, g.load = f.load := by
  obtain ⟨l, -, hl⟩ := hother
  obtain ⟨k, hk⟩ := podLink_of_otherLink hl
  have hports (i : Nat) (hi : i < 4) (f : Flit) (hf : f ∈ ((linkWent s false).stop (stopOfLink (4 * (s.obj / 4) + i))).wait) :
      LeavesBy (s.obj / 4) f := by
    rw [linkWent_stop] at hf
    exact hleaves _ (by omega) (by omega) f hf
  obtain ⟨hrest, hempty, hhanded⟩ := reroute_hands_over hk (Nat.mod_lt s.obj (by decide)) (linkWent_obj_down s) hports
  rw [obj_eq_port] at hempty hhanded
  rw [linkWent_stop] at hhanded
  rw [linkFailed_of_path hk]
  refine ⟨hrest.cores.trans (linkWent_cores s false), hrest.air.trans (linkWent_air s false), hempty, fun f hf => ?_⟩
  obtain ⟨⟨i, hi, hki⟩, -⟩ := podLink_spec hk
  exact ⟨k, by omega, otherLink_of_podLink hk, hhanded f hf⟩

theorem linkFailed_downs {s : State} {n tag : Nat} {j : CJob} (h : s.obj < 16) (huses : s.uses = [])
    (hother : ∀ l < 16, ¬ OtherLink s l) (hn : n / 8 / 16 = s.obj / 4) (hjob : (s.core n).job? tag = some j) (hj : j.ended = none)
    (hreq : (∃ c r, (⟨c, .req r⟩ : Flit) ∈ (s.stop (68 + s.obj)).wait ∧ r.org = .job n tag) ∨
      (j.asked = true ∧ s.pending (.job n tag) = false ∧ s.pending (.coll n tag) = false)) :
    ∃ j', ((linkFailed s).core n).job? tag = some j' ∧ j'.ended = some 7 := by
  have hpath := podLink_of_no_other h hother
  have hjob' : ((linkWent s false).core n).job? tag = some j := by rw [State.core, linkWent_cores]; exact hjob
  have hnil : (reroute (linkWent s false) (s.obj / 4)).uses = [] :=
    (rerouted_reroute _ _).uses.trans ((linkWent_uses s false).trans huses)
  rw [linkFailed_of_none hpath, downUses_of_nil hnil, downJobs_job? _ hn]
  have hdone (hd : JobDown n tag (reroute (linkWent s false) (s.obj / 4))) :
      ∃ j', (((reroute (linkWent s false) (s.obj / 4)).core n).job? tag).map
        (downJob (reroute (linkWent s false) (s.obj / 4)) n) = some j' ∧ j'.ended = some 7 := by
    obtain ⟨x, hx, hend⟩ := hd
    exact ⟨_, by rw [hx]; rfl, downJob_ended_of_down hend⟩
  obtain ⟨c, r, hf, horg⟩ | ⟨hasked, hpend, hcoll⟩ := hreq
  · refine hdone (reroute_downs (f := ⟨c, .req r⟩) rfl horg hn hj (Nat.mod_lt s.obj (by decide)) ?_ (linkWent_obj_down s) hpath hjob')
    rw [linkWent_stop, obj_eq_port]
    exact hf
  · obtain hx | hd := JobKept.reroute (.inl hjob') hj (s.obj / 4)
    · refine ⟨_, by rw [hx]; rfl, ?_⟩
      rw [downJob, Core.tag_of_job? hjob, hasked, pending_reroute ((linkWent_pending s false _).trans hpend),
        pending_reroute ((linkWent_pending s false _).trans hcoll)]
      exact lostJob_ended_of_none hj
    · exact hdone hd

theorem podLinkFail_fails {s : State} (h : s.obj < 16) :
    ∃ t, exec (.podLinkFail false) s = .next t ∧ SMap.get t.sys.links false s.obj = false ∧
      (∀ l, l ≠ s.obj → SMap.get t.sys.links false l = SMap.get s.sys.links false l) ∧
      ((∃ l < 16, OtherLink s l) →
        (∀ l < 16, l / 4 = s.obj / 4 → ∀ f ∈ (s.stop (68 + l)).wait, ∀ r, f.load = .req r → r.exit = s.obj / 4) →
        t.cores = s.cores ∧ t.air = s.air ∧ (t.stop (68 + s.obj)).wait = [] ∧
          ∀ f ∈ (s.stop (68 + s.obj)).wait, ∃ l < 16, OtherLink s l ∧
            ∃ g ∈ (t.stop (68 + l)).wait, g.load = f.load) ∧
      (∀ n tag j, s.uses = [] → (∀ l < 16, ¬ OtherLink s l) →
        n / 8 / 16 = s.obj / 4 → (s.core n).job? tag = some j → j.ended = none →
        ((∃ c r, (⟨c, .req r⟩ : Flit) ∈ (s.stop (68 + s.obj)).wait ∧ r.org = .job n tag) ∨
          (j.asked = true ∧ s.pending (.job n tag) = false ∧ s.pending (.coll n tag) = false)) →
        ∃ j', (t.core n).job? tag = some j' ∧ j'.ended = some 7) := by
  refine ⟨_, exec_podLinkFail_lost h, ?_, fun l hl => ?_, linkFailed_hands_over h,
    fun n tag j huses hother hn hjob hj hreq => linkFailed_downs h huses hother hn hjob hj hreq⟩
  · rw [linkFailed_sys, linkWent_links, if_pos rfl]
  · rw [linkFailed_sys, linkWent_links, if_neg (Ne.symm hl)]

/-- Settles O53: each step of the module by its own lemma above. -/
theorem theModuleRuns : Obligations.TheModuleRuns := by
  intro s
  obtain ⟨htrain, htrained⟩ := cxlPortTrain_trains s
  exact ⟨fun e he => eventArbitrate_takes he, exec_msixCoalesceExpiry_idle,
    fun hwait hfree => ⟨_, exec_msixCoalesceExpiry_send hwait hfree, rfl, rfl, rfl⟩,
    powerWindow_grants s, girdleBeacon_steers s, ptpSync_steers s, fun i hi => boleFailure_hands_over hi s,
    boleTakeover_ends, exec_boleTakeover_none, twigFailover_moves s,
    fun h => ⟨podLinkFail_retrains h, podLinkFail_fails h⟩, htrain, htrained, correctedErrors_counted⟩

end Sys2Proof.Machine
end

section
/-! The token of a finished job (09_copy_collective.md R246 to R248; 02_numbers.md R60; 12_traps.md R330). -/

namespace Sys2Proof.Machine

open Sys2Proof.Claims

/-! ### A register that fills -/

theorem Ctx.readReg_writeReg_scalar {x : Ctx} {i : Fin 64} (hi : i ≠ 0) (w : Word) :
    (x.writeReg (.s i) (.s w)).readReg (.s i) = .full (.s w) := by
  have hval : i.val ≠ 0 := fun h => hi (Fin.ext h)
  simp [Ctx.writeReg, Ctx.readReg, hval, Cell.map, Val.toScalar]

theorem Ctx.readReg_writeReg_scalar_ne {x : Ctx} {i : Fin 64} {r : RegId} (hr : r ≠ .s i) (v : Val) :
    (x.writeReg (.s i) v).readReg r = x.readReg r := by
  by_cases hi : i.val = 0
  · simp [Ctx.writeReg, hi]
  · cases r with
    | s k =>
      have hk : i.val ≠ k.val := fun h => hr (congrArg RegId.s (Fin.ext h.symm))
      simp [Ctx.writeReg, Ctx.readReg, hi, SMap.get_set_ne _ _ _ _ _ hk]
    | _ => simp [Ctx.writeReg, Ctx.readReg, hi]

theorem Core.fillReg_scalar (c : Core) {i : Fin 64} (hi : i ≠ 0) (w : Word) :
    c.fillReg (.s i) (.s w) = { c with ctx := c.ctx.writeReg (.s i) (.s w) }.wakeAll (.reg (.s i)) (.s w) := by
  simp only [Core.fillReg, Ctx.readReg_writeReg_scalar hi]

theorem wokenQueues_wakeAll (c : Core) (w : Wait) (v : Val) : wokenQueues c (c.wakeAll w v) w v := fun e =>
  SMap.get_map_key c.qs [] (fun _ l => l.map fun (en : Entry) => { en with val := en.val.wake w v }) (fun _ => rfl) e.code

/-! ### The status word and the fault -/

theorem CJob.word_eq (j : CJob) (st : Byte) : j.word st = BitVec.ofNat 64
    (st.toNat + (causeOf st).toNat * 2 ^ 8 + j.flags.toNat * 2 ^ 16 + j.doneb * 2 ^ 24) :=
  congrArg (BitVec.ofNat 64) (by omega)

theorem mem_insertDeferred (d : Deferred) (l : List Deferred) : d ∈ insertDeferred d l := by
  induction l with
  | nil => simp [insertDeferred]
  | cons x l ih =>
    unfold insertDeferred
    split
    · exact List.mem_cons_self
    · exact List.mem_cons_of_mem _ ih

theorem job?_filter_self (c : Core) (tag : Nat) :
    ({ c with jobs := c.jobs.filter (fun x => decide (x.tag ≠ tag)) } : Core).job? tag = none := by
  simp [Core.job?, List.find?_eq_none]

/-- The faults that wait once a job has ended with a status: its own among them where the status carries a cause. -/
def faultsAfter (c : Core) (j : CJob) (st : Byte) : List Deferred :=
  if causeOf st = 0 then c.deferred
  else insertDeferred { tag := j.tag, send := false, cause := causeOf st,
                        faddr := if 0x10 ≤ (causeOf st).toNat ∧ (causeOf st).toNat ≤ 0x13 then j.faddr else 0,
                        tok := j.tok.val, part := j.part, nfault := j.nfault, live := true } c.deferred

theorem Core.fillToken_eq (c : Core) (j : CJob) (st : Byte) : c.fillToken j st =
    (({ c with jobs := c.jobs.filter (fun x => decide (x.tag ≠ j.tag)), deferred := faultsAfter c j st }).fillReg
      (.s j.tok) (.s (j.word st))).orFlags j.flags := by
  by_cases h : causeOf st = 0 <;> simp only [Core.fillToken, faultsAfter, h, ↓reduceIte]

theorem exec_tokenFill {s : State} {j : CJob} {st : Byte} (hj : s.me.jobs[s.obj]? = some j) (hend : j.ended = some st)
    (hidle : j.slog = 0 ∧ j.asked = false ∧ j.use = none) : exec .tokenFill s = .next (s.setMe (s.me.fillToken j st)) := by
  show execTokenFill s = _
  simp only [execTokenFill, hj, hend, if_pos hidle]

/-- Settles O32: the step is fillToken, which fills the token register and wakes what waits for it. -/
theorem tokensFill : Obligations.TokensFill := by
  intro s j st hj hend hslog hasked huse htok
  refine ⟨_, exec_tokenFill hj hend ⟨hslog, hasked, huse⟩, ?_⟩
  rw [Core.fillToken_eq, Core.fillReg_scalar _ htok]
  refine ⟨job?_filter_self s.me j.tag, ?_, fun r hr => Ctx.readReg_writeReg_scalar_ne hr _, ?_, wokenQueues_wakeAll _ _ _,
    fun hc => if_pos hc, fun hc => ?_⟩
  · rw [← CJob.word_eq]
    exact Ctx.readReg_writeReg_scalar htok _
  · have hafl : (s.me.ctx.writeReg (.s j.tok) (.s (j.word st))).afl = s.me.ctx.afl := by
      simp only [Ctx.writeReg]
      split <;> rfl
    exact congrArg (· ||| j.flags) hafl
  · exact ⟨_, (if_neg hc : faultsAfter s.me j st = _) ▸ mem_insertDeferred _ _, rfl, rfl, rfl, rfl, rfl⟩

end Sys2Proof.Machine
end

section
/-! Rounding, once for every operation (02_numbers.md R33 to R35, R37): a magnitude cut at a unit and rounded is an integer near it,
and a datum of a format is that integer in place. -/

namespace Sys2Proof.Claims

open Sys2Proof.Machine

/-! ### Powers of two -/

theorem p2_pos (e : Int) : 0 < p2 e := zpow_pos two_pos e

theorem p2_add (a b : Int) : p2 (a + b) = p2 a * p2 b := zpow_add₀ two_ne_zero a b

theorem p2_natCast (n : Nat) : p2 (n : Int) = ((2 ^ n : Nat) : Rat) := by rw [p2, zpow_natCast, Nat.cast_pow, Nat.cast_ofNat]

theorem p2_lt {a b : Int} : p2 a < p2 b ↔ a < b := zpow_lt_zpow_iff_right₀ one_lt_two

theorem p2_le {a b : Int} : p2 a ≤ p2 b ↔ a ≤ b := zpow_le_zpow_iff_right₀ one_lt_two

theorem p2_succ (e : Int) : p2 (e + 1) = 2 * p2 e := by rw [p2_add, mul_comm]; rfl

/-- A power of two in units of a smaller one. -/
theorem p2_eq_units {q e : Int} (h : q ≤ e) : p2 e = ((2 ^ (e - q).toNat : Nat) : Rat) * p2 q := by
  rw [← p2_natCast, ← p2_add, Int.toNat_of_nonneg (by omega), Int.sub_add_cancel]

/-- Products with one power of two compare as their factors. -/
theorem mul_p2_le {a b : Rat} {e : Int} : a * p2 e ≤ b * p2 e ↔ a ≤ b := mul_le_mul_iff_left₀ (p2_pos e)

theorem mul_p2_lt {a b : Rat} {e : Int} : a * p2 e < b * p2 e ↔ a < b := mul_lt_mul_iff_left₀ (p2_pos e)

theorem mul_p2_inj {a b : Rat} {e : Int} : a * p2 e = b * p2 e ↔ a = b := mul_left_inj' (p2_pos e).ne'

/-! ### An integer near a magnitude -/

/-- m, with more bits below it when st: any number strictly between m and m + 1 would stand for them as well as this one. -/
def sticky (m : Nat) (st : Bool) : Rat := m + if st then 1 / 2 else 0

@[simp] theorem sticky_false (m : Nat) : sticky m false = m := by simp [sticky]

theorem two_mul_sticky (m : Nat) (st : Bool) : 2 * sticky m st = ((2 * m + st.toNat : Nat) : Rat) := by
  cases st <;> simp [sticky, mul_add]

/-- An integer compares with the magnitude by m alone, and with the bits below where it is m. -/
theorem intCast_lt_sticky {c : Int} {m : Nat} {st : Bool} : (c : Rat) < sticky m st ↔ c < m ∨ (c = m ∧ st = true) := by
  have htwice : (c : Rat) < sticky m st ↔ 2 * c < ((2 * m + st.toNat : Nat) : Int) := by
    rw [← mul_lt_mul_iff_right₀ (two_pos : (0 : Rat) < 2), two_mul_sticky]
    norm_cast
  rw [htwice]
  cases st with
  | false => simp
  | true => simp only [Bool.toNat_true, and_true]; omega

theorem sticky_lt_intCast {c : Int} {m : Nat} {st : Bool} : sticky m st < (c : Rat) ↔ (m : Int) < c := by
  have htwice : sticky m st < (c : Rat) ↔ ((2 * m + st.toNat : Nat) : Int) < 2 * c := by
    rw [← mul_lt_mul_iff_right₀ (two_pos : (0 : Rat) < 2), two_mul_sticky]
    norm_cast
  rw [htwice]
  cases st with
  | false => simp
  | true => simp only [Bool.toNat_true]; omega

theorem le_sticky (m : Nat) (st : Bool) : (m : Rat) ≤ sticky m st := by
  have := mt (sticky_lt_intCast (c := m) (m := m) (st := st)).mp (lt_irrefl _)
  exact_mod_cast not_lt.mp this

theorem sticky_lt (m : Nat) (st : Bool) : sticky m st < m + 1 := by
  exact_mod_cast (sticky_lt_intCast (c := m + 1) (st := st)).mpr (by omega)

/-- k is the magnitude y of a number with the sign neg rounded to an integer in the direction of rm (02_numbers.md R35, R37). -/
structure RoundsMag (rm : RM) (neg : Bool) (y : Rat) (k : Nat) : Prop where
  near : rm = 0 → (k : Rat) - 1 / 2 ≤ y ∧ y ≤ k + 1 / 2 ∧ (y = k - 1 / 2 ∨ y = k + 1 / 2 → k % 2 = 0)
  down : rm = 1 ∨ (rm = 2 ∧ neg = true) ∨ (rm = 3 ∧ neg = false) → (k : Rat) ≤ y ∧ y < k + 1
  up : (rm = 2 ∧ neg = false) ∨ (rm = 3 ∧ neg = true) → (k : Rat) - 1 < y ∧ y ≤ k

/-- What the fraction r / d, with more bits below when st, is to 0 and to 1/2. -/
theorem fraction_cases {r d : Nat} {st : Bool} (hr : r < d) (heven : st = true → d % 2 = 0) :
    let f := sticky r st / d
    0 ≤ f ∧ f < 1 ∧ (f = 0 ↔ r = 0 ∧ st = false) ∧ (1 / 2 < f ↔ d < 2 * r ∨ (2 * r = d ∧ st = true)) ∧
      (f = 1 / 2 ↔ 2 * r = d ∧ st = false) := by
  intro f
  have hd : (0 : Rat) < d := by exact_mod_cast Nat.zero_lt_of_lt hr
  have hf : 2 * (f * d) = ((2 * r + st.toNat : Nat) : Rat) := by
    rw [← two_mul_sticky, div_mul_cancel₀ _ hd.ne']
  have hzero : f = 0 ↔ 2 * r + st.toNat = 0 := by
    rw [← Nat.cast_inj (R := Rat), ← hf]
    simp [hd.ne']
  have hlt : 1 / 2 < f ↔ d < 2 * r + st.toNat := by
    rw [← Nat.cast_lt (α := Rat), ← hf]
    constructor <;> intro h <;> nlinarith
  have heq : f = 1 / 2 ↔ 2 * r + st.toNat = d := by
    rw [← Nat.cast_inj (R := Rat), ← hf]
    constructor <;> intro h
    · rw [h]; ring
    · nlinarith
  have hr' : (r : Rat) + 1 ≤ d := by exact_mod_cast hr
  refine ⟨div_nonneg ((Nat.cast_nonneg r).trans (le_sticky r st)) hd.le,
    (div_lt_one hd).mpr ((sticky_lt r st).trans_le hr'), hzero.trans ?_, hlt.trans ?_, heq.trans ?_⟩
  all_goals cases st <;> simp at heven ⊢ <;> omega

theorem rm_cases (rm : RM) : rm = 0 ∨ rm = 1 ∨ rm = 2 ∨ rm = 3 := by revert rm; decide

/-- roundUp looks at the fraction as R35 says. -/
theorem roundUp_iff (rm : RM) (neg : Bool) (k : Nat) {r d : Nat} {st : Bool} (hr : r < d) (heven : st = true → d % 2 = 0)
    {f : Rat} (hf : sticky r st / d = f) : roundUp rm neg k r d st = true ↔ (rm = 0 ∧ (1 / 2 < f ∨ (f = 1 / 2 ∧ k % 2 = 1))) ∨
      (((rm = 2 ∧ neg = false) ∨ (rm = 3 ∧ neg = true)) ∧ f ≠ 0) := by
  subst hf
  obtain ⟨-, -, hzero, hhalf, htie⟩ := fraction_cases hr heven
  rw [Ne, hzero, hhalf, htie]
  obtain rfl | rfl | rfl | rfl := rm_cases rm <;> cases st <;> simp [roundUp]

/-- roundUp makes of the whole part k of a magnitude the integer that R35 rounds the magnitude to. -/
theorem roundsMag_roundUp (rm : RM) (neg : Bool) (k : Nat) {r d : Nat} {st : Bool} (hr : r < d)
    (heven : st = true → d % 2 = 0) :
    RoundsMag rm neg (k + sticky r st / d) (if roundUp rm neg k r d st then k + 1 else k) := by
  obtain ⟨hge, hlt, -⟩ := fraction_cases hr heven
  have hup := roundUp_iff rm neg k hr heven rfl
  generalize sticky r st / d = f at *
  split
  · next h =>
    obtain ⟨rfl, hf⟩ | ⟨hrm, hf⟩ := hup.mp h
    · have : 1 / 2 ≤ f := hf.elim le_of_lt (·.1.ge)
      refine ⟨fun _ => ?_, by simp, by simp⟩
      push_cast
      refine ⟨by linarith, by linarith, ?_⟩
      rintro (h | h)
      · obtain hf | ⟨-, hk⟩ := hf
        · linarith
        · omega
      · linarith
    · have : 0 < f := lt_of_le_of_ne hge (Ne.symm hf)
      refine ⟨?_, ?_, fun _ => by push_cast; constructor <;> linarith⟩ <;>
        obtain ⟨rfl, rfl⟩ | ⟨rfl, rfl⟩ := hrm <;> simp
  · next h =>
    rw [hup, not_or] at h
    obtain ⟨hnear, hdir⟩ := h
    refine ⟨fun hrm => ?_, fun _ => ⟨by linarith, by linarith⟩, fun hrm => ?_⟩
    · have hf : ¬ 1 / 2 < f ∧ (f = 1 / 2 → k % 2 = 0) := ⟨fun h => hnear ⟨hrm, .inl h⟩, fun h => by
        by_contra hk
        exact hnear ⟨hrm, .inr ⟨h, by omega⟩⟩⟩
      refine ⟨by linarith, by linarith, ?_⟩
      rintro (h | h)
      · linarith
      · exact hf.2 (by linarith)
    · have : f = 0 := by_contra fun hf => hdir ⟨hrm, hf⟩
      constructor <;> linarith

/-! ### A cut at a unit -/

theorem cutAt_of_le {m : Nat} {e q : Int} (h : q ≤ e) : cutAt m e q = (m * 2 ^ (e - q).toNat, 0, 1) := if_pos h

theorem cutAt_of_lt {m : Nat} {e q : Int} (h : e < q) :
    cutAt m e q = (m / 2 ^ (q - e).toNat, m % 2 ^ (q - e).toNat, 2 ^ (q - e).toNat) := if_neg (by omega)

/-- A cut is the whole part of m · 2^e in units of 2^q, and its fraction. -/
theorem cutAt_spec {m : Nat} {e q : Int} {st : Bool} (hst : st = true → e < q) :
    let c := cutAt m e q
    c.2.1 < c.2.2 ∧ (st = true → c.2.2 % 2 = 0) ∧ sticky m st * p2 e = (c.1 + sticky c.2.1 st / c.2.2) * p2 q := by
  obtain h | h := le_or_gt q e
  · have hf : st = false := by cases st <;> simp_all; omega
    subst hf
    simp [cutAt_of_le h, p2_eq_units h, mul_assoc]
  · have hd : 0 < 2 ^ (q - e).toNat := by positivity
    rw [cutAt_of_lt h]
    refine ⟨Nat.mod_lt _ hd, fun _ => ?_, ?_⟩
    · obtain ⟨n, hn⟩ : ∃ n, (q - e).toNat = n + 1 := ⟨(q - e).toNat - 1, by omega⟩
      simp [hn, pow_succ]
    · have hsplit : sticky m st = (m / 2 ^ (q - e).toNat : Nat) * ((2 ^ (q - e).toNat : Nat) : Rat)
          + sticky (m % 2 ^ (q - e).toNat) st := by
        have := congrArg (Nat.cast (R := Rat)) (Nat.div_add_mod' m (2 ^ (q - e).toNat))
        rw [sticky, ← this]
        push_cast [sticky]
        ring
      rw [hsplit, p2_eq_units h.le, ← mul_assoc]
      congr 1
      field_simp

/-- The integer that the model rounds m · 2^e in units of 2^q to. -/
def cutRound (rm : RM) (neg : Bool) (m : Nat) (e q : Int) (st : Bool) : Nat :=
  let c := cutAt m e q
  if roundUp rm neg c.1 c.2.1 c.2.2 st then c.1 + 1 else c.1

theorem roundsMag_cutRound (rm : RM) (neg : Bool) {m : Nat} {e q : Int} {st : Bool} (hst : st = true → e < q) :
    RoundsMag rm neg (sticky m st * p2 e / p2 q) (cutRound rm neg m e q st) := by
  obtain ⟨hr, heven, heq⟩ := cutAt_spec hst (m := m)
  rw [heq, mul_div_cancel_right₀ _ (p2_pos q).ne']
  exact roundsMag_roundUp rm neg _ hr heven

/-- A rounded magnitude is less than 1 away. -/
theorem RoundsMag.near_one {rm : RM} {neg : Bool} {y : Rat} {k : Nat} (h : RoundsMag rm neg y k) :
    (k : Rat) - 1 < y ∧ y < k + 1 := by
  obtain ⟨hnear, hdown, hup⟩ := h
  obtain h | h | h : rm = 0 ∨ (rm = 1 ∨ (rm = 2 ∧ neg = true) ∨ (rm = 3 ∧ neg = false)) ∨
      ((rm = 2 ∧ neg = false) ∨ (rm = 3 ∧ neg = true)) := by
    obtain rfl | rfl | rfl | rfl := rm_cases rm <;> cases neg <;> simp
  · obtain ⟨hlow, hhigh, -⟩ := hnear h
    constructor <;> linarith
  · obtain ⟨hlow, hhigh⟩ := hdown h
    constructor <;> linarith
  · obtain ⟨hlow, hhigh⟩ := hup h
    constructor <;> linarith

/-- Rounding does not pass an integer. -/
theorem RoundsMag.le_of_le {rm : RM} {neg : Bool} {y : Rat} {k : Nat} (h : RoundsMag rm neg y k) {n : Nat} (hn : (n : Rat) ≤ y) :
    n ≤ k := by
  have : (n : Rat) < k + 1 := hn.trans_lt h.near_one.2
  exact Nat.lt_succ_iff.mp (by exact_mod_cast this)

theorem RoundsMag.ge_of_ge {rm : RM} {neg : Bool} {y : Rat} {k : Nat} (h : RoundsMag rm neg y k) {n : Nat} (hn : y ≤ n) :
    k ≤ n := by
  have : (k : Rat) < n + 1 := by linarith [h.near_one.1]
  exact Nat.lt_succ_iff.mp (by exact_mod_cast this)

/-- The model marks a cut inexact where rounding changes the magnitude. -/
theorem cut_inexact_iff (rm : RM) (neg : Bool) {m : Nat} {e q : Int} {st : Bool} (hst : st = true → e < q) :
    (decide ((cutAt m e q).2.1 ≠ 0) || st) = true ↔ sticky m st * p2 e ≠ cutRound rm neg m e q st * p2 q := by
  obtain ⟨hr, heven, heq⟩ := cutAt_spec hst (m := m)
  obtain ⟨hge, hlt, hzero, -⟩ := fraction_cases hr heven
  have hround := roundsMag_roundUp rm neg (cutAt m e q).1 hr heven
  change RoundsMag _ _ _ (cutRound rm neg m e q st) at hround
  show _ ↔ ¬ sticky m st * p2 e = _
  rw [heq, mul_p2_inj]
  generalize cutRound rm neg m e q st = k at *
  generalize sticky (cutAt m e q).2.1 st / ((cutAt m e q).2.2 : Rat) = f at *
  have hexact : ((cutAt m e q).1 : Rat) + f = k ↔ f = 0 := by
    constructor <;> intro h
    · have hk : (cutAt m e q).1 ≤ k := by exact_mod_cast (by linarith : ((cutAt m e q).1 : Rat) ≤ k)
      have hk' : (k : Rat) < (cutAt m e q).1 + 1 := by linarith
      have : k = (cutAt m e q).1 := le_antisymm (Nat.lt_succ_iff.mp (by exact_mod_cast hk')) hk
      subst this
      linarith
    · subst h
      have hle := hround.le_of_le (n := (cutAt m e q).1) (by simp)
      have hge := hround.ge_of_ge (n := (cutAt m e q).1) (by simp)
      rw [add_zero, le_antisymm hle hge]
  rw [hexact, hzero]
  cases st <;> simp

/-! ### A magnitude of a format -/

/-- What Cut says of a rational magnitude, in units of 2^q. -/
theorem cut_iff {mb : Nat} {rm : RM} {neg bounded : Bool} {y : Rat} {k : Nat} {q : Int} :
    Cut mb rm neg bounded (Magn.of (y * p2 q)) k q ↔
      y < ((2 ^ (mb + 1) : Nat) : Rat) ∧ (((2 ^ mb : Nat) : Rat) ≤ y ∨ (bounded = true ∧ q = -126 - (mb : Int))) ∧
        (bounded = true → -126 - (mb : Int) ≤ q) ∧ RoundsMag rm neg y k := by
  have htop : p2 (q + mb + 1) = ((2 ^ (mb + 1) : Nat) : Rat) * p2 q := by
    rw [add_assoc, p2_add, mul_comm, ← p2_natCast]
    rfl
  have hfull : p2 (q + mb) = ((2 ^ mb : Nat) : Rat) * p2 q := by rw [p2_add, mul_comm, p2_natCast]
  constructor
  · rintro ⟨top, full, low, near, down, up⟩
    simp only [Magn.of, htop, hfull, mul_p2_lt, not_lt] at top full near down up
    exact ⟨top, full, low, fun h => by
      obtain ⟨h1, h2, h3⟩ := near h
      exact ⟨h1, h2, fun h => h3 (h.imp le_of_eq ge_of_eq)⟩, down, fun h => (up h).symm⟩
  · rintro ⟨htop', hfull', low, near, down, up⟩
    refine ⟨?_, ?_, low, ?_, ?_, ?_⟩ <;> simp only [Magn.of, htop, hfull, mul_p2_lt, not_lt]
    · exact htop'
    · exact hfull'
    · intro h
      obtain ⟨h1, h2, h3⟩ := near h
      exact ⟨h1, h2, fun h => h3 (h.imp (le_antisymm · h1) (le_antisymm h2 ·))⟩
    · exact down
    · exact fun h => (up h).symm

theorem Cut.in_units {mb : Nat} {rm : RM} {neg bounded : Bool} {x : Rat} {k : Nat} {q : Int}
    (h : Cut mb rm neg bounded (Magn.of x) k q) :
    ∃ y, x = y * p2 q ∧ (((2 ^ mb : Nat) : Rat) ≤ y ∨ (bounded = true ∧ q = -126 - (mb : Int))) ∧
      (bounded = true → -126 - (mb : Int) ≤ q) ∧ y < ((2 ^ (mb + 1) : Nat) : Rat) ∧ RoundsMag rm neg y k := by
  have hx : x / p2 q * p2 q = x := div_mul_cancel₀ _ (p2_pos q).ne'
  rw [← hx, cut_iff] at h
  obtain ⟨htop, hfull, hlow, hround⟩ := h
  exact ⟨_, hx.symm, hfull, hlow, htop, hround⟩

/-- A magnitude that a format has, or, unbounded, would have with more exponents. -/
def Fits (mb : Nat) (bounded : Bool) (v : Rat) : Prop :=
  ∃ (n : Nat) (t : Int), n < 2 ^ (mb + 1) ∧ (bounded = true → -126 - (mb : Int) ≤ t) ∧ v = n * p2 t

theorem Fits.pow_two {mb : Nat} {bounded : Bool} {t : Int} (h : bounded = true → -126 - (mb : Int) ≤ t) : Fits mb bounded (p2 t) :=
  ⟨1, t, Nat.one_lt_two_pow (by omega), h, by simp⟩

/-- A cut does not pass a magnitude that fits: it is a multiple of the unit, or below every full cut. -/
theorem Cut.le_of_fits {mb : Nat} {rm : RM} {neg bounded : Bool} {x v : Rat} {k : Nat} {q : Int}
    (h : Cut mb rm neg bounded (Magn.of x) k q) (hv : Fits mb bounded v) (hvx : v ≤ x) : v ≤ k * p2 q := by
  obtain ⟨y, rfl, hfull, hlow, htop, hround⟩ := h.in_units
  obtain ⟨n, t, hn, ht, rfl⟩ := hv
  obtain hq | hq := le_or_gt q t
  · rw [p2_eq_units hq, ← mul_assoc, ← Nat.cast_mul] at hvx ⊢
    exact mul_p2_le.mpr (by exact_mod_cast hround.le_of_le (mul_p2_le.mp hvx))
  · obtain hfull | ⟨hb, rfl⟩ := hfull
    · have hk : 2 ^ mb ≤ k := hround.le_of_le hfull
      have hunits : (n : Rat) * p2 t < ((2 ^ mb : Nat) : Rat) * p2 (t + 1) := by
        rw [p2_succ, ← mul_assoc, mul_p2_lt]
        exact_mod_cast (pow_succ 2 mb ▸ hn)
      refine hunits.le.trans ((mul_le_mul_of_nonneg_left (p2_le.mpr hq) (Nat.cast_nonneg _)).trans ?_)
      exact mul_p2_le.mpr (by exact_mod_cast hk)
    · exact absurd (ht hb) (by omega)

theorem Cut.ge_of_fits {mb : Nat} {rm : RM} {neg bounded : Bool} {x v : Rat} {k : Nat} {q : Int}
    (h : Cut mb rm neg bounded (Magn.of x) k q) (hv : Fits mb bounded v) (hxv : x ≤ v) : k * p2 q ≤ v := by
  obtain ⟨y, rfl, hfull, hlow, htop, hround⟩ := h.in_units
  obtain ⟨n, t, hn, ht, rfl⟩ := hv
  obtain hq | hq := le_or_gt q t
  · rw [p2_eq_units hq, ← mul_assoc, ← Nat.cast_mul] at hxv ⊢
    exact mul_p2_le.mpr (by exact_mod_cast hround.ge_of_ge (mul_p2_le.mp hxv))
  · exfalso
    obtain hfull | ⟨hb, rfl⟩ := hfull
    · have hunits : (n : Rat) * p2 t < ((2 ^ mb : Nat) : Rat) * p2 (t + 1) := by
        rw [p2_succ, ← mul_assoc, mul_p2_lt]
        exact_mod_cast (pow_succ 2 mb ▸ hn)
      have hle := (mul_le_mul_of_nonneg_left (p2_le.mpr hq) (Nat.cast_nonneg (2 ^ mb))).trans (mul_p2_le.mpr hfull)
      linarith
    · exact absurd (ht hb) (by omega)

/-- A cut fits where no exponent is too small. -/
theorem Cut.fits {mb : Nat} {rm : RM} {neg bounded : Bool} {x : Rat} {k : Nat} {q : Int}
    (h : Cut mb rm neg bounded (Magn.of x) k q) : Fits mb false (k * p2 q) := by
  obtain ⟨y, -, -, -, htop, hround⟩ := h.in_units
  have hk : k ≤ 2 ^ (mb + 1) := hround.ge_of_ge htop.le
  obtain hk | rfl := hk.lt_or_eq
  · exact ⟨k, q, hk, by simp, rfl⟩
  · exact ⟨2 ^ mb, q + 1, Nat.pow_lt_pow_right (by omega) (by omega), by simp, by rw [p2_succ]; push_cast; ring⟩

/-! ### A rounded datum -/

theorem fNX_bits {j : Nat} (hj : j < 8) : fNX.getLsbD j = true ↔ j = 4 := by
  revert j; decide

theorem Rounded.sign {mb : Nat} {rm : RM} {neg : Bool} {r : Magn} {w : Nat} {fl : Byte} (h : Rounded mb rm neg r w fl) :
    w / 2 ^ (mb + 8) = if neg then 1 else 0 := by
  obtain ⟨k, q, ku, qu, hcut, hcutu, hsign, -⟩ := h
  exact hsign

/-- Beyond the range of a format. -/
theorem Rounded.overflow {mb : Nat} {rm : RM} {neg : Bool} {x : Rat} {w : Nat} {fl : Byte}
    (h : Rounded mb rm neg (Magn.of x) w fl) (hx : p2 128 ≤ x) : fl = (fOF ||| fNX) ∧
      w % 2 ^ (mb + 8) = if rm = 0 ∨ (rm = 2 ∧ neg = false) ∨ (rm = 3 ∧ neg = true) then 255 * 2 ^ mb else 255 * 2 ^ mb - 1 := by
  obtain ⟨k, q, ku, qu, hcut, hcutu, hsign, hover, hfin⟩ := h
  exact hover (hcut.le_of_fits (.pow_two fun _ => by omega) hx)

/-- Within it: the datum lies between the data that the magnitude lies between. -/
theorem Rounded.between {mb : Nat} {rm : RM} {neg : Bool} {x lo hi : Rat} {w : Nat} {fl : Byte}
    (h : Rounded mb rm neg (Magn.of x) w fl) (hlo : Fits mb true lo) (hlox : lo ≤ x) (hhi : Fits mb true hi) (hxhi : x ≤ hi)
    (hrange : hi < p2 128) : w % 2 ^ (mb + 8) < 255 * 2 ^ mb ∧ lo ≤ fmag mb w ∧ fmag mb w ≤ hi := by
  obtain ⟨k, q, ku, qu, hcut, hcutu, hsign, hover, hfin⟩ := h
  have hle := hcut.ge_of_fits hhi hxhi
  obtain ⟨hw, hmag, -⟩ := hfin (hle.trans_lt hrange)
  exact ⟨hw, hmag ▸ hcut.le_of_fits hlo hlox, hmag ▸ hle⟩

/-- A magnitude that the format has is itself, without a flag. -/
theorem Rounded.exact {mb : Nat} {rm : RM} {neg : Bool} {x : Rat} {w : Nat} {fl : Byte}
    (h : Rounded mb rm neg (Magn.of x) w fl) (hx : Fits mb true x) (hrange : x < p2 128) :
    fl = 0 ∧ w % 2 ^ (mb + 8) < 255 * 2 ^ mb ∧ fmag mb w = x := by
  obtain ⟨k, q, ku, qu, hcut, hcutu, hsign, hover, hfin⟩ := h
  have heq : k * p2 q = x := le_antisymm (hcut.ge_of_fits hx le_rfl) (hcut.le_of_fits hx le_rfl)
  obtain ⟨hw, hmag, hflags⟩ := hfin (heq ▸ hrange)
  refine ⟨BitVec.eq_of_getLsbD_eq fun j hj => ?_, hw, hmag.trans heq⟩
  rw [Bool.eq_iff_iff, hflags j hj, heq]
  simp [Magn.of]

/-- A magnitude that takes more bits sets NX alone, where it is not tiny. -/
theorem Rounded.inexact {mb : Nat} {rm : RM} {neg : Bool} {x hi : Rat} {w : Nat} {fl : Byte}
    (h : Rounded mb rm neg (Magn.of x) w fl) (hx : ¬ Fits mb false x) (hlow : p2 (-126) ≤ x) (hhi : Fits mb true hi)
    (hxhi : x ≤ hi) (hrange : hi < p2 128) : fl = fNX := by
  obtain ⟨k, q, ku, qu, hcut, hcutu, hsign, hover, hfin⟩ := h
  obtain ⟨-, -, hflags⟩ := hfin ((hcut.ge_of_fits hhi hxhi).trans_lt hrange)
  have hne : k * p2 q ≠ x := fun heq => hx (heq ▸ hcut.fits)
  have htiny : p2 (-126) ≤ ku * p2 qu := hcutu.le_of_fits (.pow_two (by simp)) hlow
  refine BitVec.eq_of_getLsbD_eq fun j hj => ?_
  rw [Bool.eq_iff_iff, hflags j hj, fNX_bits hj]
  exact ⟨fun ⟨_, hj⟩ => hj.resolve_right fun ⟨_, ht⟩ => absurd ht (not_lt.mpr htiny), fun hj => ⟨hne.lt_or_gt, .inl hj⟩⟩

/-- m with more bits below it takes more bits than a format has, where m takes as many. -/
theorem not_fits_sticky {mb m : Nat} {e : Int} (hm : 2 ^ (mb + 1) ≤ m) : ¬ Fits mb false (sticky m true * p2 e) := by
  rintro ⟨n, t, hn, -, heq⟩
  have hodd : ((2 * m + 1 : Nat) : Rat) * p2 (e - 1) = n * p2 t := by
    rw [← heq, show e = (e - 1) + 1 by omega, p2_succ, Int.add_sub_cancel, ← mul_assoc, mul_comm _ (2 : Rat), two_mul_sticky]
    rfl
  obtain ht | ht := le_or_gt (e - 1 + 1) t
  · obtain ⟨d, hd⟩ : ∃ d, (t - (e - 1)).toNat = d + 1 := ⟨(t - (e - 1)).toNat - 1, by omega⟩
    rw [p2_eq_units (show e - 1 ≤ t by omega), ← mul_assoc, mul_p2_inj, hd] at hodd
    have : 2 * m + 1 = n * 2 ^ (d + 1) := by exact_mod_cast hodd
    rw [pow_succ, ← mul_assoc] at this
    omega
  · rw [p2_eq_units (show t ≤ e - 1 by omega), ← mul_assoc, mul_p2_inj] at hodd
    have : (2 * m + 1) * 2 ^ (e - 1 - t).toNat = n := by exact_mod_cast hodd
    have := Nat.le_mul_of_pos_right (2 * m + 1) (Nat.two_pow_pos (e - 1 - t).toNat)
    omega

/-! ### From a magnitude to a number that stands for it -/

/-- Units of 2^e do not tell the magnitude r from the number x. -/
structure Agrees (r : Magn) (x : Rat) (e : Int) : Prop where
  below : ∀ c : Int, r.below (c * p2 e) ↔ c * p2 e < x
  above : ∀ c : Int, r.above (c * p2 e) ↔ x < c * p2 e

/-- A magnitude of which its whole units of 2^e are known, and whether it has more bits below them. -/
theorem Agrees.of_floor {r : Magn} {m : Nat} {e : Int} {st : Bool}
    (hbelow : ∀ c : Int, r.below (c * p2 e) ↔ c < m ∨ (c = m ∧ st = true))
    (habove : ∀ c : Int, r.above (c * p2 e) ↔ (m : Int) < c) : Agrees r (sticky m st * p2 e) e :=
  ⟨fun c => by rw [hbelow, mul_p2_lt, intCast_lt_sticky], fun c => by rw [habove, mul_p2_lt, sticky_lt_intCast]⟩

/-- So they do at any multiple of a larger unit. -/
theorem Agrees.at_units {r : Magn} {x : Rat} {e : Int} (h : Agrees r x e) (c : Int) {t : Int} (ht : e ≤ t) :
    (r.below (c * p2 t) ↔ c * p2 t < x) ∧ (r.above (c * p2 t) ↔ x < c * p2 t) := by
  have hunits : (c : Rat) * p2 t = ((c * (2 ^ (t - e).toNat : Nat) : Int) : Rat) * p2 e := by
    rw [p2_eq_units ht]; push_cast; ring
  rw [hunits]
  exact ⟨h.below _, h.above _⟩

theorem Cut.of_agrees {mb : Nat} {rm : RM} {neg bounded : Bool} {r : Magn} {x : Rat} {e q : Int} {k : Nat}
    (h : Cut mb rm neg bounded (Magn.of x) k q) (hr : Agrees r x e) (hq : e < q) : Cut mb rm neg bounded r k q := by
  have hpow (t : Int) (ht : e ≤ t) : r.above (p2 t) ↔ (Magn.of x).above (p2 t) := by
    have := (hr.at_units 1 ht).2
    rwa [Int.cast_one, one_mul] at this
  have hhalf (c : Rat) (n : Int) (hc : 2 * c = n) : (r.below (c * p2 q) ↔ (Magn.of x).below (c * p2 q)) ∧
      (r.above (c * p2 q) ↔ (Magn.of x).above (c * p2 q)) := by
    have hcn : c * p2 q = n * p2 (q - 1) := by
      rw [← hc, show q = q - 1 + 1 by omega, p2_succ, Int.add_sub_cancel]; ring
    rw [hcn]
    exact hr.at_units n (by omega)
  obtain ⟨hk, hk'⟩ := hhalf k (2 * k) (by push_cast; ring)
  obtain ⟨hlow, hlow'⟩ := hhalf (k - 1 / 2) (2 * k - 1) (by push_cast; ring)
  obtain ⟨hhigh, hhigh'⟩ := hhalf (k + 1 / 2) (2 * k + 1) (by push_cast; ring)
  obtain ⟨hprev, -⟩ := hhalf (k - 1) (2 * k - 2) (by push_cast; ring)
  obtain ⟨-, hnext⟩ := hhalf (k + 1) (2 * k + 2) (by push_cast; ring)
  obtain ⟨htop, hfull, hbound, hnear, hdown, hup⟩ := h
  refine ⟨(hpow _ (by omega)).mpr htop, ?_, hbound, ?_, ?_, ?_⟩
  · rwa [hpow _ (by omega)]
  · rwa [hlow, hlow', hhigh, hhigh']
  · rwa [hk', hnext]
  · rwa [hk, hprev]

/-- A rounding of the number is one of the magnitude, where the number has a bit more than the format. -/
theorem Rounded.of_agrees {mb : Nat} {rm : RM} {neg : Bool} {r : Magn} {x : Rat} {e : Int} {w : Nat} {fl : Byte}
    (h : Rounded mb rm neg (Magn.of x) w fl) (hr : Agrees r x e) (hx : p2 (e + mb + 1) ≤ x) : Rounded mb rm neg r w fl := by
  obtain ⟨k, q, ku, qu, hcut, hcutu, hsign, hover, hfin⟩ := h
  have hunit {bounded : Bool} {k : Nat} {q : Int} (h : Cut mb rm neg bounded (Magn.of x) k q) : e < q := by
    have : p2 (e + mb + 1) < p2 (q + mb + 1) := hx.trans_lt h.top
    rw [p2_lt] at this
    omega
  have hk := hr.at_units k (hunit hcut).le
  refine ⟨k, q, ku, qu, hcut.of_agrees hr (hunit hcut), hcutu.of_agrees hr (hunit hcutu), hsign, hover, fun hlt => ?_⟩
  obtain ⟨hw, hmag, hflags⟩ := hfin hlt
  refine ⟨hw, hmag, fun j hj => (hflags j hj).trans ?_⟩
  rw [← Int.cast_natCast (R := Rat), hk.1, hk.2]
  rfl

/-! ### The model's rounding -/

theorem atLeastPow_iff {k : Nat} {q t : Int} : atLeastPow k q t = true ↔ p2 t ≤ k * p2 q := by
  unfold atLeastPow
  split
  · next h =>
    rw [decide_eq_true_iff]
    constructor
    · intro hk
      have hk : (1 : Rat) ≤ k := by exact_mod_cast Nat.one_le_iff_ne_zero.mpr hk
      exact (p2_le.mpr h).trans (le_mul_of_one_le_left (p2_pos q).le hk)
    · rintro hk rfl
      have := p2_pos t
      simp at hk
      linarith
  · next h =>
    rw [decide_eq_true_iff, p2_eq_units (show q ≤ t by omega), mul_p2_le, Nat.cast_le]

theorem not_atLeastPow_iff {k : Nat} {q t : Int} : (!atLeastPow k q t) = true ↔ k * p2 q < p2 t := by
  rw [Bool.not_eq_true', ← Bool.not_eq_true, atLeastPow_iff, not_le]

/-- The bits of the magnitude k · 2^q. -/
def datum (f : Fmt) (k : Nat) (q : Int) : Nat :=
  if k < 2 ^ f.mb then k else (q + (f.mb : Int) + 127).toNat * 2 ^ f.mb + (k - 2 ^ f.mb)

theorem fmag_pack {mb ex frac : Nat} (hpos : ex ≠ 0) (hex : ex < 256) (hfrac : frac < 2 ^ mb) :
    fmag mb (ex * 2 ^ mb + frac) = ((frac + 2 ^ mb : Nat) : Rat) * p2 ((ex : Int) - 127 - (mb : Int)) := by
  have hdiv : (ex * 2 ^ mb + frac) / 2 ^ mb = ex := by
    rw [mul_comm, Nat.mul_add_div (Nat.two_pow_pos mb), Nat.div_eq_of_lt hfrac, Nat.add_zero]
  have hmod : (ex * 2 ^ mb + frac) % 2 ^ mb = frac := by rw [mul_comm, Nat.mul_add_mod, Nat.mod_eq_of_lt hfrac]
  rw [fmag, hdiv, hmod, Nat.mod_eq_of_lt hex, if_neg hpos]

theorem fmag_subnormal {mb k : Nat} (hk : k < 2 ^ mb) : fmag mb k = k * p2 (-126 - (mb : Int)) := by
  rw [fmag, Nat.div_eq_of_lt hk, Nat.mod_eq_of_lt hk]
  rfl

/-- Such bits read as the magnitude. -/
theorem fmag_datum {f : Fmt} {k : Nat} {q : Int} (hk : k ≤ 2 ^ (f.mb + 1)) (hlow : -126 - (f.mb : Int) ≤ q)
    (hsub : k < 2 ^ f.mb → q = -126 - (f.mb : Int)) (hrange : k * p2 q < p2 128) :
    datum f k q < 255 * 2 ^ f.mb ∧ fmag f.mb (datum f k q) = k * p2 q := by
  have hB : 0 < 2 ^ f.mb := Nat.two_pow_pos _
  rw [pow_succ] at hk
  unfold datum
  split
  · next h => exact ⟨by omega, by rw [fmag_subnormal h, hsub h]⟩
  · next h =>
    obtain ⟨ex, hex⟩ : ∃ ex : Nat, q = (ex : Int) - 127 - (f.mb : Int) ∧ ex ≠ 0 := ⟨(q + (f.mb : Int) + 127).toNat, by omega, by omega⟩
    obtain ⟨rfl, hpos⟩ := hex
    have hmax (j : Int) (hj : p2 (j + f.mb) ≤ k * p2 ((ex : Int) - 127 - (f.mb : Int))) : j + f.mb < 128 := p2_lt.mp (hj.trans_lt hrange)
    have hnorm : ex < 255 := by
      have := hmax (ex - 127 - f.mb) (by
        rw [p2_add, mul_comm, p2_natCast]
        exact mul_p2_le.mpr (by exact_mod_cast not_lt.mp h))
      omega
    rw [show ((ex : Int) - 127 - f.mb + f.mb + 127).toNat = ex by omega]
    have hexB : ex * 2 ^ f.mb ≤ 254 * 2 ^ f.mb := Nat.mul_le_mul_right _ (by omega)
    obtain hk | hk := hk.lt_or_eq
    · refine ⟨by omega, ?_⟩
      rw [fmag_pack hpos (by omega) (by omega), Nat.sub_add_cancel (by omega)]
    · have hnorm' : ex + 1 < 255 := by
        have := hmax (ex - 127 - f.mb + 1) (by
          rw [add_right_comm, p2_succ, p2_add, p2_natCast, hk]
          push_cast
          exact le_of_eq (by ring))
        omega
      have hsum : ex * 2 ^ f.mb + (k - 2 ^ f.mb) = (ex + 1) * 2 ^ f.mb + 0 := by rw [add_mul]; omega
      have hexB : (ex + 1) * 2 ^ f.mb ≤ 254 * 2 ^ f.mb := Nat.mul_le_mul_right _ (by omega)
      rw [hsum, fmag_pack (by omega) (by omega) hB, hk]
      refine ⟨by omega, ?_⟩
      rw [show ((ex + 1 : Nat) : Int) - 127 - f.mb = (ex : Int) - 127 - f.mb + 1 by push_cast; ring, p2_succ]
      push_cast
      ring

/-- The sign bit does not enter the magnitude. -/
theorem fmag_mod (mb w : Nat) : fmag mb (w % 2 ^ (mb + 8)) = fmag mb w := by
  have hexp : w % 2 ^ (mb + 8) / 2 ^ mb % 256 = w / 2 ^ mb % 256 := by
    rw [pow_add, Nat.mod_mul_right_div_self]
    exact Nat.mod_mod _ _
  have hfrac : w % 2 ^ (mb + 8) % 2 ^ mb = w % 2 ^ mb := Nat.mod_mod_of_dvd _ (pow_dvd_pow 2 (by omega))
  rw [fmag, fmag, hexp, hfrac]

theorem sign_split {f : Fmt} {neg : Bool} {x : Nat} (hx : x < 2 ^ (f.mb + 8)) :
    (f.sign neg + x) / 2 ^ (f.mb + 8) = (if neg then 1 else 0) ∧ (f.sign neg + x) % 2 ^ (f.mb + 8) = x := by
  cases neg with
  | false => simp [Fmt.sign, Nat.div_eq_of_lt hx, Nat.mod_eq_of_lt hx]
  | true => simp [Fmt.sign, Nat.div_eq_of_lt hx, Nat.mod_eq_of_lt hx]

/-- The unit of the result before the range is met. -/
def unitOf (f : Fmt) (m : Nat) (e : Int) : Int := (m.log2 : Int) + e - (f.mb : Int)

/-- The unit of the result. -/
def unitIn (f : Fmt) (m : Nat) (e : Int) : Int := max (unitOf f m e) (-126 - (f.mb : Int))

theorem le_unitIn (f : Fmt) (m : Nat) (e : Int) : -126 - (f.mb : Int) ≤ unitIn f m e := le_max_right _ _

/-- Fmt.round by its cut and the datum of it. -/
theorem round_eq (f : Fmt) (rm : RM) (neg : Bool) {m : Nat} (e : Int) (st : Bool) (hm : m ≠ 0) :
    let q := unitIn f m e
    let k := cutRound rm neg m e q st
    let inexact := decide ((cutAt m e q).2.1 ≠ 0) || st
    let tiny := !atLeastPow (cutRound rm neg m e (unitOf f m e) st) (unitOf f m e) (-126)
    f.round rm neg m e st =
      if atLeastPow k q 128 then
        (if rm = 0 ∨ (rm = 2 ∧ neg = false) ∨ (rm = 3 ∧ neg = true) then f.infinity neg else f.maxFin neg, fOF ||| fNX)
      else (f.sign neg + datum f k q, flagIf inexact fNX ||| flagIf (tiny && inexact) fUF) := by
  intro q k inexact tiny
  rw [Fmt.round, if_neg (by simp [hm])]
  show (if atLeastPow k q 128 then _ else if k < 2 ^ f.mb then _ else _) = _
  split
  · obtain rfl | rfl | rfl | rfl := rm_cases rm <;> cases neg <;> rfl
  · unfold datum
    split
    · rfl
    · rw [← Nat.add_assoc]
      rfl

/-- The magnitude in units of the result before the range is met: as many bits as the format has. -/
theorem sticky_bounds (f : Fmt) {m : Nat} {e : Int} (st : Bool) (hm : m ≠ 0) :
    p2 (unitOf f m e + f.mb) ≤ sticky m st * p2 e ∧ sticky m st * p2 e < p2 (unitOf f m e + f.mb + 1) := by
  have hunit : unitOf f m e + f.mb = m.log2 + e := by unfold unitOf; omega
  have hlow : ((2 ^ m.log2 : Nat) : Rat) ≤ m := by exact_mod_cast Nat.log2_self_le hm
  have hhigh : (m : Rat) + 1 ≤ ((2 ^ (m.log2 + 1) : Nat) : Rat) := by exact_mod_cast Nat.lt_log2_self (n := m)
  rw [hunit, add_right_comm, p2_add, p2_add _ e, ← Nat.cast_succ, p2_natCast, p2_natCast, mul_p2_le, mul_p2_lt]
  exact ⟨hlow.trans (le_sticky m st), (sticky_lt m st).trans_le hhigh⟩

theorem flags_iff {inexact tiny : Bool} {j : Nat} (hj : j < 8) :
    (flagIf inexact fNX ||| flagIf (tiny && inexact) fUF).getLsbD j = true ↔
      inexact = true ∧ (j = 4 ∨ (j = 3 ∧ tiny = true)) := by
  revert j inexact tiny
  decide

/-- Fmt.round is one rounding of the magnitude that it is given (02_numbers.md R33, R34). -/
theorem rounded_round (f : Fmt) (rm : RM) (neg : Bool) {m : Nat} (e : Int) {st : Bool} (hm : m ≠ 0)
    (hst : st = true → 2 ^ (f.mb + 1) ≤ m) :
    Rounded f.mb rm neg (Magn.of (sticky m st * p2 e)) (f.round rm neg m e st).1 (f.round rm neg m e st).2 := by
  have hunit : st = true → e < unitOf f m e := fun h => by
    have := (Nat.le_log2 hm).mpr (hst h)
    unfold unitOf
    omega
  obtain ⟨hlow, hhigh⟩ := sticky_bounds f (e := e) st hm
  have hin : unitOf f m e ≤ unitIn f m e := le_max_left _ _
  have hcut (bounded : Bool) (q : Int) (hq : unitOf f m e ≤ q) (hfull : q = unitOf f m e ∨ (bounded = true ∧ q = -126 - (f.mb : Int)))
      (hmin : bounded = true → -126 - (f.mb : Int) ≤ q) :
      Cut f.mb rm neg bounded (Magn.of (sticky m st * p2 e)) (cutRound rm neg m e q st) q := by
    have hround := roundsMag_cutRound rm neg (m := m) (e := e) (q := q) (st := st) fun h => (hunit h).trans_le hq
    have hx : sticky m st * p2 e / p2 q * p2 q = sticky m st * p2 e := div_mul_cancel₀ _ (p2_pos q).ne'
    generalize sticky m st * p2 e / p2 q = y at *
    rw [← hx] at hlow hhigh ⊢
    refine cut_iff.mpr ⟨?_, ?_, hmin, hround⟩
    · have := hhigh.trans_le (p2_le.mpr (show unitOf f m e + f.mb + 1 ≤ ((f.mb + 1 : Nat) : Int) + q by push_cast; omega))
      rwa [p2_add, p2_natCast, mul_p2_lt] at this
    · refine hfull.imp_left ?_
      rintro rfl
      rwa [add_comm, p2_add, p2_natCast, mul_p2_le] at hlow
  have hcutu := hcut false _ le_rfl (.inl rfl) (by simp)
  have hcutb := hcut true _ hin ((max_choice _ _).imp_right (⟨rfl, ·⟩)) fun _ => le_unitIn f m e
  have hinexact := cut_inexact_iff rm neg (m := m) (e := e) (q := unitIn f m e) (st := st) fun h => (hunit h).trans_le hin
  have hfits : cutRound rm neg m e (unitIn f m e) st ≤ 2 ^ (f.mb + 1) ∧
      (cutRound rm neg m e (unitIn f m e) st < 2 ^ f.mb → unitIn f m e = -126 - (f.mb : Int)) := by
    obtain ⟨y, -, hfull, -, htop, hround⟩ := hcutb.in_units
    refine ⟨hround.ge_of_ge htop.le, fun h => (hfull.resolve_left fun hy => ?_).2⟩
    exact absurd (hround.le_of_le hy) (not_le.mpr h)
  rw [round_eq f rm neg e st hm]
  refine ⟨_, _, _, _, hcutb, hcutu, ?_⟩
  generalize cutRound rm neg m e (unitIn f m e) st = k at *
  have hB : 0 < 2 ^ f.mb := Nat.two_pow_pos _
  have hrange : 255 * 2 ^ f.mb < 2 ^ (f.mb + 8) := by rw [pow_add]; omega
  simp only [atLeastPow_iff]
  split
  · next hover =>
    refine ⟨?_, fun _ => ⟨rfl, ?_⟩, fun h => absurd hover (not_le.mpr h)⟩ <;> dsimp only <;> split <;>
      simp only [Fmt.infinity, Fmt.maxFin, Nat.add_sub_assoc (show 1 ≤ 255 * 2 ^ f.mb by omega)]
    · exact (sign_split hrange).1
    · exact (sign_split (by omega)).1
    · exact (sign_split hrange).2
    · exact (sign_split (by omega)).2
  · next hover =>
    obtain ⟨hdatum, hmag⟩ := fmag_datum hfits.1 (le_unitIn f m e) hfits.2 (not_le.mp hover)
    obtain ⟨hsign, hmod⟩ := sign_split (neg := neg) (hdatum.trans hrange)
    refine ⟨hsign, fun h => absurd h hover, fun _ => ⟨hmod.symm ▸ hdatum, ?_, fun j hj => ?_⟩⟩
    · dsimp only
      rw [← fmag_mod, hmod, hmag]
    · rw [flags_iff hj, hinexact, not_atLeastPow_iff]
      exact and_congr_left fun _ => ne_comm.trans lt_or_lt_iff_ne.symm

end Sys2Proof.Claims
end

section
/-! FP32 data taken apart and put together (02_numbers.md R32, R33), and the lanes' arithmetic of one rounding (06_vector.md R173 to
R176). -/

namespace Sys2Proof.Claims

open Sys2Proof.Machine

/-! ### A lane taken apart -/

theorem sgn_eq (w : BitVec 32) : sgn w = decide (w.toNat / 2 ^ 31 % 2 = 1) := Nat.testBit_eq_decide_div_mod_eq

theorem snan_eq (w : BitVec 32) : snan w = (nan w && decide (w.toNat % 2 ^ 23 < 2 ^ 22)) := by
  have hbit : w.getLsbD 22 = decide (w.toNat / 2 ^ 22 % 2 = 1) := Nat.testBit_eq_decide_div_mod_eq
  rw [snan, hbit, ← decide_not]
  congr 2
  rw [eq_iff_iff]
  omega

/-- What un32 makes of a lane. -/
inductive Datum (w : BitVec 32) : Fp → Prop
  | nan : nan w = true → inf w = false → zero w = false → Datum w (.nan (snan w))
  | inf : nan w = false → inf w = true → zero w = false → Datum w (.inf (sgn w))
  | fin (m : Nat) (e : Int) : nan w = false → inf w = false → zero w = decide (m = 0) → fmag 23 w.toNat = m * p2 e →
      m < 2 ^ 24 → -149 ≤ e → e ≤ 104 → Datum w (.fin (sgn w) m e)

theorem datum_un32 (w : BitVec 32) : Datum w (un32 w) := by
  have hw := w.isLt
  have hzero (x : Nat) (hx : w.toNat % 2 ^ 31 = 0 ↔ x = 0) : zero w = decide (x = 0) := by rw [zero, decide_eq_decide]; exact hx
  unfold un32 Fmt.unpack
  dsimp only
  have hneg : decide (w.toNat / 2 ^ (23 + 8) % 2 = 1) = sgn w := (sgn_eq w).symm
  rw [hneg]
  split
  · next hex =>
    have hz : zero w = false := decide_eq_false (by omega)
    split
    · next hfrac => exact .inf (decide_eq_false (by omega)) (decide_eq_true (by omega)) hz
    · next hfrac =>
      have hn : Claims.nan w = true := decide_eq_true ⟨hex, hfrac⟩
      have := snan_eq w
      rw [hn, Bool.true_and] at this
      rw [show 23 - 1 = 22 from rfl, ← this]
      exact .nan hn (decide_eq_false (by omega)) hz
  · next hex =>
    have hn : Claims.nan w = false := decide_eq_false (by omega)
    have hi : Claims.inf w = false := decide_eq_false (by omega)
    split
    · next hsub => exact .fin _ _ hn hi (hzero _ (by omega)) (if_pos hsub) (by omega) (by decide) (by decide)
    · next hsub => exact .fin _ _ hn hi (hzero _ (by omega)) (if_neg hsub) (by omega) (by omega) (by omega)

theorem word_of_inf {w : BitVec 32} (h : inf w = true) : w = infW (sgn w) := by
  have hw := w.isLt
  have h := of_decide_eq_true h
  refine BitVec.eq_of_toNat_eq ?_
  rw [infW, sgn_eq]
  split <;> simp at * <;> omega

theorem word_of_zero {w : BitVec 32} (h : zero w = true) : w = zeroW (sgn w) := by
  have hw := w.isLt
  have h := of_decide_eq_true h
  refine BitVec.eq_of_toNat_eq ?_
  rw [zeroW, sgn_eq]
  split <;> simp at * <;> omega

/-- The value of a lane taken apart. -/
def signed (neg : Bool) (x : Rat) : Rat := if neg then -x else x

theorem fval_eq {w : BitVec 32} {m : Nat} {e : Int} (h : fmag 23 w.toNat = m * p2 e) : fval w = signed (sgn w) (m * p2 e) := by
  rw [fval, h, signed]

theorem ofNat_infinity (neg : Bool) : BitVec.ofNat 32 (fp32.infinity neg) = infW neg := by cases neg <;> rfl

theorem ofNat_sign (neg : Bool) : BitVec.ofNat 32 (fp32.sign neg) = zeroW neg := by cases neg <;> rfl

/-! ### NaNs -/

theorem un32_eq_nan_iff (w : BitVec 32) : un32 w = .nan true ↔ snan w = true := by
  have h := datum_un32 w
  generalize un32 w = x at h
  cases h with
  | nan => simp
  | inf hn => simp [snan, hn]
  | fin m e hn => simp [snan, hn]

theorem nanOf_un32 (l : List (BitVec 32)) : nanOf (l.map un32) = nanResult l := by
  have : (l.map un32).contains (.nan true) = l.any snan := by
    rw [Bool.eq_iff_iff, List.contains_iff_mem, List.mem_map, List.any_eq_true]
    exact exists_congr fun w => and_congr_right fun _ => un32_eq_nan_iff w
  rw [nanOf, this, nanResult]
  rfl

theorem isNan_un32 (w : BitVec 32) : (un32 w).isNan = nan w := by
  have h := datum_un32 w
  generalize un32 w = x at h
  cases h <;> simp [Fp.isNan, *]

theorem isZero_un32 (w : BitVec 32) : (un32 w).isZero = zero w := by
  have h := datum_un32 w
  generalize un32 w = x at h
  cases h with
  | nan => simp [Fp.isZero, *]
  | inf => simp [Fp.isZero, *]
  | fin m e _ _ hz => rw [hz]; cases m <;> simp [Fp.isZero]

/-! ### Results of one rounding -/

theorem Rounded.lt {mb : Nat} {rm : RM} {neg : Bool} {r : Magn} {w : Nat} {fl : Byte} (h : Rounded mb rm neg r w fl) :
    w < 2 ^ (mb + 9) := by
  have hsign : w / 2 ^ (mb + 8) < 2 := by rw [h.sign]; split <;> decide
  rw [pow_succ, mul_comm]
  exact (Nat.div_lt_iff_lt_mul (Nat.two_pow_pos _)).mp hsign

theorem mag_eq_abs (x : Rat) : mag x = |x| := by
  unfold mag
  split
  · next h => exact (abs_of_neg h).symm
  · next h => exact (abs_of_nonneg (not_lt.mp h)).symm

theorem mag_mul_p2 (x e : Int) : mag (x * p2 e) = x.natAbs * p2 e := by
  rw [mag_eq_abs, abs_mul, abs_of_pos (p2_pos e), Nat.cast_natAbs, Int.cast_abs]

theorem mul_p2_neg_iff {x e : Int} : (x : Rat) * p2 e < 0 ↔ x < 0 := by
  have := mul_p2_lt (a := x) (b := 0) (e := e)
  rwa [zero_mul, Int.cast_lt_zero] at this

/-- A word and flags that Fmt.round gives, as a lane. -/
theorem toNat_mk32 {rm : RM} {neg : Bool} {r : Magn} {x : Nat × Byte} (h : Rounded 23 rm neg r x.1 x.2) :
    (mk32 x).1.toNat = x.1 := by
  rw [mk32, BitVec.toNat_ofNat, Nat.mod_eq_of_lt h.lt]

theorem Rounded.mk32 {rm : RM} {neg : Bool} {r : Magn} {x : Nat × Byte} (h : Rounded 23 rm neg r x.1 x.2) :
    Rounded 23 rm neg r (mk32 x).1.toNat (mk32 x).2 := by
  rw [toNat_mk32 h]
  exact h

theorem rounded_round_exact (f : Fmt) (rm : RM) (neg : Bool) {m : Nat} (e : Int) (hm : m ≠ 0) :
    Rounded f.mb rm neg (Magn.of (m * p2 e)) (f.round rm neg m e false).1 (f.round rm neg m e false).2 := by
  simpa using rounded_round f rm neg e (st := false) hm (by simp)

theorem rounded_roundInt (f : Fmt) (rm : RM) {x : Int} (e : Int) (hx : x ≠ 0) :
    Rounded f.mb rm (decide (x * p2 e < 0)) (Magn.of (mag (x * p2 e))) (f.roundInt rm x e).1 (f.roundInt rm x e).2 := by
  rw [decide_eq_decide.mpr mul_p2_neg_iff, mag_mul_p2]
  exact rounded_round_exact f rm _ e (Int.natAbs_ne_zero.mpr hx)

/-- An integer number of units that is not 0, rounded once. -/
theorem round32_roundInt (rm : RM) {x : Int} (e : Int) (hx : x ≠ 0) : Round32 rm (x * p2 e) (mk32 (fp32.roundInt rm x e)) :=
  (rounded_roundInt fp32 rm e hx).mk32

theorem round32_round (rm : RM) (neg : Bool) {m : Nat} (e : Int) (hm : m ≠ 0) :
    Round32 rm (signed neg (m * p2 e)) (mk32 (fp32.round rm neg m e false)) := by
  have hpos : 0 < (m : Rat) * p2 e := mul_pos (by exact_mod_cast Nat.pos_of_ne_zero hm) (p2_pos e)
  have hsign : decide (signed neg (m * p2 e) < 0) = neg := by cases neg <;> simp [signed, hpos, hpos.le]
  have hmag : mag (signed neg (m * p2 e)) = m * p2 e := by
    rw [mag_eq_abs]
    cases neg <;> simp [signed, abs_of_pos hpos]
  rw [Round32, hsign, hmag]
  exact (rounded_round_exact fp32 rm neg e hm).mk32

/-- An exact sum, rounded once (06_vector.md R175). -/
theorem sumOr_sumRound (rm : RM) (n1 n2 : Bool) (m1 m2 : Nat) (e1 e2 : Int) :
    SumOr rm (signed n1 (m1 * p2 e1) + signed n2 (m2 * p2 e2)) (if m1 = 0 ∧ m2 = 0 ∧ n1 = n2 then some n1 else none)
      (sumRound rm n1 m1 e1 n2 m2 e2) := by
  unfold sumRound
  extract_lets e a b x neg
  have hterm (n : Bool) (m : Nat) (t : Int) (ht : e ≤ t) :
      signed n (m * p2 t) = ((if n then -((m * 2 ^ (t - e).toNat : Nat) : Int) else ((m * 2 ^ (t - e).toNat : Nat) : Int)) : Int) * p2 e := by
    rw [p2_eq_units ht]
    cases n <;> simp [signed, mul_assoc]
  have hsum : signed n1 (m1 * p2 e1) + signed n2 (m2 * p2 e2) = (x : Rat) * p2 e := by
    rw [hterm n1 m1 e1 (min_le_left _ _), hterm n2 m2 e2 (min_le_right _ _), ← add_mul, ← Int.cast_add]
  have hx0 : (x : Rat) * p2 e = 0 ↔ x = 0 := by simp [(p2_pos e).ne']
  rw [hsum]
  by_cases hx : x = 0
  · refine ⟨fun _ => ?_, fun h => absurd (hx0.mpr hx) h⟩
    have hneg : neg = (if m1 = 0 ∧ m2 = 0 ∧ n1 = n2 then some n1 else none).getD (decide (rm = 3)) := by
      by_cases hz : m1 = 0 ∧ m2 = 0 ∧ n1 = n2 <;> simp [neg, hz]
    rw [if_pos hx, ofNat_sign, hneg]
  · rw [if_neg hx]
    exact ⟨fun h => absurd (hx0.mp h) hx, fun _ => round32_roundInt rm e hx⟩

theorem signed_mul (n1 n2 : Bool) (x y : Rat) : signed n1 x * signed n2 y = signed (n1 != n2) (x * y) := by
  cases n1 <;> cases n2 <;> simp [signed]

theorem round_zero (f : Fmt) (rm : RM) (neg : Bool) (e : Int) : f.round rm neg 0 e false = (f.sign neg, 0) := rfl

/-- The product of two finite lanes. -/
theorem fval_mul {a b : BitVec 32} {m m' : Nat} {e e' : Int} (ha : fmag 23 a.toNat = m * p2 e) (hb : fmag 23 b.toNat = m' * p2 e') :
    fval a * fval b = signed (sgn a != sgn b) ((m * m' : Nat) * p2 (e + e')) := by
  rw [fval_eq ha, fval_eq hb, signed_mul, p2_add]
  congr 1
  push_cast
  ring

/-! ### Sums and products (06_vector.md R175) -/

theorem sumResult_fadd (rm : RM) (a b : BitVec 32) : SumResult rm a b (fadd rm a b) := by
  have hn : nanOf [un32 a, un32 b] = nanResult [a, b] := nanOf_un32 [a, b]
  have ha := datum_un32 a
  have hb := datum_un32 b
  unfold fadd SumResult
  generalize un32 a = x at *
  generalize un32 b = y at *
  cases ha with
  | nan hna hia hza => simp [hna, hn]
  | inf hna hia hza =>
    cases hb with
    | nan hnb hib hzb => simp [hnb, hn]
    | inf hnb hib hzb => simp [hna, hia, hnb, hib, invalid, fNaNV]
    | fin m e hnb hib hzb hvb => simp [hna, hia, hnb, hib]
  | fin m e hna hia hza hva =>
    cases hb with
    | nan hnb hib hzb => simp [hnb, hn]
    | inf hnb hib hzb => simp [hna, hia, hnb, hib]
    | fin m' e' hnb hib hzb hvb =>
      have := sumOr_sumRound rm (sgn a) (sgn b) m m' e e'
      rw [← fval_eq hva, ← fval_eq hvb] at this
      simpa [hna, hia, hza, hnb, hib, hzb, and_assoc] using this

theorem productResult_fmul (rm : RM) (a b : BitVec 32) : ProductResult rm a b (fmul rm a b) := by
  have hn : nanOf [un32 a, un32 b] = nanResult [a, b] := nanOf_un32 [a, b]
  have hza := isZero_un32 a
  have hzb := isZero_un32 b
  have ha := datum_un32 a
  have hb := datum_un32 b
  unfold fmul ProductResult
  generalize un32 a = x at *
  generalize un32 b = y at *
  cases ha with
  | nan hna hia => simp [hna, hn]
  | inf hna hia hza' =>
    cases hb with
    | nan hnb hib => simp [hnb, hn]
    | inf hnb hib hzb' => simp [hna, hia, hza', hnb, hib, hzb, hzb', Fp.neg, ofNat_infinity]
    | fin m e hnb hib hzb' hvb => simp [hna, hia, hza', hnb, hib, hzb, hzb', invalid, fNaNV, Fp.neg, ofNat_infinity]
  | fin m e hna hia hza' hva =>
    cases hb with
    | nan hnb hib hzb => simp [hnb, hn]
    | inf hnb hib hzb => simp [hna, hia, hza', hnb, hib, hza, invalid, fNaNV, Fp.neg, ofNat_infinity]
    | fin m' e' hnb hib hzb' hvb =>
      by_cases hz : m * m' = 0
      · have : (zero a || zero b) = true := by simpa [hza', hzb'] using hz
        simp [hna, hia, hnb, hib, this, hz, round_zero, mk32, ofNat_sign]
      · have : (zero a || zero b) = false := by simpa [hza', hzb'] using hz
        simp only [hna, hia, hnb, hib, this, Bool.or_false, Bool.false_and, Bool.and_false, Bool.false_eq_true, if_false]
        rw [fval_mul hva hvb]
        exact round32_round rm _ _ hz

/-- An infinite product with an infinite addend. -/
theorem infinite_addend {c : BitVec 32} (hc : inf c = true) (n : Bool) :
    (if sgn c = n then (c, 0) else fNaNV) = if inf c && (sgn c != n) then invalid else (infW n, (0 : Byte)) := by
  by_cases hs : sgn c = n
  · subst hs
    simp [← word_of_inf hc]
  · simp [hs, hc, invalid, fNaNV]

theorem fusedResult_of_inf {rm : RM} {a b c : BitVec 32} {r : BitVec 32 × Byte}
    (hz : ((inf a && zero b) || (zero a && inf b)) = false) (hn : (nan a || nan b || nan c) = false) (hi : (inf a || inf b) = true)
    (hr : r = if inf c && (sgn c != (sgn a != sgn b)) then invalid else (infW (sgn a != sgn b), 0)) : FusedResult rm a b c r := by
  simp only [FusedResult, hz, hn, hi, Bool.false_eq_true, if_false, if_true]
  exact hr

theorem fusedResult_ffma (rm : RM) (a b c : BitVec 32) : FusedResult rm a b c (ffma rm a b c) := by
  have hn : nanOf [un32 a, un32 b, un32 c] = nanResult [a, b, c] := nanOf_un32 [a, b, c]
  have ha := datum_un32 a
  have hb := datum_un32 b
  have hc := datum_un32 c
  unfold ffma
  generalize un32 a = x at *
  generalize un32 b = y at *
  generalize un32 c = z at *
  cases ha with
  | nan hna hia hza => simp [FusedResult, hna, hia, hza, hn, Fp.isNan]
  | inf hna hia hza =>
    cases hb with
    | nan hnb hib hzb => simp [FusedResult, hna, hza, hnb, hzb, hn, Fp.isNan]
    | inf hnb hib hzb =>
      cases hc with
      | nan hnc => simp [FusedResult, hna, hia, hza, hnb, hib, hzb, hnc, hn, Fp.isNan]
      | inf hnc hic => exact fusedResult_of_inf (by simp [hza, hzb]) (by simp [hna, hnb, hnc]) (by simp [hia]) (infinite_addend hic _)
      | fin m e hnc hic => simp [FusedResult, hna, hia, hza, hnb, hib, hzb, hnc, hic, Fp.isNan, Fp.neg, ofNat_infinity]
    | fin m e hnb hib hzb =>
      obtain _ | m := m
      · simp [FusedResult, hia, hzb, invalid, fNaNV]
      · cases hc with
        | nan hnc => simp [FusedResult, hna, hia, hza, hnb, hib, hzb, hnc, hn, Fp.isNan]
        | inf hnc hic => exact fusedResult_of_inf (by simp [hza, hzb]) (by simp [hna, hnb, hnc]) (by simp [hia]) (infinite_addend hic _)
        | fin m' e' hnc hic => simp [FusedResult, hna, hia, hza, hnb, hib, hzb, hnc, hic, Fp.isNan, Fp.neg, ofNat_infinity]
  | fin m e hna hia hza hva =>
    cases hb with
    | nan hnb hib hzb => simp [FusedResult, hna, hia, hnb, hib, hzb, hn, Fp.isNan]
    | inf hnb hib hzb =>
      obtain _ | m := m
      · simp [FusedResult, hib, hza, invalid, fNaNV]
      · cases hc with
        | nan hnc => simp [FusedResult, hna, hia, hza, hnb, hib, hzb, hnc, hn, Fp.isNan]
        | inf hnc hic => exact fusedResult_of_inf (by simp [hza, hzb]) (by simp [hna, hnb, hnc]) (by simp [hib]) (infinite_addend hic _)
        | fin m' e' hnc hic => simp [FusedResult, hna, hia, hza, hnb, hib, hzb, hnc, hic, Fp.isNan, Fp.neg, ofNat_infinity]
    | fin m' e' hnb hib hzb hvb =>
      cases hc with
      | nan hnc => simp [FusedResult, hna, hia, hnb, hib, hnc, hn, Fp.isNan]
      | inf hnc hic => simp [FusedResult, hna, hia, hnb, hib, hnc, hic, Fp.isNan]
      | fin mc ec hnc hic hzc hvc =>
        have := sumOr_sumRound rm (sgn a != sgn b) (sgn c) (m * m') mc (e + e') ec
        rw [← fval_mul hva hvb, ← fval_eq hvc] at this
        simpa [FusedResult, hna, hia, hza, hnb, hib, hzb, hnc, hic, hzc, Fp.isNan, and_assoc, eq_comm (a := sgn c)] using this

/-! ### Signs, orders and comparisons (06_vector.md R173, R176) -/

theorem fsign_abs (b : BitVec 32) : fsign (fun w => w &&& 0x7FFFFFFF) b =
    if nan b then nanResult [b] else ((b.extractLsb' 0 31).setWidth 32, 0) := by
  have hn : nanOf [un32 b] = nanResult [b] := nanOf_un32 [b]
  have habs : b &&& 0x7FFFFFFF = (b.extractLsb' 0 31).setWidth 32 := by
    refine BitVec.eq_of_toNat_eq ?_
    have hmask : b.toNat &&& 0x7FFFFFFF = b.toNat % 2 ^ 31 := Nat.and_two_pow_sub_one_eq_mod b.toNat 31
    have hext : ((b.extractLsb' 0 31).setWidth 32).toNat = b.toNat % 2 ^ 31 % 2 ^ 32 := by simp
    rw [hext, Nat.mod_eq_of_lt (by omega)]
    exact hmask
  have hb := datum_un32 b
  unfold fsign
  generalize un32 b = x at *
  cases hb with
  | nan h => simp [h, hn]
  | inf h => simp only [h, habs, Bool.false_eq_true, if_false]
  | fin m e h => simp only [h, habs, Bool.false_eq_true, if_false]

theorem fsign_flipSign (b : BitVec 32) : fsign flipSign b = if nan b then nanResult [b] else (b ^^^ 0x80000000, 0) := by
  have hn : nanOf [un32 b] = nanResult [b] := nanOf_un32 [b]
  have hb := datum_un32 b
  unfold fsign
  generalize un32 b = x at *
  cases hb with
  | nan h => simp [h, hn]
  | inf h => simp [h, flipSign]
  | fin m e h => simp [h, flipSign]

theorem snanFlag_eq (l : List (BitVec 32)) : snanFlag l = if l.any snan then fNV else 0 := by
  have : l.any (fun w => decide (un32 w = .nan true)) = l.any snan := by
    congr 1
    funext w
    rw [Bool.eq_iff_iff, decide_eq_true_iff, un32_eq_nan_iff]
  rw [snanFlag, this, flagIf]

theorem sgn_iff (w : BitVec 32) : sgn w = true ↔ 2 ^ 31 ≤ w.toNat := by
  have hw := w.isLt
  rw [sgn_eq, decide_eq_true_iff]
  omega

theorem fkey_eq (w : BitVec 32) :
    fkey w = if 2 ^ 31 ≤ w.toNat then 2 ^ 31 - (w.toNat : Int) - 1 else (w.toNat : Int) := by
  have hw := w.isLt
  have hsgn : w.getLsbD 31 = true ↔ 2 ^ 31 ≤ w.toNat := sgn_iff w
  simp only [fkey, hsgn]
  split <;> omega

/-- The order key orders as R176 ranks. -/
theorem fkey_le_iff (a b : BitVec 32) : fkey a ≤ fkey b ↔ ranks a b = true := by
  have ha := a.isLt
  have hb := b.isLt
  simp only [fkey_eq, ranks, Bool.and_eq_true, sgn_iff]
  by_cases hsa : 2 ^ 31 ≤ a.toNat <;> by_cases hsb : 2 ^ 31 ≤ b.toNat <;> simp only [hsa, hsb] <;> grind

theorem fkey_inj {a b : BitVec 32} (h : fkey a = fkey b) : a = b := by
  have ha := a.isLt
  have hb := b.isLt
  rw [fkey_eq, fkey_eq] at h
  refine BitVec.eq_of_toNat_eq ?_
  split at h <;> split at h <;> omega

theorem fminW_eq (a b : BitVec 32) : fminW a b = if nan a || nan b then 0x7FC00000 else if ranks a b then a else b := by
  rw [fminW, isNan_un32, isNan_un32]
  simp only [← fkey_le_iff, ← not_le (a := fkey a), ite_not]

theorem fmaxW_eq (a b : BitVec 32) : fmaxW a b = if nan a || nan b then 0x7FC00000 else if ranks a b then b else a := by
  have : (if fkey a < fkey b then b else a) = if ranks a b then b else a := by
    simp only [← fkey_le_iff]
    split
    · next h => rw [if_pos h.le]
    · next h =>
      split
      · next h' => exact fkey_inj (le_antisymm h' (not_lt.mp h))
      · rfl
  rw [fmaxW, isNan_un32, isNan_un32, this]

/-- What a comparison with a NaN gives. -/
theorem fcmp_eq (ordered : Bool) (p : BitVec 32 → BitVec 32 → Bool) (a b : BitVec 32) : fcmp ordered p a b =
    if nan a || nan b then (false, if ordered || snan a || snan b then fNV else 0) else (p a b, 0) := by
  have hs (w : BitVec 32) : decide (un32 w = .nan true) = snan w := by
    rw [Bool.eq_iff_iff, decide_eq_true_iff, un32_eq_nan_iff]
  rw [fcmp, isNan_un32, isNan_un32, hs, hs]
  rfl

theorem feq_eq (a b : BitVec 32) : feq a b = (decide (a = b) || (zero a && zero b)) := by
  rw [feq, isZero_un32, isZero_un32]

theorem flt_eq (a b : BitVec 32) : flt a b = (ranks a b && !(decide (a = b) || (zero a && zero b))) := by
  have : decide (fkey a < fkey b) = (ranks a b && !decide (a = b)) := by
    rw [Bool.eq_iff_iff, decide_eq_true_iff, lt_iff_le_and_ne, fkey_le_iff]
    simp [(⟨fkey_inj, congrArg fkey⟩ : fkey a = fkey b ↔ a = b)]
  rw [flt, isZero_un32, isZero_un32, this, Bool.not_or, Bool.and_assoc]

end Sys2Proof.Claims
end

section
/-! Reciprocals and roots (06_vector.md R177), and the conversions of one rounding (02_numbers.md R34, R51; 06_vector.md R178, R179). -/

namespace Sys2Proof.Claims

open Sys2Proof.Machine

/-! ### Signed values -/

theorem signed_neg_iff {neg : Bool} {x : Rat} (hx : 0 < x) : decide (signed neg x < 0) = neg := by
  cases neg <;> simp [signed, hx, hx.le]

theorem mag_signed {neg : Bool} {x : Rat} (hx : 0 ≤ x) : mag (signed neg x) = x := by
  rw [mag_eq_abs]
  cases neg <;> simp [signed, abs_of_nonneg hx]

theorem one_div_signed (neg : Bool) (x : Rat) : 1 / signed neg x = signed neg (1 / x) := by
  cases neg <;> simp [signed]

theorem p2_zero : p2 0 = 1 := zpow_zero 2

theorem nat_mul_p2_pos {m : Nat} (hm : m ≠ 0) (e : Int) : 0 < (m : Rat) * p2 e :=
  mul_pos (by exact_mod_cast Nat.pos_of_ne_zero hm) (p2_pos e)

/-! ### A quotient that is not exact -/

/-- Whole units of which a magnitude is known are enough to round it, where they have a bit more than the format. -/
theorem rounded_round_agrees (f : Fmt) (rm : RM) (neg : Bool) {r : Magn} {m : Nat} {e : Int} {st : Bool}
    (hm : 2 ^ (f.mb + 1) ≤ m) (hr : Agrees r (sticky m st * p2 e) e) :
    Rounded f.mb rm neg r (f.round rm neg m e st).1 (f.round rm neg m e st).2 := by
  have hpos : m ≠ 0 := by have := Nat.two_pow_pos (f.mb + 1); omega
  refine (rounded_round f rm neg e hpos fun _ => hm).of_agrees hr ?_
  rw [show e + f.mb + 1 = ((f.mb + 1 : Nat) : Int) + e by push_cast; ring, p2_add, p2_natCast, mul_p2_le]
  exact le_trans (by exact_mod_cast hm) (le_sticky m st)

theorem mul_lt_iff_quotient {c : Int} {m d : Nat} (hm : 0 < m) :
    c * m < d ↔ c < (d / m : Nat) ∨ (c = (d / m : Nat) ∧ decide (d % m ≠ 0) = true) := by
  have hle : c * m ≤ d ↔ c ≤ (d / m : Nat) := by
    rw [Int.natCast_ediv, Int.le_ediv_iff_mul_le (by exact_mod_cast hm)]
  have hself : ((d / m : Nat) : Int) * m = d ↔ d % m = 0 := by
    have := Nat.div_add_mod' d m
    norm_cast
    omega
  rw [lt_iff_le_and_ne, hle, decide_eq_true_iff, ne_eq, ne_eq, ← hself, le_iff_lt_or_eq]
  constructor
  · rintro ⟨h | h, hne⟩
    · exact .inl h
    · exact .inr ⟨h, h ▸ hne⟩
  · rintro (h | ⟨rfl, hne⟩)
    · refine ⟨.inl h, fun heq => absurd h (not_lt.mpr ?_)⟩
      rw [Int.natCast_ediv, ← heq, Int.mul_ediv_cancel _ (by exact_mod_cast hm.ne')]
    · exact ⟨.inr rfl, hne⟩

theorem quotient_lt_iff {c : Int} {m d : Nat} (hm : 0 < m) : (d : Int) < c * m ↔ ((d / m : Nat) : Int) < c := by
  rw [Int.natCast_ediv, Int.ediv_lt_iff_lt_mul (by exact_mod_cast hm)]

theorem agrees_one_div {m : Nat} (e : Int) (k : Nat) (hm : m ≠ 0) :
    Agrees (Magn.of (1 / (m * p2 e))) (sticky (2 ^ k / m) (decide (2 ^ k % m ≠ 0)) * p2 (-(k : Int) - e)) (-(k : Int) - e) := by
  have hpos : 0 < m := Nat.pos_of_ne_zero hm
  have hunits (c : Int) : (c : Rat) * p2 (-(k : Int) - e) * (m * p2 e) * p2 k = (c * m : Int) := by
    have : p2 (-(k : Int) - e) * p2 e * p2 k = 1 := by rw [← p2_add, ← p2_add]; simp
    push_cast
    linear_combination (c : Rat) * m * this
  have hk : 1 * p2 k = ((2 ^ k : Nat) : Int) := by rw [one_mul, p2_natCast, Int.cast_natCast]
  refine .of_floor (fun c => ?_) fun c => ?_
  · rw [← mul_lt_iff_quotient hpos, ← Int.cast_lt (R := Rat), ← hunits, ← hk, mul_p2_lt]
    exact lt_div_iff₀ (nat_mul_p2_pos hm e)
  · rw [← quotient_lt_iff hpos, ← Int.cast_lt (R := Rat), ← hunits, ← hk, mul_p2_lt]
    exact div_lt_iff₀ (nat_mul_p2_pos hm e)

theorem reciprocalResult_frcp (rm : RM) (b : BitVec 32) : ReciprocalResult rm b (frcp rm b) := by
  have hn : nanOf [un32 b] = nanResult [b] := nanOf_un32 [b]
  have hb := datum_un32 b
  unfold frcp ReciprocalResult
  generalize un32 b = x at *
  cases hb with
  | nan hnb hib hzb => simp [hnb, hn]
  | inf hnb hib hzb => simp [hnb, hib, ofNat_sign]
  | fin m e hnb hib hzb hvb hm24 =>
    by_cases hm : m = 0
    · simp [hnb, hib, hzb, hm, ofNat_infinity]
    · simp only [hnb, hib, hzb, hm, decide_false, Bool.false_eq_true, if_false]
      have hpos := nat_mul_p2_pos hm e
      have hbits : 2 ^ (fp32.mb + 1) ≤ 2 ^ (m.log2 + 64) / m := by
        rw [Nat.le_div_iff_mul_le (Nat.pos_of_ne_zero hm)]
        calc 2 ^ (fp32.mb + 1) * m ≤ 2 ^ (fp32.mb + 1) * 2 ^ (m.log2 + 1) := Nat.mul_le_mul_left _ Nat.lt_log2_self.le
          _ ≤ 2 ^ (m.log2 + 64) := by rw [← pow_add]; exact Nat.pow_le_pow_right two_pos (by simp; omega)
      rw [Round32, fval_eq hvb, one_div_signed, signed_neg_iff (one_div_pos.mpr hpos), mag_signed (one_div_pos.mpr hpos).le]
      exact (rounded_round_agrees fp32 rm _ hbits (agrees_one_div e _ hm)).mk32

/-! ### Square roots -/

theorem isqrtFrom_eq {x : Nat} {n r : Nat} (hlow : r * r ≤ x) (hhigh : x < (r + 2 ^ (n + 1)) * (r + 2 ^ (n + 1))) :
    isqrtFrom x n r = x.sqrt := by
  induction n generalizing r with
  | zero =>
    rw [isqrtFrom, Nat.eq_sqrt]
    split
    · next h => exact ⟨h, hhigh⟩
    · next h => exact ⟨hlow, not_le.mp h⟩
  | succ n ih =>
    rw [isqrtFrom]
    split
    · next h => exact ih h (by rwa [add_assoc, ← two_mul, ← pow_succ'])
    · next h => exact ih hlow (not_le.mp h)

theorem isqrt_eq_sqrt (x : Nat) : isqrt x = x.sqrt := by
  refine isqrtFrom_eq (Nat.zero_le x) ?_
  rw [Nat.zero_add, ← pow_add]
  exact Nat.lt_log2_self.trans_le (Nat.pow_le_pow_right two_pos (by omega))

/-- The root of a quotient, by its square. -/
theorem sq_mul_lt_iff {c m d : Nat} (hm : 0 < m) :
    c * c * m < d ↔ c < (d / m).sqrt ∨ (c = (d / m).sqrt ∧ decide ((d / m).sqrt * (d / m).sqrt * m ≠ d) = true) := by
  have hle (c : Nat) : c * c * m ≤ d ↔ c ≤ (d / m).sqrt := by rw [Nat.le_sqrt, Nat.le_div_iff_mul_le hm]
  rw [lt_iff_le_and_ne, hle, decide_eq_true_iff, le_iff_lt_or_eq]
  constructor
  · rintro ⟨h | h, hne⟩
    · exact .inl h
    · exact .inr ⟨h, h ▸ hne⟩
  · rintro (h | ⟨rfl, hne⟩)
    · refine ⟨.inl h, (lt_of_lt_of_le ?_ ((hle _).mpr le_rfl)).ne⟩
      exact Nat.mul_lt_mul_of_pos_right (Nat.mul_self_lt_mul_self h) hm
    · exact ⟨.inr rfl, hne⟩

theorem lt_sq_mul_iff {c m d : Nat} (hm : 0 < m) : d < c * c * m ↔ (d / m).sqrt < c := by
  rw [← Nat.div_lt_iff_lt_mul hm, Nat.sqrt_lt]

theorem root_below_iff {c : Int} {m d : Nat} (hm : 0 < m) : (c < 0 ∨ c * c * m < d) ↔
    c < ((d / m).sqrt : Nat) ∨ (c = ((d / m).sqrt : Nat) ∧ decide ((d / m).sqrt * (d / m).sqrt * m ≠ d) = true) := by
  obtain hc | hc := lt_or_ge c 0
  · exact ⟨fun _ => .inl (by omega), fun _ => .inl hc⟩
  · obtain ⟨c, rfl⟩ := Int.eq_ofNat_of_zero_le hc
    rw [or_iff_right (not_lt.mpr hc)]
    exact_mod_cast sq_mul_lt_iff hm

theorem root_above_iff {c : Int} {m d : Nat} (hm : 0 < m) : (0 < c ∧ (d : Int) < c * c * m) ↔ ((d / m).sqrt : Nat) < c := by
  obtain hc | hc := lt_or_ge c 0
  · exact ⟨fun h => absurd h.1 (by omega), fun h => absurd h (by omega)⟩
  · obtain ⟨c, rfl⟩ := Int.eq_ofNat_of_zero_le hc
    have := lt_sq_mul_iff (c := c) (d := d) hm
    constructor
    · rintro ⟨-, h⟩
      exact_mod_cast this.mp (by exact_mod_cast h)
    · intro h
      exact ⟨by omega, by exact_mod_cast this.mpr (by exact_mod_cast h)⟩

theorem sqrt_below (x c : Rat) : (Magn.sqrt x).below c ↔ c < 0 ∨ c * c < x := Iff.rfl

theorem sqrt_above (x c : Rat) : (Magn.sqrt x).above c ↔ 0 < c ∧ x < c * c := Iff.rfl

theorem rsqrt_below (x c : Rat) : (Magn.rsqrt x).below c ↔ c ≤ 0 ∨ c * c * x < 1 := Iff.rfl

theorem rsqrt_above (x c : Rat) : (Magn.rsqrt x).above c ↔ 0 < c ∧ 1 < c * c * x := Iff.rfl

/-- √x for a whole number of units of an even power. -/
theorem agrees_sqrt (m : Nat) (h : Int) :
    Agrees (Magn.sqrt (m * p2 (2 * h))) (sticky m.sqrt (decide (m.sqrt * m.sqrt ≠ m)) * p2 h) h := by
  have hsq (c : Int) : (c : Rat) * p2 h * (c * p2 h) = (c * c * (1 : Nat) : Int) * p2 (2 * h) := by
    rw [two_mul, p2_add]; push_cast; ring
  have hm : (m : Rat) = ((m : Int) : Rat) := (Int.cast_natCast m).symm
  refine .of_floor (fun c => ?_) fun c => ?_
  · have := root_below_iff (c := c) (d := m) one_pos
    rw [Nat.div_one, mul_one (m.sqrt * m.sqrt)] at this
    rw [← this, sqrt_below, hsq, hm, mul_p2_lt, mul_p2_neg_iff, Int.cast_lt]
  · have := root_above_iff (c := c) (d := m) one_pos
    rw [Nat.div_one] at this
    rw [← this, sqrt_above, hsq, hm, mul_p2_lt, mul_pos_iff_of_pos_right (p2_pos h), Int.cast_pos, Int.cast_lt]

/-- 1 / √x for a whole number of units of an even power, with k bits more. -/
theorem agrees_rsqrt {m : Nat} (h : Int) (k : Nat) (hm : 0 < m) (hk : m ≤ 2 ^ (2 * k)) :
    let r := (2 ^ (2 * k) / m).sqrt
    Agrees (Magn.rsqrt (m * p2 (2 * h))) (sticky r (decide (r * r * m ≠ 2 ^ (2 * k))) * p2 (-(k : Int) - h)) (-(k : Int) - h) := by
  intro r
  have hr : 0 < r := Nat.sqrt_pos.mpr (Nat.div_pos hk hm)
  have hsq (c : Int) : (c : Rat) * p2 (-(k : Int) - h) * (c * p2 (-(k : Int) - h)) * (m * p2 (2 * h)) * p2 (2 * k : Nat) =
      (c * c * m : Int) := by
    have : p2 (-(k : Int) - h) * p2 (-(k : Int) - h) * p2 (2 * h) * p2 (2 * k : Nat) = 1 := by
      rw [← p2_add, ← p2_add, ← p2_add, show -(k : Int) - h + (-(k : Int) - h) + 2 * h + (2 * k : Nat) = 0 by push_cast; ring]
      rfl
    push_cast at this ⊢
    linear_combination (c : Rat) * c * m * this
  have hone : 1 * p2 (2 * k : Nat) = ((2 ^ (2 * k) : Nat) : Int) := by rw [one_mul, p2_natCast, Int.cast_natCast]
  refine .of_floor (fun c => ?_) fun c => ?_
  · have hle : (c : Rat) * p2 (-(k : Int) - h) ≤ 0 ↔ c ≤ 0 := by
      rw [← not_lt, mul_pos_iff_of_pos_right (p2_pos _), Int.cast_pos, not_lt]
    rw [rsqrt_below, hle, ← mul_p2_lt (e := (2 * k : Nat)), hsq, hone, Int.cast_lt]
    have := root_below_iff (c := c) (d := 2 ^ (2 * k)) hm
    constructor
    · rintro (hc | hc)
      · exact .inl (by omega)
      · exact this.mp (.inr hc)
    · intro hc
      obtain hc | hc := this.mpr hc
      · exact .inl hc.le
      · exact .inr hc
  · rw [← root_above_iff hm, rsqrt_above, mul_pos_iff_of_pos_right (p2_pos _), Int.cast_pos, ← mul_p2_lt (e := (2 * k : Nat)), hsq, hone,
      Int.cast_lt]

/-- A finite datum in units of an even power: the units, and half of the exponent. -/
theorem even_units {m : Nat} (e : Int) (hm : m ≠ 0) :
    ∃ (n : Nat) (h : Int), n ≠ 0 ∧ (m : Rat) * p2 e = n * p2 (2 * h) ∧
    (if decide (e % 2 ≠ 0) then 2 * m else m) = n ∧ (if decide (e % 2 ≠ 0) then e - 1 else e) = 2 * h := by
  by_cases he : e % 2 = 0
  · exact ⟨m, e / 2, hm, by rw [show 2 * (e / 2) = e by omega], by simp [he], by simp [he]; omega⟩
  · refine ⟨2 * m, (e - 1) / 2, by omega, ?_, by simp [he], by simp [he]; omega⟩
    rw [show e = 2 * ((e - 1) / 2) + 1 by omega, p2_succ, show 2 * ((2 * ((e - 1) / 2) + 1 - 1) / 2) = 2 * ((e - 1) / 2) by omega]
    push_cast
    ring

theorem fval_of_pos {b : BitVec 32} {m : Nat} {e : Int} (hb : fmag 23 b.toNat = m * p2 e) (hs : sgn b = false) : fval b = m * p2 e := by
  rw [fval_eq hb, hs]
  rfl

theorem rootResult_fsqrt (rm : RM) (b : BitVec 32) : RootResult false rm b (fsqrt rm b) := by
  have hn : nanOf [un32 b] = nanResult [b] := nanOf_un32 [b]
  have hb := datum_un32 b
  unfold fsqrt RootResult
  generalize un32 b = x at *
  cases hb with
  | nan hnb hib hzb => simp [hnb, hn]
  | inf hnb hib hzb => simp [hnb, hib, hzb, invalid, fNaNV]
  | fin m e hnb hib hzb hvb hm24 =>
    by_cases hm : m = 0
    · simp [hnb, hzb, hm]
    · cases hs : sgn b with
      | true => simp [hnb, hzb, hm, invalid, fNaNV]
      | false =>
        obtain ⟨n, h, hn0, hval, hn, he⟩ := even_units e hm
        have hunits : (n : Rat) * p2 (2 * h) = (n * 2 ^ 64 : Nat) * p2 (2 * (h - 32)) := by
          rw [p2_eq_units (show 2 * (h - 32) ≤ 2 * h by omega), show (2 * h - 2 * (h - 32)).toNat = 64 by omega]
          push_cast
          ring
        have hbits : 2 ^ (fp32.mb + 1) ≤ (n * 2 ^ 64).sqrt := by
          rw [Nat.le_sqrt]
          simp only [Nat.reduceAdd, Nat.reducePow]
          omega
        simp only [hnb, hib, hzb, hm, decide_false, Bool.false_eq_true, if_false, hn, he, isqrt_eq_sqrt]
        rw [fval_of_pos hvb hs, hval, hunits, show (2 * h - 64) / 2 = h - 32 by omega]
        exact (rounded_round_agrees fp32 rm false hbits (agrees_sqrt _ _)).mk32

theorem rootResult_frsq (rm : RM) (b : BitVec 32) : RootResult true rm b (frsq rm b) := by
  have hn : nanOf [un32 b] = nanResult [b] := nanOf_un32 [b]
  have hb := datum_un32 b
  unfold frsq RootResult
  generalize un32 b = x at *
  cases hb with
  | nan hnb hib hzb => simp [hnb, hn]
  | inf hnb hib hzb => simp [hnb, hib, hzb, invalid, fNaNV]
  | fin m e hnb hib hzb hvb hm24 =>
    by_cases hm : m = 0
    · simp [hnb, hzb, hm, ofNat_infinity]
    · cases hs : sgn b with
      | true => simp [hnb, hzb, hm, invalid, fNaNV]
      | false =>
        obtain ⟨n, h, hn0, hval, hn, he⟩ := even_units e hm
        have hlog : n ≤ 2 ^ (n.log2 + 1) := Nat.lt_log2_self.le
        have hbits (k : Nat) (hk : k = n.log2 + 64) : 2 ^ (fp32.mb + 1) * 2 ^ (fp32.mb + 1) * n ≤ 2 ^ (2 * k) := by
          calc 2 ^ (fp32.mb + 1) * 2 ^ (fp32.mb + 1) * n ≤ 2 ^ 48 * 2 ^ (n.log2 + 1) := Nat.mul_le_mul_left _ hlog
            _ ≤ 2 ^ (2 * k) := by rw [← pow_add]; exact Nat.pow_le_pow_right two_pos (by omega)
        simp only [hnb, hib, hzb, hm, decide_false, Bool.false_eq_true, if_false, if_true, hn, he, isqrt_eq_sqrt]
        rw [fval_of_pos hvb hs, hval, Int.mul_ediv_cancel_left _ (by decide : (2 : Int) ≠ 0)]
        have hpos : 0 < n := Nat.pos_of_ne_zero hn0
        generalize hk : n.log2 + 64 = k
        have hbits := hbits k hk.symm
        refine (rounded_round_agrees fp32 rm false ?_ (agrees_rsqrt h k hpos ((Nat.le_mul_of_pos_left _ (by decide)).trans hbits))).mk32
        rwa [Nat.le_sqrt, Nat.le_div_iff_mul_le hpos]

/-! ### Conversions -/

theorem upper_infW (neg : Bool) : (infW neg).extractLsb' 16 16 = BitVec.ofNat 16 (bf16.infinity neg) := by cases neg <;> rfl

theorem upper_zeroW (neg : Bool) : (zeroW neg).extractLsb' 16 16 = BitVec.ofNat 16 (bf16.sign neg) := by cases neg <;> rfl

theorem halfResult_narrowBf (rm : RM) (b : BitVec 32) : HalfResult rm b (narrowBf rm b) := by
  have hb := datum_un32 b
  unfold narrowBf HalfResult
  generalize un32 b = x at *
  cases hb with
  | nan hnb hib hzb => simp [hnb, flagIf]
  | inf hnb hib hzb =>
    simp only [hnb, hib, Bool.true_or, Bool.false_eq_true, if_false, if_true]
    rw [← upper_infW, ← word_of_inf hib]
  | fin m e hnb hib hzb hvb hm24 =>
    by_cases hm : m = 0
    · have hz : zero b = true := by simp [hzb, hm]
      simp only [hnb, hz, hm, round_zero, Bool.or_true, Bool.false_eq_true, if_false, if_true]
      rw [← upper_zeroW, ← word_of_zero hz]
    · have hround := rounded_round_exact bf16 rm (sgn b) e hm
      simp only [hnb, hib, hzb, hm, decide_false, Bool.or_self, Bool.false_eq_true, if_false, hvb]
      rw [BitVec.toNat_ofNat, Nat.mod_eq_of_lt hround.lt]
      exact hround

theorem wideResult_widenBf (h : BitVec 16) : WideResult h (widenBf h) := by
  have hlt := h.isLt
  have hw : (h ++ (0 : BitVec 16)).toNat = h.toNat * 2 ^ 16 := by
    rw [BitVec.toNat_append, ← Nat.shiftLeft_eq]
    exact Nat.or_zero _
  have hnan : nan (h ++ (0 : BitVec 16)) = decide (h.toNat / 2 ^ 7 % 256 = 255 ∧ h.toNat % 2 ^ 7 ≠ 0) := by
    rw [nan, hw, decide_eq_decide]
    omega
  have hquiet : decide ((h ++ (0 : BitVec 16)).toNat % 2 ^ 23 < 2 ^ 22) = decide (h.toNat % 2 ^ 7 < 2 ^ 6) := by
    rw [hw, decide_eq_decide]
    omega
  unfold WideResult widenBf Fmt.unpack
  dsimp only
  by_cases hex : h.toNat / 2 ^ 7 % 256 = 255
  · by_cases hfrac : h.toNat % 2 ^ 7 = 0
    · simp only [hnan, hex, hfrac, if_true, ne_eq, not_true_eq_false, and_false, decide_false, Bool.false_eq_true, if_false]
    · simp only [hnan, hex, hfrac, if_true, if_false, ne_eq, not_false_eq_true, and_true, decide_true, nanResult, List.any_cons,
        List.any_nil, Bool.or_false, snan_eq, hquiet, Bool.true_and, flagIf]
  · simp only [hnan, hex, if_false, false_and, decide_false, Bool.false_eq_true]
    by_cases hsub : h.toNat / 2 ^ 7 % 256 = 0 <;> simp only [hsub, if_true, if_false]

theorem round32_i2fLane (rm : RM) {b : BitVec 32} (hb : b ≠ 0) : Round32 rm b.toInt (i2fLane rm b) := by
  have hx : b.toInt ≠ 0 := fun h => hb (BitVec.eq_of_toInt_eq h)
  have := round32_roundInt rm 0 hx
  rw [p2_zero, mul_one] at this
  rwa [i2fLane, if_neg hb]

/-! ### Integers (02_numbers.md R51) -/

/-- A magnitude rounded with its sign. -/
theorem RoundsMag.roundsTo {rm : RM} {neg : Bool} {x : Rat} {k : Nat} (h : RoundsMag rm neg x k) (hx : 0 ≤ x) :
    RoundsTo rm (signed neg x) (if neg then -(k : Int) else k) := by
  obtain ⟨hnear, hdown, hup⟩ := h
  have hmag : mag (signed neg x - ((if neg then -(k : Int) else k : Int) : Rat)) = |x - k| := by
    rw [mag_eq_abs]
    cases neg with
    | false => simp [signed]
    | true =>
      rw [abs_sub_comm]
      simp [signed, add_comm, sub_eq_add_neg]
  have htie : |x - k| = 1 / 2 → x = k - 1 / 2 ∨ x = k + 1 / 2 := fun h => by
    obtain h | h := eq_or_eq_neg_of_abs_eq h
    · exact .inr (by linarith)
    · exact .inl (by linarith)
  refine ⟨fun hrm => ?_, fun hrm => ?_, fun hrm => ?_⟩
  · obtain ⟨hlow, hhigh, heven⟩ := hnear hrm
    rw [hmag]
    refine ⟨abs_le.mpr ⟨by linarith, by linarith⟩, fun h => ?_⟩
    have := heven (htie h)
    split <;> omega
  · cases neg with
    | false => simpa [signed] using hdown (by rcases hrm with h | h <;> simp [h])
    | true =>
      obtain rfl | ⟨rfl, hx'⟩ := hrm
      · obtain ⟨hlow, hhigh⟩ := hup (by simp)
        simp only [signed, if_true]
        push_cast
        constructor <;> linarith
      · obtain ⟨hlow, hhigh⟩ := hdown (by simp)
        simp only [signed, if_true] at hx' ⊢
        have : (0 : Rat) ≤ k := Nat.cast_nonneg k
        push_cast
        constructor <;> linarith
  · cases neg with
    | false =>
      obtain rfl | ⟨rfl, hx'⟩ := hrm
      · simpa [signed] using hup (by simp)
      · simp only [signed, Bool.false_eq_true, if_false] at hx'
        linarith
    | true =>
      obtain ⟨hlow, hhigh⟩ := hdown (by rcases hrm with h | h <;> simp [h])
      simp only [signed, if_true]
      push_cast
      constructor <;> linarith

/-- An integer in range as it is, outside it the nearest extreme or wrapped (02_numbers.md R51). -/
def rangedInt (isat : Bool) (k : Int) (nx : Byte) : BitVec 32 × Byte :=
  if -(2 ^ 31) ≤ k ∧ k < 2 ^ 31 then (BitVec.ofInt 32 k, nx)
  else if isat then (if k < 0 then 0x80000000 else 0x7FFFFFFF, fIV ||| nx)
  else (BitVec.ofInt 32 k, fNV ||| nx)

/-- The integer that the model rounds a finite datum to, and whether it marks it inexact. -/
theorem toIntFmt_fin (rm : RM) (isat neg : Bool) (m : Nat) (e : Int) :
    let k := cutRound rm neg m e 0 false
    let r := toIntFmt rm isat 32 (.fin neg m e)
    (BitVec.ofInt 32 r.1, r.2) =
      rangedInt isat (if neg then -(k : Int) else k) (flagIf (decide ((cutAt m e 0).2.1 ≠ 0)) fNX) := by
  intro k r
  have hr : r = (let v : Int := if neg then -(k : Int) else k
      let nx := flagIf (decide ((cutAt m e 0).2.1 ≠ 0)) fNX
      if loOf 32 ≤ v ∧ v ≤ hiOf 32 then (v, nx)
      else if isat then (if v < 0 then loOf 32 else hiOf 32, fIV ||| nx)
      else (v, fNV ||| nx)) := rfl
  have hrange (v : Int) : (loOf 32 ≤ v ∧ v ≤ hiOf 32) = (-(2 ^ 31) ≤ v ∧ v < 2 ^ 31) := by
    rw [eq_iff_iff, loOf, hiOf]
    omega
  rw [hr]
  generalize (if neg then -(k : Int) else k) = v
  simp only [hrange, rangedInt]
  split
  · rfl
  · split
    · split <;> rfl
    · rfl

theorem signed_intCast (neg : Bool) (k : Nat) : ((if neg then -(k : Int) else k : Int) : Rat) = signed neg k := by
  cases neg <;> simp [signed]

theorem signed_inj {neg : Bool} {x y : Rat} : signed neg x = signed neg y ↔ x = y := by cases neg <;> simp [signed]

theorem integerResult_f2iLane (x : VIn) (b : BitVec 32) : IntegerResult x.rm (x.qcfg.getLsbD 0) b (f2iLane x b) := by
  have hb := datum_un32 b
  unfold f2iLane IntegerResult
  generalize un32 b = y at *
  cases hb with
  | nan hnb hib hzb => simp [hnb, toIntFmt]
  | inf hnb hib hzb =>
    simp only [hnb, hib, Bool.false_eq_true, if_false, if_true]
    cases sgn b <;> rfl
  | fin m e hnb hib hzb hvb hm24 =>
    have hround := roundsMag_cutRound x.rm (sgn b) (m := m) (e := e) (q := 0) (st := false) (by simp)
    have hexact := cut_inexact_iff x.rm (sgn b) (m := m) (e := e) (q := 0) (st := false) (by simp)
    rw [sticky_false, p2_zero, div_one] at hround
    rw [sticky_false, p2_zero, mul_one, Bool.or_false] at hexact
    simp only [hnb, hib, Bool.false_eq_true, if_false]
    rw [toIntFmt_fin, fval_eq hvb]
    refine ⟨_, hround.roundsTo (by have := p2_pos e; positivity), ?_⟩
    have hnx : flagIf (decide ((cutAt m e 0).2.1 ≠ 0)) fNX =
        if signed (sgn b) (m * p2 e) = ((if sgn b then -(cutRound x.rm (sgn b) m e 0 false : Int) else cutRound x.rm (sgn b) m e 0 false : Int) : Rat)
        then 0 else fNX := by
      simp only [flagIf, signed_intCast, signed_inj, hexact, ite_not, ne_eq]
    rw [hnx]
    rfl

end Sys2Proof.Claims
end

section
/-! Powers and logarithms of two (06_vector.md R177; log entry 11). -/

namespace Sys2Proof.Claims

open Sys2Proof.Machine

/-! ### A rounded lane -/

theorem finite_lane {w : BitVec 32} (h : w.toNat % 2 ^ 31 < 255 * 2 ^ 23) : nan w = false ∧ inf w = false := by
  constructor <;> exact decide_eq_false (by omega)

theorem Rounded.sgn_lane {rm : RM} {neg : Bool} {r : Magn} {w : BitVec 32} {fl : Byte} (h : Rounded 23 rm neg r w.toNat fl) :
    sgn w = neg := by
  have hw : w.toNat / 2 ^ 31 = if neg then 1 else 0 := h.sign
  rw [sgn_eq, hw]
  cases neg <;> rfl

theorem Rounded.fval_lane {rm : RM} {neg : Bool} {r : Magn} {w : BitVec 32} {fl : Byte} (h : Rounded 23 rm neg r w.toNat fl) :
    fval w = signed neg (fmag 23 w.toNat) := by
  rw [fval, h.sgn_lane, signed]

/-- The bits of a lane beside its sign, which its rounding gives. -/
theorem Rounded.word {rm : RM} {neg : Bool} {r : Magn} {w : BitVec 32} {fl : Byte} (h : Rounded 23 rm neg r w.toNat fl) {x : Nat}
    (hx : w.toNat % 2 ^ 31 = x) : w.toNat = (if neg then 2 ^ 31 else 0) + x := by
  have hsign : w.toNat / 2 ^ 31 = if neg then 1 else 0 := h.sign
  cases neg <;> simp only [Bool.false_eq_true, if_false, if_true] at * <;> omega

theorem fits_nat {n : Nat} (hn : n < 2 ^ 24) : Fits 23 true n := ⟨n, 0, hn, by omega, by simp⟩

theorem nat_lt_p2 {n : Nat} (hn : n < 2 ^ 24) : (n : Rat) < p2 128 := by
  have : p2 128 = ((2 ^ 128 : Nat) : Rat) := p2_natCast 128
  rw [this, Nat.cast_lt]
  exact hn.trans (by decide)

theorem fits_p2 {t : Int} (ht : -149 ≤ t) : Fits 23 true (p2 t) := .pow_two fun _ => by omega

theorem fmag_eq_subnormal {mb w k : Nat} (hw : fmag mb w = k * p2 (-126 - (mb : Int))) (hk : k < 2 ^ mb) :
    w % 2 ^ (mb + 8) = k := by
  rw [pow_add, Nat.mod_mul]
  unfold fmag at hw
  split at hw
  · next hex =>
    rw [mul_p2_inj, Nat.cast_inj] at hw
    rw [show (2 : Nat) ^ 8 = 256 from rfl, hex, hw, Nat.mul_zero, Nat.add_zero]
  · next hex =>
    have hle : p2 (-126 - (mb : Int)) ≤ p2 ((w / 2 ^ mb % 256 : Nat) - 127 - (mb : Int)) := p2_le.mpr (by omega)
    have hge : ((w % 2 ^ mb + 2 ^ mb : Nat) : Rat) * p2 (-126 - (mb : Int)) ≤ k * p2 (-126 - (mb : Int)) :=
      hw ▸ mul_le_mul_of_nonneg_left hle (Nat.cast_nonneg _)
    have : w % 2 ^ mb + 2 ^ mb ≤ k := by exact_mod_cast mul_p2_le.mp hge
    omega

theorem underflow_bits {j : Nat} (hj : j < 8) : (fUF ||| fNX).getLsbD j = true ↔ j = 4 ∨ j = 3 := by
  revert j
  decide

/-- A magnitude of at most half a unit is rounded to none or one. -/
theorem RoundsMag.of_le_half {rm : RM} {y : Rat} {k : Nat} (h : RoundsMag rm false y k) (hpos : 0 < y) (hy : y ≤ 1 / 2) :
    k = if rm = 2 then 1 else 0 := by
  have hk : k ≤ 1 := h.ge_of_ge (by push_cast; linarith)
  obtain ⟨hnear, hdown, hup⟩ := h
  obtain rfl | rfl | rfl | rfl := rm_cases rm
  · obtain ⟨hlow, -, heven⟩ := hnear rfl
    interval_cases k
    · rfl
    · norm_num at heven hlow
      exact absurd (le_antisymm hy hlow) heven.1
  · have := (hdown (by simp)).1
    interval_cases k
    · rfl
    · norm_num at this
      linarith
  · have := (hup (by simp)).2
    interval_cases k
    · norm_num at this
      linarith
    · rfl
  · have := (hdown (by simp)).1
    interval_cases k
    · rfl
    · norm_num at this
      linarith

/-- A magnitude of at most half of the least datum. -/
theorem Rounded.underflow {rm : RM} {x : Rat} {w : BitVec 32} {fl : Byte} (h : Rounded 23 rm false (Magn.of x) w.toNat fl)
    (hpos : 0 < x) (hx : x ≤ p2 (-150)) : (w, fl) = ((if rm = 2 then 1 else 0 : BitVec 32), fUF ||| fNX) := by
  obtain ⟨k, q, ku, qu, hcut, hcutu, hsign, hover, hfin⟩ := id h
  have htiny : ku * p2 qu < p2 (-126) :=
    (hcutu.ge_of_fits (.pow_two (by simp)) hx).trans_lt (p2_lt.mpr (by decide))
  obtain ⟨y, rfl, hfull, -, -, hround⟩ := hcut.in_units
  have hq : q = -149 := by
    refine (hfull.resolve_left fun hy => ?_).2
    have hge : p2 (23 + q) ≤ y * p2 q := by rw [p2_add]; exact mul_p2_le.mpr hy
    have := p2_le.mp (hge.trans hx)
    have := hcut.low rfl
    omega
  subst hq
  have hy0 : 0 < y := (mul_pos_iff_of_pos_right (p2_pos _)).mp hpos
  have hyhalf : y ≤ 1 / 2 := by
    rw [show (-149 : Int) = -150 + 1 by decide, p2_succ] at hx
    have := p2_pos (-150)
    nlinarith
  have hk := hround.of_le_half hy0 hyhalf
  have hk1 : (k : Rat) ≤ 1 := by rw [hk]; split <;> norm_num
  have hrange : k * p2 (-149) < p2 128 :=
    (mul_le_of_le_one_left (p2_pos _).le hk1).trans_lt (p2_lt.mpr (by decide))
  obtain ⟨-, hmag, hflags⟩ := hfin hrange
  have hw := h.word (fmag_eq_subnormal hmag (by rw [hk]; split <;> decide))
  have hne : y ≠ k := by
    rw [hk]
    split <;> norm_num
    · linarith
    · exact hy0.ne'
  refine Prod.ext (BitVec.eq_of_toNat_eq ?_) (BitVec.eq_of_getLsbD_eq fun j hj => ?_)
  · simp only [hw, hk, Bool.false_eq_true, if_false, Nat.zero_add]
    by_cases h2 : rm = 2 <;> simp only [h2, if_true, if_false] <;> rfl
  · rw [Bool.eq_iff_iff, hflags j hj, underflow_bits hj]
    simp only [Magn.of, mul_p2_lt, hne.symm.lt_or_gt, htiny, and_true, true_and]

/-! ### Powers (06_vector.md R177) -/

theorem unit149_eq (neg : Bool) (m : Nat) {e : Int} (he : -149 ≤ e) : (unit149 neg m e : Rat) * p2 (-149) = signed neg (m * p2 e) := by
  rw [p2_eq_units he]
  simp only [unit149, cutAt_of_le he]
  cases neg <;> simp [signed, mul_assoc]

theorem format_bits_le_fxBits : 2 ^ (23 + 1) ≤ 2 ^ fxBits := Nat.pow_le_pow_right two_pos (by decide)

theorem expSum_mono {x x' : Nat} (hx : x ≤ x') (n k : Nat) {t t' : Nat} (ht : t ≤ t') : expSum x n k t ≤ expSum x' n k t' := by
  induction n generalizing k t t' with
  | zero => exact le_rfl
  | succ n ih =>
    exact Nat.add_le_add ht (ih _ (Nat.div_le_div_right (Nat.div_le_div_right (Nat.mul_le_mul ht hx))))

/-- The series stays between 1 and 2, in units of 2^-320. -/
theorem expSum_bounds {fr : Nat} (hfr : fr < 2 ^ 149) :
    let s := expSum (fr * ln2Sum 110 / 2 ^ 149) 90 0 (2 ^ fxBits)
    2 ^ fxBits ≤ s ∧ s < 2 ^ (fxBits + 1) := by
  have hy : fr * ln2Sum 110 / 2 ^ 149 ≤ ln2Sum 110 := by
    refine Nat.div_le_of_le_mul ?_
    exact Nat.mul_le_mul_right _ hfr.le
  have htop : expSum (ln2Sum 110) 90 0 (2 ^ fxBits) < 2 ^ (fxBits + 1) := by decide +kernel
  exact ⟨Nat.le_add_right _ _, (expSum_mono hy 90 0 le_rfl).trans_lt htop⟩

/-- What is rounded for 2^b: an exact power, or a number between two powers that takes more bits than the format has. -/
structure PowerOf (b : BitVec 32) (i : Int) (x : Rat) : Prop where
  low : (i : Rat) ≤ fval b
  high : fval b < i + 1
  exact : fval b = i → x = p2 i
  between : fval b ≠ i → p2 i ≤ x ∧ x ≤ p2 (i + 1) ∧ ¬ Fits 23 false x

theorem intCast_eq_floor {x : Rat} {i n : Int} (hlow : (i : Rat) ≤ x) (hhigh : x < i + 1) (hn : (n : Rat) ≤ x) (hn' : x < n + 1) : n = i := by
  have h1 : (n : Rat) < i + 1 := hn.trans_lt hhigh
  have h2 : (i : Rat) < n + 1 := hlow.trans_lt hn'
  norm_cast at h1 h2
  omega

theorem powerResult_of_rounded {rm : RM} {b : BitVec 32} {r : BitVec 32 × Byte} {i : Int} {x : Rat} (hnan : nan b = false)
    (hinf : inf b = false) (hx : PowerOf b i x) (h : Rounded 23 rm false (Magn.of x) r.1.toNat r.2) : PowerResult rm b r := by
  obtain ⟨hlow, hhigh, hexact, hbetween⟩ := hx
  have hxi : p2 i ≤ x ∧ x ≤ p2 (i + 1) := by
    by_cases hi : fval b = i
    · rw [hexact hi]
      exact ⟨le_rfl, p2_le.mpr (by omega)⟩
    · exact ⟨(hbetween hi).1, (hbetween hi).2.1⟩
  simp only [PowerResult, hnan, hinf, Bool.false_eq_true, if_false]
  refine ⟨fun n hn hn1 hn2 => ?_, fun hb => ?_, fun hb => ?_, fun n hn1 hn2 hn3 hn4 => ?_⟩
  · have hni : n = i := intCast_eq_floor hlow hhigh hn.ge (by rw [hn]; linarith)
    subst hni
    rw [hexact hn] at h
    obtain ⟨hfl, hw, hmag⟩ := h.exact (fits_p2 hn1) (p2_lt.mpr (by omega))
    obtain ⟨hn, hi⟩ := finite_lane hw
    exact ⟨hfl, h.sgn_lane, hi, hn, h.fval_lane.trans hmag⟩
  · have hi : 128 ≤ i := by
      have : (128 : Rat) < i + 1 := hb.trans_lt hhigh
      norm_cast at this
      omega
    obtain ⟨hfl, hw⟩ := h.overflow ((p2_le.mpr hi).trans hxi.1)
    refine Prod.ext (BitVec.eq_of_toNat_eq ?_) hfl
    rw [h.word hw]
    obtain rfl | rfl | rfl | rfl := rm_cases rm <;> rfl
  · have hi : i ≤ -150 := by exact_mod_cast hlow.trans hb
    refine h.underflow ((p2_pos i).trans_le hxi.1) ?_
    by_cases heq : fval b = i
    · rw [hexact heq]
      exact p2_le.mpr hi
    · have hlt : i < -150 := by exact_mod_cast (lt_of_le_of_ne hlow (Ne.symm heq)).trans_le hb
      exact hxi.2.trans (p2_le.mpr (by omega))
  · have hni : n = i := intCast_eq_floor hlow hhigh hn1.le hn2
    subst hni
    obtain ⟨-, -, hfits⟩ := hbetween hn1.ne'
    have hhi : Fits 23 true (p2 (n + 1)) := fits_p2 (by omega)
    have hrange : p2 (n + 1) < p2 128 := p2_lt.mpr (by omega)
    obtain ⟨hw, hge, hle⟩ := h.between (fits_p2 (by omega)) hxi.1 hhi hxi.2 hrange
    obtain ⟨hn, hi⟩ := finite_lane hw
    rw [h.fval_lane]
    exact ⟨h.inexact hfits ((p2_le.mpr hn3).trans hxi.1) hhi hxi.2 hrange, hi, hn, hge, hle⟩

/-- Beyond every exponent of the format. -/
theorem powerResult_beyond (rm : RM) {b : BitVec 32} {x : Rat} (hnan : nan b = false) (hinf : inf b = false)
    (hval : fval b = signed (sgn b) x) (hx : p2 9 ≤ x) :
    PowerResult rm b (mk32 (fp32.round rm false 1 (if sgn b then -1000 else 1000) (sgn b))) := by
  have hx : (512 : Rat) ≤ x := by
    have : p2 9 = 512 := by norm_num
    rwa [this] at hx
  simp only [PowerResult, hnan, hinf, Bool.false_eq_true, if_false]
  cases hs : sgn b with
  | false =>
    have hval : fval b = x := by rw [hval, hs]; rfl
    have hr : mk32 (fp32.round rm false 1 1000 false) = (if rm = 0 ∨ rm = 2 then 0x7F800000 else 0x7F7FFFFF, fOF ||| fNX) := by
      revert rm
      decide +kernel
    refine ⟨fun n hn _ hn2 => ?_, fun _ => hr, fun hb => ?_, fun n _ hn _ hn2 => ?_⟩
    · have : (n : Rat) ≤ 127 := by exact_mod_cast hn2
      linarith
    · linarith
    · have : (n : Rat) ≤ 126 := by exact_mod_cast hn2
      linarith
  | true =>
    have hval : fval b = -x := by rw [hval, hs]; rfl
    have hr : mk32 (fp32.round rm false 1 (-1000) true) = (if rm = 2 then 1 else 0, fUF ||| fNX) := by
      revert rm
      decide +kernel
    refine ⟨fun n hn hn2 _ => ?_, fun hb => ?_, fun _ => hr, fun n hn _ hn2 _ => ?_⟩
    · have : (-149 : Rat) ≤ n := by exact_mod_cast hn2
      linarith
    · linarith
    · have : (-126 : Rat) ≤ n := by exact_mod_cast hn2
      linarith

/-- A number of units of 2^-149 as a whole number and a fraction. -/
theorem floor_units (u : Int) :
    let fr : Nat := (u % 2 ^ 149).toNat
    fr < 2 ^ 149 ∧ (u : Rat) * p2 (-149) = (u / 2 ^ 149 : Int) + fr * p2 (-149) ∧ fr * p2 (-149) < 1 ∧ 0 ≤ fr * p2 (-149) := by
  intro fr
  have hfr : (fr : Int) = u % 2 ^ 149 := Int.toNat_of_nonneg (Int.emod_nonneg _ (by decide))
  have hlt : fr < 2 ^ 149 := by
    have := Int.emod_lt_of_pos u (show (0 : Int) < 2 ^ 149 by decide)
    omega
  have hone : ((2 ^ 149 : Nat) : Rat) * p2 (-149) = 1 := by rw [← p2_natCast, ← p2_add]; rfl
  have hu : (u : Rat) = (u / 2 ^ 149 : Int) * ((2 ^ 149 : Nat) : Rat) + fr := by
    have hsplit := Int.mul_ediv_add_emod u (2 ^ 149)
    rw [← hfr, mul_comm] at hsplit
    exact_mod_cast hsplit.symm
  refine ⟨hlt, ?_, ?_, mul_nonneg (Nat.cast_nonneg _) (p2_pos _).le⟩
  · linear_combination p2 (-149) * hu + ((u / 2 ^ 149 : Int) : Rat) * hone
  · rw [← hone, mul_p2_lt]
    exact_mod_cast hlt

/-- The exact case of 2^b. -/
theorem powerOf_exact {b : BitVec 32} {i : Int} (h : fval b = i) : PowerOf b i (p2 i) :=
  ⟨h.ge, by linarith, fun _ => rfl, fun hne => absurd h hne⟩

/-- A number from 1 to 2, with more bits below it, between two powers of two. -/
theorem powerOf_between {b : BitVec 32} {i : Int} {s : Nat} (hlow : (i : Rat) < fval b) (hhigh : fval b < i + 1) (hs : 2 ^ fxBits ≤ s)
    (hs' : s < 2 ^ (fxBits + 1)) : PowerOf b i (sticky s true * p2 (i - fxBits)) := by
  have hpow (t : Int) (n : Nat) (ht : t = i - fxBits + n) : p2 t = ((2 ^ n : Nat) : Rat) * p2 (i - fxBits) := by
    rw [ht, add_comm, p2_add, p2_natCast]
  refine ⟨hlow.le, hhigh, fun h => absurd h hlow.ne', fun _ => ⟨?_, ?_, not_fits_sticky ?_⟩⟩
  · rw [hpow i fxBits (by omega), mul_p2_le]
    exact le_trans (by exact_mod_cast hs) (le_sticky s true)
  · rw [hpow (i + 1) (fxBits + 1) (by omega), mul_p2_le]
    exact (sticky_lt s true).le.trans (by exact_mod_cast hs')
  · exact format_bits_le_fxBits.trans hs

theorem powerResult_fexp2 (rm : RM) (b : BitVec 32) : PowerResult rm b (fexp2 rm b) := by
  have hn : nanOf [un32 b] = nanResult [b] := nanOf_un32 [b]
  have hb := datum_un32 b
  unfold fexp2
  generalize un32 b = x at *
  cases hb with
  | nan hnb hib hzb => simp [PowerResult, hnb, hn]
  | inf hnb hib hzb => simp [PowerResult, hnb, hib]
  | fin m e hnb hib hzb hvb hm24 he =>
    have hval := fval_eq hvb
    dsimp only
    split
    · next hbig => exact powerResult_beyond rm hnb hib hval (atLeastPow_iff.mp hbig)
    · have hu := unit149_eq (sgn b) m he
      rw [← hval] at hu
      generalize unit149 (sgn b) m e = u at *
      obtain ⟨hlt, hfloor, hone, hnonneg⟩ := floor_units u
      rw [hu] at hfloor
      split
      · next hfr =>
        rw [hfr, Nat.cast_zero, zero_mul, add_zero] at hfloor
        have hround := (rounded_round_exact fp32 rm false (u / 2 ^ 149) one_ne_zero).mk32
        rw [Nat.cast_one, one_mul] at hround
        exact powerResult_of_rounded hnb hib (powerOf_exact hfloor) hround
      · next hfr =>
        have hpos := nat_mul_p2_pos hfr (-149)
        obtain ⟨hs, hs'⟩ := expSum_bounds hlt
        have hround := rounded_round fp32 rm false (u / 2 ^ 149 - fxBits) (st := true) (Nat.ne_of_gt (lt_of_lt_of_le (Nat.two_pow_pos _) hs))
          fun _ => format_bits_le_fxBits.trans hs
        exact powerResult_of_rounded hnb hib (powerOf_between (hfloor ▸ lt_add_of_pos_right _ hpos) (hfloor ▸ add_lt_add_right hone _) hs hs') hround.mk32

/-! ### Logarithms (06_vector.md R177) -/

theorem logBits_lt (x n : Nat) : logBits x n < 2 ^ n := by
  induction n generalizing x with
  | zero => exact Nat.one_pos
  | succ n ih =>
    rw [logBits, pow_succ]
    split
    · have := ih (x * x / 2 ^ fxBits / 2)
      omega
    · have := ih (x * x / 2 ^ fxBits)
      omega

theorem logBits_mono {x x' : Nat} (hx : x ≤ x') (n : Nat) : logBits x n ≤ logBits x' n := by
  induction n generalizing x x' with
  | zero => exact le_rfl
  | succ n ih =>
    have hy : x * x / 2 ^ fxBits ≤ x' * x' / 2 ^ fxBits := Nat.div_le_div_right (Nat.mul_le_mul hx hx)
    rw [logBits, logBits]
    generalize x * x / 2 ^ fxBits = y at *
    generalize x' * x' / 2 ^ fxBits = y' at *
    split
    · next h =>
      rw [if_pos (h.trans hy)]
      exact Nat.add_le_add_left (ih (Nat.div_le_div_right hy)) _
    · split
      · exact (logBits_lt y n).le.trans (Nat.le_add_right _ _)
      · exact ih hy

/-- Between two powers of two the logarithm keeps away from the whole numbers. -/
theorem logBits_bounds {m : Nat} (hm : m < 2 ^ 24) (hpow : m ≠ 2 ^ m.log2) (h0 : m ≠ 0) :
    let l := logBits (m * 2 ^ fxBits / 2 ^ m.log2) 128
    2 ^ 100 ≤ l ∧ l ≤ 2 ^ 128 - 2 ^ 100 := by
  intro l
  have hlow : 2 ^ 100 ≤ logBits (2 ^ fxBits + 2 ^ (fxBits - 23)) 128 := by decide +kernel
  have hhigh : logBits (2 ^ (fxBits + 1) - 2 ^ (fxBits - 23)) 128 ≤ 2 ^ 128 - 2 ^ 100 := by decide +kernel
  have hL : m.log2 < 24 := (Nat.log2_lt h0).mpr hm
  have hge : 2 ^ m.log2 + 1 ≤ m := lt_of_le_of_ne (Nat.log2_self_le h0) (Ne.symm hpow)
  have hle : m + 1 ≤ 2 ^ (m.log2 + 1) := Nat.lt_log2_self
  have hx : m * 2 ^ fxBits / 2 ^ m.log2 = m * 2 ^ (fxBits - m.log2) := by
    rw [Nat.mul_div_assoc _ (pow_dvd_pow 2 (by simp only [fxBits]; omega)), Nat.pow_div (by simp only [fxBits]; omega) two_pos]
  have hP : 2 ^ m.log2 * 2 ^ (fxBits - m.log2) = 2 ^ fxBits := by rw [← pow_add]; congr 1; simp only [fxBits]; omega
  have hQ : 2 ^ (fxBits - 23) ≤ 2 ^ (fxBits - m.log2) := Nat.pow_le_pow_right two_pos (by omega)
  have hge' := Nat.mul_le_mul_right (2 ^ (fxBits - m.log2)) hge
  have hle' := Nat.mul_le_mul_right (2 ^ (fxBits - m.log2)) hle
  rw [add_mul, hP, one_mul] at hge'
  rw [add_mul, one_mul, pow_succ, mul_right_comm, hP, ← pow_succ] at hle'
  generalize 2 ^ (fxBits - 23) = q at *
  refine ⟨hlow.trans (logBits_mono ?_ 128), (logBits_mono ?_ 128).trans hhigh⟩ <;> rw [hx] <;> omega

theorem fval_zero : fval 0 = 0 := by
  have : fmag 23 0 = 0 := by rw [fmag]; simp
  exact this

/-- The result of a logarithm that is exact. -/
theorem logarithm_exact (rm : RM) {i : Int} (hi : i.natAbs < 2 ^ 24) :
    let r := if i = 0 then (0, 0) else mk32 (fp32.roundInt rm i 0)
    r.2 = 0 ∧ inf r.1 = false ∧ nan r.1 = false ∧ fval r.1 = i ∧ (i = 0 → r.1 = 0) := by
  intro r
  by_cases h0 : i = 0
  · have hr : r = (0, 0) := if_pos h0
    rw [hr, h0]
    exact ⟨rfl, by decide, by decide, fval_zero, fun _ => rfl⟩
  · have hr : r = mk32 (fp32.roundInt rm i 0) := if_neg h0
    rw [hr]
    have hround := (rounded_round_exact fp32 rm (decide (i < 0)) 0 (Int.natAbs_ne_zero.mpr h0)).mk32
    rw [p2_zero, mul_one] at hround
    obtain ⟨hfl, hw, hmag⟩ := hround.exact (fits_nat hi) (nat_lt_p2 hi)
    obtain ⟨hnan, hinf⟩ := finite_lane hw
    refine ⟨hfl, hinf, hnan, ?_, fun h => absurd h h0⟩
    refine hround.fval_lane.trans ?_
    rw [hmag, signed, Nat.cast_natAbs]
    by_cases hneg : i < 0
    · simp [hneg, abs_of_neg hneg]
    · simp [hneg, abs_of_nonneg (not_lt.mp hneg)]

/-- The result of a logarithm between two whole numbers. -/
theorem logarithm_between {rm : RM} {neg : Bool} {r : BitVec 32 × Byte} {m n : Nat}
    (h : Rounded 23 rm neg (Magn.of (sticky m true * p2 (-128))) r.1.toNat r.2) (hm : 2 ^ 24 ≤ m) (hlow : n * 2 ^ 128 ≤ m)
    (hhigh : m < (n + 1) * 2 ^ 128) (hn : n + 1 < 2 ^ 24) :
    r.2 = fNX ∧ inf r.1 = false ∧ nan r.1 = false ∧ ∃ v, fval r.1 = signed neg v ∧ (n : Rat) ≤ v ∧ v ≤ n + 1 := by
  have hone : ((2 ^ 128 : Nat) : Rat) * p2 (-128) = 1 := by rw [← p2_natCast, ← p2_add]; rfl
  have hunits (k : Nat) : (k : Rat) = (k * 2 ^ 128 : Nat) * p2 (-128) := by
    rw [Nat.cast_mul, mul_assoc, hone, mul_one]
  have hlo : (n : Rat) ≤ sticky m true * p2 (-128) := by
    rw [hunits, mul_p2_le]
    exact le_trans (by exact_mod_cast hlow) (le_sticky m true)
  have hhi : sticky m true * p2 (-128) ≤ ((n + 1 : Nat) : Rat) := by
    rw [hunits, mul_p2_le]
    exact (sticky_lt m true).le.trans (by exact_mod_cast hhigh)
  have hrange := nat_lt_p2 hn
  have hnormal : p2 (-126) ≤ sticky m true * p2 (-128) := by
    rw [show (-126 : Int) = ((2 : Nat) : Int) + -128 by decide, p2_add, p2_natCast, mul_p2_le]
    exact le_trans (by exact_mod_cast (show 2 ^ 2 ≤ 2 ^ 24 by decide).trans hm) (le_sticky m true)
  obtain ⟨hw, hge, hle⟩ := h.between (fits_nat (by omega)) hlo (fits_nat hn) hhi hrange
  obtain ⟨hnan, hinf⟩ := finite_lane hw
  refine ⟨h.inexact (not_fits_sticky hm) hnormal (fits_nat hn) hhi hrange, hinf, hnan, _, h.fval_lane, hge, ?_⟩
  exact_mod_cast hle

theorem logarithmResult_flog2 (rm : RM) (b : BitVec 32) : LogarithmResult b (flog2 rm b) := by
  have hn : nanOf [un32 b] = nanResult [b] := nanOf_un32 [b]
  have hb := datum_un32 b
  unfold flog2 LogarithmResult
  generalize un32 b = x at *
  cases hb with
  | nan hnb hib hzb => simp [hnb, hn]
  | inf hnb hib hzb => simp [hnb, hib, hzb, invalid, fNaNV]
  | fin m e hnb hib hzb hvb hm24 he he' =>
    by_cases hm : m = 0
    · simp [hnb, hzb, hm, ofNat_infinity, infW]
    · cases hs : sgn b with
      | true => simp [hnb, hzb, hm, invalid, fNaNV]
      | false =>
        simp only [hnb, hib, hzb, hm, decide_false, Bool.false_eq_true, if_false]
        rw [fval_of_pos hvb hs]
        have hL : m.log2 < 24 := (Nat.log2_lt hm).mpr hm24
        have hpow (k : Int) : p2 ((k : Int) + e) = p2 k * p2 e := p2_add k e
        split
        · next hexact =>
          have hval : (m : Rat) * p2 e = p2 ((m.log2 : Int) + e) := by
            rw [p2_add, p2_natCast, ← hexact]
          obtain ⟨hfl, hinf, hnan, hv, hz⟩ := logarithm_exact rm (i := (m.log2 : Int) + e) (by omega)
          rw [hval]
          refine ⟨hinf, hnan, fun n => ⟨fun hn => ?_, fun hn hn' => ?_⟩⟩
          · have : (m.log2 : Int) + e = n := le_antisymm (p2_le.mp hn.le) (p2_le.mp hn.ge)
            rw [← this]
            exact ⟨hfl, hv, hz⟩
          · rw [p2_lt] at hn hn'
            omega
        · next hpow =>
          have hlow : p2 ((m.log2 : Int) + e) < m * p2 e := by
            rw [p2_add, p2_natCast, mul_p2_lt, Nat.cast_lt]
            exact lt_of_le_of_ne (Nat.log2_self_le hm) (Ne.symm hpow)
          have hhigh : m * p2 e < p2 ((m.log2 : Int) + e + 1) := by
            rw [add_right_comm, p2_add, ← Nat.cast_succ, p2_natCast, mul_p2_lt, Nat.cast_lt]
            exact Nat.lt_log2_self
          obtain ⟨hl, hl'⟩ := logBits_bounds hm24 hpow hm
          generalize logBits (m * 2 ^ fxBits / 2 ^ m.log2) 128 = l at *
          have hi : -149 ≤ (m.log2 : Int) + e ∧ (m.log2 : Int) + e ≤ 127 := by omega
          generalize (m.log2 : Int) + e = i at *
          have hunique (n : Int) : m * p2 e ≠ p2 n ∧ (p2 n < m * p2 e → m * p2 e < p2 (n + 1) → n = i) := by
            refine ⟨fun h => ?_, fun h h' => ?_⟩
            · rw [h, p2_lt] at hlow hhigh
              omega
            · have h1 := p2_lt.mp (h.trans hhigh)
              have h2 := p2_lt.mp (hlow.trans h')
              omega
          split
          · next hs =>
            have hround := rounded_round fp32 rm false (-128) (m := (i * 2 ^ 128 + l).toNat) (st := true) (by omega)
              fun _ => by simp only [Nat.reduceAdd, Nat.reducePow]; omega
            obtain ⟨hfl, hinf, hnan, v, hv, hge, hle⟩ := logarithm_between (n := i.toNat) hround.mk32 (by omega) (by omega) (by omega) (by omega)
            refine ⟨hinf, hnan, fun n => ⟨fun h => absurd h (hunique n).1, fun h h' => ?_⟩⟩
            obtain rfl := (hunique n).2 h h'
            have hcast : ((n.toNat : Nat) : Rat) = n := by exact_mod_cast Int.toNat_of_nonneg (show 0 ≤ n by omega)
            rw [hcast] at hge hle
            rw [hv]
            exact ⟨hfl, hge, hle⟩
          · next hs =>
            have hround := rounded_round fp32 rm true (-128) (m := (-(i * 2 ^ 128 + l) - 1).toNat) (st := true) (by omega)
              fun _ => by simp only [Nat.reduceAdd, Nat.reducePow]; omega
            obtain ⟨hfl, hinf, hnan, v, hv, hge, hle⟩ :=
              logarithm_between (n := (-i - 1).toNat) hround.mk32 (by omega) (by omega) (by omega) (by omega)
            refine ⟨hinf, hnan, fun n => ⟨fun h => absurd h (hunique n).1, fun h h' => ?_⟩⟩
            obtain rfl := (hunique n).2 h h'
            have hcast : (((-n - 1).toNat : Nat) : Rat) = -n - 1 := by exact_mod_cast Int.toNat_of_nonneg (show 0 ≤ -n - 1 by omega)
            rw [hcast] at hge hle
            rw [hv]
            simp only [signed, if_true]
            exact ⟨hfl, by linarith, by linarith⟩

end Sys2Proof.Claims
end

section
/-! Wide accumulators (02_numbers.md R46 to R48; 06_vector.md R187, R188) and the reductions over all lanes (06_vector.md R190). -/

namespace Sys2Proof.Claims

open Sys2Proof.Machine

theorem allFlags_orAll (n : Nat) (f : Nat → Byte) : AllFlags n f (orAll n f) := fun k _ => getLsbD_orAll n f k

/-! ### Adding -/

theorem WLane.add_eq {l : WLane} (hs : l.satf = false) (d : Int) : l.add d = laneOf l (l.x.toInt + d) := by
  have hrange (y : Int) : (2 ^ 319 - 1 < y) = (2 ^ 319 ≤ y) := by rw [eq_iff_iff]; omega
  simp only [WLane.add, laneOf, hs, hrange, Bool.false_eq_true, if_false]

theorem unit149_sub (neg sub : Bool) (m : Nat) (e : Int) :
    unit149 (neg != sub) m e = if sub then -unit149 neg m e else unit149 neg m e := by
  cases neg <;> cases sub <;> simp [unit149]

/-- A finite datum in units of 2^-149. -/
theorem unit149_fval {w : BitVec 32} {m : Nat} {e : Int} (hw : fmag 23 w.toNat = m * p2 e) (he : -149 ≤ e) :
    (unit149 (sgn w) m e : Rat) = fval w * p2 149 := by
  rw [fval_eq hw, ← unit149_eq (sgn w) m he, mul_assoc, ← p2_add]
  simp

theorem addResult_addFp (l : WLane) (sub : Bool) (w : BitVec 32) : AddResult l sub w (l.addFp sub w) := by
  have hw := datum_un32 w
  unfold WLane.addFp AddResult
  generalize un32 w = x at *
  cases hw with
  | nan hn hi hz => simp [hn, flagIf]
  | inf hn hi hz =>
    simp only [hn, hi, Bool.false_eq_true, if_false, if_true]
    split <;> rfl
  | fin m e hn hi hz hv hm he =>
    simp only [hn, hi, Bool.false_eq_true, if_false]
    cases hs : l.satf with
    | true => simp [WLane.add, hs]
    | false =>
      simp only [Bool.false_eq_true, if_false]
      refine ⟨unit149 (sgn w) m e, unit149_fval hv he, ?_⟩
      rw [WLane.add_eq hs, unit149_sub]
      cases sub <;> rfl

theorem foldLane_eq (k j : WLane) : foldLane k j = foldResult k j := by
  unfold foldLane foldResult
  dsimp only
  cases hs : k.satf with
  | true => rfl
  | false =>
    cases hj : j.satf with
    | true => rfl
    | false =>
      simp only [Bool.false_eq_true, if_false]
      rw [WLane.add_eq rfl]

/-! ### Reading -/

theorem infinity_true (f : Fmt) : f.infinity true = 2 ^ (f.mb + 8) + 255 * 2 ^ f.mb := rfl

theorem infinity_false (f : Fmt) : f.infinity false = 255 * 2 ^ f.mb := Nat.zero_add _

theorem readResult_read (f : Fmt) (rm : RM) (l : WLane) : ReadResult f.mb rm l (l.read f rm) := by
  unfold WLane.read ReadResult
  dsimp only
  split
  · rfl
  split
  · rw [infinity_false]
  split
  · rw [infinity_true]
  split
  · by_cases hx : l.x.toInt < 0
    · rw [decide_eq_true hx, infinity_true, if_pos hx]
    · rw [decide_eq_false hx, infinity_false, if_neg hx]
  split
  · rfl
  · next hx => exact rounded_round_exact f rm _ (-149) (Int.natAbs_ne_zero.mpr hx)

theorem read_lt (f : Fmt) (rm : RM) (l : WLane) (hf : 1 ≤ f.mb) : (l.read f rm).1 < 2 ^ (f.mb + 9) := by
  have h := readResult_read f rm l
  have hB : 2 ^ (f.mb + 9) = 512 * 2 ^ f.mb := by rw [pow_add, mul_comm]; rfl
  have hB' : 2 ^ (f.mb + 8) = 256 * 2 ^ f.mb := by rw [pow_add, mul_comm]; rfl
  have hhalf : 2 ^ (f.mb - 1) ≤ 2 ^ f.mb := Nat.pow_le_pow_right two_pos (by omega)
  have hpos := Nat.two_pow_pos f.mb
  unfold ReadResult at h
  dsimp only at h
  rw [hB'] at h
  split at h
  · rw [h]; dsimp only; omega
  split at h
  · rw [h]; dsimp only; omega
  split at h
  · rw [h]; dsimp only; omega
  split at h
  · rw [h]; dsimp only; split <;> omega
  split at h
  · rw [h]; exact Nat.two_pow_pos _
  · exact h.lt

theorem lane_wgetVec (rm : RM) (w : Nat → WLane) {i : Nat} (hi : i < 128) :
    (lane (wgetVec rm w).1 i).toNat = ((w i).read fp32 rm).1 := by
  rw [wgetVec, lane_ofLanes _ _ hi, BitVec.toNat_ofNat, Nat.mod_eq_of_lt (read_lt fp32 rm (w i) (by decide))]

theorem half_wgetbfVec (rm : RM) (w : Nat → WLane) {i : Nat} (hi : i < 128) :
    (half (wgetbfVec rm w).1 i).toNat = ((w i).read bf16 rm).1 ∧ half (wgetbfVec rm w).1 (128 + i) = 0 := by
  rw [wgetbfVec, half_ofHalves _ _ (by omega), half_ofHalves _ _ (by omega), if_pos hi, if_neg (by omega), BitVec.toNat_ofNat,
    Nat.mod_eq_of_lt (read_lt bf16 rm (w i) (by decide))]
  exact ⟨rfl, rfl⟩

/-! ### The sum of all lanes -/

/-- What fredsum holds once it has added the lanes of a list: the infinities and NaNs among them, and the exact sum where there are
none. -/
structure SumOf (l : List (BitVec 32)) (r : WLane × Byte) : Prop where
  nanf : r.1.nanf = l.any nan
  pinf : r.1.pinf = l.any (fun w => inf w && !sgn w)
  ninf : r.1.ninf = l.any (fun w => inf w && sgn w)
  satf : r.1.satf = false
  small : r.1.x.toInt.natAbs ≤ l.length * 2 ^ 277
  value : (∀ w ∈ l, nan w = false ∧ inf w = false) → (r.1.x.toInt : Rat) * p2 (-149) = (l.map fval).sum
  flags : r.2 = if l.any snan then fNV else 0

/-- One step of fredsum. -/
def addLane (acc : WLane × Byte) (w : BitVec 32) : WLane × Byte :=
  let t := acc.1.addFp false w
  (t.1, acc.2 ||| t.2)

theorem laneOf_small {l : WLane} {y : Int} (hy : y.natAbs < 2 ^ 319) :
    laneOf l y = ({ l with x := BitVec.ofInt 320 y }, 0) ∧ (BitVec.ofInt 320 y).toInt = y := by
  constructor
  · rw [laneOf, if_neg (by omega), if_neg (by omega)]
  · rw [BitVec.toInt_ofInt]
    exact Int.bmod_eq_of_le (by omega) (by omega)

theorem unit149_small {neg : Bool} {m : Nat} {e : Int} (hm : m < 2 ^ 24) (he : -149 ≤ e) (he' : e ≤ 104) :
    (unit149 neg m e).natAbs ≤ 2 ^ 277 := by
  have : (unit149 neg m e).natAbs = m * 2 ^ (e - -149).toNat := by
    simp only [unit149, cutAt_of_le he]
    cases neg
    · rfl
    · exact Int.natAbs_neg _
  rw [this, show (2 : Nat) ^ 277 = 2 ^ 24 * 2 ^ 253 from rfl]
  exact Nat.mul_le_mul hm.le (Nat.pow_le_pow_right two_pos (by omega))

theorem snan_of_not_nan {w : BitVec 32} (h : nan w = false) : snan w = false := by rw [snan, h, Bool.false_and]

theorem nv_or_flagIf (a b : Bool) : (if a then fNV else 0) ||| flagIf b fNV = if a || b then fNV else 0 := by
  revert a b
  decide

theorem sumOf_addLane {l : List (BitVec 32)} {r : WLane × Byte} (h : SumOf l r) (hl : l.length < 128) (w : BitVec 32) :
    SumOf (l ++ [w]) (addLane r w) := by
  obtain ⟨hnanf, hpinf, hninf, hsatf, hsmall, hvalue, hflags⟩ := h
  have hw := datum_un32 w
  have hlen : (l ++ [w]).length * 2 ^ 277 = l.length * 2 ^ 277 + 2 ^ 277 := by rw [List.length_append]; exact Nat.succ_mul _ _
  have hkeep : r.1.x.toInt.natAbs ≤ (l ++ [w]).length * 2 ^ 277 := hlen ▸ hsmall.trans (Nat.le_add_right _ _)
  unfold addLane WLane.addFp
  generalize un32 w = y at *
  cases hw with
  | nan hn hi hz =>
    refine ⟨by simp [hn], by simp [hi, hpinf], by simp [hi, hninf], hsatf, hkeep, fun h => ?_, ?_⟩
    · exact absurd (h w (by simp)).1 (by simp [hn])
    · rw [hflags, List.any_append, List.any_cons, List.any_nil, Bool.or_false]
      exact nv_or_flagIf _ _
  | inf hn hi hz =>
    have hflag : r.2 ||| 0 = if (l ++ [w]).any snan then fNV else 0 := by simp [hflags, snan_of_not_nan hn]
    have hnot : (∀ v ∈ l ++ [w], nan v = false ∧ inf v = false) → (r.1.x.toInt : Rat) * p2 (-149) = ((l ++ [w]).map fval).sum :=
      fun h => absurd (h w (by simp)).2 (by simp [hi])
    cases hs : sgn w with
    | false => exact ⟨by simp [hn, hnanf], by simp [hi, hs], by simp [hs, hninf], hsatf, hkeep, hnot, hflag⟩
    | true => exact ⟨by simp [hn, hnanf], by simp [hs, hpinf], by simp [hi, hs], hsatf, hkeep, hnot, hflag⟩
  | fin m e hn hi hz hv hm he he' =>
    have hd := unit149_small (neg := sgn w) hm he he'
    have hval := unit149_eq (sgn w) m he
    rw [← fval_eq hv] at hval
    dsimp only
    rw [Bool.bne_false, WLane.add_eq hsatf]
    generalize unit149 (sgn w) m e = d at *
    have hbound : (r.1.x.toInt + d).natAbs ≤ (l ++ [w]).length * 2 ^ 277 := by
      rw [hlen]
      exact (Int.natAbs_add_le _ _).trans (Nat.add_le_add hsmall hd)
    obtain ⟨hlane, hint⟩ := laneOf_small (l := r.1) (y := r.1.x.toInt + d) (hbound.trans_lt (by rw [List.length_append, List.length_singleton]; omega))
    rw [hlane]
    refine ⟨by simp [hn, hnanf], by simp [hi, hpinf], by simp [hi, hninf], hsatf, ?_, fun h => ?_, ?_⟩
    · rwa [hint]
    · rw [hint, List.map_append, List.sum_append, ← hvalue fun v hv => h v (by simp [hv])]
      simp only [List.map_cons, List.map_nil, List.sum_cons, List.sum_nil, add_zero, ← hval]
      push_cast
      ring
    · simp [hflags, snan_of_not_nan hn]

theorem sumOf_foldl {l : List (BitVec 32)} (hl : l.length ≤ 128) : SumOf l (l.foldl addLane (WLane.zero, 0)) := by
  induction l using List.reverseRecOn with
  | nil => exact ⟨rfl, rfl, rfl, rfl, by decide, fun _ => by simp [WLane.zero], rfl⟩
  | append_singleton l w ih =>
    rw [List.length_append, List.length_singleton] at hl
    rw [List.foldl_append]
    exact sumOf_addLane (ih (by omega)) (by omega) w

theorem ofNat64_of_lt {n : Nat} (hn : n < 2 ^ 32) : BitVec.ofNat 64 n = (BitVec.ofNat 32 n).setWidth 64 := by
  refine BitVec.eq_of_toNat_eq ?_
  rw [BitVec.toNat_setWidth, BitVec.toNat_ofNat, BitVec.toNat_ofNat, Nat.mod_eq_of_lt hn]

/-- The lanes of a vector. -/
def lanes (b : VecW) : List (BitVec 32) := (List.range 128).map (lane b)

theorem fredsum_eq (rm : RM) (b : VecW) : fredsum rm b =
    let r := (lanes b).foldl addLane (WLane.zero, 0)
    (BitVec.ofNat 64 (r.1.read fp32 rm).1, r.2 ||| (r.1.read fp32 rm).2) := by
  rw [lanes, List.foldl_map]
  rfl

theorem laneSum_fredsum (rm : RM) (b : VecW) : LaneSum rm b (fredsum rm b) := by
  have hsum := sumOf_foldl (l := lanes b) (by simp [lanes])
  rw [fredsum_eq]
  unfold LaneSum
  dsimp only
  rw [show (List.range 128).map (lane b) = lanes b from rfl]
  generalize lanes b = l at *
  generalize l.foldl addLane (WLane.zero, 0) = r at *
  obtain ⟨hnanf, hpinf, hninf, hsatf, -, hvalue, hflags⟩ := hsum
  have hread := readResult_read fp32 rm r.1
  have hlt := read_lt fp32 rm r.1 (by decide)
  generalize r.1.read fp32 rm = z at *
  simp only [ReadResult, hnanf, hpinf, hninf, hsatf, Bool.false_eq_true, if_false] at hread
  split
  · next h =>
    rw [if_pos h] at hread
    rw [hread, hflags]
    cases l.any snan <;> decide
  next h =>
  rw [if_neg h] at hread
  rw [Bool.or_eq_true, not_or, Bool.not_eq_true, Bool.not_eq_true] at h
  obtain ⟨hnan, hboth⟩ := h
  have hsnan : l.any snan = false := by
    rw [List.any_eq_false] at hnan ⊢
    exact fun w hw => by simp [snan_of_not_nan (Bool.not_eq_true _ ▸ hnan w hw)]
  rw [hsnan, if_neg Bool.false_ne_true] at hflags
  rw [hflags, show (0 : Byte) ||| z.2 = z.2 from BitVec.zero_or]
  split
  · next h =>
    rw [if_pos h] at hread
    rw [hread]
    rfl
  next hpos =>
  rw [if_neg hpos] at hread
  split
  · next h =>
    rw [if_pos h] at hread
    rw [hread]
    rfl
  next hneg =>
  rw [if_neg hneg] at hread
  have hfinite : ∀ w ∈ l, nan w = false ∧ inf w = false := fun w hw => by
    have hp := List.any_eq_false.mp (Bool.not_eq_true _ ▸ hpos) w hw
    have hn := List.any_eq_false.mp (Bool.not_eq_true _ ▸ hneg) w hw
    refine ⟨by simpa using List.any_eq_false.mp hnan w hw, ?_⟩
    cases hs : sgn w with
    | false => simpa [hs] using hp
    | true => simpa [hs] using hn
  have hvalue := hvalue hfinite
  by_cases hx : r.1.x.toInt = 0
  · rw [if_pos hx] at hread
    have hsum : (l.map fval).sum = 0 := by rw [← hvalue, hx]; simp
    rw [hread]
    exact ⟨fun _ => rfl, fun h => absurd hsum h⟩
  · rw [if_neg hx] at hread
    refine ⟨fun h => absurd (hvalue.trans h) (by simp [hx]), fun _ => ⟨BitVec.ofNat 32 z.1, ?_, ofNat64_of_lt hlt⟩⟩
    rw [Round32, ← hvalue, decide_eq_decide.mpr mul_p2_neg_iff, mag_mul_p2, BitVec.toNat_ofNat, Nat.mod_eq_of_lt hlt]
    exact hread

/-! ### The largest lane -/

theorem foldl_fmaxW_nan (l : List (BitVec 32)) : l.foldl fmaxW 0x7FC00000 = 0x7FC00000 := by
  induction l with
  | nil => rfl
  | cons w l ih =>
    rw [List.foldl_cons, fmaxW_eq, if_pos (by rw [show nan 0x7FC00000 = true by decide, Bool.true_or])]
    exact ih

theorem foldl_fmaxW_of_nan {l : List (BitVec 32)} (h : l.any nan = true) (a : BitVec 32) : l.foldl fmaxW a = 0x7FC00000 := by
  induction l generalizing a with
  | nil => simp at h
  | cons w l ih =>
    rw [List.foldl_cons]
    cases hw : nan w with
    | true => rw [fmaxW_eq, hw, Bool.or_true, if_pos rfl, foldl_fmaxW_nan]
    | false => exact ih (by simpa [hw] using h) _

/-- Without a NaN the fold keeps the largest so far. -/
theorem foldl_fmaxW_largest {l : List (BitVec 32)} {a : BitVec 32} (ha : nan a = false) (hl : ∀ w ∈ l, nan w = false) :
    l.foldl fmaxW a ∈ a :: l ∧ ∀ v ∈ a :: l, fkey v ≤ fkey (l.foldl fmaxW a) := by
  induction l generalizing a with
  | nil => simp
  | cons w l ih =>
    have hw := hl w (by simp)
    have hmax : fmaxW a w = if fkey a ≤ fkey w then w else a := by
      simp only [fmaxW_eq, ha, hw, Bool.or_self, Bool.false_eq_true, if_false, fkey_le_iff]
    rw [List.foldl_cons, hmax]
    split
    · next h =>
      obtain ⟨hmem, hle⟩ := ih hw fun v hv => hl v (by simp [hv])
      refine ⟨List.mem_cons_of_mem _ hmem, fun v hv => ?_⟩
      obtain rfl | hv := List.mem_cons.mp hv
      · exact h.trans (hle w (by simp))
      · exact hle v hv
    · next h =>
      obtain ⟨hmem, hle⟩ := ih ha fun v hv => hl v (by simp [hv])
      refine ⟨?_, fun v hv => ?_⟩
      · obtain h | h := List.mem_cons.mp hmem
        · rw [h]; simp
        · simp [h]
      · obtain rfl | hv := List.mem_cons.mp hv
        · exact hle _ (by simp)
        obtain rfl | hv := List.mem_cons.mp hv
        · exact (not_le.mp h).le.trans (hle a (by simp))
        · exact hle v (by simp [hv])

theorem laneMax_fredmax (b : VecW) : LaneMax b (fredmax b) := by
  have hr : fredmax b = (((lanes b).foldl fmaxW (lane b 0)).setWidth 64, snanFlag (lanes b)) := by
    rw [lanes, List.foldl_map]
    rfl
  have h0 : lane b 0 ∈ lanes b := List.mem_map_of_mem (by simp)
  rw [hr, snanFlag_eq]
  show if (lanes b).any nan then _ else _
  split
  · next h =>
    rw [foldl_fmaxW_of_nan h]
    rfl
  · next h =>
    have hnan : ∀ w ∈ lanes b, nan w = false := by simpa using h
    have hsnan : (lanes b).any snan = false := List.any_eq_false.mpr fun w hw => by simp [snan_of_not_nan (hnan w hw)]
    obtain ⟨hmem, hle⟩ := foldl_fmaxW_largest (hnan _ h0) hnan
    refine ⟨if_neg (by simp [hsnan]), _, ?_, rfl, fun v hv => (fkey_le_iff _ _).mp (hle v (List.mem_cons_of_mem _ hv))⟩
    obtain h | h := List.mem_cons.mp hmem
    · rw [h]
      exact h0
    · exact h

/-! ### The obligation -/

theorem compare_feq (a b : BitVec 32) : fcmp false feq a b =
    if nan a || nan b then (false, if snan a || snan b then fNV else 0) else (decide (a = b) || (zero a && zero b), 0) := by
  rw [fcmp_eq, feq_eq, Bool.false_or]

theorem compare_flt (a b : BitVec 32) : fcmp true flt a b =
    if nan a || nan b then (false, fNV) else (ranks a b && !(decide (a = b) || (zero a && zero b)), 0) := by
  rw [fcmp_eq, flt_eq]
  rfl

theorem compare_fle (a b : BitVec 32) : fcmp true (fun p q => feq p q || flt p q) a b =
    if nan a || nan b then (false, fNV) else (ranks a b || (decide (a = b) || (zero a && zero b)), 0) := by
  rw [fcmp_eq, feq_eq, flt_eq]
  cases decide (a = b) || (zero a && zero b) <;> simp

/-- Settles O6: each function by its own lemma above. -/
theorem floatRules : Obligations.FloatRules := by
  refine ⟨fun rm a b c => ?_, fun a b => ?_, fun x b h => ⟨integerResult_f2iLane x b, wideResult_widenBf h⟩, fun k j sub w rm => ?_,
    fun rm b w => ?_⟩
  · exact ⟨sumResult_fadd rm a b, sumResult_fadd rm a (flipSign b), productResult_fmul rm a b, fusedResult_ffma rm a b c,
      reciprocalResult_frcp rm b, rootResult_frsq rm b, rootResult_fsqrt rm b, powerResult_fexp2 rm b, logarithmResult_flog2 rm b,
      fsign_abs b, halfResult_narrowBf rm b, fun h => if_pos h, round32_i2fLane rm⟩
  · exact ⟨fsign_flipSign b, by simpa using snanFlag_eq [a, b], fminW_eq a b, fmaxW_eq a b, compare_feq a b, compare_flt a b,
      compare_fle a b⟩
  · exact ⟨addResult_addFp k sub w, foldLane_eq k j, readResult_read fp32 rm k, readResult_read bf16 rm k⟩
  · exact ⟨laneSum_fredsum rm b, laneMax_fredmax b, fun i hi => ⟨lane_wgetVec rm w hi, half_wgetbfVec rm w hi⟩,
      allFlags_orAll _ _, allFlags_orAll _ _⟩

end Sys2Proof.Claims
end

section
/-! The elements of a block and its scales, in units of 2^-149 (02_numbers.md R38, R45, R52, R53; 06_vector.md R182, R183). -/

namespace Sys2Proof.Claims

open Sys2Proof.Machine

/-! ### Nearest integers (02_numbers.md R37) -/

theorem rne_of_roundsMag {neg : Bool} {q : Rat} {k : Nat} (h : RoundsMag 0 neg q k) : rne q = k := by
  obtain ⟨hlow, hhigh, heven⟩ := h.near rfl
  have hf : (q.floor : Rat) ≤ q := Rat.floor_le q
  have hf' : q < q.floor + 1 := by exact_mod_cast Rat.lt_floor_add_one q
  have hint (a b : Int) (hab : (a : Rat) < b + 1) : a ≤ b := Int.lt_add_one_iff.mp (by exact_mod_cast hab)
  have hk1 : (k : Int) ≤ q.floor + 1 := hint _ _ (by push_cast; linarith)
  have hk0 : q.floor ≤ (k : Int) := hint _ _ (by push_cast; linarith)
  unfold rne
  split
  · next h =>
    exact le_antisymm hk0 (hint _ _ (by push_cast; linarith))
  split
  · next h =>
    refine le_antisymm (hint _ _ ?_) hk1
    push_cast
    linarith
  · next h1 h2 =>
    have htie : q = q.floor + 1 / 2 := by linarith
    obtain hk | hk : (k : Int) = q.floor ∨ (k : Int) = q.floor + 1 := by omega
    · have hkq : (k : Rat) = q.floor := by exact_mod_cast hk
      have := heven (.inr (by linarith))
      rw [if_pos (by omega), hk]
    · have hkq : (k : Rat) = q.floor + 1 := by exact_mod_cast hk
      have := heven (.inl (by linarith))
      rw [if_neg (by omega), hk]

theorem rne_div (n : Nat) {d : Nat} (hd : 0 < d) : rne ((n : Rat) / d) = rneDiv n d := by
  have h := roundsMag_roundUp 0 false (n / d) (st := false) (Nat.mod_lt n hd) (by simp)
  have hq : ((n / d : Nat) : Rat) + sticky (n % d) false / d = n / d := by
    have hd' : (d : Rat) ≠ 0 := by exact_mod_cast hd.ne'
    have := congrArg (Nat.cast (R := Rat)) (Nat.div_add_mod' n d)
    push_cast at this
    rw [sticky_false]
    field_simp
    exact this
  rw [hq] at h
  exact rne_of_roundsMag h

/-! ### Elements -/

/-- A lane is neither a NaN nor an infinity. -/
def finite (w : BitVec 32) : Bool := !(nan w || inf w)

/-- The magnitude of a finite lane in units of 2^-149. -/
def units (w : BitVec 32) : Nat := (qElOf false w).mag

/-- What a lane is as an element. -/
inductive Element (w : BitVec 32) : QEl → Prop
  | nan : nan w = true → inf w = false → Element w (.special (snan w))
  | inf : nan w = false → inf w = true → Element w (.special false)
  | val (x : Nat) : nan w = false → inf w = false → fmag 23 w.toNat = x * p2 (-149) → x < 2 ^ 277 → zero w = decide (x = 0) →
      Element w (.val (sgn w) x)

theorem element_qElOf (w : BitVec 32) : Element w (qElOf false w) := by
  have hw := datum_un32 w
  unfold qElOf
  simp only [Bool.false_eq_true, if_false]
  generalize un32 w = y at *
  cases hw with
  | nan hn hi hz => exact .nan hn hi
  | inf hn hi hz => exact .inf hn hi
  | fin m e hn hi hz hv hm he he' =>
    have hu : (unit149 false m e).toNat = m * 2 ^ (e - -149).toNat := by
      simp only [unit149, cutAt_of_le he]
      rfl
    dsimp only
    rw [hu]
    refine .val _ hn hi ?_ ?_ ?_
    · rw [hv, p2_eq_units he]
      push_cast
      ring
    · rw [show (2 : Nat) ^ 277 = 2 ^ 24 * 2 ^ 253 from rfl]
      exact Nat.mul_lt_mul_of_lt_of_le hm (Nat.pow_le_pow_right two_pos (by omega)) (Nat.two_pow_pos _)
    · rw [hz, decide_eq_decide]
      simp

theorem finite_iff (w : BitVec 32) : finite w = true ↔ nan w = false ∧ inf w = false := by simp [finite]

/-- A finite lane as an element. -/
theorem qElOf_finite {w : BitVec 32} (h : finite w = true) : qElOf false w = .val (sgn w) (units w) ∧
    fmag 23 w.toNat = units w * p2 (-149) ∧ zero w = decide (units w = 0) := by
  obtain ⟨hn, hi⟩ := (finite_iff w).mp h
  have hw := element_qElOf w
  unfold units
  generalize qElOf false w = e at *
  cases hw with
  | nan hn' => simp [hn] at hn'
  | inf _ hi' => simp [hi] at hi'
  | val x _ _ hv _ hz => exact ⟨rfl, hv, hz⟩

theorem units_lt (w : BitVec 32) : units w < 2 ^ 277 := by
  have hw := element_qElOf w
  unfold units
  generalize qElOf false w = e at *
  cases hw with
  | nan | inf => exact Nat.two_pow_pos _
  | val x _ _ _ hx => exact hx

/-- A place of a block as an element of it. -/
def placeEl : Option (BitVec 32) → QEl
  | none => .pad
  | some w => qElOf false w

/-- The 32 places of a block: its lanes, none at a padding position. -/
def places (x : VIn) (j : Nat) : List (Option (BitVec 32)) := (List.range 32).map (element x j)

theorem blockEls_eq (x : VIn) (j : Nat) : blockEls x j = (places x j).map placeEl := by
  rw [blockEls, places, List.map_map]
  refine List.map_congr_left fun e _ => ?_
  show qElOf _ _ = placeEl (element x j e)
  unfold element
  split
  · next h => rw [h]; rfl
  · next h =>
    rw [Bool.not_eq_true] at h
    rw [h]
    rfl

theorem elements_eq (x : VIn) (j : Nat) : elements x j = (places x j).reduceOption := by
  rw [elements, places, List.reduceOption, List.filterMap_map]
  rfl

theorem mem_elements {x : VIn} {j : Nat} {w : BitVec 32} : w ∈ elements x j ↔ ∃ e < 32, element x j e = some w := by
  simp [elements]

/-- A test of the elements that no padding meets. -/
theorem any_placeEl {p : QEl → Bool} {q : BitVec 32 → Bool} (hpad : p .pad = false) (l : List (Option (BitVec 32)))
    (h : ∀ w, some w ∈ l → p (qElOf false w) = q w) : (l.map placeEl).any p = l.reduceOption.any q := by
  induction l with
  | nil => rfl
  | cons o l ih =>
    have ih := ih fun w hw => h w (List.mem_cons_of_mem _ hw)
    cases o with
    | none => rw [List.map_cons, List.any_cons, List.reduceOption_cons_of_none, ← ih]; simp [placeEl, hpad]
    | some w => rw [List.map_cons, List.any_cons, List.reduceOption_cons_of_some, List.any_cons, ← ih, ← h w (by simp)]; rfl

theorem hasSpecial_blockEls (x : VIn) (j : Nat) : hasSpecial (blockEls x j) = special x j := by
  rw [blockEls_eq, special, elements_eq]
  refine any_placeEl rfl _ fun w _ => ?_
  have hw := element_qElOf w
  generalize qElOf false w = e at *
  cases hw with
  | nan hn hi => simp [hn]
  | inf hn hi => simp [hi]
  | val y hn hi => simp [hn, hi]

theorem finite_of_not_special {x : VIn} {j : Nat} (h : special x j = false) {w : BitVec 32} (hw : w ∈ elements x j) : finite w = true := by
  have := List.any_eq_false.mp h w hw
  simpa [finite] using this

/-- The largest magnitude of a list of places, by the elements and by the lanes. -/
theorem amax_places (l : List (Option (BitVec 32))) (h : ∀ w, some w ∈ l → finite w = true) (a : Nat) :
    (((l.map placeEl).foldl (fun a e => max a e.mag) a : Nat) : Rat) * p2 (-149) =
      l.reduceOption.foldl (fun a w => if a < fmag 23 w.toNat then fmag 23 w.toNat else a) (a * p2 (-149)) := by
  induction l generalizing a with
  | nil => rfl
  | cons o l ih =>
    have ih := ih fun w hw => h w (List.mem_cons_of_mem _ hw)
    cases o with
    | none =>
      rw [List.map_cons, List.foldl_cons, List.reduceOption_cons_of_none, ← ih]
      simp [placeEl, QEl.mag]
    | some w =>
      obtain ⟨-, hv, -⟩ := qElOf_finite (h w (by simp))
      have hmax : ((max a (units w) : Nat) : Rat) * p2 (-149) =
          if a * p2 (-149) < fmag 23 w.toNat then fmag 23 w.toNat else a * p2 (-149) := by
        simp only [hv, mul_p2_lt, Nat.cast_lt]
        split
        · next hlt => rw [max_eq_right hlt.le]
        · next hlt => rw [max_eq_left (not_lt.mp hlt)]
      rw [List.map_cons, List.foldl_cons, List.reduceOption_cons_of_some, List.foldl_cons, ← hmax]
      exact ih _

theorem amaxOf_blockEls {x : VIn} {j : Nat} (h : special x j = false) : (amaxOf (blockEls x j) : Rat) * p2 (-149) = largest x j := by
  have hfin : ∀ w, some w ∈ places x j → finite w = true := fun w hw =>
    finite_of_not_special h (by rw [elements_eq]; exact List.reduceOption_mem_iff.mpr hw)
  have := amax_places (places x j) hfin 0
  rw [Nat.cast_zero, zero_mul, ← blockEls_eq, ← elements_eq] at this
  exact this

theorem amaxOf_eq_zero_iff {x : VIn} {j : Nat} (h : special x j = false) : amaxOf (blockEls x j) = 0 ↔ largest x j = 0 := by
  rw [← amaxOf_blockEls h, mul_eq_zero, Nat.cast_eq_zero, or_iff_left (p2_pos _).ne']

theorem amaxOf_lt (x : VIn) (j : Nat) : amaxOf (blockEls x j) < 2 ^ 277 := by
  have hmag : ∀ e ∈ blockEls x j, e.mag < 2 ^ 277 := by
    intro e he
    rw [blockEls_eq] at he
    obtain ⟨o, -, rfl⟩ := List.mem_map.mp he
    cases o with
    | none => exact Nat.two_pow_pos _
    | some w => exact units_lt w
  exact List.foldlRecOn (motive := fun a => a < 2 ^ 277) _ _ (Nat.two_pow_pos _) fun a ha e he => max_lt ha (hmag e he)

/-! ### Scales (02_numbers.md R38, R53) -/

theorem s10unit_pos (c : Nat) : 0 < s10unit c := Nat.mul_pos (by omega) (Nat.two_pow_pos _)

/-- A scale in units of 2^-149. -/
theorem scaleOf_eq {c : Nat} (hc : c < 1024) : scaleOf c = s10unit c * p2 (-149) := by
  have hnat : (BitVec.ofNat 16 c).toNat = c := by rw [BitVec.toNat_ofNat]; exact Nat.mod_eq_of_lt (by omega)
  have hexp : p2 (((c : Int) / 4 % 256) - 127) = (2 ^ (c / 4 + 20) : Nat) * p2 (-149) * 4 := by
    have hfour : (4 : Rat) = p2 2 := by norm_num
    rw [hfour, ← p2_natCast, ← p2_add, ← p2_add]
    congr 1
    push_cast
    omega
  rw [scaleOf, s10val, hnat, s10unit]
  change p2 _ * _ = _
  rw [hexp]
  push_cast
  ring

/-- A number of units over a scale. -/
theorem units_div_scaleOf (n : Nat) {c : Nat} (hc : c < 1024) : (n * p2 (-149)) / scaleOf c = (n : Rat) / s10unit c := by
  rw [scaleOf_eq hc, mul_div_mul_right _ _ (p2_pos _).ne']

theorem exceedsL_iff (ib8 : Bool) (amax : Nat) {c : Nat} (hc : c < 1024) :
    exceedsL ib8 amax c = true ↔ reach ib8 < (amax * p2 (-149)) / scaleOf c := by
  have hs : (0 : Rat) < s10unit c := by exact_mod_cast s10unit_pos c
  rw [units_div_scaleOf _ hc, lt_div_iff₀ hs]
  cases ib8 with
  | true =>
    simp only [exceedsL, reach, if_true, decide_eq_true_iff]
    exact_mod_cast Iff.rfl
  | false =>
    simp only [exceedsL, reach, Bool.false_eq_true, if_false, decide_eq_true_iff]
    rw [← Nat.cast_lt (α := Rat)]
    push_cast
    constructor <;> intro h <;> linarith

/-- The search for a scale passes only scales that amax exceeds. -/
theorem scaleFrom_spec (ib8 : Bool) (amax n c : Nat) :
    let r := scaleFrom ib8 amax n c
    c ≤ r ∧ r ≤ c + n ∧ (∀ d, c ≤ d → d < r → exceedsL ib8 amax d = true) ∧ (r = c + n ∨ exceedsL ib8 amax r = false) := by
  induction n generalizing c with
  | zero => exact ⟨le_rfl, le_rfl, fun d h h' => absurd h' (not_lt.mpr h), .inl rfl⟩
  | succ n ih =>
    rw [scaleFrom]
    split
    · next h =>
      obtain ⟨hge, hle, hall, hend⟩ := ih (c + 1)
      refine ⟨by omega, by omega, fun d hd hd' => ?_, hend.imp_left (by omega)⟩
      obtain rfl | hd := hd.eq_or_lt
      · exact h
      · exact hall d hd hd'
    · next h => exact ⟨le_rfl, by omega, fun d h h' => absurd h' (not_lt.mpr h), .inr (Bool.not_eq_true _ ▸ h)⟩

/-- No magnitude exceeds the largest scale. -/
theorem exceedsL_top (ib8 : Bool) {amax : Nat} (h : amax < 2 ^ 277) : exceedsL ib8 amax 0x3FB = false := by
  have hs : s10unit 0x3FB = 7 * 2 ^ 274 := rfl
  unfold exceedsL
  rw [hs]
  split <;> exact decide_eq_false (by omega)

theorem autoCode_autoScale (ib8 : Bool) {amax : Nat} (h : amax < 2 ^ 277) : AutoCode ib8 (amax * p2 (-149)) (autoScale ib8 amax) := by
  obtain ⟨hge, hle, hall, hend⟩ := scaleFrom_spec ib8 amax 0x3F7 4
  change 4 ≤ autoScale ib8 amax at hge
  change autoScale ib8 amax ≤ _ at hle
  change ∀ d, 4 ≤ d → d < autoScale ib8 amax → _ at hall
  change autoScale ib8 amax = _ ∨ exceedsL ib8 amax (autoScale ib8 amax) = false at hend
  have hfit : exceedsL ib8 amax (autoScale ib8 amax) = false := hend.elim (fun h' => h' ▸ exceedsL_top ib8 h) id
  refine ⟨hge, hle, not_lt.mp fun hlt => ?_, fun d hd hd' => (exceedsL_iff ib8 amax (by omega)).mp (hall d hd hd')⟩
  rw [(exceedsL_iff ib8 amax (by omega)).mpr hlt] at hfit
  cases hfit

/-! ### The largest magnitude and the scale of a block (06_vector.md R183) -/

theorem any_special (x : VIn) (j : Nat) : (blockEls x j).any (fun e => decide (e = .special true)) = (elements x j).any snan := by
  rw [blockEls_eq, elements_eq]
  refine any_placeEl rfl _ fun w _ => ?_
  have hw := element_qElOf w
  generalize qElOf false w = e at *
  cases hw with
  | nan hn hi => simp
  | inf hn hi => simp [snan_of_not_nan hn]
  | val y hn hi => simp [snan_of_not_nan hn]

theorem un32_inf (w : BitVec 32) : (match un32 w with | .inf _ => true | _ => false) = inf w := by
  have hw := datum_un32 w
  generalize un32 w = y at *
  cases hw with
  | nan _ hi | inf _ hi => exact hi.symm
  | fin _ _ _ hi => exact hi.symm

theorem filterMap_ite {α β : Type} (p : α → Bool) (f : α → β) (l : List α) :
    l.filterMap (fun e => if p e then none else some (f e)) = (l.filter (fun e => !p e)).map f := by
  induction l with
  | nil => rfl
  | cons e l ih => cases h : p e <;> simp [h, ih]

theorem blockInf_eq (x : VIn) (j : Nat) : blockInf x j = ((elements x j).any inf && !(elements x j).any nan) := by
  have hels : elements x j = ((List.range 32).filter (fun e => !x.m.getLsbD (32 * j + e))).map (fun e => lane x.b (32 * j + e)) :=
    filterMap_ite _ _ _
  rw [hels, blockInf]
  simp only [List.any_map, Function.comp_def, isNan_un32]
  congr 2
  exact funext fun e => un32_inf _

theorem largest_cases (x : VIn) (j : Nat) : largest x j = 0 ∨ ∃ w ∈ elements x j, largest x j = fmag 23 w.toNat := by
  refine List.foldlRecOn (motive := fun a => a = 0 ∨ ∃ w ∈ elements x j, a = fmag 23 w.toNat) _ _ (.inl rfl) fun a ha w hw => ?_
  split
  · exact .inr ⟨w, hw, rfl⟩
  · exact ha

/-- The magnitude of a finite lane is one that the format has. -/
theorem fits_fmag {w : BitVec 32} (h : finite w = true) : Fits 23 true (fmag 23 w.toNat) ∧ fmag 23 w.toNat < p2 128 := by
  obtain ⟨hn, hi⟩ := (finite_iff w).mp h
  have hw := datum_un32 w
  generalize un32 w = y at *
  cases hw with
  | nan hn' => simp [hn] at hn'
  | inf _ hi' => simp [hi] at hi'
  | fin m e _ _ _ hv hm he he' =>
    rw [hv]
    refine ⟨⟨m, e, hm, fun _ => he, rfl⟩, ?_⟩
    have hm' : (m : Rat) < p2 24 := by
      have : p2 24 = ((2 ^ 24 : Nat) : Rat) := p2_natCast 24
      rw [this]
      exact_mod_cast hm
    calc (m : Rat) * p2 e < p2 24 * p2 e := mul_p2_lt.mpr hm'
      _ = p2 (24 + e) := (p2_add 24 e).symm
      _ ≤ p2 128 := p2_le.mpr (by omega)

/-- amax as a lane. -/
def amaxLane (x : VIn) (j : Nat) : BitVec 32 := BitVec.ofNat 32 (fp32.round 0 false (amaxOf (blockEls x j)) (-149) false).1

theorem amaxLane_spec {x : VIn} {j : Nat} (h : special x j = false) :
    nan (amaxLane x j) = false ∧ inf (amaxLane x j) = false ∧ sgn (amaxLane x j) = false ∧ fval (amaxLane x j) = largest x j := by
  have hval := amaxOf_blockEls h
  unfold amaxLane
  obtain hzero | ⟨w, hw, hlargest⟩ := largest_cases x j
  · rw [(amaxOf_eq_zero_iff h).mpr hzero, hzero, round_zero]
    exact ⟨by decide, by decide, by decide, fval_zero⟩
  · obtain ⟨hfits, hrange⟩ := fits_fmag (finite_of_not_special h hw)
    by_cases h0 : amaxOf (blockEls x j) = 0
    · rw [h0, round_zero, (amaxOf_eq_zero_iff h).mp h0]
      exact ⟨by decide, by decide, by decide, fval_zero⟩
    · have hround := (rounded_round_exact fp32 0 false (-149) h0).mk32
      rw [hval, hlargest] at hround
      obtain ⟨-, hlt, hmag⟩ := hround.exact hfits hrange
      obtain ⟨hn, hi⟩ := finite_lane hlt
      refine ⟨hn, hi, hround.sgn_lane, ?_⟩
      exact hround.fval_lane.trans (hmag.trans hlargest.symm)

theorem any_or {α : Type} (p q : α → Bool) (l : List α) : l.any (fun w => p w || q w) = (l.any p || l.any q) := by
  rw [Bool.eq_iff_iff]
  simp only [Bool.or_eq_true, List.any_eq_true, and_or_left, exists_or]

theorem bmaxLane_blockEls (x : VIn) (j : Nat) :
    let m := bmaxLane (blockEls x j) (blockInf x j)
    if (elements x j).any nan then m = (0x7FC00000, if (elements x j).any snan then fNV else 0)
    else if (elements x j).any inf then m = (0x7F800000, 0)
    else m.2 = 0 ∧ nan m.1 = false ∧ inf m.1 = false ∧ sgn m.1 = false ∧ fval m.1 = largest x j := by
  intro m
  have hm : m = if (elements x j).any snan then (0x7FC00000, fNV)
      else if (elements x j).any inf && !(elements x j).any nan then (0x7F800000, 0)
      else if (elements x j).any nan || (elements x j).any inf then (0x7FC00000, 0) else (amaxLane x j, 0) := by
    show bmaxLane _ _ = _
    rw [bmaxLane, any_special, blockInf_eq, hasSpecial_blockEls, special, any_or]
    rfl
  rw [hm]
  cases hn : (elements x j).any nan with
  | true => cases (elements x j).any snan <;> simp
  | false =>
    have hs : (elements x j).any snan = false := List.any_eq_false.mpr fun w hw => by
      simp [snan_of_not_nan (by simpa using List.any_eq_false.mp hn w hw)]
    cases hi : (elements x j).any inf with
    | true => simp [hs]
    | false =>
      have hspecial : special x j = false := by rw [special, any_or, hn, hi]; rfl
      simpa [hs] using amaxLane_spec hspecial

theorem qscaleLane_blockEls (ib8 : Bool) (x : VIn) (j : Nat) :
    let q := qscaleLane ib8 (blockEls x j)
    if special x j then q = (0x3FF, fNV)
    else if largest x j = 0 then q = (0, 0)
    else q.2 = 0 ∧ AutoCode ib8 (largest x j) q.1.toNat := by
  intro q
  have hq : q = if special x j then (0x3FF, fNV) else if amaxOf (blockEls x j) = 0 then (0, 0)
      else (BitVec.ofNat 32 (autoScale ib8 (amaxOf (blockEls x j))), 0) := by
    show qscaleLane _ _ = _
    rw [qscaleLane, hasSpecial_blockEls]
  rw [hq]
  split
  · rfl
  next h =>
  rw [Bool.not_eq_true] at h
  simp only [amaxOf_eq_zero_iff h]
  split
  · rfl
  have hauto := autoCode_autoScale ib8 (amaxOf_lt x j)
  rw [amaxOf_blockEls h] at hauto
  refine ⟨rfl, ?_⟩
  rw [BitVec.toNat_ofNat, Nat.mod_eq_of_lt (by have := hauto.2.1; omega)]
  exact hauto

end Sys2Proof.Claims
end

section
/-! The codes of a quantised block (02_numbers.md R37, R39 to R41, R54 to R56). -/

namespace Sys2Proof.Claims

open Sys2Proof.Machine

/-! ### The nearest magnitude of FA4 (02_numbers.md R37, R40) -/

theorem fa4mag_lt {i k : Nat} (h : i < k) (hk : k < 8) : fa4mag i < fa4mag k := by
  have hall : ∀ k < 8, ∀ i < k, fa4mag i < fa4mag k := by decide
  exact hall k hk i h

/-- A number as far from a as from b is nearer to what lies between them. -/
theorem dist_between {x a b m : Nat} (ham : a < m) (hmb : m < b) (h : Machine.dist x a = Machine.dist x b) :
    Machine.dist x m < Machine.dist x a := by
  unfold Machine.dist at *
  split_ifs at h ⊢ <;> omega

/-- k is the code among the first n whose magnitude is nearest, a tie going to an even code. -/
def NearestCode (x s n k : Nat) : Prop :=
  k < n ∧ ∀ i < n, Machine.dist x (fa4mag k * s) ≤ Machine.dist x (fa4mag i * s) ∧
    (Machine.dist x (fa4mag k * s) = Machine.dist x (fa4mag i * s) → i ≠ k → k % 2 = 0)

/-- One more code among those to choose from. -/
theorem NearestCode.step {x s n k : Nat} (h : NearestCode x s n k) (hs : 0 < s) (hn : n < 8) :
    NearestCode x s (n + 1) (if Machine.dist x (fa4mag n * s) < Machine.dist x (fa4mag k * s) then n
      else if Machine.dist x (fa4mag n * s) = Machine.dist x (fa4mag k * s) ∧ n % 2 = 0 then n else k) := by
  obtain ⟨hk, hall⟩ := h
  split
  · next hlt =>
    refine ⟨Nat.lt_succ_self n, fun i hi => ?_⟩
    obtain rfl | hin := (Nat.lt_succ_iff.mp hi).eq_or_lt
    · exact ⟨le_rfl, fun _ hne => absurd rfl hne⟩
    · have := (hall i hin).1
      exact ⟨by omega, fun _ _ => by omega⟩
  split
  · next htie =>
    refine ⟨Nat.lt_succ_self n, fun i hi => ⟨?_, fun _ _ => htie.2⟩⟩
    obtain rfl | hin := (Nat.lt_succ_iff.mp hi).eq_or_lt
    · exact le_rfl
    · exact htie.1.trans_le (hall i hin).1
  · next hlt htie =>
    refine ⟨hk.trans (Nat.lt_succ_self n), fun i hi => ?_⟩
    obtain rfl | hin := (Nat.lt_succ_iff.mp hi).eq_or_lt
    · refine ⟨not_lt.mp hlt, fun heq _ => ?_⟩
      have hodd : ¬ i % 2 = 0 := fun h => htie ⟨heq.symm, h⟩
      by_contra hkodd
      have hmid : Machine.dist x (fa4mag (k + 1) * s) < Machine.dist x (fa4mag k * s) :=
        dist_between (Nat.mul_lt_mul_of_pos_right (fa4mag_lt (Nat.lt_succ_self k) (by omega)) hs)
          (Nat.mul_lt_mul_of_pos_right (fa4mag_lt (by omega) hn) hs) heq
      exact absurd (hall (k + 1) (by omega)).1 (not_le.mpr hmid)
    · exact hall i hin

theorem nearestCode_gridCode (x : Nat) {s : Nat} (hs : 0 < s) : NearestCode x s 8 (gridCode x s) := by
  have hfold (n : Nat) (hn : n < 8) : NearestCode x s (n + 1) ((List.range (n + 1)).foldl (fun best c =>
      if Machine.dist x (fa4mag c * s) < Machine.dist x (fa4mag best * s) then c
      else if Machine.dist x (fa4mag c * s) = Machine.dist x (fa4mag best * s) ∧ c % 2 = 0 then c else best) 0) := by
    induction n with
    | zero =>
      refine ⟨by simp, fun i hi => ?_⟩
      obtain rfl : i = 0 := by omega
      simp
    | succ n ih =>
      rw [List.range_succ, List.foldl_append]
      exact (ih (by omega)).step hs hn
  exact hfold 7 (by decide)

/-- Distances in half units of a scale. -/
theorem mag_sub_half (n a : Nat) {s : Nat} (hs : 0 < s) : mag ((n : Rat) / (2 * s) - (a : Rat) / 2) = (Machine.dist n (a * s) : Rat) / (2 * s) := by
  have hs' : (0 : Rat) < 2 * s := by positivity
  have hdist : |(n : Rat) - (a * s : Nat)| = (Machine.dist n (a * s) : Nat) := by
    unfold Machine.dist
    split
    · next h => rw [Nat.cast_sub h, abs_sub_comm, abs_of_nonneg]; rw [sub_nonneg]; exact_mod_cast h
    · next h => rw [Nat.cast_sub (not_le.mp h).le, abs_of_nonneg]; rw [sub_nonneg]; exact_mod_cast (not_le.mp h).le
  rw [mag_eq_abs, ← hdist, ← abs_of_pos hs', ← abs_div, abs_of_pos hs']
  congr 1
  push_cast
  field_simp

theorem fa4Grid_eq {k : Nat} (hk : k < 8) : fa4Grid k = (fa4mag k : Rat) / 2 := by
  interval_cases k <;> norm_num [fa4Grid, fa4mag]

/-! ### One place of a block -/

/-- The header of a quantised block (02_numbers.md R39, R41). -/
def headerBits (b : QBlock) : Nat := b.altm * 2 ^ 11 + (if b.alts then 2 ^ 10 else 0) + b.scale

/-- What one place of a block comes to: its code, and whether that is inexact or lost. -/
structure PlaceOk (ib8 : Bool) (hdr sc : Nat) (o : Option (BitVec 32)) (code : Nat) (nx uf : Bool) : Prop where
  coded : match o with
    | some w => CodeOf ib8 hdr sc w code
    | none => code = 0
  nx : nx = true ↔ ∃ w, o = some w ∧ codeValue ib8 hdr code ≠ fval w / scaleOf sc
  uf : uf = true ↔ ∃ w, o = some w ∧ zero w = false ∧ codeValue ib8 hdr code = 0
  small : code < if ib8 then 256 else 16

theorem fval_finite {w : BitVec 32} (h : finite w = true) : fval w = signed (sgn w) (units w * p2 (-149)) :=
  fval_eq (qElOf_finite h).2.1

theorem signed_div (neg : Bool) (x y : Rat) : signed neg x / y = signed neg (x / y) := by
  cases neg <;> simp [signed, neg_div]

theorem signed_eq_zero {neg : Bool} {x : Rat} : signed neg x = 0 ↔ x = 0 := by cases neg <;> simp [signed]

/-- A lane's place, where its code reads with the lane's sign and the magnitude r. -/
theorem placeOk_some {ib8 : Bool} {hdr sc code : Nat} {w : BitVec 32} {nx uf : Bool} {r : Rat} (hw : finite w = true) (hsc : sc < 1024)
    (hcode : CodeOf ib8 hdr sc w code) (hread : codeValue ib8 hdr code = signed (sgn w) r)
    (hnx : nx = true ↔ r ≠ (units w : Rat) / s10unit sc) (huf : uf = true ↔ units w ≠ 0 ∧ r = 0)
    (hsmall : code < if ib8 then 256 else 16) : PlaceOk ib8 hdr sc (some w) code nx uf := by
  obtain ⟨-, -, hz⟩ := qElOf_finite hw
  refine ⟨hcode, ?_, ?_, hsmall⟩
  · rw [hnx]
    simp only [Option.some.injEq, exists_eq_left', hread, fval_finite hw, signed_div, units_div_scaleOf _ hsc, ne_eq, signed_inj]
  · rw [huf]
    simp only [Option.some.injEq, exists_eq_left', hread, signed_eq_zero, hz, decide_eq_false_iff_not, ne_eq]

/-- A padding place. -/
theorem placeOk_none {ib8 : Bool} {hdr sc : Nat} : PlaceOk ib8 hdr sc none 0 false false :=
  ⟨rfl, by simp, by simp, by split <;> decide⟩

/-! ### IB8 (02_numbers.md R41, R55) -/

theorem codeOf_ib8 {hdr sc : Nat} {w : BitVec 32} (hw : finite w = true) (hsc : sc < 1024) :
    let k := min 127 (rneDiv (units w) (s10unit sc))
    let code := if k = 0 then 0 else (if sgn w then 128 else 0) + k
    CodeOf true hdr sc w code ∧ codeValue true hdr code = signed (sgn w) k ∧ code % 128 = k ∧ code < 256 := by
  intro k code
  have hk : k ≤ 127 := min_le_left _ _
  refine ⟨?_, ?_, ?_, ?_⟩
  · simp only [CodeOf, if_true]
    rw [(qElOf_finite hw).2.1, units_div_scaleOf _ hsc, rne_div _ (s10unit_pos sc)]
    rfl
  · show (if 128 ≤ code then -((code % 128 : Nat) : Rat) else code) = _
    have hcode : code = if k = 0 then 0 else (if sgn w then 128 else 0) + k := rfl
    by_cases h0 : k = 0
    · simp [hcode, h0, signed]
    · rw [if_neg h0] at hcode
      cases hs : sgn w with
      | false =>
        rw [hs] at hcode
        rw [if_neg (by simp at hcode; omega), hcode]
        simp [signed]
      | true =>
        rw [hs] at hcode
        simp only [if_true] at hcode
        rw [if_pos (by omega), show code % 128 = k by omega]
        rfl
  · show (if k = 0 then 0 else (if sgn w then 128 else 0) + k) % 128 = k
    split
    · omega
    · split <;> omega
  · show (if k = 0 then 0 else (if sgn w then 128 else 0) + k) < 256
    split
    · omega
    · split <;> omega

/-! ### FA4 (02_numbers.md R40, R54) -/

/-- Where the alt value of a block is nearer to an element than the code k. -/
def AltNearer (altm : Nat) (alts : Bool) (s : Nat) (neg : Bool) (x k : Nat) : Prop :=
  altm ≠ 0 ∧ neg = alts ∧ Machine.dist (2 * x) (altm * s) < Machine.dist (2 * x) (fa4mag k * s)

theorem fa4Code_val (altm : Nat) (alts : Bool) (s : Nat) (neg : Bool) (x : Nat) :
    let k := gridCode (min (2 * x) (12 * s)) s
    (AltNearer altm alts s neg x k → fa4Code altm alts s (.val neg x) = 8) ∧
      (¬ AltNearer altm alts s neg x k → fa4Code altm alts s (.val neg x) = if k = 0 then 0 else (if neg then 8 else 0) + k) :=
  ⟨fun h => if_pos h, fun h => if_neg h⟩

/-- Quotients by one scale compare as the numbers do. -/
theorem div_two_mul_le {s : Nat} (hs : 0 < s) (a b : Nat) : (a : Rat) / (2 * s) ≤ (b : Rat) / (2 * s) ↔ a ≤ b := by
  rw [div_le_div_iff_of_pos_right (by positivity), Nat.cast_le]

/-- An element over its scale, stopped at 6, in half units. -/
theorem cut_six (x : Nat) {s : Nat} (hs : 0 < s) : (if (x : Rat) / s < 6 then (x : Rat) / s else 6) =
    ((min (2 * x) (12 * s) : Nat) : Rat) / (2 * s) := by
  have hs' : (0 : Rat) < s := by exact_mod_cast hs
  split
  · next h =>
    rw [div_lt_iff₀ hs'] at h
    have hlt : x < 6 * s := by exact_mod_cast h
    rw [Nat.min_eq_left (by omega)]
    push_cast
    rw [mul_div_mul_left _ _ two_ne_zero]
  · next h =>
    rw [not_lt, le_div_iff₀ hs'] at h
    have hle : 6 * s ≤ x := by exact_mod_cast h
    rw [Nat.min_eq_right (by omega), eq_div_iff (by positivity)]
    push_cast
    ring

theorem codeOf_fa4 {hdr sc altm : Nat} {alts : Bool} {w : BitVec 32} (hw : finite w = true) (hsc : sc < 1024)
    (halt : hdr / 2048 % 16 = altm) (hsign : decide (hdr / 1024 % 2 = 1) = alts) :
    CodeOf false hdr sc w (fa4Code altm alts (s10unit sc) (.val (sgn w) (units w))) := by
  have hs := s10unit_pos sc
  have hv := units_div_scaleOf (units w) hsc
  unfold CodeOf
  rw [(qElOf_finite hw).2.1]
  generalize s10unit sc = s at *
  generalize units w = x at *
  obtain ⟨hk, hall⟩ := nearestCode_gridCode (min (2 * x) (12 * s)) hs
  obtain ⟨hyes, hno⟩ := fa4Code_val altm alts s (sgn w) x
  have hgrid (i : Nat) (hi : i < 8) (n : Nat) : mag ((n : Rat) / (2 * s) - fa4Grid i) = (Machine.dist n (fa4mag i * s) : Rat) / (2 * s) := by
    rw [fa4Grid_eq hi, mag_sub_half n _ hs]
  have hy : (x : Rat) / s = ((2 * x : Nat) : Rat) / (2 * s) := by
    push_cast
    rw [mul_div_mul_left _ _ two_ne_zero]
  simp only [Bool.false_eq_true, if_false]
  rw [hv, cut_six x hs, hy, halt, hsign]
  refine ⟨_, hk, fun i hi => ?_, ?_⟩
  · rw [hgrid _ hk, hgrid i hi, div_two_mul_le hs, le_antisymm_iff, div_two_mul_le hs, div_two_mul_le hs, ← le_antisymm_iff]
    exact hall i hi
  · rw [mag_sub_half _ _ hs, hgrid _ hk, ← not_le, div_two_mul_le hs, not_le]
    exact ⟨hyes, hno⟩

theorem codeValue_fa4 {hdr sc altm : Nat} {alts : Bool} {w : BitVec 32}
    (halt : hdr / 2048 % 16 = altm) (hsign : decide (hdr / 1024 % 2 = 1) = alts) :
    let code := fa4Code altm alts (s10unit sc) (.val (sgn w) (units w))
    codeValue false hdr code = signed (sgn w) ((fa4Read altm code : Rat) / 2) ∧ code < 16 := by
  intro code
  obtain ⟨hk, -⟩ := nearestCode_gridCode (min (2 * units w) (12 * s10unit sc)) (s10unit_pos sc)
  obtain ⟨hyes, hno⟩ := fa4Code_val altm alts (s10unit sc) (sgn w) (units w)
  generalize gridCode (min (2 * units w) (12 * s10unit sc)) (s10unit sc) = k at *
  simp only [codeValue, Bool.false_eq_true, if_false, halt]
  by_cases hq : AltNearer altm alts (s10unit sc) (sgn w) (units w) k
  · have hcode : code = 8 := hyes hq
    obtain ⟨-, hneg, -⟩ := hq
    rw [hcode, if_pos rfl]
    refine ⟨?_, by decide⟩
    rw [hneg, ← hsign]
    by_cases hh : hdr / 1024 % 2 = 1 <;> simp [hh, signed, fa4Read, neg_div]
  · have hcode : code = if k = 0 then 0 else (if sgn w then 8 else 0) + k := hno hq
    by_cases h0 : k = 0
    · rw [if_pos h0] at hcode
      rw [hcode]
      cases sgn w <;> norm_num [signed, fa4Read, fa4mag, fa4Grid]
    · rw [if_neg h0] at hcode
      cases hs : sgn w with
      | false =>
        simp only [hs, Bool.false_eq_true, if_false, Nat.zero_add] at hcode
        rw [hcode, if_neg (by omega), if_neg (by omega), fa4Grid_eq hk, fa4Read, if_neg (by omega)]
        exact ⟨rfl, by omega⟩
      | true =>
        simp only [hs, if_true] at hcode
        rw [hcode, if_neg (by omega), if_pos (by omega), show (8 + k) % 8 = k by omega, fa4Grid_eq hk, fa4Read, if_neg (by omega)]
        refine ⟨?_, by omega⟩
        interval_cases k <;> simp [signed, fa4mag]

end Sys2Proof.Claims
end

section
/-! The attempts of the block quantisers and the written block (02_numbers.md R52 to R57). -/

namespace Sys2Proof.Claims

open Sys2Proof.Machine

/-! ### A place at a scale code -/

theorem natCast_eq_div (a x : Nat) {s : Nat} (hs : 0 < s) : (a : Rat) = (x : Rat) / s ↔ a * s = x := by
  rw [eq_div_iff (by exact_mod_cast hs.ne')]
  exact_mod_cast Iff.rfl

theorem half_eq_div (a x : Nat) {s : Nat} (hs : 0 < s) : (a : Rat) / 2 = (x : Rat) / s ↔ a * s = 2 * x := by
  rw [div_eq_div_iff two_ne_zero (by exact_mod_cast hs.ne'), mul_comm (x : Rat)]
  exact_mod_cast Iff.rfl

/-- The IB8 code of an element (02_numbers.md R55). -/
def ib8Code (s : Nat) (e : QEl) : Nat :=
  let k := min 127 (rneDiv e.mag s)
  match e with
  | .val n _ => if k = 0 then 0 else (if n then 128 else 0) + k
  | _ => 0

theorem placeOk_ib8 {hdr sc : Nat} (hsc : sc < 1024) {o : Option (BitVec 32)} (ho : ∀ w, o = some w → finite w = true) :
    let code := ib8Code (s10unit sc) (placeEl o)
    PlaceOk true hdr sc o code (decide (code % 128 * s10unit sc ≠ (placeEl o).mag)) (decide ((placeEl o).mag ≠ 0 ∧ code % 128 = 0)) := by
  cases o with
  | none => simpa [ib8Code, placeEl, QEl.mag] using placeOk_none
  | some w =>
    have hw := ho w rfl
    obtain ⟨hcode, hread, hmod, hsmall⟩ := codeOf_ib8 (hdr := hdr) hw hsc
    have hel : placeEl (some w) = .val (sgn w) (units w) := (qElOf_finite hw).1
    rw [hel]
    refine placeOk_some hw hsc hcode hread ?_ ?_ hsmall
    · rw [decide_eq_true_iff, ne_eq, ne_eq, natCast_eq_div _ _ (s10unit_pos sc)]
      exact hmod ▸ Iff.rfl
    · rw [decide_eq_true_iff, Nat.cast_eq_zero]
      exact hmod ▸ Iff.rfl

theorem placeOk_fa4 {hdr sc altm : Nat} {alts : Bool} (hsc : sc < 1024) (halt : hdr / 2048 % 16 = altm)
    (hsign : decide (hdr / 1024 % 2 = 1) = alts) {o : Option (BitVec 32)} (ho : ∀ w, o = some w → finite w = true) :
    let code := fa4Code altm alts (s10unit sc) (placeEl o)
    PlaceOk false hdr sc o code (decide (fa4Read altm code * s10unit sc ≠ 2 * (placeEl o).mag))
      (decide ((placeEl o).mag ≠ 0 ∧ fa4Read altm code = 0)) := by
  cases o with
  | none => simpa [fa4Code, placeEl, QEl.mag, fa4Read, fa4mag] using placeOk_none
  | some w =>
    have hw := ho w rfl
    obtain ⟨hread, hsmall⟩ := codeValue_fa4 (sc := sc) (w := w) halt hsign
    have hel : placeEl (some w) = .val (sgn w) (units w) := (qElOf_finite hw).1
    rw [hel]
    refine placeOk_some hw hsc (codeOf_fa4 hw hsc halt hsign) hread ?_ ?_ hsmall
    · rw [decide_eq_true_iff, ne_eq, ne_eq, half_eq_div _ _ (s10unit_pos sc)]
      exact Iff.rfl
    · rw [decide_eq_true_iff, div_eq_zero_iff, or_iff_left two_ne_zero, Nat.cast_eq_zero]
      exact Iff.rfl

/-! ### The header of an attempt -/

theorem header_fields {altm c : Nat} (alts : Bool) (haltm : altm ≤ 15) (hc : c < 1024) :
    let h := altm * 2 ^ 11 + (if alts then 2 ^ 10 else 0) + c
    h / 2048 % 16 = altm ∧ decide (h / 1024 % 2 = 1) = alts ∧ h < 2 ^ 16 := by
  cases alts with
  | false => exact ⟨by simp only [Bool.false_eq_true, if_false]; omega, decide_eq_false (by simp only [Bool.false_eq_true, if_false]; omega),
      by simp only [Bool.false_eq_true, if_false]; omega⟩
  | true => exact ⟨by simp only [if_true]; omega, decide_eq_true (by simp only [if_true]; omega), by simp only [if_true]; omega⟩

theorem altMag_eq {x : VIn} {j c : Nat} (h : special x j = false) (hc : c < 1024) : altMag (amaxOf (blockEls x j)) c = altOf x j c := by
  have hdiv : 2 * largest x j / scaleOf c = ((2 * amaxOf (blockEls x j) : Nat) : Rat) / s10unit c := by
    rw [← units_div_scaleOf _ hc, ← amaxOf_blockEls h]
    push_cast
    rw [mul_assoc]
  rw [altOf, hdiv, rne_div _ (s10unit_pos c), Int.toNat_natCast, altMag]
  simp only [List.contains_iff_mem]

theorem altMag_le (a c : Nat) : altMag a c ≤ 15 := by
  unfold altMag
  simp only
  split
  · exact Nat.zero_le _
  · exact min_le_left _ _

/-- The sign of the first element whose magnitude is a, by the elements and by the lanes. -/
theorem altSign_places (l : List (Option (BitVec 32))) (h : ∀ w, some w ∈ l → finite w = true) (a : Nat) :
    altSign (l.map placeEl) a =
      ((l.reduceOption.find? (fun w => decide (fmag 23 w.toNat = a * p2 (-149)))).map sgn).getD false := by
  induction l with
  | nil => rfl
  | cons o l ih =>
    have ih := ih fun w hw => h w (List.mem_cons_of_mem _ hw)
    cases o with
    | none =>
      rw [List.reduceOption_cons_of_none, ← ih]
      rfl
    | some w =>
      obtain ⟨hel, hv, -⟩ := qElOf_finite (h w (by simp))
      rw [List.map_cons, List.reduceOption_cons_of_some, List.find?_cons, hv]
      simp only [mul_p2_inj, Nat.cast_inj]
      change altSign (qElOf false w :: l.map placeEl) a = _
      rw [hel]
      by_cases hx : units w = a
      · simp [altSign, hx]
      · simpa [altSign, hx] using ih

theorem altSign_blockEls {x : VIn} {j : Nat} (h : special x j = false) : altSign (blockEls x j) (amaxOf (blockEls x j)) = firstSign x j := by
  have hfin : ∀ w, some w ∈ places x j → finite w = true := fun w hw =>
    finite_of_not_special h (by rw [elements_eq]; exact List.reduceOption_mem_iff.mpr hw)
  have := altSign_places (places x j) hfin (amaxOf (blockEls x j))
  rw [← blockEls_eq, ← elements_eq, amaxOf_blockEls h] at this
  rw [this, firstSign]
  cases (elements x j).find? (fun w => decide (fmag 23 w.toNat = largest x j)) <;> rfl

/-! ### An attempt -/

/-- What an attempt at scale code c comes to. -/
structure AttemptOk (ib8 : Bool) (x : VIn) (j c : Nat) (b : QBlock) : Prop where
  header : headerBits b = headerOf ib8 x j c
  overflow : b.overflow = true ↔ Overflows ib8 x j c
  codes : ∀ e < 32, match element x j e with
    | some w => CodeOf ib8 (headerOf ib8 x j c) c w (b.codes.getD e 0)
    | none => b.codes.getD e 0 = 0
  flags : ∃ nx uf, b.flags = flagIf nx fNX ||| flagIf uf fUF ∧
    (nx = true ↔ ∃ e < 32, ∃ w, element x j e = some w ∧ codeValue ib8 (headerOf ib8 x j c) (b.codes.getD e 0) ≠ fval w / scaleOf c) ∧
    (uf = true ↔ ∃ e < 32, ∃ w, element x j e = some w ∧ zero w = false ∧ codeValue ib8 (headerOf ib8 x j c) (b.codes.getD e 0) = 0)

/-- A block that its bytes hold. -/
structure Storable (ib8 : Bool) (b : QBlock) : Prop where
  header : headerBits b < 2 ^ 16
  scale : ib8 = true → headerBits b = b.scale
  codes : ∀ e < 32, b.codes.getD e 0 < if ib8 then 256 else 16

theorem any_zip_map {α β : Type} (f : α → β) (p : α × β → Bool) (l : List α) :
    (l.zip (l.map f)).any p = l.any (fun e => p (e, f e)) := by
  induction l with
  | nil => rfl
  | cons e l ih => rw [List.map_cons, List.zip_cons_cons, List.any_cons, List.any_cons, ih]

theorem getD_map_blockEls (f : QEl → Nat) (x : VIn) (j : Nat) {e : Nat} (he : e < 32) :
    ((blockEls x j).map f).getD e 0 = f (placeEl (element x j e)) := by
  simp [blockEls_eq, places, he]

theorem any_blockEls (p : QEl → Bool) (x : VIn) (j : Nat) :
    (blockEls x j).any p = true ↔ ∃ e < 32, p (placeEl (element x j e)) = true := by
  simp [blockEls_eq, places, List.any_eq_true]

/-- An attempt whose places are coded by f, with p where a code is inexact and q where it is lost. -/
theorem attemptOk_of_places {ib8 : Bool} {x : VIn} {j c : Nat} {b : QBlock} {f : QEl → Nat} {p q : QEl → Bool}
    (hscale : ib8 = true → headerBits b = b.scale) (hsmall : headerBits b < 2 ^ 16)
    (hheader : headerBits b = headerOf ib8 x j c) (hover : b.overflow = true ↔ Overflows ib8 x j c)
    (hcodes : b.codes = (blockEls x j).map f) (hflags : b.flags = flagIf ((blockEls x j).any p) fNX ||| flagIf ((blockEls x j).any q) fUF)
    (hplace : ∀ e < 32, PlaceOk ib8 (headerOf ib8 x j c) c (element x j e) (f (placeEl (element x j e)))
      (p (placeEl (element x j e))) (q (placeEl (element x j e)))) :
    AttemptOk ib8 x j c b ∧ Storable ib8 b := by
  have hget (e : Nat) (he : e < 32) : b.codes.getD e 0 = f (placeEl (element x j e)) := by rw [hcodes, getD_map_blockEls f x j he]
  refine ⟨⟨hheader, hover, fun e he => ?_, _, _, hflags, ?_, ?_⟩, ⟨hsmall, hscale, fun e he => ?_⟩⟩
  · rw [hget e he]
    exact (hplace e he).coded
  · rw [any_blockEls]
    refine exists_congr fun e => and_congr_right fun he => ?_
    rw [(hplace e he).nx, hget e he]
  · rw [any_blockEls]
    refine exists_congr fun e => and_congr_right fun he => ?_
    rw [(hplace e he).uf, hget e he]
  · rw [hget e he]
    exact (hplace e he).small

theorem finite_element {x : VIn} {j e : Nat} (h : special x j = false) (he : e < 32) : ∀ w, element x j e = some w → finite w = true :=
  fun _ hw => finite_of_not_special h (mem_elements.mpr ⟨e, he, hw⟩)

theorem rneDiv_zero {s : Nat} (hs : 0 < s) : rneDiv 0 s = 0 := by
  have hrne : rne 0 = 0 := by decide +kernel
  have hdiv := rne_div 0 hs
  rw [Nat.cast_zero, zero_div, hrne] at hdiv
  exact Int.ofNat.inj hdiv.symm

theorem overflows_ib8 {x : VIn} {j c : Nat} (h : special x j = false) (hc : c < 1024) :
    (blockEls x j).any (fun e => decide (127 < rneDiv e.mag (s10unit c))) = true ↔ Overflows true x j c := by
  have hs := s10unit_pos c
  have hrne {w : BitVec 32} (hw : finite w = true) : rne (fmag 23 w.toNat / scaleOf c) = rneDiv (units w) (s10unit c) := by
    rw [(qElOf_finite hw).2.1, units_div_scaleOf _ hc, rne_div _ hs]
  generalize s10unit c = s at *
  rw [any_blockEls]
  simp only [Overflows, if_true, decide_eq_true_iff]
  constructor
  · rintro ⟨e, he, hlt⟩
    cases ho : element x j e with
    | none =>
      rw [ho, placeEl, QEl.mag, rneDiv_zero hs] at hlt
      · exact absurd hlt (by decide)
      · exact fun _ _ h => by cases h
    | some w =>
      refine ⟨w, mem_elements.mpr ⟨e, he, ho⟩, ?_⟩
      rw [hrne (finite_element h he w ho)]
      rw [ho] at hlt
      exact_mod_cast hlt
  · rintro ⟨w, hw, hlt⟩
    obtain ⟨e, he, ho⟩ := mem_elements.mp hw
    rw [hrne (finite_element h he w ho)] at hlt
    refine ⟨e, he, ?_⟩
    rw [ho]
    exact_mod_cast hlt

theorem ib8Attempt_eq (l : List QEl) (c : Nat) : ib8Attempt l c =
    { scale := c, altm := 0, alts := false, codes := l.map (ib8Code (s10unit c))
      overflow := l.any (fun e => decide (127 < rneDiv e.mag (s10unit c)))
      flags := flagIf (l.any fun e => decide (ib8Code (s10unit c) e % 128 * s10unit c ≠ e.mag)) fNX |||
        flagIf (l.any fun e => decide (e.mag ≠ 0 ∧ ib8Code (s10unit c) e % 128 = 0)) fUF } := by
  unfold ib8Attempt
  generalize s10unit c = s
  have hmap : (l.map fun e => rneDiv e.mag s).any (fun k => decide (127 < k)) = l.any (fun e => decide (127 < rneDiv e.mag s)) :=
    List.any_map
  rw [← hmap, ← any_zip_map (ib8Code s) (fun p => decide (p.2 % 128 * s ≠ p.1.mag)),
    ← any_zip_map (ib8Code s) (fun p => decide (p.1.mag ≠ 0 ∧ p.2 % 128 = 0))]
  rfl

theorem ib8Attempt_ok {x : VIn} {j c : Nat} (h : special x j = false) (hc : c < 1024) :
    AttemptOk true x j c (ib8Attempt (blockEls x j) c) ∧ Storable true (ib8Attempt (blockEls x j) c) := by
  have hhdr : headerBits (ib8Attempt (blockEls x j) c) = c := by simp [headerBits, ib8Attempt]
  rw [ib8Attempt_eq] at hhdr ⊢
  exact attemptOk_of_places (fun _ => hhdr) (by rw [hhdr]; omega) hhdr (overflows_ib8 h hc) rfl rfl
    fun e he => placeOk_ib8 hc (finite_element h he)

theorem fa4Attempt_eq {l : List QEl} {c altm : Nat} {alts : Bool} (haltm : altMag (amaxOf l) c = altm)
    (halts : (if altm = 0 then false else altSign l (amaxOf l)) = alts) : fa4Attempt l c =
    { scale := c, altm := altm, alts := alts, codes := l.map (fa4Code altm alts (s10unit c)), overflow := exceedsL false (amaxOf l) c
      flags := flagIf (l.any fun e => decide (fa4Read altm (fa4Code altm alts (s10unit c) e) * s10unit c ≠ 2 * e.mag)) fNX |||
        flagIf (l.any fun e => decide (e.mag ≠ 0 ∧ fa4Read altm (fa4Code altm alts (s10unit c) e) = 0)) fUF } := by
  subst haltm halts
  unfold fa4Attempt
  generalize s10unit c = s
  simp only [any_zip_map]

theorem fa4Attempt_ok {x : VIn} {j c : Nat} (h : special x j = false) (hc : c < 1024) :
    AttemptOk false x j c (fa4Attempt (blockEls x j) c) ∧ Storable false (fa4Attempt (blockEls x j) c) := by
  have haltm := altMag_eq h hc
  have halts : (if altOf x j c = 0 then false else altSign (blockEls x j) (amaxOf (blockEls x j))) =
      decide (altOf x j c ≠ 0 ∧ firstSign x j = true) := by
    rw [altSign_blockEls h]
    by_cases h0 : altOf x j c = 0
    · rw [if_pos h0, decide_eq_false fun h => h.1 h0]
    · rw [if_neg h0, Bool.eq_iff_iff, decide_eq_true_iff, and_iff_right h0]
  obtain ⟨halt, hsign, hsmall⟩ := header_fields (decide (altOf x j c ≠ 0 ∧ firstSign x j = true))
    (haltm ▸ altMag_le (amaxOf (blockEls x j)) c) hc
  have hhdr : altOf x j c * 2 ^ 11 + (if decide (altOf x j c ≠ 0 ∧ firstSign x j = true) = true then 2 ^ 10 else 0) + c =
      headerOf false x j c := by simp only [headerOf, Bool.false_eq_true, if_false, decide_eq_true_iff]
  have hbits : headerBits (fa4Attempt (blockEls x j) c) = headerOf false x j c := by
    rw [fa4Attempt_eq haltm halts, headerBits, hhdr]
  have hover : exceedsL false (amaxOf (blockEls x j)) c = true ↔ Overflows false x j c := by
    rw [exceedsL_iff false _ hc, amaxOf_blockEls h]
    rfl
  rw [hhdr] at halt hsign hsmall
  rw [fa4Attempt_eq haltm halts] at hbits ⊢
  generalize decide (altOf x j c ≠ 0 ∧ firstSign x j = true) = alts at *
  refine attemptOk_of_places (fun h => by cases h) (hbits ▸ hsmall) hbits ?_ rfl rfl fun e he => placeOk_fa4 hc halt hsign (finite_element h he)
  dsimp only
  exact hover

/-! ### Retries (02_numbers.md R57) -/

/-- An attempt in either format. -/
def attempt (ib8 : Bool) (l : List QEl) (c : Nat) : QBlock := if ib8 then ib8Attempt l c else fa4Attempt l c

theorem attempt_ok (ib8 : Bool) {x : VIn} {j c : Nat} (h : special x j = false) (hc : c < 1024) :
    AttemptOk ib8 x j c (attempt ib8 (blockEls x j) c) ∧ Storable ib8 (attempt ib8 (blockEls x j) c) := by
  cases ib8 with
  | false => exact fa4Attempt_ok h hc
  | true => exact ib8Attempt_ok h hc

/-- An attempt as it is written, an overflow noted. -/
def noted (b : QBlock) : QBlock := { b with flags := b.flags ||| flagIf b.overflow fQX }

theorem qAttempts_succ (ib8 sat : Bool) (l : List QEl) (n c : Nat) : qAttempts ib8 sat l (n + 1) c =
    if (attempt ib8 l c).overflow && !sat && decide (c ≠ 0x3FB) then qAttempts ib8 sat l n (c + 1) else noted (attempt ib8 l c) := rfl

/-- The written attempt is the first that does not overflow, or the last that there may be. -/
theorem qAttempts_spec (ib8 sat : Bool) (l : List QEl) (n c : Nat) (hc : c ≤ 0x3FB) :
    ∃ k ≤ (if sat then 0 else n), c + k ≤ 0x3FB ∧ (∀ d < k, (attempt ib8 l (c + d)).overflow = true) ∧
      ((attempt ib8 l (c + k)).overflow = true → k = (if sat then 0 else n) ∨ c + k = 0x3FB) ∧
      qAttempts ib8 sat l n c = noted (attempt ib8 l (c + k)) := by
  induction n generalizing c with
  | zero => exact ⟨0, Nat.zero_le _, hc, fun d hd => absurd hd d.not_lt_zero, fun _ => .inl (by simp), rfl⟩
  | succ n ih =>
    rw [qAttempts_succ]
    by_cases hretry : ((attempt ib8 l c).overflow && !sat && decide (c ≠ 0x3FB)) = true
    · rw [if_pos hretry]
      simp only [Bool.and_eq_true, Bool.not_eq_true', decide_eq_true_iff] at hretry
      obtain ⟨⟨hover, rfl⟩, hne⟩ := hretry
      obtain ⟨k, hk, hck, hall, hlast, heq⟩ := ih (c + 1) (by omega)
      have hshift : c + 1 + k = c + (k + 1) := by omega
      rw [hshift] at hck hlast heq
      refine ⟨k + 1, Nat.succ_le_succ hk, hck, fun d hd => ?_, fun h => (hlast h).imp_left (congrArg _), heq⟩
      cases d with
      | zero => exact hover
      | succ d =>
        rw [show c + (d + 1) = c + 1 + d by omega]
        exact hall d (by omega)
    · rw [if_neg hretry]
      refine ⟨0, Nat.zero_le _, hc, fun d hd => absurd hd d.not_lt_zero, fun hover => ?_, rfl⟩
      rw [Nat.add_zero] at hover
      cases sat with
      | true => exact .inl rfl
      | false =>
        rw [hover] at hretry
        exact .inr (by simpa using hretry)

/-! ### The quantisers (02_numbers.md R52, R57) -/

theorem flag_bits (nx uf ov : Bool) : ∀ k < 8, (flagIf nx fNX ||| flagIf uf fUF ||| flagIf ov fQX).getLsbD k = true ↔
    (k = 4 ∧ nx = true) ∨ (k = 3 ∧ uf = true) ∨ (k = 6 ∧ ov = true) := by
  cases nx <;> cases uf <;> cases ov <;> decide

/-- What a quantiser owes for a block it wrote. -/
def QuantisedBlock (ib8 : Bool) (x : VIn) (j : Nat) (b : QBlock) : Prop :=
  Quantised ib8 x j (headerBits b) (fun e => b.codes.getD e 0) b.flags ∧ Storable ib8 b

theorem flatBlock_codes (l : List QEl) (c : Nat) (fl : Byte) (e : Nat) : (flatBlock l c fl).codes.getD e 0 = 0 := by
  by_cases h : e < l.length <;> simp [flatBlock, h]

theorem headerBits_flatBlock (l : List QEl) (c : Nat) (fl : Byte) : headerBits (flatBlock l c fl) = c := by simp [headerBits, flatBlock]

theorem storable_flatBlock (ib8 : Bool) (l : List QEl) {c : Nat} (fl : Byte) (hc : c < 2 ^ 16) : Storable ib8 (flatBlock l c fl) :=
  ⟨by rwa [headerBits_flatBlock], fun _ => headerBits_flatBlock l c fl, fun e _ => by rw [flatBlock_codes]; split <;> decide⟩

theorem retries_eq (x : VIn) : (x.qcfg.extractLsb' 2 2).toNat = x.qcfg.toNat / 4 % 4 := by
  simp [BitVec.extractLsb'_toNat, Nat.shiftRight_eq_div_pow]

theorem explicit_eq (x : VIn) (j : Nat) : ((lane x.a j).extractLsb' 0 10).toNat = (lane x.a j).toNat % 1024 := by
  simp [BitVec.extractLsb'_toNat]

/-- The attempts from the scale code that R53 chooses, or from the explicit one. -/
theorem quantisedBlock_qAttempts {ib8 : Bool} {x : VIn} {j c : Nat} (h : special x j = false) (hl : largest x j ≠ 0) (hc : c ≤ 0x3FB)
    (hzero : ¬ (x.qcfg.getLsbD 4 = false ∧ (lane x.a j).toNat % 1024 / 4 = 0))
    (htop : ¬ (x.qcfg.getLsbD 4 = false ∧ (lane x.a j).toNat % 1024 / 4 = 255))
    (hstart : if x.qcfg.getLsbD 4 = true then AutoCode ib8 (largest x j) c else c = (lane x.a j).toNat % 1024) :
    QuantisedBlock ib8 x j (qAttempts ib8 (x.qcfg.getLsbD 1) (blockEls x j) (x.qcfg.extractLsb' 2 2).toNat c) := by
  obtain ⟨k, hk, hck, hall, hlast, heq⟩ := qAttempts_spec ib8 (x.qcfg.getLsbD 1) (blockEls x j) (x.qcfg.extractLsb' 2 2).toNat c hc
  obtain ⟨⟨hheader, hover, hcodes, nx, uf, hflags, hnx, huf⟩, hstore⟩ := attempt_ok ib8 h (c := c + k) (by omega)
  rw [retries_eq] at hk hlast
  rw [heq]
  refine ⟨?_, hstore.header, hstore.scale, hstore.codes⟩
  unfold Quantised
  simp only [h, Bool.false_eq_true, if_false, hl, hzero, htop]
  refine ⟨c, k, hstart, hk, hck, fun d hd => ?_, fun hov => hlast (hover.mpr hov), hheader, ?_, fun i hi => ?_⟩
  · exact (attempt_ok ib8 h (c := c + d) (by omega)).1.overflow.mp (hall d hd)
  · change headerBits (noted _) = _ at hheader
    rw [hheader]
    exact hcodes
  · change headerBits (noted _) = _ at hheader
    rw [hheader, ← hover, noted]
    change ((attempt _ _ _).flags ||| _).getLsbD i = true ↔ _
    rw [hflags, flag_bits nx uf _ i hi, hnx, huf]

theorem quantisedBlock_quantise (ib8 : Bool) (x : VIn) (j : Nat) :
    QuantisedBlock ib8 x j (quantise ib8 x.qcfg (blockEls x j) ((lane x.a j).extractLsb' 0 10).toNat) := by
  rw [quantise, hasSpecial_blockEls, explicit_eq]
  have hflat {c : Nat} {fl : Byte} (hc : c < 2 ^ 16)
      (hq : Quantised ib8 x j c (fun _ => 0) fl) : QuantisedBlock ib8 x j (flatBlock (blockEls x j) c fl) := by
    refine ⟨?_, storable_flatBlock ib8 _ fl hc⟩
    rw [headerBits_flatBlock]
    simp only [flatBlock_codes]
    exact hq
  have hexpl : (lane x.a j).toNat % 1024 < 1024 := Nat.mod_lt _ (by decide)
  cases h : special x j with
  | true => exact hflat (by decide) (by simp [Quantised, h])
  | false =>
    simp only [Bool.false_eq_true, if_false, amaxOf_eq_zero_iff h]
    by_cases hl : largest x j = 0
    · rw [if_pos hl]
      exact hflat (by decide) (by simp [Quantised, h, hl])
    rw [if_neg hl]
    cases hauto : x.qcfg.getLsbD 4 with
    | true =>
      have hcode := autoCode_autoScale ib8 (amaxOf_lt x j)
      rw [amaxOf_blockEls h] at hcode
      rw [if_pos rfl]
      exact quantisedBlock_qAttempts h hl hcode.2.1 (by simp [hauto]) (by simp [hauto]) (by rwa [if_pos hauto])
    | false =>
      rw [if_neg Bool.false_ne_true]
      by_cases hzero : (lane x.a j).toNat % 1024 / 4 = 0
      · rw [if_pos hzero]
        refine hflat (by decide) ?_
        simp only [Quantised, h, hl, hauto, hzero, Bool.false_eq_true, if_false, and_self, if_true, implies_true]
      rw [if_neg hzero]
      by_cases htop : (lane x.a j).toNat % 1024 / 4 = 255
      · rw [if_pos htop]
        refine hflat (by decide) ?_
        simp only [Quantised, h, hl, hauto, htop, Bool.false_eq_true, if_false, if_true, and_self, implies_true,
          Nat.reduceEqDiff, and_false]
      rw [if_neg htop]
      exact quantisedBlock_qAttempts h hl (by omega) (fun h => hzero h.2) (fun h => htop h.2)
        (by rw [hauto, if_neg Bool.false_ne_true])

end Sys2Proof.Claims
end

section
/-! The bytes of quantised blocks, their elements read back, narrow and widen (02_numbers.md R39, R41, R51, R58; 06_vector.md R180,
R181, R184, R185), and O7. -/

namespace Sys2Proof.Claims

open Sys2Proof.Machine

/-! ### The bytes of a block (02_numbers.md R39, R41) -/

/-- The bytes of a block in either format. -/
def blockBytes (ib8 : Bool) (b : QBlock) : List Byte := if ib8 then ib8Bytes b else fa4Bytes b

/-- Byte i of a block after its header. -/
def codeByte (ib8 : Bool) (b : QBlock) (i : Nat) : Byte :=
  BitVec.ofNat 8 (if ib8 then b.codes.getD i 0 else b.codes.getD (2 * i) 0 + 16 * b.codes.getD (2 * i + 1) 0)

theorem leBytes_two (v : Nat) : leBytes 2 v = [BitVec.ofNat 8 v, BitVec.ofNat 8 (v / 256)] := by
  rw [leBytes_succ, leBytes_succ]
  rfl

theorem blockBytes_eq {ib8 : Bool} {b : QBlock} (h : Storable ib8 b) : blockBytes ib8 b =
    BitVec.ofNat 8 (headerBits b) :: BitVec.ofNat 8 (headerBits b / 256) :: (List.range (blockLen ib8 - 2)).map (codeByte ib8 b) := by
  cases ib8 with
  | false =>
    show leBytes 2 (headerBits b) ++ _ = _
    rw [leBytes_two]
    rfl
  | true =>
    show leBytes 2 b.scale ++ _ = _
    rw [leBytes_two, h.scale rfl]
    rfl

theorem blockByte_add_two (ib8 : Bool) (hdr : Nat) (code : Nat → Nat) (i : Nat) :
    blockByte ib8 hdr code (i + 2) = if ib8 then code i else code (2 * i) + 16 * code (2 * i + 1) := by simp [blockByte]

theorem blockBytes_length (ib8 : Bool) (b : QBlock) : (blockBytes ib8 b).length = blockLen ib8 := by
  cases ib8 <;> simp [blockBytes, ib8Bytes, fa4Bytes, blockLen]

theorem toNat_blockBytes {ib8 : Bool} {b : QBlock} (h : Storable ib8 b) {i : Nat} (hi : i < blockLen ib8) :
    ((blockBytes ib8 b).getD i 0).toNat = blockByte ib8 (headerBits b) (fun e => b.codes.getD e 0) i := by
  have hheader := h.header
  have hcodes := h.codes
  rw [blockBytes_eq h]
  match i with
  | 0 => exact BitVec.toNat_ofNat _ _
  | 1 =>
    show (BitVec.ofNat 8 (headerBits b / 256)).toNat = headerBits b / 256
    rw [BitVec.toNat_ofNat]
    exact Nat.mod_eq_of_lt (by omega)
  | i + 2 =>
    have hi' : i < blockLen ib8 - 2 := by omega
    have hget : (List.map (codeByte ib8 b) (List.range (blockLen ib8 - 2))).getD i 0 = codeByte ib8 b i := by simp [hi']
    rw [List.getD_cons_succ, List.getD_cons_succ, hget, codeByte, BitVec.toNat_ofNat, blockByte_add_two]
    cases ib8 with
    | false =>
      have hlow := hcodes (2 * i) (by simp [blockLen] at hi'; omega)
      have hhigh := hcodes (2 * i + 1) (by simp [blockLen] at hi'; omega)
      simp only [Bool.false_eq_true, if_false] at hlow hhigh ⊢
      exact Nat.mod_eq_of_lt (by omega)
    | true =>
      have hcode := hcodes i (by simp [blockLen] at hi'; omega)
      simp only [if_true] at hcode ⊢
      exact Nat.mod_eq_of_lt (by omega)

/-- Pieces of one length in a row. -/
theorem getD_flatMap_range {L : Nat} {f : Nat → List Byte} (hlen : ∀ j, (f j).length = L) {n j i : Nat} (hj : j < n) (hi : i < L) :
    ((List.range n).flatMap f).getD (L * j + i) 0 = (f j).getD i 0 := by
  have hlength (n : Nat) : ((List.range n).flatMap f).length = L * n := by simp [List.length_flatMap, hlen, Nat.mul_comm]
  induction n with
  | zero => exact absurd hj j.not_lt_zero
  | succ n ih =>
    rw [List.range_succ, List.flatMap_append, List.flatMap_singleton]
    obtain rfl | hj := (Nat.lt_succ_iff.mp hj).eq_or_lt
    · rw [List.getD_append_right _ _ _ _ (by rw [hlength]; omega), hlength, Nat.add_sub_cancel_left]
    · have hle : L * (j + 1) ≤ L * n := Nat.mul_le_mul_left L hj
      rw [List.getD_append _ _ _ _ (by rw [hlength]; rw [Nat.mul_succ] at hle; omega)]
      exact ih hj

/-! ### The quantising triggers (06_vector.md R184) -/

/-- Block j as the trigger quantises it. -/
def quantBlock (ib8 : Bool) (x : VIn) (j : Nat) : QBlock := quantise ib8 x.qcfg (blockEls x j) ((lane x.a j).extractLsb' 0 10).toNat

theorem quantVec_eq (ib8 : Bool) (x : VIn) : quantVec ib8 x =
    (ofBytes (fun i => ((List.range 4).flatMap (fun j => blockBytes ib8 (quantBlock ib8 x j))).getD i 0),
      orAll 4 (fun j => (quantBlock ib8 x j).flags)) := rfl

theorem vbyte_quantVec (ib8 : Bool) (x : VIn) {j i : Nat} (hj : j < 4) (hi : i < blockLen ib8) :
    (vbyte (quantVec ib8 x).1 (blockLen ib8 * j + i)).toNat =
      blockByte ib8 (headerBits (quantBlock ib8 x j)) (fun e => (quantBlock ib8 x j).codes.getD e 0) i := by
  have hbound : blockLen ib8 * j + i < 512 := by
    cases ib8 <;> simp only [blockLen, Bool.false_eq_true, if_false, if_true] at * <;> omega
  rw [quantVec_eq, vbyte_ofBytes _ _ hbound, getD_flatMap_range (fun _ => blockBytes_length ib8 _) hj hi]
  exact toNat_blockBytes (quantisedBlock_quantise ib8 x j).2 hi

theorem vbyte_quantVec_rest (ib8 : Bool) (x : VIn) {i : Nat} (hi : i < 512) (h : 4 * blockLen ib8 ≤ i) : vbyte (quantVec ib8 x).1 i = 0 := by
  rw [quantVec_eq, vbyte_ofBytes _ _ hi]
  exact List.getD_eq_default _ _ (by simp [List.length_flatMap, blockBytes_length]; omega)

/-! ### Elements read back (02_numbers.md R58; 06_vector.md R185) -/

/-- Block j of a vector of blocks. -/
def dequantBlock (ib8 : Bool) (b : VecW) (j : Nat) : List Byte := (List.range (blockLen ib8)).map (fun i => vbyte b (blockLen ib8 * j + i))

/-- The header of block j. -/
def readHeader (ib8 : Bool) (b : VecW) (j : Nat) : Nat :=
  (vbyte b (blockLen ib8 * j + 0)).toNat + 256 * (vbyte b (blockLen ib8 * j + 1)).toNat

/-- The code of element e of block j. -/
def readCode (ib8 : Bool) (b : VecW) (j e : Nat) : Nat :=
  if ib8 then (vbyte b (blockLen ib8 * j + (2 + e))).toNat else (vbyte b (blockLen ib8 * j + (2 + e / 2))).toNat / 16 ^ (e % 2) % 16

/-- The sign and the magnitude of a code, in the units of its format. -/
def signMag (ib8 : Bool) (hdr c : Nat) : Bool × Nat :=
  if ib8 then (decide (128 ≤ c), c % 128)
  else if c = 8 then (decide (hdr / 2 ^ 10 % 2 = 1), hdr / 2 ^ 11 % 16) else (decide (8 ≤ c), fa4mag c)

/-- The exponent of a format's unit over a scale in units of 2^-149. -/
def unitExp (ib8 : Bool) : Int := if ib8 then -149 else -150

theorem leAt_dequantBlock (ib8 : Bool) (b : VecW) (j : Nat) : leAt (dequantBlock ib8 b j) 0 2 = readHeader ib8 b j := by
  cases ib8 <;> rfl

theorem dequantBlock_getD (ib8 : Bool) (b : VecW) (j : Nat) {i : Nat} (hi : i < blockLen ib8) :
    (dequantBlock ib8 b j).getD i 0 = vbyte b (blockLen ib8 * j + i) := by
  simp [dequantBlock, hi]

theorem ib8El_dequantBlock (b : VecW) (j : Nat) {e : Nat} (he : e < 32) :
    ib8El (dequantBlock true b j) e = signMag true (readHeader true b j) (readCode true b j e) := by
  rw [ib8El, dequantBlock_getD true b j (show 2 + e < 34 by omega)]
  rfl

theorem fa4El_dequantBlock (b : VecW) (j : Nat) {e : Nat} (he : e < 32) :
    fa4El (dequantBlock false b j) e = signMag false (readHeader false b j) (readCode false b j e) := by
  have hlt := (vbyte b (blockLen false * j + (2 + e / 2))).isLt
  have hcode : (if e % 2 = 0 then (vbyte b (blockLen false * j + (2 + e / 2))).toNat % 16
      else (vbyte b (blockLen false * j + (2 + e / 2))).toNat / 16) = readCode false b j e := by
    show _ = (vbyte b (blockLen false * j + (2 + e / 2))).toNat / 16 ^ (e % 2) % 16
    split
    · next h => rw [h, pow_zero, Nat.div_one]
    · next h => rw [show e % 2 = 1 by omega, pow_one]; omega
  rw [fa4El, leAt_dequantBlock, dequantBlock_getD false b j (show 2 + e / 2 < 18 by omega)]
  simp only [hcode]
  rfl

theorem readCode_lt (ib8 : Bool) (b : VecW) (j e : Nat) : readCode ib8 b j e < if ib8 then 256 else 16 := by
  cases ib8 with
  | false => exact Nat.mod_lt _ (by decide)
  | true => exact (vbyte b _).isLt

/-- The value that a code reads with, over the unit of its format. -/
theorem codeValue_eq {ib8 : Bool} {hdr c : Nat} (hc : c < if ib8 then 256 else 16) :
    codeValue ib8 hdr c = signed (signMag ib8 hdr c).1 ((signMag ib8 hdr c).2 / if ib8 then 1 else 2) := by
  cases ib8 with
  | true =>
    simp only [codeValue, signMag, if_true, div_one, signed, decide_eq_true_iff] at hc ⊢
    split
    · rfl
    · next h => rw [Nat.mod_eq_of_lt (not_le.mp h)]
  | false =>
    simp only [codeValue, signMag, Bool.false_eq_true, if_false] at hc ⊢
    by_cases h8 : c = 8
    · simp only [if_pos h8, signed, decide_eq_true_iff]
      split <;> norm_num [neg_div, *]
    · simp only [if_neg h8, signed, decide_eq_true_iff]
      have hmag : fa4mag c = fa4mag (c % 8) := by simp only [fa4mag, Nat.mod_mod]
      rw [hmag, ← fa4Grid_eq (Nat.mod_lt c (by decide))]
      split
      · rfl
      · next h => rw [Nat.mod_eq_of_lt (not_le.mp h)]

theorem signMag_lt (ib8 : Bool) (hdr c : Nat) : (signMag ib8 hdr c).2 < 128 := by
  have hall : ∀ k < 8, fa4mag k < 128 := by decide
  have hmag : fa4mag c = fa4mag (c % 8) := by simp only [fa4mag, Nat.mod_mod]
  unfold signMag
  split
  · exact Nat.mod_lt _ (by decide)
  split
  · exact (Nat.mod_lt _ (by decide)).trans (by decide : 16 < 128)
  · exact hmag ▸ hall _ (Nat.mod_lt c (by decide))

/-- A read element's magnitude, its scale applied. -/
theorem scaled_mag (ib8 : Bool) (m : Nat) {c : Nat} (hc : c < 1024) :
    (m : Rat) / (if ib8 then 1 else 2) * scaleOf c = ((m * s10unit c : Nat) : Rat) * p2 (unitExp ib8) := by
  rw [scaleOf_eq hc]
  cases ib8 with
  | true => simp only [unitExp, if_true, div_one]; push_cast; ring
  | false =>
    have hhalf : p2 (-149) = 2 * p2 (-150) := (congrArg p2 (by decide)).trans (p2_succ (-150))
    simp only [unitExp, Bool.false_eq_true, if_false, hhalf]
    push_cast
    ring

/-- A scaled element has few bits. -/
theorem fits_scaled (ib8 : Bool) {m c : Nat} (hm : m < 128) (hc : 4 ≤ c) : Fits 23 true (((m * s10unit c : Nat) : Rat) * p2 (unitExp ib8)) := by
  refine ⟨m * (4 + c % 4), (c / 4 + 20 : Nat) + unitExp ib8, ?_, fun _ => ?_, ?_⟩
  · calc m * (4 + c % 4) ≤ 128 * 7 := Nat.mul_le_mul (by omega) (by omega)
      _ < 2 ^ 24 := by decide
  · cases ib8 <;> simp only [unitExp, Bool.false_eq_true, if_false, if_true] <;> omega
  · have hpow : p2 ((c / 4 + 20 : Nat) : Int) = ((2 ^ (c / 4 + 20) : Nat) : Rat) := p2_natCast _
    rw [p2_add, hpow, s10unit]
    push_cast
    ring

theorem dequant_eq (rm : RM) (ib8 : Bool) (b : VecW) (j : Nat) {e : Nat} (he : e < 32) :
    dequant fp32 rm ib8 (dequantBlock ib8 b j) e =
      (let sm := signMag ib8 (readHeader ib8 b j) (readCode ib8 b j e)
       let c := readHeader ib8 b j % 1024
       if c / 4 = 255 then (fp32.nan, 0)
       else if c / 4 = 0 ∨ sm.2 = 0 then (0, 0)
       else
        let r := fp32.round rm sm.1 (sm.2 * s10unit c) (unitExp ib8) false
        if r.2 &&& fOF = 0 then r else (fp32.infinity sm.1, fOF)) := by
  rw [dequant, leAt_dequantBlock]
  cases ib8 with
  | false =>
    rw [if_neg Bool.false_ne_true, fa4El_dequantBlock b j he]
    rfl
  | true =>
    rw [if_pos rfl, ib8El_dequantBlock b j he]
    rfl

theorem signed_mul_right (neg : Bool) (x y : Rat) : signed neg x * y = signed neg (x * y) := by cases neg <;> simp [signed]

theorem signed_neg {neg : Bool} {x : Rat} (hx : 0 < x) : decide (signed neg x < 0) = neg := by
  cases neg <;> simp [signed, hx, hx.le]

/-- A scaled element rounded is exact, or beyond the range. -/
theorem round_scaled (rm : RM) (ib8 neg : Bool) {m c : Nat} (hm : m ≠ 0) (hlt : m < 128) (hc : 4 ≤ c) (hc' : c < 1024) :
    let v := signed neg ((m : Rat) / if ib8 then 1 else 2) * scaleOf c
    let r := fp32.round rm neg (m * s10unit c) (unitExp ib8) false
    let q := mk32 (if r.2 &&& fOF = 0 then r else (fp32.infinity neg, fOF))
    if p2 128 ≤ mag v then q = (infW (decide (v < 0)), fOF) else q.2 = 0 ∧ nan q.1 = false ∧ inf q.1 = false ∧ fval q.1 = v := by
  intro v r q
  have hn : m * s10unit c ≠ 0 := Nat.mul_ne_zero hm (s10unit_pos c).ne'
  have hv : v = signed neg (((m * s10unit c : Nat) : Rat) * p2 (unitExp ib8)) := by
    rw [← scaled_mag ib8 m hc', ← signed_mul_right]
  have hpos := nat_mul_p2_pos hn (unitExp ib8)
  have hfits := fits_scaled ib8 hlt hc
  have hround : Rounded 23 rm neg _ r.1 r.2 := rounded_round_exact fp32 rm neg (unitExp ib8) hn
  have hneg : decide (v < 0) = neg := by rw [hv, signed_neg hpos]
  have hmag : mag v = ((m * s10unit c : Nat) : Rat) * p2 (unitExp ib8) := by rw [hv, mag_signed hpos.le]
  rw [hmag, hneg]
  split
  · next hover =>
    have hq : q = mk32 (fp32.infinity neg, fOF) := congrArg mk32 (if_neg (by rw [(hround.overflow hover).1]; decide))
    rw [hq, mk32, ofNat_infinity]
  · next hrange =>
    have hexact : r.2 = 0 := (hround.exact hfits (not_le.mp hrange)).1
    have hq : q = mk32 r := congrArg mk32 (if_pos (by rw [hexact]; decide))
    obtain ⟨hflags, hfin, hval⟩ := hround.mk32.exact hfits (not_le.mp hrange)
    obtain ⟨hnan, hinf⟩ := finite_lane hfin
    rw [hq]
    exact ⟨hflags, hnan, hinf, by rw [hround.mk32.fval_lane, hval, hv]⟩

theorem dequantised_iff {ib8 : Bool} {b : VecW} {j e : Nat} {r : BitVec 32 × Byte} : Dequantised ib8 b j e r ↔
    (let y := codeValue ib8 (readHeader ib8 b j) (readCode ib8 b j e)
     let v := y * scaleOf (readHeader ib8 b j % 1024)
     if readHeader ib8 b j / 4 % 256 = 255 then r = (0x7FC00000, 0)
     else if readHeader ib8 b j / 4 % 256 = 0 ∨ y = 0 then r = (0, 0)
     else if p2 128 ≤ mag v then r = (infW (decide (v < 0)), fOF)
     else r.2 = 0 ∧ nan r.1 = false ∧ inf r.1 = false ∧ fval r.1 = v) := Iff.rfl

theorem dequantised_dequant (rm : RM) (ib8 : Bool) (b : VecW) (j : Nat) {e : Nat} (he : e < 32) :
    Dequantised ib8 b j e (mk32 (dequant fp32 rm ib8 (dequantBlock ib8 b j) e)) := by
  have hvalue := codeValue_eq (hdr := readHeader ib8 b j) (readCode_lt ib8 b j e)
  have hlt := signMag_lt ib8 (readHeader ib8 b j) (readCode ib8 b j e)
  have hcode : readHeader ib8 b j / 4 % 256 = readHeader ib8 b j % 1024 / 4 := by omega
  have hc : readHeader ib8 b j % 1024 < 1024 := Nat.mod_lt _ (by decide)
  rw [dequantised_iff, dequant_eq rm ib8 b j he, hvalue, hcode]
  generalize signMag ib8 (readHeader ib8 b j) (readCode ib8 b j e) = sm at *
  generalize readHeader ib8 b j % 1024 = c at *
  have hzero : signed sm.1 ((sm.2 : Rat) / if ib8 then 1 else 2) = 0 ↔ sm.2 = 0 := by
    rw [signed_eq_zero, div_eq_zero_iff, or_iff_left (by split <;> norm_num), Nat.cast_eq_zero]
  simp only [hzero]
  by_cases hnan : c / 4 = 255
  · simp only [if_pos hnan]
    rfl
  by_cases hnone : c / 4 = 0 ∨ sm.2 = 0
  · simp only [if_neg hnan, if_pos hnone]
    rfl
  simp only [if_neg hnan, if_neg hnone]
  obtain ⟨hcne, hm⟩ := not_or.mp hnone
  exact round_scaled rm ib8 sm.1 hm hlt (by omega) hc

/-! ### One value per block (06_vector.md R183) -/

theorem perBlock_spec (f : Nat → BitVec 32 × Byte) : (∀ i < 128, lane (perBlock f).1 i = if i < 4 then (f i).1 else 0) ∧
    AllFlags 4 (fun i => (f i).2) (perBlock f).2 :=
  ⟨fun i hi => lane_ofLanes _ i hi, allFlags_orAll 4 _⟩

/-! ### narrow (06_vector.md R180) -/

theorem narrowCode_eq (x : VIn) : ((lane x.c 0).extractLsb' 0 2).toNat = (lane x.c 0).toNat % 4 := by simp [BitVec.extractLsb'_toNat]

theorem narrowEl_eq (x : VIn) (j : Nat) : narrowEl x j = narrowOf x j := by
  rw [narrowEl, narrowOf, narrowCode_eq]
  have hk : (lane x.c 0).toNat % 4 < 4 := Nat.mod_lt _ (by decide)
  generalize (lane x.c 0).toNat % 4 = k at *
  interval_cases k <;> simp only [narrowInt, narrowed] <;> split <;> rfl

theorem narrowVec_spec (x : VIn) : if (lane x.c 0).toNat % 4 < 2 then
      (∀ j < 256, half (narrowVec x).1 j = BitVec.ofInt 16 (narrowOf x j).1) ∧ AllFlags 256 (fun j => (narrowOf x j).2) (narrowVec x).2
    else (∀ j < 512, vbyte (narrowVec x).1 j = BitVec.ofInt 8 (narrowOf x j).1) ∧ AllFlags 512 (fun j => (narrowOf x j).2) (narrowVec x).2 := by
  simp only [narrowVec, narrowCode_eq, narrowEl_eq]
  split
  · exact ⟨fun j hj => half_ofHalves _ j hj, allFlags_orAll 256 _⟩
  · exact ⟨fun j hj => vbyte_ofBytes _ j hj, allFlags_orAll 512 _⟩

/-! ### widen (06_vector.md R181) -/

/-- A field of n bits in one of m, by its sign or not. -/
def widenField {n : Nat} (m : Nat) (sign : Bool) (v : BitVec n) : BitVec m := if sign then v.signExtend m else v.setWidth m

theorem toInt_widenField {n m : Nat} (h : n ≤ m) (v : BitVec n) : (widenField m true v).toInt = v.toInt := BitVec.toInt_signExtend_of_le h

theorem toNat_widenField {n m : Nat} (h : n ≤ m) (v : BitVec n) : (widenField m false v).toNat = v.toNat := by
  rw [widenField, if_neg Bool.false_ne_true, BitVec.toNat_setWidth]
  exact Nat.mod_eq_of_lt (v.isLt.trans_le (Nat.pow_le_pow_right two_pos h))

theorem widenVec_eq (x : VIn) : (widenVec x).1 = (let k := (lane x.c 0).toNat % 8
    if k < 4 then ofLanes (fun i => widenField 32 (decide (k < 2)) (half x.b (128 * (k % 2) + i)))
    else ofHalves (fun i => widenField 16 (decide (k < 6)) (vbyte x.b (256 * (k % 2) + i)))) := by
  have hcode : ((lane x.c 0).extractLsb' 0 3).toNat = (lane x.c 0).toNat % 8 := by simp [BitVec.extractLsb'_toNat]
  have hk : (lane x.c 0).toNat % 8 < 8 := Nat.mod_lt _ (by decide)
  rw [widenVec, hcode]
  generalize (lane x.c 0).toNat % 8 = k at *
  interval_cases k <;> simp [widenField]

/-- Settles O7: the written attempt is the first that does not overflow or the last there may be, and a dequantised product has few
enough bits to be exact. -/
theorem blockRules : Obligations.BlockRules := by
  intro x
  refine ⟨fun ib8 => ?_, fun ib8 => ?_, fun j _ => ⟨bmaxLane_blockEls x j, fun ib8 => qscaleLane_blockEls ib8 x j⟩, perBlock_spec,
    narrowVec_spec x, rfl, fun i => ⟨fun hi hk => ?_, fun hi hk => ?_⟩⟩
  · exact ⟨_, _, _, fun j hj => ⟨(quantisedBlock_quantise ib8 x j).1, fun i hi => vbyte_quantVec ib8 x hj hi⟩,
      fun i hi h => vbyte_quantVec_rest ib8 x hi h, allFlags_orAll 4 _⟩
  · refine ⟨fun j e => mk32 (dequant fp32 x.rm ib8 (dequantBlock ib8 x.b j) e), fun j hj e he => ⟨dequantised_dequant x.rm ib8 x.b j he, ?_⟩,
      allFlags_orAll 128 _⟩
    refine (lane_ofLanes _ _ (by omega)).trans ?_
    have hj' : (32 * j + e) / 32 = j := by omega
    have he' : (32 * j + e) % 32 = e := by omega
    simp only [hj', he']
    rfl
  · rw [widenVec_eq]
    simp only [hk, if_true, lane_ofLanes _ i hi]
    refine ⟨fun h => ?_, fun h => ?_⟩
    · rw [decide_eq_true h, toInt_widenField (by decide)]
    · rw [decide_eq_false (by omega), toNat_widenField (by decide)]
  · rw [widenVec_eq]
    simp only [not_lt.mpr hk, if_false, half_ofHalves _ i hi]
    refine ⟨fun h => ?_, fun h => ?_⟩
    · rw [decide_eq_true h, toInt_widenField (by decide)]
    · rw [decide_eq_false (by omega), toNat_widenField (by decide)]

end Sys2Proof.Claims
end

section
/-! The encoding of moves (03_encoding.md R62, R65 to R72): each field of a move word is read back as it was put in, each table of
registers, sources and triggers is inverse to its encoder, and so are the eight words of a bundle and their 24 bytes. -/

namespace Sys2Proof

/-! ### The fields of a move word (03_encoding.md R65) -/

section
variable (unit : BitVec 3) (port : BitVec 7) (m : Mv)

theorem packMove_source : (packMove unit port m).extractLsb' 0 11 = encodeSrc m.src := by
  rw [packMove, BitVec.extractLsb'_append_eq_of_add_le (by decide), BitVec.extractLsb'_append_eq_of_add_le (by decide),
    BitVec.extractLsb'_append_eq_right]

theorem packMove_port : (packMove unit port m).extractLsb' 11 7 = port := by
  rw [packMove, BitVec.extractLsb'_append_eq_of_add_le (by decide), BitVec.extractLsb'_append_eq_of_add_le (by decide),
    BitVec.extractLsb'_append_eq_left]

theorem packMove_unit : (packMove unit port m).extractLsb' 18 3 = unit := by
  rw [packMove, BitVec.extractLsb'_append_eq_of_add_le (by decide), BitVec.extractLsb'_append_eq_left]

theorem packMove_guard : (packMove unit port m).extractLsb' 21 3 = m.g := by
  rw [packMove, BitVec.extractLsb'_append_eq_left]

end

/-- A word is put together from its own fields, so that no bit of it is dropped. -/
theorem packMove_fields (w : BitVec 24) {x : Src} (h : encodeSrc x = w.extractLsb' 0 11) :
    packMove (w.extractLsb' 18 3) (w.extractLsb' 11 7) ⟨w.extractLsb' 21 3, x⟩ = w := by
  rw [packMove, h, BitVec.extractLsb'_append_extractLsb'_eq_extractLsb' (by decide),
    BitVec.extractLsb'_append_extractLsb'_eq_extractLsb' (by decide),
    BitVec.extractLsb'_append_extractLsb'_eq_extractLsb' (by decide), BitVec.extractLsb'_eq_self]

/-! ### Sources (03_encoding.md R72) -/

section
variable (k : BitVec 2) (e : Bool) (n : BitVec 8)

theorem srcBits_kind : (srcBits k e n).extractLsb' 9 2 = k := by
  rw [srcBits]; exact BitVec.extractLsb'_append_eq_left

theorem srcBits_index : (srcBits k e n).extractLsb' 0 8 = n := by
  rw [srcBits, BitVec.extractLsb'_append_eq_of_add_le (by decide), BitVec.extractLsb'_append_eq_right]

theorem srcBits_empty : (srcBits k e n).getLsbD 8 = e := by
  rw [srcBits, BitVec.getLsbD_append, if_pos (by decide), BitVec.getLsbD_append, if_neg (by decide)]
  simp

end

/-- The bits of a source are put together from its own fields. -/
theorem srcBits_fields (b : BitVec 11) : srcBits (b.extractLsb' 9 2) (b.getLsbD 8) (b.extractLsb' 0 8) = b := by
  have he : BitVec.ofBool (b.getLsbD 8) = b.extractLsb' 8 1 := by
    ext i hi
    obtain rfl : i = 0 := by omega
    simp
  rw [srcBits, he, BitVec.extractLsb'_append_extractLsb'_eq_extractLsb' (by decide),
    BitVec.extractLsb'_append_extractLsb'_eq_extractLsb' (by decide), BitVec.extractLsb'_eq_self]

/-- The place in a table that a number stands for, and the number of a place, for a part of the table that begins at k. -/
theorem ofNat_add_sub {size : Nat} [NeZero size] (k : Nat) (i : Fin size) : Fin.ofNat size (k + i.val - k) = i := by
  rw [Nat.add_sub_cancel_left, Fin.ofNat_val_eq_self]

theorem add_ofNat_sub {size k n : Nat} [NeZero size] (hk : k ≤ n) (hn : n < k + size) : k + (Fin.ofNat size (n - k)).val = n := by
  rw [Fin.val_ofNat, Nat.mod_eq_of_lt (by omega), Nat.add_sub_cancel' hk]

section
variable (e : Bool)

theorem decodeSrc_scalar {n : Nat} (h : n < 256) : decodeSrc (srcBits 0 e (BitVec.ofNat 8 n)) = scalarSrc e n := by
  simp only [decodeSrc, srcBits_kind, srcBits_index, srcBits_empty, BitVec.toNat_ofNat, Nat.mod_eq_of_lt h]
  rfl

theorem decodeSrc_vector {n : Nat} (h : n < 256) : decodeSrc (srcBits 1 e (BitVec.ofNat 8 n)) = vectorSrc e n := by
  simp only [decodeSrc, srcBits_kind, srcBits_index, srcBits_empty, BitVec.toNat_ofNat, Nat.mod_eq_of_lt h]
  rfl

theorem scalarSrc_s (i : Fin 64) : scalarSrc e i.val = some (.reg (.s i) e) := by
  unfold scalarSrc
  rw [if_pos (by omega), Fin.ofNat_val_eq_self]

theorem scalarSrc_o (i : Fin 16) : scalarSrc e (64 + i.val) = some (.reg (.o i) e) := by
  unfold scalarSrc
  rw [if_neg (by omega), if_pos (by omega), ofNat_add_sub]

theorem scalarSrc_a (i : Fin 8) : scalarSrc e (80 + i.val) = some (.reg (.a i) e) := by
  unfold scalarSrc
  rw [if_neg (by omega), if_neg (by omega), if_pos (by omega), ofNat_add_sub]

theorem scalarSrc_g (i : Fin 7) : scalarSrc e (88 + i.val) = some (.reg (.g i) e) := by
  unfold scalarSrc
  rw [if_neg (by omega), if_neg (by omega), if_neg (by omega), if_pos (by omega), ofNat_add_sub]

theorem scalarSrc_bind (i : Fin 16) : scalarSrc e (96 + i.val) = some (.bind i e) := by
  unfold scalarSrc
  rw [if_neg (by omega), if_neg (by omega), if_neg (by omega), if_neg (by omega), if_neg (by omega), if_pos (by omega), ofNat_add_sub]

theorem scalarSrc_lndS (i : Fin 64) : scalarSrc e (128 + i.val) = some (.lndS i e) := by
  unfold scalarSrc
  rw [if_neg (by omega), if_neg (by omega), if_neg (by omega), if_neg (by omega), if_neg (by omega), if_neg (by omega),
    if_neg (by omega), if_neg (by omega), if_pos (by omega), ofNat_add_sub]

theorem vectorSrc_v (i : Fin 32) : vectorSrc e i.val = some (.reg (.v i) e) := by
  unfold vectorSrc
  rw [if_pos (by omega), Fin.ofNat_val_eq_self]

theorem vectorSrc_vm (i : Fin 8) : vectorSrc e (32 + i.val) = some (.reg (.vm i) e) := by
  unfold vectorSrc
  rw [if_neg (by omega), if_pos (by omega), ofNat_add_sub]

theorem vectorSrc_lndV (i : Fin 64) : vectorSrc e (64 + i.val) = some (.lndV i e) := by
  unfold vectorSrc
  rw [if_neg (by omega), if_neg (by omega), if_neg (by omega), if_neg (by omega), if_pos (by omega), ofNat_add_sub]

/-- A source comes back from its bits. -/
theorem decodeSrc_encodeSrc (x : Src) : decodeSrc (encodeSrc x) = some x := by
  cases x with
  | reg r e =>
    cases r with
    | s i => exact (decodeSrc_scalar e (by omega)).trans (scalarSrc_s e i)
    | o i => exact (decodeSrc_scalar e (by omega)).trans (scalarSrc_o e i)
    | a i => exact (decodeSrc_scalar e (by omega)).trans (scalarSrc_a e i)
    | g i => exact (decodeSrc_scalar e (by omega)).trans (scalarSrc_g e i)
    | v i => exact (decodeSrc_vector e (by omega)).trans (vectorSrc_v e i)
    | vm i => exact (decodeSrc_vector e (by omega)).trans (vectorSrc_vm e i)
  | bind i e => exact (decodeSrc_scalar e (by omega)).trans (scalarSrc_bind e i)
  | port p e => cases p <;> cases e <;> rfl
  | lndS n e => exact (decodeSrc_scalar e (by omega)).trans (scalarSrc_lndS e n)
  | lndV n e => exact (decodeSrc_vector e (by omega)).trans (vectorSrc_lndV e n)
  | const i e =>
    simp only [encodeSrc, decodeSrc, srcBits_kind, srcBits_index, srcBits_empty]
    rfl
  | lit x =>
    have hx : ((3 : BitVec 2) ++ x).extractLsb' 0 9 = x := BitVec.extractLsb'_append_eq_right
    have hk : ((3 : BitVec 2) ++ x).extractLsb' 9 2 = 3 := BitVec.extractLsb'_append_eq_left
    simp only [encodeSrc, decodeSrc, hx, hk]
    rfl

end

/-- A scalar source that an index names has that index in its bits. -/
theorem encodeSrc_of_scalarSrc {e : Bool} {n : Nat} {x : Src} (h : scalarSrc e n = some x) :
    encodeSrc x = srcBits 0 e (BitVec.ofNat 8 n) := by
  have bits {j : Nat} (hj : j = n) : srcBits 0 e (BitVec.ofNat 8 j) = srcBits 0 e (BitVec.ofNat 8 n) := by rw [hj]
  unfold scalarSrc at h
  split_ifs at h with h1 h2 h3 h4 h5 h6 h7 h8 h9
  · cases h
    exact bits (Nat.mod_eq_of_lt h1)
  · cases h
    exact bits (add_ofNat_sub (by omega) h2)
  · cases h
    exact bits (add_ofNat_sub (by omega) h3)
  · cases h
    exact bits (add_ofNat_sub (by omega) h4)
  · cases h
    exact bits (add_ofNat_sub (by omega) h6)
  · interval_cases n <;> cases h <;> rfl
  · cases h
    exact bits (add_ofNat_sub (by omega) h9)

/-- A vector source that an index names has that index in its bits. -/
theorem encodeSrc_of_vectorSrc {e : Bool} {n : Nat} {x : Src} (h : vectorSrc e n = some x) :
    encodeSrc x = srcBits 1 e (BitVec.ofNat 8 n) := by
  have bits {j : Nat} (hj : j = n) : srcBits 1 e (BitVec.ofNat 8 j) = srcBits 1 e (BitVec.ofNat 8 n) := by rw [hj]
  unfold vectorSrc at h
  split_ifs at h with h1 h2 h3 h4 h5
  · cases h
    exact bits (Nat.mod_eq_of_lt h1)
  · cases h
    exact bits (add_ofNat_sub (by omega) h2)
  · interval_cases n <;> cases h <;> rfl
  · cases h
    exact bits (add_ofNat_sub (by omega) h5)

theorem toNat_eq_three {k : BitVec 2} (h0 : k.toNat ≠ 0) (h1 : k.toNat ≠ 1) (h2 : k.toNat ≠ 2) : k.toNat = 3 := by
  have := k.isLt
  omega

/-- Bits that name a source are the bits of that source. -/
theorem encodeSrc_of_decodeSrc {b : BitVec 11} {x : Src} (h : decodeSrc b = some x) : encodeSrc x = b := by
  have kind {j : Nat} (hj : (b.extractLsb' 9 2).toNat = j) : BitVec.ofNat 2 j = b.extractLsb' 9 2 := by
    rw [← hj, BitVec.ofNat_toNat, BitVec.setWidth_eq]
  unfold decodeSrc at h
  split at h
  case h_1 h0 => rw [encodeSrc_of_scalarSrc h, BitVec.ofNat_toNat, BitVec.setWidth_eq, show (0 : BitVec 2) = _ from kind h0, srcBits_fields]
  case h_2 h1 => rw [encodeSrc_of_vectorSrc h, BitVec.ofNat_toNat, BitVec.setWidth_eq, show (1 : BitVec 2) = _ from kind h1, srcBits_fields]
  case h_3 h2 =>
    cases h
    exact (congrArg (srcBits · _ _) (kind h2)).trans (srcBits_fields b)
  case h_4 h0 h1 h2 =>
    have h3 : (b.extractLsb' 9 2).toNat = 3 := toNat_eq_three h0 h1 h2
    cases h
    rw [encodeSrc, show (3 : BitVec 2) = b.extractLsb' 9 2 from kind h3,
      BitVec.extractLsb'_append_extractLsb'_eq_extractLsb' (by decide), BitVec.extractLsb'_eq_self]

/-! ### Destinations (03_encoding.md R66 to R71) -/

theorem sdestOfNat_port (d : SDest) : sdestOfNat d.port.toNat = some d := by
  cases d with
  | s i =>
    rw [SDest.port, BitVec.toNat_ofNat, Nat.mod_eq_of_lt (by omega), sdestOfNat, if_pos (by omega), Fin.ofNat_val_eq_self]
  | o i =>
    rw [SDest.port, BitVec.toNat_ofNat, Nat.mod_eq_of_lt (by omega), sdestOfNat, if_neg (by omega), if_pos (by omega), ofNat_add_sub]
  | a i =>
    rw [SDest.port, BitVec.toNat_ofNat, Nat.mod_eq_of_lt (by omega), sdestOfNat, if_neg (by omega), if_neg (by omega),
      if_pos (by omega), ofNat_add_sub]
  | g i =>
    rw [SDest.port, BitVec.toNat_ofNat, Nat.mod_eq_of_lt (by omega), sdestOfNat, if_neg (by omega), if_neg (by omega),
      if_neg (by omega), if_pos (by omega), ofNat_add_sub]
  | bind i =>
    rw [SDest.port, BitVec.toNat_ofNat, Nat.mod_eq_of_lt (by omega), sdestOfNat, if_neg (by omega), if_neg (by omega),
      if_neg (by omega), if_neg (by omega), if_neg (by omega), if_pos (by omega), ofNat_add_sub]

theorem port_of_sdestOfNat {n : Nat} {d : SDest} (h : sdestOfNat n = some d) : d.port = BitVec.ofNat 7 n := by
  unfold sdestOfNat at h
  split_ifs at h with h1 h2 h3 h4 h5 h6
  · cases h
    exact congrArg (BitVec.ofNat 7) (Nat.mod_eq_of_lt h1)
  · cases h
    exact congrArg (BitVec.ofNat 7) (add_ofNat_sub (by omega) h2)
  · cases h
    exact congrArg (BitVec.ofNat 7) (add_ofNat_sub (by omega) h3)
  · cases h
    exact congrArg (BitVec.ofNat 7) (add_ofNat_sub (by omega) h4)
  · cases h
    exact congrArg (BitVec.ofNat 7) (add_ofNat_sub (by omega) h6)

theorem vdestOfNat_port (d : VDest) : vdestOfNat d.port.toNat = some d := by
  cases d with
  | v i =>
    rw [VDest.port, BitVec.toNat_ofNat, Nat.mod_eq_of_lt (by omega), vdestOfNat, if_pos (by omega), Fin.ofNat_val_eq_self]
  | vm i =>
    rw [VDest.port, BitVec.toNat_ofNat, Nat.mod_eq_of_lt (by omega), vdestOfNat, if_neg (by omega), if_pos (by omega), ofNat_add_sub]

theorem port_of_vdestOfNat {n : Nat} {d : VDest} (h : vdestOfNat n = some d) : d.port = BitVec.ofNat 7 n := by
  unfold vdestOfNat at h
  split_ifs at h with h1 h2
  · cases h
    exact congrArg (BitVec.ofNat 7) (Nat.mod_eq_of_lt h1)
  · cases h
    exact congrArg (BitVec.ofNat 7) (add_ofNat_sub (by omega) h2)

theorem code_of_oportOfNat {n : Nat} {p : OPort} (h : oportOfNat n = some p) : p.code.toNat = n := by
  unfold oportOfNat at h
  split at h <;> cases h <;> rfl

theorem code_of_engOfCode {n : Nat} {e : Eng} (h : engOfCode n = some e) : e.code = n := by
  unfold engOfCode at h
  split at h <;> cases h <;> rfl

/-- The ports m and w that a slot reaches are those of its engine. -/
theorem hasPort_slotEng (slot : Fin 8) (p : OPort) : hasPort (slotEng slot.val) p = slotHasPort slot.val p := by
  match slot with | 0 | 1 | 2 | 3 | 4 | 5 | 6 | 7 => cases p <;> rfl

/-! ### Moves and triggers -/

/-- What the fields of a move word stand for in a slot: the decoder after the source (03_encoding.md R66 to R71, R91 to R96). -/
def decodeFields (slot : Fin 8) (unit : BitVec 3) (port : BitVec 7) (m : Mv) : Option Instr :=
  match unit.toNat with
  | 0 => decodeUnit0 slot m port.toNat
  | 1 => if port.toNat < 8 then decodeOwnPort slot m port.toNat else decodeTrigger slot m port.toNat
  | 2 => decodeUnit2 slot m port.toNat
  | 3 => decodeXport slot m port
  | _ => none

theorem decodeMove_eq (slot : Fin 8) (w : BitVec 24) : decodeMove slot w = (decodeSrc (w.extractLsb' 0 11)).bind fun x =>
    decodeFields slot (w.extractLsb' 18 3) (w.extractLsb' 11 7) ⟨w.extractLsb' 21 3, x⟩ := by
  unfold decodeMove
  cases decodeSrc (w.extractLsb' 0 11) <;> rfl

theorem decodeMove_packMove (slot : Fin 8) (unit : BitVec 3) (port : BitVec 7) (m : Mv) :
    decodeMove slot (packMove unit port m) = decodeFields slot unit port m := by
  rw [decodeMove_eq, packMove_source, decodeSrc_encodeSrc, packMove_unit, packMove_port, packMove_guard]
  rfl

theorem decodeXport_port (slot : Fin 8) {e : Eng} {p : OPort} (m : Mv) (h : hasPort e p = true) :
    decodeXport slot m (BitVec.ofNat 4 e.code ++ p.code.extractLsb' 0 3) = some (.moveXport slot e p m) := by
  have hp : oportOfNat (p.code.extractLsb' 0 3).toNat = some p := by cases p <;> rfl
  have he : engOfCode (BitVec.ofNat 4 e.code).toNat = some e := by cases e <;> rfl
  rw [decodeXport, BitVec.extractLsb'_append_eq_left, BitVec.extractLsb'_append_eq_right, he, hp]
  exact if_pos h

theorem decodeUnit2_operand (c : CSlot) {p : OPort} (m : Mv) (h : (p == .o || p == .o2) = true) :
    decodeUnit2 (Fin.ofNat 8 c.slot) m p.code.toNat = some (.moveColOperand c p m) := by
  cases p <;> cases h <;> cases c <;> rfl

theorem decodeOwnPort_code {slot : Fin 8} {p : OPort} (m : Mv) (h : slotHasPort slot.val p = true) :
    decodeOwnPort slot m p.code.toNat = some (.moveOperandPort slot p m) := by
  have hp : oportOfNat p.code.toNat = some p := by cases p <;> rfl
  rw [decodeOwnPort, hp]
  exact if_pos ((hasPort_slotEng slot p).trans h)

/-- The fields of a well-formed instruction stand for it. -/
theorem decodeFields_of_fields {i : Instr} {slot : Fin 8} {unit : BitVec 3} {port : BitVec 7} {m : Mv} (hwf : i.wf = true)
    (h : i.fields = some (slot.val, unit, port, m)) : decodeFields slot unit port m = some i := by
  obtain ⟨k, hk⟩ : ∃ k, slot.val = k := ⟨_, rfl⟩
  obtain rfl : slot = Fin.ofNat 8 k := by rw [← hk, Fin.ofNat_val_eq_self]
  rw [hk] at h
  clear hk
  cases i with
  | moveSreg s d _ =>
    cases h
    rw [Fin.ofNat_val_eq_self]
    have hs : s.val = 0 ∨ s.val = 1 ∨ s.val = 7 := by simpa [Instr.wf, or_assoc] using hwf
    show decodeUnit0 s m d.port.toNat = _
    rw [decodeUnit0, if_pos hs, sdestOfNat_port]
    rfl
  | moveVreg s d _ =>
    cases h
    rw [Fin.ofNat_val_eq_self]
    have hs : s.val = 2 ∨ s.val = 3 := by simpa [Instr.wf] using hwf
    show decodeUnit0 s m d.port.toNat = _
    rw [decodeUnit0, if_neg (by omega), if_pos hs, vdestOfNat_port]
    rfl
  | moveVregSlot7 d _ =>
    cases h
    exact congrArg (Option.map (Instr.moveVregSlot7 · m)) (vdestOfNat_port d)
  | moveOperandPort s p _ =>
    cases h
    rw [Fin.ofNat_val_eq_self]
    refine (if_pos ?_).trans (decodeOwnPort_code m hwf)
    cases p <;> decide
  | moveColOperand c p _ =>
    cases h
    exact decodeUnit2_operand c m hwf
  | moveXport s e p _ =>
    cases h
    rw [Fin.ofNat_val_eq_self]
    exact decodeXport_port s m hwf
  | _ =>
    try casesm* VUnit, CUnit, CSlot
    all_goals cases h
    all_goals rfl

/-- An instruction is well-formed and has a move word of these fields. -/
def HasFields (i : Instr) (slot : Nat) (unit : BitVec 3) (port : BitVec 7) (m : Mv) : Prop :=
  i.wf = true ∧ i.fields = some (slot, unit, port, m)

section
variable {m : Mv} {p : Nat} {i : Instr}

theorem hasFields_of_decodeCtl (h : decodeCtl m p = some i) : HasFields i 0 1 (BitVec.ofNat 7 p) m := by
  unfold decodeCtl at h
  split at h <;> cases h <;> exact ⟨rfl, rfl⟩

theorem hasFields_of_decodeSca (h : decodeSca m p = some i) : HasFields i 1 1 (BitVec.ofNat 7 p) m := by
  unfold decodeSca at h
  split at h <;> cases h <;> exact ⟨rfl, rfl⟩

theorem hasFields_of_decodeMem (h : decodeMem m p = some i) : HasFields i 7 1 (BitVec.ofNat 7 p) m := by
  unfold decodeMem at h
  split at h <;> cases h <;> exact ⟨rfl, rfl⟩

theorem hasFields_of_decodeVec {u : VUnit} (h : decodeVec u m p = some i) : HasFields i u.eng.slot 1 (BitVec.ofNat 7 p) m := by
  unfold decodeVec at h
  split at h <;> cases h <;> exact ⟨rfl, rfl⟩

theorem hasFields_of_decodeStr (h : decodeStr m p = some i) : HasFields i 4 1 (BitVec.ofNat 7 p) m := by
  unfold decodeStr at h
  split at h <;> cases h <;> exact ⟨rfl, rfl⟩

theorem hasFields_of_decodeCpy {u : CUnit} (h : decodeCpy u m p = some i) : HasFields i u.eng.slot 1 (BitVec.ofNat 7 p) m := by
  unfold decodeCpy at h
  split at h <;> cases h <;> exact ⟨rfl, rfl⟩

/-- A COL port or trigger that decodes has these fields. -/
theorem hasFields_of_decodeColUnit {c : CSlot} (h : decodeUnit2.decodeColUnit c m p = some i) :
    HasFields i c.slot 2 (BitVec.ofNat 7 p) m := by
  unfold decodeUnit2.decodeColUnit at h
  split at h
  · cases h; exact ⟨rfl, rfl⟩
  · cases h; exact ⟨rfl, rfl⟩
  · unfold decodeCol at h
    split at h <;> cases h <;> exact ⟨rfl, rfl⟩

theorem hasFields_of_decodeTrigger {slot : Fin 8} (h : decodeTrigger slot m p = some i) :
    HasFields i slot.val 1 (BitVec.ofNat 7 p) m := by
  match slot with
  | 0 => exact hasFields_of_decodeCtl h
  | 1 => exact hasFields_of_decodeSca h
  | 2 => exact hasFields_of_decodeVec (u := .v0) h
  | 3 => exact hasFields_of_decodeVec (u := .v1) h
  | 4 => exact hasFields_of_decodeStr h
  | 5 => exact hasFields_of_decodeCpy (u := .c0) h
  | 6 => exact hasFields_of_decodeCpy (u := .c1) h
  | 7 => exact hasFields_of_decodeMem h

theorem hasFields_of_decodeOwnPort {slot : Fin 8} (h : decodeOwnPort slot m p = some i) :
    HasFields i slot.val 1 (BitVec.ofNat 7 p) m := by
  unfold decodeOwnPort at h
  split at h
  · next q hq =>
    split_ifs at h with hs
    cases h
    rw [hasPort_slotEng] at hs
    exact ⟨hs, by rw [← code_of_oportOfNat hq, BitVec.ofNat_toNat, BitVec.setWidth_eq]; rfl⟩
  · cases h

theorem hasFields_of_decodeUnit0 {slot : Fin 8} (h : decodeUnit0 slot m p = some i) :
    HasFields i slot.val 0 (BitVec.ofNat 7 p) m := by
  unfold decodeUnit0 at h
  split_ifs at h with hs hv
  · obtain ⟨d, hd, rfl⟩ := Option.map_eq_some_iff.mp h
    exact ⟨by simpa [Instr.wf, or_assoc] using hs, by rw [← port_of_sdestOfNat hd]; rfl⟩
  · obtain ⟨d, hd, rfl⟩ := Option.map_eq_some_iff.mp h
    exact ⟨by simpa [Instr.wf] using hv, by rw [← port_of_vdestOfNat hd]; rfl⟩

theorem hasFields_of_decodeUnit2 {slot : Fin 8} (h : decodeUnit2 slot m p = some i) :
    HasFields i slot.val 2 (BitVec.ofNat 7 p) m := by
  unfold decodeUnit2 at h
  split at h
  case h_1 hs => rw [hs]; exact hasFields_of_decodeColUnit h
  case h_2 hs => rw [hs]; exact hasFields_of_decodeColUnit h
  case h_3 hs =>
    obtain ⟨d, hd, rfl⟩ := Option.map_eq_some_iff.mp h
    exact ⟨rfl, by rw [← port_of_vdestOfNat hd, hs]; rfl⟩
  case h_4 => cases h

theorem hasFields_of_decodeXport {slot : Fin 8} {d : BitVec 7} (h : decodeXport slot m d = some i) :
    HasFields i slot.val 3 d m := by
  unfold decodeXport at h
  split at h
  · next e q he hq =>
    split_ifs at h with hp
    cases h
    have hcode : BitVec.ofNat 4 e.code = d.extractLsb' 3 4 := by
      rw [code_of_engOfCode he, BitVec.ofNat_toNat, BitVec.setWidth_eq]
    have hport : q.code.extractLsb' 0 3 = d.extractLsb' 0 3 := by
      have hlow : (q.code.extractLsb' 0 3).toNat = q.code.toNat := by cases q <;> rfl
      exact BitVec.eq_of_toNat_eq (hlow.trans (code_of_oportOfNat hq))
    refine ⟨hp, ?_⟩
    rw [Instr.fields, hcode, hport, BitVec.extractLsb'_append_extractLsb'_eq_extractLsb' (by decide), BitVec.extractLsb'_eq_self]
  · cases h

end

/-- What the fields of a move word stand for is well-formed and has these fields. -/
theorem hasFields_of_decodeFields {slot : Fin 8} {unit : BitVec 3} {port : BitVec 7} {m : Mv} {i : Instr}
    (h : decodeFields slot unit port m = some i) : HasFields i slot.val unit port m := by
  have num {n : Nat} (hn : unit.toNat = n) : unit = BitVec.ofNat 3 n := by rw [← hn, BitVec.ofNat_toNat, BitVec.setWidth_eq]
  have hport : BitVec.ofNat 7 port.toNat = port := by rw [BitVec.ofNat_toNat, BitVec.setWidth_eq]
  unfold decodeFields at h
  split at h
  case h_1 h0 => rw [num h0, ← hport]; exact hasFields_of_decodeUnit0 h
  case h_2 h1 =>
    rw [num h1, ← hport]
    split_ifs at h
    · exact hasFields_of_decodeOwnPort h
    · exact hasFields_of_decodeTrigger h
  case h_3 h2 => rw [num h2, ← hport]; exact hasFields_of_decodeUnit2 h
  case h_4 h3 => rw [num h3]; exact hasFields_of_decodeXport h
  case h_5 => cases h

/-! ### Words and bundles -/

theorem encode_eq_some {i : Instr} {slot : Nat} {w : BitVec 24} : encode i = some (slot, w) ↔
    ∃ unit port m, i.fields = some (slot, unit, port, m) ∧ packMove unit port m = w := by
  unfold encode
  cases i.fields with
  | none => simp
  | some f => 
    obtain ⟨k, unit, port, m⟩ := f
    simp

/-- The word of a well-formed move decodes, in its slot, to the move itself. -/
theorem decodeMove_of_encode {i : Instr} {slot : Fin 8} {w : BitVec 24} (hwf : i.wf = true) (h : encode i = some (slot.val, w)) :
    decodeMove slot w = some i := by
  obtain ⟨unit, port, m, hf, rfl⟩ := encode_eq_some.mp h
  rw [decodeMove_packMove, decodeFields_of_fields hwf hf]

/-- A word that decodes is the word of the well-formed move it stands for. -/
theorem encode_of_decodeMove {slot : Fin 8} {w : BitVec 24} {i : Instr} (h : decodeMove slot w = some i) :
    i.wf = true ∧ encode i = some (slot.val, w) := by
  rw [decodeMove_eq] at h
  obtain ⟨x, hx, hd⟩ := Option.bind_eq_some_iff.mp h
  obtain ⟨hwf, hf⟩ := hasFields_of_decodeFields hd
  exact ⟨hwf, encode_eq_some.mpr ⟨_, _, _, hf, packMove_fields w (encodeSrc_of_decodeSrc hx)⟩⟩

namespace Machine

theorem leBytes_three (w : BitVec 24) : leBytes 3 w.toNat = [w.extractLsb' 0 8, w.extractLsb' 8 8, w.extractLsb' 16 8] := by
  have byte (k : Nat) : BitVec.ofNat 8 (w.toNat / 2 ^ k) = w.extractLsb' k 8 := by rw [← Nat.shiftRight_eq_div_pow]; rfl
  exact congrArg₂ List.cons (byte 0) (congrArg₂ List.cons (byte 8) (congrArg₂ List.cons (byte 16) rfl))

/-- Words come back from their stored bytes, slot 0 first. -/
theorem bundleWords_stored (ws : List (BitVec 24)) : bundleWords (ws.flatMap (fun w => leBytes 3 w.toNat)) = ws := by
  induction ws with
  | nil => rfl
  | cons w ws ih =>
    rw [List.flatMap_cons, leBytes_three]
    show (w.extractLsb' 16 8 ++ (w.extractLsb' 8 8 ++ w.extractLsb' 0 8)) :: bundleWords (ws.flatMap _) = _
    rw [ih, BitVec.extractLsb'_append_extractLsb'_eq_extractLsb' (by decide),
      BitVec.extractLsb'_append_extractLsb'_eq_extractLsb' (by decide), BitVec.extractLsb'_eq_self]

/-- Settles O54: the word's fields are read back (decodeMove_packMove), the tables are inverse to each other in both directions
(decodeFields_of_fields, hasFields_of_decodeFields), and three bytes make a word again. -/
theorem encodingRoundTrip : Obligations.EncodingRoundTrip :=
  ⟨fun _ _ _ hwf h => decodeMove_of_encode hwf h, fun _ _ _ h => encode_of_decodeMove h, fun ws _ => bundleWords_stored ws⟩

end Machine

end Sys2Proof
end

section
/-! Registers and queues under the updates of a step (03_encoding.md R70, R71, R75, R77): what a register reads after a write, which
registers and queues stay, and what fills when a transfer, an operand entry or a result completes. -/

namespace Sys2Proof.Machine

open Sys2Proof.Claims

/-! ### Registers -/

theorem Ctx.readReg_writeReg (x : Ctx) (r : RegId) (v : Val) : (x.writeReg r v).readReg r = .full (held r v) := by
  cases r with
  | s i => by_cases hi : i.val = 0 <;> simp [Ctx.writeReg, Ctx.readReg, held, hi, Cell.map]
  | _ => simp [Ctx.writeReg, Ctx.readReg, held, Cell.map]

theorem Ctx.readReg_emptyReg (x : Ctx) {r : RegId} (hr : r ≠ .s 0) : (x.emptyReg r).readReg r = .empty := by
  cases r with
  | s i =>
    have hi : i.val ≠ 0 := fun h => hr (congrArg RegId.s (Fin.ext h))
    simp [Ctx.emptyReg, Ctx.readReg, hi, Cell.map]
  | _ => simp [Ctx.emptyReg, Ctx.readReg, Cell.map]

/-- A register that is written or emptied leaves the others. -/
theorem Ctx.readReg_changed_ne {x y : Ctx} {q r : RegId} (hy : y = x.emptyReg r ∨ ∃ v, y = x.writeReg r v) (h : q ≠ r) :
    y.readReg q = x.readReg q := by
  have ne {n : Nat} {f : Fin n → RegId} {i k : Fin n} (hk : f k ≠ f i) : i.val ≠ k.val := fun e => hk (congrArg f (Fin.ext e.symm))
  cases r with
  | s i =>
    obtain rfl | ⟨v, rfl⟩ := hy
    · simp only [Ctx.emptyReg]
      split
      · rfl
      · cases q with
        | s k => simp only [Ctx.readReg, SMap.get_set_ne _ _ _ _ _ (ne h)]
        | _ => rfl
    · exact Ctx.readReg_writeReg_scalar_ne h v
  | o i => cases q with
    | o k => obtain rfl | ⟨v, rfl⟩ := hy <;> simp only [Ctx.writeReg, Ctx.emptyReg, Ctx.readReg, SMap.get_set_ne _ _ _ _ _ (ne h)]
    | _ => obtain rfl | ⟨v, rfl⟩ := hy <;> rfl
  | a i => cases q with
    | a k => obtain rfl | ⟨v, rfl⟩ := hy <;> simp only [Ctx.writeReg, Ctx.emptyReg, Ctx.readReg, SMap.get_set_ne _ _ _ _ _ (ne h)]
    | _ => obtain rfl | ⟨v, rfl⟩ := hy <;> rfl
  | g i => cases q with
    | g k => obtain rfl | ⟨v, rfl⟩ := hy <;> simp only [Ctx.writeReg, Ctx.emptyReg, Ctx.readReg, SMap.get_set_ne _ _ _ _ _ (ne h)]
    | _ => obtain rfl | ⟨v, rfl⟩ := hy <;> rfl
  | v i => cases q with
    | v k => obtain rfl | ⟨v, rfl⟩ := hy <;> simp only [Ctx.writeReg, Ctx.emptyReg, Ctx.readReg, SMap.get_set_ne _ _ _ _ _ (ne h)]
    | _ => obtain rfl | ⟨v, rfl⟩ := hy <;> rfl
  | vm i => cases q with
    | vm k => obtain rfl | ⟨v, rfl⟩ := hy <;> simp only [Ctx.writeReg, Ctx.emptyReg, Ctx.readReg, SMap.get_set_ne _ _ _ _ _ (ne h)]
    | _ => obtain rfl | ⟨v, rfl⟩ := hy <;> rfl

theorem Ctx.readReg_writeReg_ne (x : Ctx) {q r : RegId} (h : q ≠ r) (v : Val) : (x.writeReg r v).readReg q = x.readReg q :=
  Ctx.readReg_changed_ne (.inr ⟨v, rfl⟩) h

theorem Ctx.readReg_emptyReg_ne (x : Ctx) {q r : RegId} (h : q ≠ r) : (x.emptyReg r).readReg q = x.readReg q :=
  Ctx.readReg_changed_ne (.inl rfl) h

theorem Ctx.sameBut_writeReg (x : Ctx) (r : RegId) (v : Val) : sameBut x (x.writeReg r v) := by
  cases r with
  | s i => by_cases hi : i.val = 0 <;> simp [sameBut, Ctx.writeReg, hi]
  | _ => rfl

theorem Ctx.sameBut_emptyReg (x : Ctx) (r : RegId) : sameBut x (x.emptyReg r) := by
  cases r with
  | s i => by_cases hi : i.val = 0 <;> simp [sameBut, Ctx.emptyReg, hi]
  | _ => rfl

/-! ### A register that fills (03_encoding.md R79; 04_scalar_control.md R121) -/

/-- Every register but an address register gives its new value to all that wait for it. -/
theorem Core.fillReg_of_ne_a (c : Core) {r : RegId} (hr : ∀ i, r ≠ .a i) (v : Val) :
    c.fillReg r v = { c with ctx := c.ctx.writeReg r v }.wakeAll (.reg r) (held r v) := by
  cases r with
  | a i => exact absurd rfl (hr i)
  | _ => simp only [Core.fillReg, Ctx.readReg_writeReg]

theorem Core.fillReg_a (c : Core) (i : Fin 8) (v : Val) : c.fillReg (.a i) v = c.fillAreg (.a i) v.toScalar := rfl

/-- k advances of an address register add k strides. -/
theorem advanceN_eq_stepped (k : Nat) (w : Word) : advanceN k w = stepped k w := by
  induction k with
  | zero =>
    have h : w.extractLsb' 0 32 + BitVec.ofNat 32 0 * w.extractLsb' 32 32 = w.extractLsb' 0 32 := by simp
    rw [advanceN, stepped, h, BitVec.extractLsb'_append_extractLsb'_eq_extractLsb' (by decide), BitVec.extractLsb'_eq_self]
  | succ k ih =>
    have h : BitVec.ofNat 32 (k + 1) * w.extractLsb' 32 32 = BitVec.ofNat 32 k * w.extractLsb' 32 32 + w.extractLsb' 32 32 := by
      rw [BitVec.ofNat_add, BitVec.add_mul, BitVec.one_mul]
    rw [advanceN, ih, advance, stepped, BitVec.extractLsb'_append_eq_left, BitVec.extractLsb'_append_eq_right, stepped, h, BitVec.add_assoc]

/-- What a queue entry that waits for an address register receives: w advanced by the slot-4 reads of earlier bundles. -/
def aregGiven (l : List (Nat × Nat)) (w : Word) (en : Entry) : Word :=
  stepped (l.filter (fun y => decide (y.1 < en.tag ∧ (en.slot = 4 ∨ y.2 ≠ en.badr)))).length w

theorem aregValue_entry (l : List (Nat × Nat)) (w : Word) (en : Entry) : aregValue l w en.slot en.tag (some en.badr) =
    .s (if en.slot = 4 then ((aregGiven l w en).extractLsb' 0 32).setWidth 64 else aregGiven l w en) := by
  simp only [aregValue, aregGiven, advanceN_eq_stepped, List.countP_eq_length_filter, ne_eq, Option.some.injEq]
  split <;> rfl

/-- What is woken: exactly what waits. -/
theorem EVal.wake_eq (x : EVal) (w : Wait) (v : Val) : x.wake w v = if x = .wait w then .ready v else x := by
  cases x <;> simp [EVal.wake]

/-- An address register stands advanced by all the slot-4 reads that waited for it. -/
theorem Core.fillAreg_ctx (c : Core) (r : RegId) (w : Word) :
    (c.fillAreg r w).ctx = c.ctx.writeReg r (.s (stepped (c.aregReads r).length w)) := by
  rw [← advanceN_eq_stepped]
  rfl

/-- Each entry that waits for an address register receives its share of the walk. -/
theorem Core.fillAreg_q (c : Core) (r : RegId) (w : Word) (e : Eng) : (c.fillAreg r w).q e = (c.q e).map fun en =>
    if en.val = .wait (.reg r) then
      { en with val := .ready (.s (if en.slot = 4 then ((aregGiven (c.aregReads r) w en).extractLsb' 0 32).setWidth 64
                                   else aregGiven (c.aregReads r) w en)) }
    else en := by
  let give (en : Entry) : Entry :=
    { en with val := en.val.wake (.reg r) (aregValue (c.aregReads r) w en.slot en.tag (some en.badr)) }
  refine (SMap.get_map_key c.qs [] (fun _ l => l.map give) (fun _ => rfl) e.code).trans (List.map_congr_left fun en _ => ?_)
  simp only [give, EVal.wake_eq, aregValue_entry]
  split <;> rfl

/-! ### Pending transfers (03_encoding.md R79) -/

theorem length_dropAt {α : Type} {l : List α} {i : Nat} {x : α} (h : l[i]? = some x) : (dropAt l i).length + 1 = l.length := by
  have hi : i < l.length := (List.getElem?_eq_some_iff.mp h).1
  simp only [dropAt, List.length_append, List.length_take, List.length_drop]
  omega

theorem Core.transfer_ready {c : Core} {i : Nat} {p : Pend} {v : Val} (hs : c.serving = true) (hp : c.pends[i]? = some p)
    (hv : p.val = .ready v) : c.transfer i = { c with pends := dropAt c.pends i }.fillReg p.dst v := by
  simp only [Core.transfer, hp, hv, hs, if_true]

/-- Settles O21: the transfer fills its register; of an address register, aregGiven is what each entry receives. -/
theorem pendingTransferCompletes : Obligations.PendingTransferCompletes := by
  intro s p v hs hp hv
  have hx : exec .pendingTransferComplete s = .next (s.setMe ({ s.me with pends := dropAt s.me.pends s.obj }.fillReg p.dst v)) := by
    rw [← Core.transfer_ready hs hp hv]
    rfl
  have hlen {f : Pend → Pend} : ((dropAt s.me.pends s.obj).map f).length + 1 = s.me.pends.length := by
    rw [List.length_map, length_dropAt hp]
  by_cases ha : ∃ i, p.dst = .a i
  · obtain ⟨i, ha⟩ := ha
    rw [ha, Core.fillReg_a] at hx
    rw [ha]
    refine ⟨_, hx, ?_⟩
    rw [Core.fillAreg_ctx]
    exact ⟨Ctx.sameBut_writeReg _ _ _, fun q hq => Ctx.readReg_writeReg_ne _ hq _, hlen, fun h => absurd rfl (h i),
      fun _ _ => ⟨Ctx.readReg_writeReg _ _ _, fun e => Core.fillAreg_q _ _ _ e⟩⟩
  · have hne : ∀ i, p.dst ≠ .a i := fun i h => ha ⟨i, h⟩
    rw [Core.fillReg_of_ne_a _ hne] at hx
    refine ⟨_, hx, Ctx.sameBut_writeReg _ _ _, fun q hq => Ctx.readReg_writeReg_ne _ hq _, hlen,
      fun _ => ⟨Ctx.readReg_writeReg _ _ _, wokenQueues_wakeAll _ _ _⟩, fun i h => absurd h (hne i)⟩

/-! ### Operand entries (03_encoding.md R68, R69, R75) -/

theorem engOfCode_code (e : Eng) : engOfCode e.code = some e := by cases e <;> rfl

theorem Eng.code_injective : Function.Injective Eng.code := fun e f h =>
  Option.some.inj (by rw [← engOfCode_code e, h, engOfCode_code f])

theorem Core.q_setQ (c : Core) (e e' : Eng) (l : List Entry) : (c.setQ e l).q e' = if e = e' then l else c.q e' := by
  rw [Core.q, Core.setQ, SMap.get_set]
  exact if_congr Eng.code_injective.eq_iff rfl rfl

theorem Core.op_setOp (c : Core) (e e' : Eng) (x : OPorts) : (c.setOp e x).op e' = if e = e' then x else c.op e' := by
  rw [Core.op, Core.setOp, SMap.get_set]
  exact if_congr Eng.code_injective.eq_iff rfl rfl

theorem isVecEng_iff (e : Eng) : isVecEng e = true ↔ e = .vec0 ∨ e = .vec1 := by cases e <;> simp [isVecEng]

theorem Core.capture_ready {c : Core} {e : Eng} {en : Entry} {v : Val} (hs : c.serving = true) (hq : (c.q e).head? = some en)
    (ht : en.trig = none) (hv : en.val = .ready v) :
    c.capture e = (c.popHead e).setOp e ((c.op e).write (isVecEng e) en.port v) := by
  obtain ⟨l, hl⟩ := List.head?_eq_some_iff.mp hq
  simp only [Core.capture, hl, ht, hv, hs, if_true]

/-! ### Results (02_numbers.md R60; 03_encoding.md R78; 04_scalar_control.md R125) -/

theorem Core.arrive_port (c : Core) (tag : Nat) (v : Val) (p : RPort) :
    (c.arrive tag v).port p = if c.port p = .pend tag then .full v else c.port p :=
  SMap.get_map_key c.ctx.ports (.full (.s 0)) (fun _ x => if x = PCell.pend tag then PCell.full v else x) (fun _ => rfl) (portIdx p)

theorem Core.arrive_wakes (c : Core) (tag : Nat) (v : Val) : wokenQueues c (c.arrive tag v) (.tag tag) v :=
  wokenQueues_wakeAll _ _ _

/-- Settles O22: the capture writes one port of one engine; an arrival fills the ports bound to its trigger, a full effect none. -/
theorem portsFill : Obligations.PortsFill := by
  refine ⟨fun s e en v hs hq ht hv => ?_, fun s f hf => ?_⟩
  · refine ⟨_, congrArg (fun c => Host.Outcome.next (s.setMe c)) (Core.capture_ready hs hq ht hv), ?_, fun e' he => ⟨?_, ?_⟩, ?_, rfl⟩
    · exact (Core.q_setQ _ _ _ _).trans (if_pos rfl)
    · exact (Core.q_setQ _ _ _ _).trans (if_neg he.symm)
    · rw [Core.op_setOp, if_neg he.symm]
      rfl
    · rw [Core.op_setOp, if_pos rfl]
      cases en.port <;> simp only [OPorts.write, isVecEng_iff]
  · have hlen := length_dropAt hf
    cases hp : f.port with
    | some q =>
      have hx : s.me.deliver s.obj = ({ s.me with flights := dropAt s.me.flights s.obj }.arrive f.tag f.val).orFlags f.flags := by
        simp only [Core.deliver, hf, hp, Option.isSome_some, if_true]
      refine ⟨_, congrArg (fun c => Host.Outcome.next (s.setMe c)) hx, hlen, rfl, fun p => ?_, rfl, fun _ => Core.arrive_wakes _ _ _,
        fun h => nomatch h⟩
      exact (Core.arrive_port _ _ _ p).trans (if_congr ⟨fun h => ⟨rfl, h⟩, And.right⟩ rfl rfl)
    | none =>
      have hx : s.me.complete s.obj = ({ s.me with flights := dropAt s.me.flights s.obj } : Core).orFlags f.flags := by
        simp [Core.complete, hf, hp]
      exact ⟨_, congrArg (fun c => Host.Outcome.next (s.setMe c)) hx, hlen, rfl, fun p => (if_neg (fun h => nomatch h.1)).symm, rfl, fun h => (nomatch h), fun _ => rfl⟩

end Sys2Proof.Machine
end

section
/-! The issue of a bundle (03_encoding.md R76, R83 to R86; 04_scalar_control.md R111, R119, R121): what its moves leave before the
sequencer goes on, for one move of each kind and for any number of them. -/

namespace Sys2Proof.Machine

open Sys2Proof.Claims

/-! ### The bundle of one move -/

section
variable {i : Instr} {slot : Nat} {unit : BitVec 3} {port : BitVec 7} {m : Mv}

/-- A move as it stands in its bundle. -/
def moveOf (i : Instr) (slot : Nat) (unit : BitVec 3) (port : BitVec 7) (m : Mv) : BMove := ⟨slot, packMove unit port m, some i⟩

theorem oneMove_moveOf (h : i.fields = some (slot, unit, port, m)) : oneMove i = [moveOf i slot unit port m] := oneMove_eq h

theorem moveOf_src (h : i.fields = some (slot, unit, port, m)) : (moveOf i slot unit port m).src = some m.src := by
  simp [moveOf, BMove.src, h]

theorem moveOf_dest : (moveOf i slot unit port m).dest = destOf i := rfl

theorem performs_moveOf (c : Core) {x : Bool} (h : c.guardCell m.g.toNat = .full x) : c.performs (moveOf i slot unit port m) = x := by
  rw [Core.performs, moveOf, guard_packMove, h]

end

/-- Without a performed CTL trigger a bundle has none that acts. -/
theorem ctlTrig_eq_none {c : Core} {ms : List BMove} (h : ∀ b ∈ ms, c.performs b = true → ∀ p, b.dest ≠ .trig .ctl p) :
    c.ctlTrig ms = none := by
  unfold Core.ctlTrig
  split
  · next b hf =>
    have hb := List.find?_some hf
    simp only [Bool.and_eq_true] at hb
    obtain ⟨hp, hd⟩ := hb
    split at hd
    · next p hd' => exact absurd hd' (h b (List.mem_of_find?_eq_some hf) hp p)
    · cases hd
  · rfl

/-! ### What the moves of a bundle leave (03_encoding.md R84, steps 2 to 4) -/

/-- The core as a bundle that it issues begins. -/
def begun (c : Core) : Core := { c with resumeBreak := false }

/-- The core once every performed move has taken effect, before a CTL trigger acts or the sequencer goes on. -/
def moved (s : State) (ms : List BMove) : Core :=
  let c0 := begun s.me
  let perf := ms.filter (fun b => c0.performs b)
  let trigs := perf.filter (fun b => decide (trigRank b = 0)) ++ perf.filter (fun b => decide (trigRank b = 1))
    ++ perf.filter (fun b => decide (trigRank b = 2))
  startRep c0 (trigs.foldl (enterTrigger c0 ms (s.phcOf s.cur) c0.repNext.isSome)
    (perf.foldl (enterOperand c0 c0.repNext.isSome) (perf.foldl (advanceAreg c0) (perf.foldl (writeMove c0) c0)))) ms

section
variable {s : State} {ms : List BMove}

theorem performBundle_plain (hrun : s.me.seq = .run) (hc : s.me.ctlTrig ms = none) :
    performBundle s s.cur ms = s.setMe (moved s ms).sequential := by
  have h0 : ({ s.me with seq := .run, resumeBreak := false } : Core) = begun s.me := by rw [← hrun]; rfl
  have hc0 : (begun s.me).ctlTrig ms = none := hc
  unfold performBundle
  rw [show s.core s.cur = s.me from rfl, h0]
  simp only [hc0]
  rfl

theorem performBundle_ctl (hrun : s.me.seq = .run) {i : Instr} {b : EVal} (hc : s.me.ctlTrig ms = some (i, b)) :
    performBundle s s.cur ms =
      s.setMe (ctlAct s s.cur (begun s.me) (moved s ms) i b.scalar ((moved s ms).op .ctl).o.toScalar) := by
  have h0 : ({ s.me with seq := .run, resumeBreak := false } : Core) = begun s.me := by rw [← hrun]; rfl
  have hc0 : (begun s.me).ctlTrig ms = some (i, b) := hc
  unfold performBundle
  rw [show s.core s.cur = s.me from rfl, h0]
  simp only [hc0]
  rfl

/-- A repeat prefix changes the repeat state alone (04_scalar_control.md R122). -/
theorem startRep_eq (c0 c : Core) (ms : List BMove) : ∃ n r, startRep c0 c ms = { c with repNext := n, rep := r } := by
  unfold startRep
  split
  · exact ⟨_, _, rfl⟩
  · split
    · split <;> exact ⟨_, _, rfl⟩
    · exact ⟨_, _, rfl⟩

/-- A repeat prefix lapses with a bundle that performs no slot-4 move (04_scalar_control.md R122). -/
theorem startRep_lapsed {c0 c : Core} (hc : c.repNext = c0.repNext)
    (h : c0.repNext ≠ none → ∀ b ∈ ms, b.slot = 4 → c0.performs b = false) : startRep c0 c ms = { c with repNext := none } := by
  unfold startRep
  split
  · next hn => rw [← hc.trans hn]
  · next k hk =>
    have hf : ms.find? (fun b => b.slot = 4 ∧ c0.performs b = true) = none := List.find?_eq_none.mpr fun b hb hp => by
      obtain ⟨h4, hp⟩ := of_decide_eq_true hp
      simp [h (by simp [hk]) b hb h4] at hp
    rw [hf]

/-- A bundle of which nothing is performed leaves its core but for a repeat prefix. -/
theorem moved_squashed (h : ∀ b ∈ ms, s.me.performs b = false) : moved s ms = { begun s.me with repNext := none } := by
  have hperf : ms.filter (fun b => (begun s.me).performs b) = [] := List.filter_eq_nil_iff.mpr fun b hb => by
    simp [show (begun s.me).performs b = false from h b hb]
  unfold moved
  simp only [hperf, List.filter_nil, List.append_nil, List.foldl_nil]
  exact startRep_lapsed rfl fun _ b hb _ => h b hb

variable {b : BMove}

/-- One performed move goes through the steps of R84. -/
theorem moved_one (h : s.me.performs b = true) : moved s [b] =
    startRep (begun s.me) (enterTrigger (begun s.me) [b] (s.phcOf s.cur) s.me.repNext.isSome
      (enterOperand (begun s.me) s.me.repNext.isSome (advanceAreg (begun s.me) (writeMove (begun s.me) (begun s.me) b) b) b) b) [b] := by
  have hperf : [b].filter (fun b => (begun s.me).performs b) = [b] := by
    simp [show (begun s.me).performs b = true from h]
  have hrank : trigRank b = 0 ∨ trigRank b = 1 ∨ trigRank b = 2 := by
    unfold trigRank
    split <;> simp
  have htrigs : [b].filter (fun b => decide (trigRank b = 0)) ++ [b].filter (fun b => decide (trigRank b = 1))
      ++ [b].filter (fun b => decide (trigRank b = 2)) = [b] := by
    obtain h | h | h := hrank <;> simp [h]
  unfold moved
  simp only [hperf, htrigs, List.foldl_cons, List.foldl_nil]
  rfl

/-- An address register advances by moves of slot 4 alone (04_scalar_control.md R121). -/
theorem advanceAreg_of_ne_four (c0 c : Core) (h4 : b.slot ≠ 4) : advanceAreg c0 c b = c := by
  unfold advanceAreg
  split
  · next h' _ => exact absurd h' h4
  · rfl

/-- What a single move leaves where it is a move to a register, in another slot than 4. -/
theorem moved_regMove {x : Src} {r : RegId} (h : s.me.performs b = true) (hs : b.src = some x) (hd : b.dest = .reg r) (h4 : b.slot ≠ 4) :
    moved s [b] = { writeMove (begun s.me) (begun s.me) b with repNext := none } := by
  have hwrite : (writeMove (begun s.me) (begun s.me) b).repNext = (begun s.me).repNext := by
    simp only [writeMove, hs, hd]
    split
    · rfl
    · split <;> rfl
  rw [moved_one h]
  simp only [advanceAreg_of_ne_four _ _ h4, enterOperand, enterTrigger, hs, hd]
  exact startRep_lapsed hwrite fun _ b' hb h' => absurd (List.mem_singleton.mp hb ▸ h') h4

end

/-! ### Squashed bundles and whole bundles -/

/-- A fold whose every step keeps something keeps it. -/
theorem foldl_keeps {α : Type} {P : Core → α} {f : Core → BMove → Core} (h : ∀ c b, P (f c b) = P c) (l : List BMove) (c : Core) :
    P (l.foldl f c) = P c := by
  induction l generalizing c with
  | nil => rfl
  | cons b l ih => rw [List.foldl_cons, ih, h]

/-- A fold whose every step appends what its move gives appends what all of them give. -/
theorem foldl_appends {α : Type} {P : Core → List α} {f : Core → BMove → Core} {g : BMove → Option α}
    (h : ∀ c b, P (f c b) = P c ++ (g b).toList) (l : List BMove) (c : Core) : P (l.foldl f c) = P c ++ l.filterMap g := by
  induction l generalizing c with
  | nil => simp
  | cons b l ih =>
    rw [List.foldl_cons, ih, h, List.append_assoc, List.filterMap_cons]
    cases g b <;> rfl

/-- What the sequential successor depends on: the pc and the loop frames (04_scalar_control.md R119). -/
def placeOf (c : Core) : Nat × List Loop := (c.pc, c.ctx.loops)

theorem Ctx.loops_writeReg (x : Ctx) (r : RegId) (v : Val) : (x.writeReg r v).loops = x.loops := by
  rw [show x.writeReg r v = _ from Ctx.sameBut_writeReg x r v]

theorem Ctx.loops_emptyReg (x : Ctx) (r : RegId) : (x.emptyReg r).loops = x.loops := by
  rw [show x.emptyReg r = _ from Ctx.sameBut_emptyReg x r]

/-- A register write keeps the queues and the place. -/
theorem writeMove_keeps (c0 c : Core) (b : BMove) : (writeMove c0 c b).qs = c.qs ∧ placeOf (writeMove c0 c b) = placeOf c := by
  unfold writeMove
  split
  · exact ⟨rfl, rfl⟩
  · split
    · split
      · exact ⟨rfl, rfl⟩
      · split
        · exact ⟨rfl, by simp only [placeOf, Ctx.loops_writeReg]⟩
        · exact ⟨rfl, by simp only [placeOf, Ctx.loops_emptyReg]⟩
    · exact ⟨rfl, rfl⟩
    · exact ⟨rfl, rfl⟩

theorem advanceAreg_keeps (c0 c : Core) (b : BMove) : (advanceAreg c0 c b).qs = c.qs ∧ placeOf (advanceAreg c0 c b) = placeOf c := by
  unfold advanceAreg
  split
  · split
    · exact ⟨rfl, by simp only [placeOf, Ctx.loops_writeReg]⟩
    · exact ⟨rfl, rfl⟩
  · exact ⟨rfl, rfl⟩

theorem Core.claimPort_keeps (c : Core) (p : RPort) (tag : Nat) : (c.claimPort p tag).qs = c.qs ∧ placeOf (c.claimPort p tag) = placeOf c := by
  unfold Core.claimPort
  split <;> exact ⟨rfl, rfl⟩

/-- The operand move that b is in the queue of engine e, as its entry is made (03_encoding.md R83, R84). -/
def operandKey (c : Core) (e : Eng) (b : BMove) : Option (Option Instr × OPort × EVal × Nat × Nat) :=
  match b.src, b.dest with
  | some x, .oport e' p => if e' = e then some (none, p, c.bindSrc b.slot x, b.slot, c.pc) else none
  | _, _ => none

/-- The trigger that b is in the queue of engine e, as its entry is made (03_encoding.md R83, R84). -/
def triggerKey (c : Core) (e : Eng) (b : BMove) : Option (Option Instr × OPort × EVal × Nat × Nat) :=
  match b.src, b.dest, b.instr with
  | some x, .trig e' _, some i => if e' = e then some (some i, .o, c.bindSrc b.slot x, b.slot, c.pc) else none
  | _, _, _ => none

theorem entersOf_eq (c : Core) (ms : List BMove) (e : Eng) : entersOf c ms e =
    (ms.filter (fun b => c.performs b)).filterMap (operandKey c e) ++ (ms.filter (fun b => c.performs b)).filterMap (triggerKey c e) := rfl

/-- b is an operand move to a port of a queue engine e (03_encoding.md R69, R83). -/
def IsOperand (b : BMove) (x : Src) (e : Eng) (p : OPort) : Prop := b.src = some x ∧ b.dest = .oport e p ∧ e ≠ .ctl

/-- b is a trigger i of a queue engine e (03_encoding.md R83). -/
def IsTrigger (b : BMove) (x : Src) (e : Eng) (p : Nat) (i : Instr) : Prop :=
  b.src = some x ∧ b.dest = .trig e p ∧ b.instr = some i ∧ e ≠ .ctl

/-- An entry that joins the queue of engine e'. -/
theorem entryKeys_joined {c d : Core} {e e' : Eng} {en : Entry} (h : d.qs = (c.setQ e' (c.q e' ++ [en])).qs) :
    (d.q e).map entryKey = (c.q e).map entryKey ++ (if e' = e then some (entryKey en) else none).toList := by
  rw [show d.q e = (c.setQ e' (c.q e' ++ [en])).q e from congrArg (SMap.get · [] e.code) h, Core.q_setQ]
  split
  · next he => simp [he]
  · simp

section
variable (c0 : Core) (ms : List BMove) (phc : Nat) (rep : Bool) (c : Core) (b : BMove)

theorem enterOperand_of_not (h : ¬ ∃ x e p, IsOperand b x e p) : enterOperand c0 rep c b = c := by
  unfold enterOperand
  split
  · next x e p hs hd =>
    split
    · rfl
    · next he => exact absurd ⟨x, e, p, hs, hd, he⟩ h
  · rfl

theorem operandKey_of_not (h : ¬ ∃ x e p, IsOperand b x e p) {e : Eng} (he : e ≠ .ctl) : operandKey c0 e b = none := by
  unfold operandKey
  split
  · next x e' p hs hd => exact if_neg fun (hee : e' = e) => h ⟨x, e', p, hs, hd, hee.symm ▸ he⟩
  · rfl

theorem enterTrigger_of_not (h : ¬ ∃ x e p i, IsTrigger b x e p i) : enterTrigger c0 ms phc rep c b = c := by
  unfold enterTrigger
  split
  · next x e p i hs hd hi =>
    split
    · rfl
    · next he => exact absurd ⟨x, e, p, i, hs, hd, hi, he⟩ h
  · rfl

theorem triggerKey_of_not (h : ¬ ∃ x e p i, IsTrigger b x e p i) {e : Eng} (he : e ≠ .ctl) : triggerKey c0 e b = none := by
  unfold triggerKey
  split
  · next x e' p i hs hd hi => exact if_neg fun (hee : e' = e) => h ⟨x, e', p, i, hs, hd, hi, hee.symm ▸ he⟩
  · rfl

variable {b} {x : Src} {e : Eng}

theorem enterOperand_eq {p : OPort} (h : IsOperand b x e p) : enterOperand c0 rep c b =
    { c.setQ e (c.q e ++ [mkEntry c0 b x none p c.nextTag (if rep && decide (b.slot = 4) then some 0 else none) c0.nextTag]) with
      nextTag := c.nextTag + 1 } := by
  obtain ⟨hs, hd, he⟩ := h
  simp only [enterOperand, hs, hd, he, if_false]

/-- A trigger joins the queue of its engine and keeps the place of its bundle. -/
theorem enterTrigger_joins {p : Nat} {i : Instr} (h : IsTrigger b x e p i) :
    ∃ en, entryKey en = (some i, .o, c0.bindSrc b.slot x, b.slot, c0.pc) ∧
      (enterTrigger c0 ms phc rep c b).qs = (c.setQ e (c.q e ++ [en])).qs ∧ placeOf (enterTrigger c0 ms phc rep c b) = placeOf c := by
  obtain ⟨hs, hd, hi, he⟩ := h
  refine ⟨mkEntry c0 b x (some i) .o c.nextTag (if rep && decide (b.slot = 4) then some 0 else none) c0.nextTag, rfl, ?_⟩
  simp only [enterTrigger, hs, hd, hi, he, if_false]
  have claim (d : Core) (q : Option RPort) :
      (match q with | some q => d.claimPort q c.nextTag | none => d).qs = d.qs ∧
        placeOf (match q with | some q => d.claimPort q c.nextTag | none => d) = placeOf d := by
    cases q with
    | none => exact ⟨rfl, rfl⟩
    | some q => exact Core.claimPort_keeps d q _
  split
  · refine ⟨(claim _ _).1, ?_⟩
    rw [placeOf, Ctx.loops_emptyReg]
    exact (claim _ _).2
  · exact claim _ _

theorem enterOperand_keeps (b : BMove) : placeOf (enterOperand c0 rep c b) = placeOf c := by
  by_cases h : ∃ x e p, IsOperand b x e p
  · obtain ⟨x, e, p, h⟩ := h
    rw [enterOperand_eq c0 rep c h]
    rfl
  · rw [enterOperand_of_not c0 rep c b h]

theorem enterTrigger_keeps (b : BMove) : placeOf (enterTrigger c0 ms phc rep c b) = placeOf c := by
  by_cases h : ∃ x e p i, IsTrigger b x e p i
  · obtain ⟨x, e, p, i, h⟩ := h
    obtain ⟨_, -, -, hplace⟩ := enterTrigger_joins c0 ms phc rep c h
    exact hplace
  · rw [enterTrigger_of_not c0 ms phc rep c b h]

theorem enterOperand_q (he : e ≠ .ctl) (b : BMove) :
    ((enterOperand c0 rep c b).q e).map entryKey = (c.q e).map entryKey ++ (operandKey c0 e b).toList := by
  by_cases h : ∃ x e p, IsOperand b x e p
  · obtain ⟨x, e', p, h⟩ := h
    have hk : operandKey c0 e b = if e' = e then some (none, p, c0.bindSrc b.slot x, b.slot, c0.pc) else none := by
      simp only [operandKey, h.1, h.2.1]
    rw [enterOperand_eq c0 rep c h, hk]
    exact entryKeys_joined rfl
  · simp [enterOperand_of_not c0 rep c b h, operandKey_of_not c0 b h he]

theorem enterTrigger_q (he : e ≠ .ctl) (b : BMove) :
    ((enterTrigger c0 ms phc rep c b).q e).map entryKey = (c.q e).map entryKey ++ (triggerKey c0 e b).toList := by
  by_cases h : ∃ x e p i, IsTrigger b x e p i
  · obtain ⟨x, e', p, i, h⟩ := h
    obtain ⟨en, hen, hq, -⟩ := enterTrigger_joins c0 ms phc rep c h
    obtain ⟨hs, hd, hi, -⟩ := h
    have hk : triggerKey c0 e b = if e' = e then some (entryKey en) else none := by simp only [triggerKey, hs, hd, hi, hen]
    rw [entryKeys_joined hq, hk]
  · simp [enterTrigger_of_not c0 ms phc rep c b h, triggerKey_of_not c0 b h he]

end

/-- The engines in the order in which the triggers of one bundle count as issued (05_local_memory.md R155; 08_stream_ops.md R222). -/
def engRank : Eng → Nat
  | .mem => 0
  | .cpy0 | .cpy1 | .col => 2
  | _ => 1

/-- All triggers of one engine stand in one place of that order. -/
theorem trigRank_of_triggerKey {c : Core} {e : Eng} {b : BMove} {k : Option Instr × OPort × EVal × Nat × Nat}
    (h : triggerKey c e b = some k) : trigRank b = engRank e := by
  unfold triggerKey at h
  split at h
  · next x e' p i hs hd hi =>
    split_ifs at h with he
    subst he
    unfold trigRank
    rw [hd]
    cases e' <;> rfl
  · cases h

theorem filterMap_triggerKey_rank (c : Core) (e : Eng) (l : List BMove) (n : Nat) :
    (l.filter (fun b => decide (trigRank b = n))).filterMap (triggerKey c e) = if n = engRank e then l.filterMap (triggerKey c e) else [] := by
  rw [List.filterMap_filter]
  split
  · next hn =>
    refine List.filterMap_congr fun b _ => ?_
    cases hk : triggerKey c e b with
    | none => simp
    | some k => simp [trigRank_of_triggerKey hk, hn]
  · next hn =>
    refine List.filterMap_eq_nil_iff.mpr fun b _ => ?_
    cases hk : triggerKey c e b with
    | none => simp
    | some k => simp [trigRank_of_triggerKey hk, Ne.symm hn]

/-- The order of the triggers of a bundle leaves the order in each queue. -/
theorem filterMap_triggerKey_ranked (c : Core) (e : Eng) (l : List BMove) :
    (l.filter (fun b => decide (trigRank b = 0)) ++ l.filter (fun b => decide (trigRank b = 1))
      ++ l.filter (fun b => decide (trigRank b = 2))).filterMap (triggerKey c e) = l.filterMap (triggerKey c e) := by
  have h : engRank e = 0 ∨ engRank e = 1 ∨ engRank e = 2 := by cases e <;> simp [engRank]
  simp only [List.filterMap_append, filterMap_triggerKey_rank]
  obtain h | h | h := h <;> simp [h]

theorem startRep_keeps (c0 c : Core) (ms : List BMove) : (startRep c0 c ms).qs = c.qs ∧ placeOf (startRep c0 c ms) = placeOf c := by
  obtain ⟨n, r, h⟩ := startRep_eq c0 c ms
  rw [h]
  exact ⟨rfl, rfl⟩

section
variable (s : State) (ms : List BMove)

/-- The moves of a bundle keep its place, so that the sequencer goes on from it. -/
theorem moved_placeOf : placeOf (moved s ms) = placeOf s.me := by
  unfold moved
  simp only [(startRep_keeps _ _ _).2, foldl_keeps (enterTrigger_keeps _ _ _ _), foldl_keeps (enterOperand_keeps _ _),
    foldl_keeps (fun c b => (advanceAreg_keeps _ c b).2), foldl_keeps (fun c b => (writeMove_keeps _ c b).2)]
  rfl

/-- Every performed operand move and then every performed trigger has entered its queue. -/
theorem moved_q {e : Eng} (he : e ≠ .ctl) : ((moved s ms).q e).map entryKey = (s.me.q e).map entryKey ++ entersOf s.me ms e := by
  have hq {c d : Core} (h : c.qs = d.qs) : c.q e = d.q e := congrArg (SMap.get · [] e.code) h
  have htrig := foldl_appends (P := fun c => (c.q e).map entryKey) (fun c b => enterTrigger_q (begun s.me) ms (s.phcOf s.cur) (begun s.me).repNext.isSome c he b)
  have hop := foldl_appends (P := fun c => (c.q e).map entryKey) (fun c b => enterOperand_q (begun s.me) (begun s.me).repNext.isSome c he b)
  have hkeep (l : List BMove) : ((l.foldl (advanceAreg (begun s.me)) (l.foldl (writeMove (begun s.me)) (begun s.me))).q e) = s.me.q e :=
    hq ((foldl_keeps (fun c b => (advanceAreg_keeps _ c b).1) _ _).trans (foldl_keeps (fun c b => (writeMove_keeps _ c b).1) _ _))
  unfold moved
  simp only [hq (startRep_keeps _ _ _).1, htrig, hop, hkeep, filterMap_triggerKey_ranked]
  rw [entersOf_eq, List.append_assoc]
  rfl

end

end Sys2Proof.Machine
end

section
/-! The obligations about moves and the issue of a bundle: register moves, operand moves, whole and squashed
bundles (03_encoding.md R67 to R86; 04_scalar_control.md R111, R119, R121, R127, R128). -/

namespace Sys2Proof.Machine

open Sys2Proof.Claims

/-! ### Which instructions are the issue of a bundle -/

theorem exec_eq_issueOne_of_ctl {i : Instr} {p : Nat} (h : destOf i = .trig .ctl p) (s : State) : exec i s = issueOne i s := by
  cases i with
  | moveSreg slot d m => cases d <;> cases h
  | _ =>
    try casesm* VUnit, CUnit, CSlot
    all_goals cases h
    all_goals rfl

/-- A register move: its destination, its fields, and that it is the issue of its bundle; it never stands in slot 4. -/
theorem regMove_spec {i : Instr} {slot : Nat} {r : RegId} {m : Mv} (h : regMove i = some (slot, r, m)) (hwf : i.wf = true) :
    ∃ unit port, i.fields = some (slot, unit, port, m) ∧ destOf i = .reg r ∧ slot ≠ 4 ∧ ∀ s, exec i s = issueOne i s := by
  unfold regMove at h
  split at h
  · next slot' d m' =>
    split at h
    · next r' hd =>
      cases h
      refine ⟨_, _, rfl, hd, fun h4 => ?_, fun _ => rfl⟩
      rw [Instr.wf, h4] at hwf
      cases hwf
    · cases h
  · next slot' d m' =>
    cases h
    refine ⟨_, _, rfl, rfl, fun h4 => ?_, fun _ => rfl⟩
    rw [Instr.wf, h4] at hwf
    cases hwf
  · cases h
    exact ⟨_, _, rfl, rfl, by decide, fun _ => rfl⟩
  · cases h

/-- An operand move: its destination, its fields, and that it is the issue of its bundle. -/
theorem operandMove_spec {i : Instr} {slot : Nat} {e : Eng} {p : OPort} {m : Mv} (h : operandMove i = some (slot, e, p, m)) :
    ∃ unit port, i.fields = some (slot, unit, port, m) ∧ destOf i = .oport e p ∧ ∀ s, exec i s = issueOne i s := by
  unfold operandMove at h
  split at h <;> cases h <;> exact ⟨_, _, rfl, rfl, fun _ => rfl⟩

/-! ### Squashed and whole bundles -/

/-- A clear bundle of which nothing is performed passes (03_encoding.md R76). -/
theorem issueChecked_squashed {s : State} {ms : List BMove} (h : s.Clear ms) (hn : ∀ b ∈ ms, s.me.performs b = false) :
    issueChecked s s.cur ms = s.setMe (issued s.me s.me.ctx) := by
  have hc : s.me.ctlTrig ms = none := ctlTrig_eq_none fun b hb hp => by simp [hn b hb] at hp
  rw [issueChecked_plain h hc, performBundle_plain h.running hc, moved_squashed hn]
  rfl

theorem exec_bundleIssue_clear {s : State} (h : s.Clear s.me.fetch) :
    exec .bundleIssue s = .next (issueChecked s s.cur s.me.fetch) :=
  congrArg Host.Outcome.next (issue_clear h)

/-- Settles O17: a squashed bundle leaves moved as it began, and moved_q is what a whole one enters. -/
theorem bundles : Obligations.Bundles := by
  refine ⟨fun s => ⟨fun h hn => ?_, fun i hi hwf h hn => ?_⟩, fun s h hc => ?_⟩
  · rw [exec_bundleIssue_clear h, issueChecked_squashed h hn]
  · have hx : exec i s = issueOne i s := by
      obtain hr | ho | ⟨p, hp⟩ := hi
      · obtain ⟨⟨slot, r, m⟩, hr⟩ := Option.isSome_iff_exists.mp hr
        obtain ⟨-, -, -, -, -, hx⟩ := regMove_spec hr hwf
        exact hx s
      · obtain ⟨⟨slot, e, p, m⟩, ho⟩ := Option.isSome_iff_exists.mp ho
        obtain ⟨-, -, -, -, hx⟩ := operandMove_spec ho
        exact hx s
      · exact exec_eq_issueOne_of_ctl hp s
    rw [hx, issueOne_clear h, issueChecked_squashed h hn]
  · refine ⟨(moved s s.me.fetch).sequential, ?_, ?_, fun e he => moved_q s s.me.fetch he⟩
    · rw [exec_bundleIssue_clear h, issueChecked_plain h hc, performBundle_plain h.running hc]
    · exact congrArg (fun x => (loopEnd x.1 x.2).1) (moved_placeOf s s.me.fetch)

/-! ### Moves to registers -/

theorem overToken_eq_unread (c : Core) (r : RegId) : overToken r c.deferred = unread c r := by
  unfold overToken unread
  split
  · next i =>
    refine List.map_congr_left fun d _ => if_congr (and_congr_right fun _ => ⟨fun h => ?_, fun ⟨h, hlt⟩ => ?_⟩) rfl rfl
    · rw [h, Fin.ofNat_val_eq_self]
      exact ⟨rfl, i.isLt⟩
    · rw [RegId.s.inj h, Fin.val_ofNat, Nat.mod_eq_of_lt hlt]
  · next hr =>
    refine (List.map_id' _).symm.trans (List.map_congr_left fun d _ => (if_neg ?_).symm)
    rintro ⟨-, h, -⟩
    exact hr _ h

/-- c at the sequential successor of a bundle at a place. -/
def onward (at' : Nat × List Loop) (c : Core) : Core :=
  { c with pc := (loopEnd at'.1 at'.2).1, ctx := { c.ctx with loops := (loopEnd at'.1 at'.2).2 } }

/-- After the moves of a bundle the sequencer goes on from the bundle's own place. -/
theorem moved_sequential (s : State) (ms : List BMove) : (moved s ms).sequential = onward (placeOf s.me) (moved s ms) := by
  rw [← moved_placeOf s ms]
  rfl

/-- A clear bundle of one performed move that is no CTL trigger. -/
theorem issueChecked_one {s : State} {b : BMove} (h : s.Clear [b]) (hd : ∀ p, b.dest ≠ .trig .ctl p) :
    issueChecked s s.cur [b] = s.setMe (onward (placeOf s.me) (moved s [b])) := by
  have hc : s.me.ctlTrig [b] = none := ctlTrig_eq_none fun b' hb _ => List.mem_singleton.mp hb ▸ hd
  rw [issueChecked_plain h hc, performBundle_plain h.running hc, moved_sequential]

/-- Settles O15: writeReg or emptyReg is the register file that the bundle leaves. -/
theorem registerMoves : Obligations.RegisterMoves := by
  intro s i slot r m hi hwf hclear hg
  obtain ⟨unit, port, hf, hd, h4, hx⟩ := regMove_spec hi hwf
  have hsrc := moveOf_src hf
  have hdest : (moveOf i slot unit port m).dest = .reg r := hd
  rw [hx, issueOne_clear hclear]
  rw [oneMove_moveOf hf] at hclear ⊢
  rw [issueChecked_one hclear (fun p hp => nomatch hdest.symm.trans hp), moved_regMove (performs_moveOf s.me hg) hsrc hdest h4]
  simp only [writeMove, hsrc, hdest]
  cases hb : s.me.bindSrc slot m.src with
  | ready v =>
    have hb0 : (begun s.me).bindSrc (moveOf i slot unit port m).slot m.src = .ready v := hb
    refine ⟨s.me.ctx.writeReg r v, Ctx.sameBut_writeReg _ _ _, fun q hq => Ctx.readReg_writeReg_ne _ hq _, ?_, Ctx.readReg_writeReg _ _ _⟩
    by_cases hr : r = .s 0
    · subst hr
      rfl
    · simp only [hr, if_false, hb0, ← overToken_eq_unread]
      rfl
  | wait w =>
    have hb0 : (begun s.me).bindSrc (moveOf i slot unit port m).slot m.src = .wait w := hb
    refine ⟨s.me.ctx.emptyReg r, Ctx.sameBut_emptyReg _ _, fun q hq => Ctx.readReg_emptyReg_ne _ hq, ?_, ?_⟩
    · by_cases hr : r = .s 0
      · subst hr
        rfl
      · simp only [hr, if_false, hb0, ← overToken_eq_unread]
        rfl
    · split
      · next hr => rw [hr]; rfl
      · next hr => exact Ctx.readReg_emptyReg _ hr

/-! ### Moves to operand ports -/

/-- What the address registers and every other register read as after a move has read its source (04_scalar_control.md R121). -/
theorem advanceAreg_reads (c0 : Core) {c : Core} {b : BMove} {x : Src} (hs : b.src = some x)
    (hc : ∀ r, c.ctx.readReg r = c0.ctx.readReg r) :
    ∃ a, advanceAreg c0 c b = { c with ctx := { c.ctx with a := a } } ∧
      ∀ r, ({ c.ctx with a := a } : Ctx).readReg r = afterRead c0 b.slot x r := by
  by_cases h : b.slot = 4 ∧ ∃ k e, x = .reg (.a k) e
  · obtain ⟨h4, k, e, rfl⟩ := h
    simp only [advanceAreg, afterRead, hs, h4, true_and]
    cases hv : c0.ctx.readReg (.a k) with
    | full v =>
      refine ⟨_, rfl, fun r => ?_⟩
      by_cases hr : r = .a k
      · rw [if_pos hr, hr, hv]
        exact Ctx.readReg_writeReg c.ctx (.a k) (.s (advance v.toScalar))
      · rw [if_neg hr, ← hc r]
        exact Ctx.readReg_writeReg_ne c.ctx hr (.s (advance v.toScalar))
    | empty =>
      refine ⟨_, rfl, fun r => ?_⟩
      by_cases hr : r = .a k
      · rw [if_pos hr, hr, hv]
        exact (hc _).trans hv
      · rw [if_neg hr]
        exact hc r
  · refine ⟨c.ctx.a, ?_, fun r => (hc r).trans ?_⟩
    · unfold advanceAreg
      split
      · next k e h4 hx => exact absurd ⟨h4, k, e, Option.some.inj (hs.symm.trans hx)⟩ h
      · rfl
    · unfold afterRead
      split
      · next k e => exact (if_neg fun ⟨h4, _⟩ => h ⟨h4, k, e, rfl⟩).symm
      · rfl

/-- What a single operand move leaves: its entry in the queue of its engine, and an address register that has been read. -/
theorem moved_operand {s : State} {b : BMove} {x : Src} {e : Eng} {p : OPort} (h : s.me.performs b = true) (hop : IsOperand b x e p) :
    ∃ a en n k, entryKey en = (none, p, s.me.bindSrc b.slot x, b.slot, s.me.pc) ∧
      (∀ r, ({ s.me.ctx with a := a } : Ctx).readReg r = afterRead s.me b.slot x r) ∧
      moved s [b] = { s.me.setQ e (s.me.q e ++ [en]) with
        ctx := { s.me.ctx with a := a }, resumeBreak := false, nextTag := s.me.nextTag + 1, repNext := n, rep := k } := by
  obtain ⟨a, ha, hread⟩ := advanceAreg_reads (begun s.me) (c := begun s.me) hop.1 fun _ => rfl
  have hwrite : writeMove (begun s.me) (begun s.me) b = begun s.me := by
    obtain ⟨hs, hd, he⟩ := hop
    simp only [writeMove, hs, hd]
    split
    · next h => cases h
    · next h => exact absurd (Dest.oport.inj h).1 he
    · rfl
  have htrig (c : Core) : enterTrigger (begun s.me) [b] (s.phcOf s.cur) s.me.repNext.isSome c b = c :=
    enterTrigger_of_not _ _ _ _ _ _ fun ⟨_, _, _, _, ht⟩ => nomatch hop.2.1.symm.trans ht.2.1
  rw [moved_one h, hwrite, ha, htrig, enterOperand_eq _ _ _ hop]
  obtain ⟨n, k, hrep⟩ := startRep_eq (begun s.me) _ [b]
  rw [hrep]
  exact ⟨a, _, n, k, by exact rfl, hread, rfl⟩

/-- A bundle that no cause stops holds no move that raises one; the bundle's own checks apart (03_encoding.md R86). -/
theorem not_mem_moveCauses {c : Core} {exch : Bool} {ms : List BMove} {b : BMove} {k : Byte} (h : firstCause c exch ms = none)
    (hk : k ∈ rankOrder) (hecc : k ≠ Cause.ECC_IMEM) (hbreak : k ≠ Cause.BREAK) (hb : b ∈ ms) : k ∉ moveCauses c exch ms b := by
  have hnone := List.findSome?_eq_none_iff.mp h k hk
  rw [if_neg hecc, if_neg hbreak] at hnone
  split_ifs at hnone
  rw [Option.map_eq_none_iff] at hnone
  simpa using List.find?_eq_none.mp hnone b hb

/-- A move to a CTL operand port that issues in slot 4 stands behind no repeat prefix (04_scalar_control.md R122). -/
theorem repNext_of_ctlOperand {s : State} {b : BMove} {i : Instr} {x : Src} {p : OPort} (h : s.Clear [b]) (hp : s.me.performs b = true)
    (hi : b.instr = some i) (hs : b.src = some x) (hd : b.dest = .oport .ctl p) (h4 : b.slot = 4) : s.me.repNext = none := by
  have hmem := not_mem_moveCauses (k := Cause.ILLEGAL_OPERAND) h.legal (by decide) (by decide) (by decide) (List.mem_singleton_self b)
  rw [← Option.not_isSome_iff_eq_none]
  intro hrep
  refine hmem ?_
  simp [moveCauses, hp, hi, hs, hd, h4, hrep]

/-- What a single move to an operand port of CTL leaves: the port, and an address register that has been read. -/
theorem moved_ctlOperand {s : State} {b : BMove} {i : Instr} {x : Src} {p : OPort} {v : Val} (h : s.Clear [b])
    (hp : s.me.performs b = true) (hi : b.instr = some i) (hs : b.src = some x) (hd : b.dest = .oport .ctl p)
    (hv : s.me.bindSrc b.slot x = .ready v) :
    ∃ a, (∀ r, ({ s.me.ctx with a := a } : Ctx).readReg r = afterRead s.me b.slot x r) ∧
      moved s [b] = { s.me with
        ctx := { s.me.ctx with a := a, oports := (s.me.setOp .ctl ((s.me.op .ctl).write false p (.s v.toScalar))).ctx.oports },
        resumeBreak := false, repNext := none } := by
  have hwrite : writeMove (begun s.me) (begun s.me) b = (begun s.me).setOp .ctl ((s.me.op .ctl).write false p (.s v.toScalar)) := by
    have hv0 : (begun s.me).bindSrc b.slot x = .ready v := hv
    simp only [writeMove, hs, hd, hv0]
    rfl
  have hregs : ∀ r, ((begun s.me).setOp .ctl ((s.me.op .ctl).write false p (.s v.toScalar))).ctx.readReg r = (begun s.me).ctx.readReg r :=
    fun r => by cases r <;> rfl
  obtain ⟨a, ha, hread⟩ := advanceAreg_reads (begun s.me) hs hregs
  have hentry (c : Core) : enterOperand (begun s.me) s.me.repNext.isSome c b = c :=
    enterOperand_of_not _ _ _ _ fun ⟨_, _, _, _, hd', he⟩ => he (Dest.oport.inj (hd.symm.trans hd')).1.symm
  have htrig (c : Core) : enterTrigger (begun s.me) [b] (s.phcOf s.cur) s.me.repNext.isSome c b = c :=
    enterTrigger_of_not _ _ _ _ _ _ fun ⟨_, _, _, _, ht⟩ => nomatch hd.symm.trans ht.2.1
  refine ⟨a, fun r => (hread r).symm.trans (by cases r <;> rfl) |>.symm, ?_⟩
  rw [moved_one hp, hwrite, ha, hentry, htrig]
  refine startRep_lapsed rfl fun hrep b' hb h4 => absurd ?_ hrep
  obtain rfl := List.mem_singleton.mp hb
  exact repNext_of_ctlOperand h hp hi hs hd h4

/-- Settles O16: an operand move is one entry of its queue (enterOperand_eq), or at CTL the port itself. -/
theorem operandMoves : Obligations.OperandMoves := by
  refine ⟨fun s i slot e p m hi hwf he hclear hg => ?_, fun s i slot p m v hi hwf hclear hg hb => ?_⟩
  · obtain ⟨unit, port, hf, hd, hx⟩ := operandMove_spec hi
    have hop : IsOperand (moveOf i slot unit port m) m.src e p := ⟨moveOf_src hf, hd, he⟩
    rw [hx, issueOne_clear hclear]
    rw [oneMove_moveOf hf] at hclear ⊢
    rw [issueChecked_one hclear (fun p hp => nomatch hop.2.1.symm.trans hp)]
    obtain ⟨a, en, n, k, hen, hread, hmoved⟩ := moved_operand (performs_moveOf s.me hg) hop
    rw [hmoved]
    refine ⟨_, rfl, ?_, fun e' he' => ?_, rfl, hread, rfl, rfl, rfl, rfl, rfl⟩
    · refine (entryKeys_joined (c := s.me) (e' := e) (en := en) rfl).trans ?_
      rw [if_pos rfl, hen]
      rfl
    · exact (Core.q_setQ _ _ _ _).trans (if_neg he'.symm)
  · obtain ⟨unit, port, hf, hd, hx⟩ := operandMove_spec hi
    rw [hx, issueOne_clear hclear]
    rw [oneMove_moveOf hf] at hclear ⊢
    have hdest : (moveOf i slot unit port m).dest = .oport .ctl p := hd
    rw [issueChecked_one hclear (fun p hp => nomatch hdest.symm.trans hp)]
    obtain ⟨a, hread, hmoved⟩ := moved_ctlOperand hclear (performs_moveOf s.me hg) rfl (moveOf_src hf) hdest hb
    rw [hmoved]
    have hport := (Core.op_setOp s.me .ctl .ctl ((s.me.op .ctl).write false p (.s v.toScalar))).trans (if_pos rfl)
    refine ⟨{ s.me.ctx with a := a, oports := _ }, rfl, rfl, hread, (congrArg OPorts.o hport).trans ?_, (congrArg OPorts.o2 hport).trans ?_,
      fun e he => (Core.op_setOp s.me .ctl e _).trans (if_neg he.symm)⟩
    · cases p <;> rfl
    · cases p <;> rfl

end Sys2Proof.Machine
end

section
/-! What the sequencer traps itself (03_encoding.md R70, R86; 04_scalar_control.md R127, R128; 09_copy_collective.md R248). -/

namespace Sys2Proof.Machine

open Sys2Proof.Claims

/-- A core without a trap that takes one captures, with the trap in its record; its registers and its pc stay. -/
theorem Core.takeTrap_records {c : Core} {t : Trap} (h : c.trap = none) (hp : t.prec ≠ 1) :
    c.takeTrap t = { c with trap := some { t with bid := c.nextTag }, seq := .capture 0, was := c.seq } := by
  simp only [Core.takeTrap, h, Core.dated, hp, if_false]

/-- The state and the record that such a trap leaves. -/
theorem next_takeTrap {s : State} {r : Res} {c : Core} {t : Trap} (hx : r = .next (s.setMe (c.takeTrap t))) (h : c.trap = none)
    (hp : t.prec ≠ 1) : ∃ u k, r = .next u ∧ k = { t with bid := c.nextTag } ∧
      u = s.setMe { c with trap := some k, seq := .capture 0, was := c.seq } :=
  ⟨_, _, hx, rfl, by rw [Core.takeTrap_records h hp]⟩

/-- A bundle with a cause is not performed: its core takes the trap of the first cause in rank (03_encoding.md R86). -/
theorem issue_firstCause {s : State} {ms : List BMove} {k : Byte} {slot : Option Nat} (hrun : s.me.seq = .run)
    (hissue : s.issuing s.cur = true) (hstall : stalls s.me ms = false) (hk : firstCause s.me (s.exchOf s.cur) ms = some (k, slot)) :
    issue s s.cur ms = s.setMe ({ s.me with bad := { s.me.bad with bus := [] } }.takeTrap
      { Trap.plain k 0 s.me.pc s.me.pc with slotEng := trapSlotEng ms slot, tok := reuseToken s.me ms k }) := by
  have hgo : ¬ ((s.core s.cur).seq ≠ .run ∨ s.issuing s.cur = false) := by simp [show (s.core s.cur).seq = .run from hrun, hissue]
  simp only [State.me] at hstall hk
  simp only [issue, hgo, hstall, hk, Bool.false_eq_true, if_false]
  rfl

theorem conflicts_single {b : BMove} (h4 : b.slot ≠ 4) : conflicts [b] b = false := by
  have hareg : slot4Areg [b] = none := by
    unfold slot4Areg
    rw [List.find?_eq_none.mpr fun b' hb => by simpa [List.mem_singleton.mp hb] using h4]
  simp [conflicts, hareg]

/-- A move to a relocation register raises PRIVILEGE, and a word that decodes no ILLEGAL_ENCODING (03_encoding.md R70). -/
theorem moveCauses_bind {c : Core} {exch : Bool} {b : BMove} {i : Instr} {x : Src} {n : Nat} (hi : b.instr = some i) (hs : b.src = some x)
    (hd : b.dest = .bind n) (h4 : b.slot ≠ 4) :
    Cause.PRIVILEGE ∈ moveCauses c exch [b] b ∧ Cause.ILLEGAL_ENCODING ∉ moveCauses c exch [b] b := by
  have hc := conflicts_single h4
  constructor <;> simp [moveCauses, hi, hs, hd, hc, isBindMove]

/-- Nothing ranks before that but an error in the code and a pc beyond it (03_encoding.md R86). -/
theorem firstCause_bind {c : Core} {exch : Bool} {b : BMove} {i : Instr} {x : Src} {n : Nat} (hi : b.instr = some i) (hs : b.src = some x)
    (hd : b.dest = .bind n) (h4 : b.slot ≠ 4) (hpc : c.pc < c.nbundle) (hecc : c.bad.imem = []) :
    firstCause c exch [b] = some (Cause.PRIVILEGE, some b.slot) := by
  obtain ⟨hpriv, hill⟩ := moveCauses_bind (c := c) (exch := exch) hi hs hd h4
  have hpc' : ¬ c.nbundle ≤ c.pc := by omega
  have hpriv' : 3#8 ∈ moveCauses c exch [b] b := hpriv
  have hill' : 1#8 ∉ moveCauses c exch [b] b := hill
  simp [firstCause, rankOrder, hecc, hpc', hpriv', hill']

/-- A CTL trigger's bundle leaves its core, but for a repeat prefix, until the trigger acts (04_scalar_control.md R111, R122). -/
theorem moved_ctlTrigger {s : State} {b : BMove} {p : Nat} (hd : b.dest = .trig .ctl p) (h4 : b.slot ≠ 4) :
    moved s [b] = { begun s.me with repNext := none } := by
  by_cases hp : s.me.performs b = true
  · have hwrite : writeMove (begun s.me) (begun s.me) b = begun s.me := by
      unfold writeMove
      split
      · rfl
      · rw [hd]
    have hentry (c : Core) : enterOperand (begun s.me) s.me.repNext.isSome c b = c :=
      enterOperand_of_not _ _ _ _ fun ⟨_, _, _, _, hd', _⟩ => nomatch hd.symm.trans hd'
    have htrig (c : Core) : enterTrigger (begun s.me) [b] (s.phcOf s.cur) s.me.repNext.isSome c b = c :=
      enterTrigger_of_not _ _ _ _ _ _ fun ⟨_, _, _, _, _, hd', _, he⟩ => he (Dest.trig.inj (hd.symm.trans hd')).1.symm
    rw [moved_one hp, hwrite, advanceAreg_of_ne_four _ _ h4, hentry, htrig]
    exact startRep_lapsed rfl fun _ b' hb h' => absurd (List.mem_singleton.mp hb ▸ h') h4
  · exact moved_squashed fun b' hb => List.mem_singleton.mp hb ▸ Bool.eq_false_iff.mpr hp

section
variable {s : State} {m : Mv} {v : Val}

theorem exec_moveSreg_bind {slot : Fin 8} {n : Fin 16} (hslot : slot = 0 ∨ slot = 1 ∨ slot = 7) (hrun : s.me.seq = .run)
    (hissue : s.issuing s.cur = true) (hstall : stalls s.me (oneMove (.moveSreg slot (.bind n) m)) = false)
    (hpc : s.me.pc < s.me.nbundle) (hecc : s.me.bad.imem = []) :
    ∃ e k, exec (.moveSreg slot (.bind n) m) s = .next (s.setMe ({ s.me with bad := { s.me.bad with bus := [] } }.takeTrap
      { Trap.plain Cause.PRIVILEGE 0 s.me.pc s.me.pc with slotEng := e, tok := k })) := by
  have hf : (Instr.moveSreg slot (.bind n) m).fields = some (slot.val, 0, (SDest.bind n).port, m) := rfl
  have h4 : slot.val ≠ 4 := by omega
  have hfirst := firstCause_bind (c := s.me) (exch := s.exchOf s.cur) (b := moveOf (.moveSreg slot (.bind n) m) slot.val 0 _ m) rfl
    (moveOf_src hf) rfl h4 hpc hecc
  rw [← oneMove_moveOf hf] at hfirst
  exact ⟨_, _, congrArg Host.Outcome.next (issue_firstCause hrun hissue hstall hfirst)⟩

theorem exec_ctlTrap_clear (hclear : s.Clear (oneMove (.ctlTrap m))) (hc : s.me.ctlTrig (oneMove (.ctlTrap m)) = some (.ctlTrap m, .ready v)) :
    exec (.ctlTrap m) s = .next (s.setMe ((issued s.me s.me.ctx).takeTrap
      { Trap.plain Cause.TRAP_INSTR 5 s.me.pc (loopEnd s.me.pc s.me.ctx.loops).1 with
        arg := v.toScalar.extractLsb' 0 16, slotEng := slotEngByte (some .ctl) (some 0) })) := by
  have hmove : oneMove (.ctlTrap m) = [moveOf (.ctlTrap m) 0 1 0x0F m] := oneMove_moveOf rfl
  have hissued : issueChecked s s.cur (oneMove (.ctlTrap m)) = performBundle s s.cur (oneMove (.ctlTrap m)) := issueChecked_ctl hclear hc
  have hmoved : moved s (oneMove (.ctlTrap m)) = { begun s.me with repNext := none } := by
    rw [hmove]
    exact moved_ctlTrigger (p := 15) rfl (show (0 : Nat) ≠ 4 by decide)
  refine (issueOne_clear hclear).trans (congrArg Host.Outcome.next ?_)
  rw [hissued, performBundle_ctl hclear.running hc, hmoved]
  rfl

/-- ctl.tfence with nothing under way raises the oldest deferred fault, and without one a flag that AFM has (04_scalar_control.md R128). -/
theorem exec_ctlTfence_clear (hclear : s.Clear (oneMove (.ctlTfence m)))
    (hc : s.me.ctlTrig (oneMove (.ctlTfence m)) = some (.ctlTfence m, .ready v)) (hq : s.me.queuesEmpty = true)
    (hd : s.me.triggersDone = true) :
    (∀ d r, s.me.deferred = d :: r → exec (.ctlTfence m) s = .next (s.setMe (s.me.raiseDeferred d))) ∧
    (s.me.deferred = [] → s.me.ctx.afl &&& s.me.ctx.afm ≠ 0 → exec (.ctlTfence m) s = .next (s.setMe (s.me.takeTrap
      { Trap.plain Cause.ARITH 0 s.me.pc s.me.pc with
        arg := (s.me.ctx.afl &&& s.me.ctx.afm).setWidth 16, slotEng := slotEngByte (some .ctl) (some 0) }))) := by
  have hx : exec (.ctlTfence m) s = .next (issueChecked s s.cur (oneMove (.ctlTfence m))) := issueOne_clear hclear
  rw [hx, issueChecked_ctl hclear hc]
  simp only [hq, hd, Bool.and_self, Bool.not_true, Bool.false_eq_true, if_false]
  refine ⟨fun d r hdef => ?_, fun hdef hf => ?_⟩
  · rw [hdef]
    rfl
  · rw [hdef]
    simp only [hf, ne_eq, not_false_eq_true, if_true]
    rfl

end

/-- Settles O20: each by the lemma that says which trap its instruction takes. -/
theorem issueTraps : Obligations.IssueTraps := by
  intro s m v ht
  refine ⟨fun slot n hslot hrun hissue hstall _ hpc hecc => ?_, fun hclear hc => ?_, fun hclear hc hq hd => ⟨fun d r hdef => ?_, fun hdef hf => ?_⟩⟩
  · obtain ⟨e, k, hx⟩ := exec_moveSreg_bind hslot hrun hissue hstall hpc hecc
    obtain ⟨u, k, hu, rfl, rfl⟩ := next_takeTrap hx ht (show (0 : Byte) ≠ 1 by decide)
    exact ⟨_, _, hu, by rw [State.me_setMe], by rw [State.me_setMe], by rw [State.me_setMe], by rw [State.me_setMe], rfl, rfl, rfl, rfl⟩
  · obtain ⟨u, k, hu, rfl, rfl⟩ := next_takeTrap (exec_ctlTrap_clear hclear hc) ht (show (5 : Byte) ≠ 1 by decide)
    rw [show (issued s.me s.me.ctx).seq = .run from hclear.running] at hu
    exact ⟨_, hu, rfl, rfl, rfl, rfl, rfl⟩
  · obtain ⟨u, k, hu, rfl, rfl⟩ :=
      next_takeTrap ((exec_ctlTfence_clear hclear hc hq hd).1 d r hdef) ht (show (3 : Byte) ≠ 1 by decide)
    exact ⟨_, _, hu, by rw [State.me_setMe], by rw [State.me_setMe], rfl, rfl, rfl, rfl, by rw [State.me_setMe]⟩
  · obtain ⟨u, k, hu, rfl, rfl⟩ :=
      next_takeTrap ((exec_ctlTfence_clear hclear hc hq hd).2 hdef hf) ht (show (0 : Byte) ≠ 1 by decide)
    exact ⟨_, _, hu, by rw [State.me_setMe], by rw [State.me_setMe], rfl, rfl, rfl, rfl⟩

end Sys2Proof.Machine
end

section
/-! What power-on leaves, and words written out in the spec (03_encoding.md R65 to R72, R77, R91 to R96). -/

namespace Sys2Proof.Machine

/-! ### The state after power-on: what it does not list has the value its kind starts with -/

theorem State.core_reset (n : Nat) : State.reset.core n = Core.idle := rfl
theorem State.quad_reset (n : Nat) : State.reset.quad n = Quad.start := rfl
theorem State.home_reset (n : Nat) : State.reset.home n = Home.start := rfl
theorem State.part_reset (n : Nat) : State.reset.part n = Part.start := rfl
theorem State.slot_reset (n : Nat) : State.reset.slot n = RSlot.start := rfl

theorem State.memoriesWf_reset : State.reset.MemoriesWf := by
  refine ⟨by decide, fun n => ?_⟩
  rw [State.core_reset, State.quad_reset, State.home_reset]
  decide

/-- A job's registers begin full, and each reads 0 (03_encoding.md R77). -/
theorem readReg_start (r : RegId) :
    Ctx.start.readReg r = .full (match r with | .v _ => .v 0 | .vm _ => .m 0 | .s _ | .o _ | .a _ | .g _ => .s 0) := by
  cases r with
  | s i => exact ite_self _
  | _ => rfl

/-- Position k of an A bank begins with tag k/32 (07_stream_array.md R193). -/
theorem tag0_start {k : Nat} (hk : k < 128) : Ctx.start.str.tag0[k]? = some (BitVec.ofNat 2 (k / 32)) := by
  show defaultTags[k]? = _
  simp [defaultTags, hk]

/-- Settles O59: each part of the module at the value its kind starts with. -/
theorem resetIsAsTheSpecSays : Obligations.ResetIsAsTheSpecSays :=
  ⟨by decide, by decide, State.memoriesWf_reset, fun e => by rw [State.home_reset]; decide, fun n => by rw [State.slot_reset]; rfl,
    fun p => by rw [State.runOf, State.part_reset]; rfl, fun n => by rw [State.core_reset]; rfl, by decide, by decide, by decide, by decide,
    by decide, readReg_start, fun _ hk => tag0_start hk⟩

/-- Settles O60: the decoder runs on each word. -/
theorem wordsOfTheSpec : Obligations.WordsOfTheSpec :=
  ⟨rfl, rfl, rfl, rfl, rfl, rfl, rfl, rfl, rfl, rfl, rfl, rfl, rfl, rfl, rfl, rfl, rfl, rfl, rfl⟩

end Sys2Proof.Machine
end

section
/-! The obligation about a step of the whole machine: the instruction of a turn, and the state in which it acts (03_encoding.md R62,
R82, R83; 10_phase_sync.md R280, R292). -/

namespace Sys2Proof.Machine

open Sys2Proof.Claims

/-! ### What happens from outside leaves the turn -/

/-- What a step reads its turn from: the schedule, the core and the object of the turn. -/
def turnOf (s : State) : List Turn × Nat × Nat := (s.agenda, s.cur, s.obj)

theorem turnOf_foldl {α : Type} {f : State → α → State} (h : ∀ t a, turnOf (f t a) = turnOf t) (l : List α) (s : State) :
    turnOf (l.foldl f s) = turnOf s :=
  List.foldlRecOn (motive := fun t => turnOf t = turnOf s) l f rfl fun t ht a _ => (h t a).trans ht

theorem turnOf_onJob (s : State) (k tag n : Nat) (f : CJob → CJob) : turnOf (s.onJob k tag n f) = turnOf s := by
  unfold State.onJob
  dsimp only
  split <;> rfl

theorem turnOf_purge (s : State) (gone : Req → Bool) : turnOf (s.purge gone) = turnOf s := by
  unfold State.purge
  refine turnOf_foldl (fun _ _ => ?_) _ s
  rfl

theorem turnOf_replayed (s : State) (r : Req) : turnOf (replayed s r) = turnOf s := by
  unfold replayed
  split
  · exact turnOf_onJob s _ _ _ _
  · exact turnOf_onJob s _ _ _ _
  · rfl
  · rfl

theorem turnOf_discarded (s : State) (r : Req) (st : Byte) : turnOf (discarded s r st) = turnOf s := by
  have hpurge (x : Bool) (late : Req → Bool) : turnOf (if x then (s.purge late).recall late else s) = turnOf s := by
    cases x
    · rfl
    · exact turnOf_purge s late
  unfold discarded
  split
  · exact (turnOf_onJob _ _ _ _ _).trans (hpurge _ _)
  · exact turnOf_onJob s _ _ _ _
  · rfl
  · rfl

theorem turnOf_reply (s : State) (r : Req) (x : RRes) : turnOf (reply s r x) = turnOf s := by
  have hjob (k tag n : Nat) (f : CJob → CJob) : turnOf (s.onJob k tag n f) = turnOf s := turnOf_onJob s k tag n f
  unfold reply
  cases r.org with
  | job k tag => cases x <;> simp only [hjob]
  | coll k tag => cases x <;> simp only [hjob]
  | pkt q => cases x <;> rfl
  | pod => rfl

theorem turnOf_deliver (s : State) (r : Req) (x : RRes) : turnOf (deliver s r x) = turnOf s := by
  unfold deliver
  split
  · split
    · exact turnOf_replayed s r
    · exact turnOf_replayed s r
    · exact turnOf_discarded s r _
    · rfl
  · exact turnOf_reply s r x

theorem turnOf_podAnswer (s : State) (r : Req) (l : List Byte) (st : Byte) : turnOf (podAnswer s r l st) = turnOf s := by
  unfold podAnswer
  split <;> exact turnOf_deliver s r _

theorem turnOf_performFrozen (s : State) (n : Nat) : turnOf (performFrozen s n) = turnOf s := by
  unfold performFrozen
  split <;> rfl

theorem turnOf_episodeDone (id : Nat) (s : State) (n : Nat) : turnOf (episodeDone id s n) = turnOf s := by
  have hcore (c : Core) : turnOf (s.setCore n c) = turnOf s := rfl
  have hperf (c : Core) : turnOf (performFrozen (s.setCore n c) n) = turnOf s := turnOf_performFrozen _ n
  unfold episodeDone
  dsimp only
  split
  · split
    · exact hperf _
    · rfl
  · split
    · exact hperf _
    · rfl
  · split
    · split
      · exact hperf _
      · rfl
    · rfl
  · split
    · split <;> rfl
    · rfl
  · split
    · split <;> rfl
    · rfl
  · rfl

theorem turnOf_settleEpisode (s : State) (p : Nat) (r : Run) (e : Episode) (far : Bool) :
    turnOf (settleEpisode s p r e far) = turnOf s := by
  unfold settleEpisode
  dsimp only
  split
  · refine (turnOf_foldl (turnOf_episodeDone e.id) _ _).trans (turnOf_foldl (fun _ _ => ?_) _ s)
    rfl
  · rfl

theorem turnOf_podArrive (s : State) (pgid id : Nat) : turnOf (podArrive s pgid id) = turnOf s := by
  unfold podArrive
  split
  · exact turnOf_settleEpisode s _ _ _ true
  · rfl

theorem turnOf_setLocalByte (s : State) (n a : Nat) (b : Byte) : turnOf (s.setLocalByte n a b) = turnOf s := by
  unfold State.setLocalByte
  split <;> rfl

theorem turnOf_happen (s : State) (e : Env) : turnOf (s.happen e) = turnOf s := by
  cases e with
  | localByte n a b =>
    rw [State.happen]
    split
    · exact turnOf_setLocalByte s n a b
    · rfl
  | codeByte n a b =>
    rw [State.happen]
    dsimp only
    split <;> rfl
  | podFlit f =>
    rw [State.happen]
    split
    · split <;> rfl
    all_goals rfl
  | podArrive pgid id => exact turnOf_podArrive s pgid id
  | podCard pgid x =>
    rw [State.happen]
    split <;> rfl
  | podReply r l st => exact turnOf_podAnswer s r l st
  | evict e walks i =>
    rw [State.happen]
    split
    · rfl
    · split <;> rfl
  | _ => rfl

/-! ### The passing of time -/

/-- t differs from s in its cores and its stands alone. -/
def CoresPass (s t : State) : Prop := t = { s with cores := t.cores, parts := t.parts }

theorem CoresPass.trans {s t u : State} (h : CoresPass s t) (h' : CoresPass t u) : CoresPass s u := by
  unfold CoresPass at *
  rw [h', h]

theorem CoresPass.foldl {α : Type} {f : State → α → State} (h : ∀ t a, CoresPass t (f t a)) (l : List α) (s : State) :
    CoresPass s (l.foldl f s) :=
  List.foldlRecOn (motive := CoresPass s) l f rfl fun t ht a _ => ht.trans (h t a)

theorem coresPass_mapCores (s : State) (l : List Nat) (f : Nat → Core → Core) : CoresPass s (s.mapCores l f) := by
  unfold State.mapCores
  refine .foldl (fun _ _ => ?_) l s
  rfl

theorem coresPass_stragglerTraps (s : State) (r : Run) : CoresPass s (stragglerTraps s r) := by
  unfold stragglerTraps
  dsimp only
  split
  · exact coresPass_mapCores s _ _
  · split
    · exact coresPass_mapCores s _ _
    · rfl

theorem coresPass_takeDue (s : State) (d : Nat) : CoresPass s (s.takeDue d) := by
  refine CoresPass.trans (t := { s.tickCc d with cores := _ }) rfl (.foldl (fun t x => ?_) s.runs _)
  split
  · exact coresPass_stragglerTraps t _
  · rfl

theorem coresPass_tickLimits (k : Nat) (s : State) (cc : Nat) : CoresPass s (State.tickLimits k s cc) := by
  induction k generalizing s cc with
  | zero => rfl
  | succ k ih =>
    unfold State.tickLimits
    split
    · split
      · exact (coresPass_takeDue s _).trans (ih _ _)
      · rfl
    · rfl

/-- Where no limit is reached, every core counts its cycles. -/
theorem tickLimits_of_none_due {k cc : Nat} {s : State} (h : ∀ d, s.nextDue = some d → cc < d) : State.tickLimits k s cc = s.tickCc cc := by
  cases k with
  | zero => rfl
  | succ k =>
    unfold State.tickLimits
    split
    · next d hd => rw [if_neg (Nat.not_le.mpr (h d hd))]
    · rfl

theorem Core.idle_tick (cc : Nat) : Core.idle.tick cc = Core.idle := by
  have h : (if cc = 0 then Core.idle else { Core.idle with fresh := 0 }) = Core.idle := by split <;> rfl
  unfold Core.tick
  rw [h]
  rfl

theorem tickCore_idle (s : State) (cc n : Nat) : s.tickCore cc n Core.idle = Core.idle := by
  have h : s.tickCore cc n Core.idle = if s.parksNow n then { Core.idle.tick cc with seq := Core.idle.seq, ssc := Core.idle.ssc }
    else Core.idle.tick cc := rfl
  rw [h, Core.idle_tick]
  split <;> rfl

theorem tickCc_core (s : State) (cc n : Nat) : (s.tickCc cc).core n = s.tickCore cc n (s.core n) :=
  SMap.get_map_key s.cores Core.idle (s.tickCore cc) (tickCore_idle s cc) n

theorem tickCore_eq_tick {s : State} {cc n : Nat} {c : Core} (hslot : ∀ k, c.seq ≠ .frozen .slot k) (hpark : s.parksNow n = false) :
    s.tickCore cc n c = c.tick cc := by
  unfold State.tickCore
  split
  · rfl
  · next k hk => exact absurd hk (hslot k)
  · simp [hpark]

theorem parksNow_eq_false {s : State} {n : Nat} (h : ∀ p r, s.standOf n = some (p, r) → r.st ≠ .parking) : s.parksNow n = false := by
  unfold State.parksNow
  split
  · next p r hr => exact decide_eq_false (h p r hr)
  · rfl

/-- A clock that corrects nothing counts its nanoseconds (10_phase_sync.md R292). -/
theorem Clock.tick_dtc {k : Clock} (h : k.corr = 0) (ns : Nat) : (k.tick ns).dtc = k.dtc + BitVec.ofNat 64 ns := by
  simp [Clock.tick, h]

section
variable (s : State) (cc ns : Nat)

theorem tick_eq : s.tick cc ns = { s.tickNs ns with cores := (s.tick cc ns).cores, parts := (s.tick cc ns).parts } :=
  coresPass_tickLimits 600 (s.tickNs ns) cc

theorem turnOf_tick : turnOf (s.tick cc ns) = turnOf s := by
  rw [tick_eq]
  rfl

theorem tick_sys : (s.tick cc ns).sys = { s.sys with clock := s.sys.clock.tick ns, edges := (s.tick cc ns).sys.edges } := by
  rw [tick_eq]
  rfl

end

theorem tick_core {s : State} {cc ns n : Nat} (hdue : ∀ d, (s.tickNs ns).nextDue = some d → cc < d)
    (hslot : ∀ k, (s.core n).seq ≠ .frozen .slot k) (hpark : ∀ p r, s.standOf n = some (p, r) → r.st ≠ .parking) :
    (s.tick cc ns).core n = (s.core n).tick cc := by
  rw [State.tick, tickLimits_of_none_due hdue, tickCc_core]
  exact tickCore_eq_tick hslot (parksNow_eq_false hpark)

theorem turnOf_enter (s : State) (t : Turn) (r : List Turn) : turnOf (s.enter t r) = (r, t.core, t.obj) :=
  (turnOf_tick _ _ _).trans (turnOf_foldl turnOf_happen _ _)

/-! ### The instruction of a turn -/

section
variable {c : Core}

/-- The words of a bundle that are no no-op are its moves. -/
theorem Core.fetch_length (c : Core) :
    c.fetch.length = (bundleWords (c.code.readN (24 * c.pc) 24)).countP (fun w => decide (w ≠ 0)) := by
  generalize hl : bundleWords (c.code.readN (24 * c.pc) 24) = l
  rw [Core.fetch, hl, List.length_map, ← List.countP_eq_length_filter]
  conv_rhs => rw [← List.zipIdx_map_fst 0 l, List.countP_map]
  rfl

theorem filter_zipIdx_replicate (n k : Nat) :
    ((List.replicate n (0 : BitVec 24)).zipIdx k).filter (fun p => decide (p.1 ≠ 0)) = [] :=
  List.filter_eq_nil_iff.mpr fun p hp => by
    have h0 := List.eq_of_mem_replicate (List.fst_mem_of_mem_zipIdx hp)
    simp [h0]

/-- A bundle of one word other than the no-op holds one move, in the slot of that word (03_encoding.md R62). -/
theorem Core.fetch_single {k : Fin 8} {w : BitVec 24} (hw : w ≠ 0)
    (h : bundleWords (c.code.readN (24 * c.pc) 24) = List.replicate k.val 0 ++ w :: List.replicate (7 - k.val) 0) :
    c.fetch = [⟨k.val, w, decodeMove k w⟩] := by
  rw [Core.fetch, h, List.zipIdx_append, List.zipIdx_cons, List.filter_append, filter_zipIdx_replicate, List.filter_cons_of_pos (by simpa using hw),
    filter_zipIdx_replicate]
  simp

end

section
variable {s : State}

theorem fetched_single {k : Fin 8} {w : BitVec 24} {i : Instr} (h : s.me.fetch = [⟨k.val, w, decodeMove k w⟩])
    (hi : decodeMove k w = some i) (hq : isQueueTrig i = false) : s.fetched = i := by
  have henc : encode i = some (k.val, w) := (encode_of_decodeMove hi).2
  simp [State.fetched, h, hi, hq, henc]

theorem fetched_undecoded {k : Fin 8} {w : BitVec 24} (h : s.me.fetch = [⟨k.val, w, decodeMove k w⟩])
    (hi : ∀ i, decodeMove k w = some i → isQueueTrig i = true) : s.fetched = .bundleIssue := by
  unfold State.fetched
  rw [h]
  dsimp only
  split
  · next i hd => simp [hi i hd]
  · rfl

theorem fetched_many (h : s.me.fetch.length ≠ 1) : s.fetched = .bundleIssue := by
  unfold State.fetched
  split
  · next b hb => exact absurd (congrArg List.length hb) h
  · rfl

theorem headInstr_cons {c : Core} {g : Eng} {en : Entry} {q : List Entry} (h : c.q g = en :: q) :
    c.headInstr g = en.trig.getD (.operandEntryCapture g) := by
  rw [Core.headInstr, h]
  dsimp only
  cases en.trig <;> rfl

theorem step_of_turn {t : Turn} {r : List Turn} (h : s.agenda = t :: r) (hn : t.core < 512) :
    step s = exec ((s.enter t r).chosen t.what) (s.enter t r) := by
  simp only [step, State.nextTurn, h, Nat.not_le.mpr hn, if_false]

theorem step_of_no_core {t : Turn} {r : List Turn} (h : s.agenda = t :: r) (hn : 512 ≤ t.core) : step s = .fault (.noSuchCore t.core) := by
  simp only [step, State.nextTurn, h, hn, if_true]

theorem step_of_idle (h : s.agenda = []) : step s = step { s with agenda := [s.defaultTurn] } := by
  simp only [step, State.nextTurn, h]
  rfl

end

/-- Settles O58: what surrounds a turn's instruction is turnOf_enter and the lemmas about tick; the instruction is that of the head of
a queue or of the fetched bundle. -/
theorem stepRunsTheDecodedInstruction : Obligations.StepRunsTheDecodedInstruction := by
  intro s
  refine ⟨fun t r hs hn => ?_, step_of_idle, fun t r hs hn => step_of_no_core hs hn⟩
  intro e u words
  have hstep {i : Instr} (h : e.chosen t.what = i) : step s = exec i e := by rw [step_of_turn hs hn, ← h]
  have hfetch {i : Instr} (hw : t.what = .fetch) (h : e.fetched = i) : step s = exec i e := hstep (by rw [hw]; exact h)
  have hrest : e = { u.tickNs t.ns with cores := e.cores, parts := e.parts } := tick_eq u t.cc t.ns
  have hsys : e.sys = { u.sys with clock := u.sys.clock.tick t.ns, edges := e.sys.edges } := tick_sys u t.cc t.ns
  refine ⟨?_, fun i hw => hstep (by rw [hw]; rfl), fun g en q hw hq => hstep (by rw [hw]; exact headInstr_cons hq),
    fun k w i hw hne hwords hi hq => hfetch hw (fetched_single (Core.fetch_single hne hwords) hi hq),
    fun k w hw hne hwords hi => hfetch hw (fetched_undecoded (Core.fetch_single hne hwords) hi),
    fun hw hcount => hfetch hw (fetched_many (Core.fetch_length e.me ▸ hcount))⟩
  have hturn : turnOf e = (r, t.core, t.obj) := turnOf_enter s t r
  obtain ⟨hagenda, hcur, hobj⟩ : e.agenda = r ∧ e.cur = t.core ∧ e.obj = t.obj := by simpa [turnOf] using hturn
  refine ⟨hcur, hobj, hagenda, by rw [hrest]; rfl, by rw [hrest]; rfl, by rw [hrest]; rfl, by rw [hrest]; rfl, by rw [hrest]; rfl, hsys,
    fun hc => ?_, fun hdue n hslot hpark => tick_core hdue hslot hpark⟩
  rw [hsys]
  exact Clock.tick_dtc hc t.ns

end Sys2Proof.Machine
end

section
/-! The scalar engine (04_scalar_control.md R107 to R109): what each of its triggers makes of its operands. -/

namespace Sys2Proof.Machine

open Sys2Proof.Claims

/-! ### Fields of a word -/

theorem toNat_lowSix (a : Word) : (a.extractLsb' 0 6).toNat = a.toNat % 64 := by simp

theorem fieldLen_eq (a : Word) : fieldLen a = a.toNat / 256 % 64 + 1 := by simp [fieldLen, Nat.shiftRight_eq_div_pow]

theorem getLsbD_maskOf {n j : Nat} (hj : j < 64) : (maskOf n).getLsbD j = decide (j < n) := by
  simp only [maskOf, BitVec.getLsbD_ofNat, hj, decide_true, Bool.true_and, Nat.testBit_two_pow_sub_one]

/-! ### Results (04_scalar_control.md R109) -/

/-- A product's high half fits in a word. -/
theorem mulHigh_toNat (a b : Word) : (BitVec.ofNat 64 (a.toNat * b.toNat / 2 ^ 64)).toNat = a.toNat * b.toNat / 2 ^ 64 := by
  rw [BitVec.toNat_ofNat, Nat.mod_eq_of_lt]
  have h : a.toNat * b.toNat < 2 ^ 64 * 2 ^ 64 := Nat.mul_lt_mul'' a.isLt b.isLt
  exact Nat.div_lt_of_lt_mul h

theorem scaDivN_spec (a b : Word) : if b = 0 then scaDivN a b = BitVec.allOnes 64 else (scaDivN a b).toNat = a.toNat / b.toNat := by
  unfold scaDivN
  split
  · rfl
  · rw [BitVec.toNat_ofNat, Nat.mod_eq_of_lt (Nat.lt_of_le_of_lt (Nat.div_le_self _ _) a.isLt)]

theorem scaRemN_spec (a b : Word) : if b = 0 then scaRemN a b = a else (scaRemN a b).toNat = a.toNat % b.toNat := by
  unfold scaRemN
  split
  · rfl
  · rw [BitVec.toNat_ofNat, Nat.mod_eq_of_lt (Nat.lt_of_le_of_lt (Nat.mod_le _ _) a.isLt)]

/-- A signed remainder fits in a word, and is what the truncated quotient leaves. -/
theorem scaRemS_spec (a b : Word) : if b = 0 then scaRemS a b = a else
    (scaRemS a b).toInt = a.toInt - b.toInt * a.toInt.tdiv b.toInt := by
  unfold scaRemS
  split
  · rfl
  · rw [← BitVec.toInt_srem, BitVec.ofInt_toInt, BitVec.toInt_srem, Int.tmod_def]

/-- The highest one bit of a word that is not 0. -/
theorem scaClz_spec (b : Word) : (scaClz b).toNat ≤ 64 ∧ (∀ j < (scaClz b).toNat, b.getLsbD (63 - j) = false) ∧
    ((scaClz b).toNat < 64 → b.getLsbD (63 - (scaClz b).toNat) = true) := by
  unfold scaClz
  split
  · next h => simp [h]
  · next h =>
    have hne : b.toNat ≠ 0 := fun h0 => h (BitVec.eq_of_toNat_eq h0)
    have hlog : b.toNat.log2 < 64 := (Nat.log2_lt hne).mpr b.isLt
    have hr : (BitVec.ofNat 64 (63 - b.toNat.log2)).toNat = 63 - b.toNat.log2 := by
      rw [BitVec.toNat_ofNat, Nat.mod_eq_of_lt (by omega)]
    rw [hr]
    refine ⟨by omega, fun j hj => ?_, fun _ => ?_⟩
    · rw [← BitVec.testBit_toNat]
      exact Nat.testBit_lt_two_pow (Nat.lt_of_lt_of_le Nat.lt_log2_self (Nat.pow_le_pow_right (by decide) (by omega)))
    · rw [← BitVec.testBit_toNat, show 63 - (63 - b.toNat.log2) = b.toNat.log2 by omega]
      exact Nat.testBit_log2 hne

/-- b and -b share the lowest one bit of b alone. -/
theorem getLsbD_and_neg (b : Word) (j : Nat) : (b &&& -b).getLsbD j = true ↔ b.getLsbD j = true ∧ ∀ i < j, b.getLsbD i = false := by
  rw [BitVec.getLsbD_and, BitVec.getLsbD_neg, Bool.and_eq_true]
  refine and_congr_right fun hj => ?_
  have hlt : j < 64 := BitVec.lt_of_getLsbD hj
  rw [hj]
  simp [hlt]

theorem and_neg_ne_zero {b : Word} (h : b ≠ 0) : b &&& -b ≠ 0 := by
  intro h0
  have hbits : ∀ j, b.getLsbD j = false := by
    intro j
    induction j using Nat.strongRecOn with
    | ind j ih =>
      by_contra hj
      have := (getLsbD_and_neg b j).mpr ⟨by simpa using hj, ih⟩
      simp [h0] at this
  exact h (BitVec.eq_of_getLsbD_eq fun j _ => by simp [hbits j])

theorem scaCtz_spec (b : Word) : (scaCtz b).toNat ≤ 64 ∧ (∀ j < (scaCtz b).toNat, b.getLsbD j = false) ∧
    ((scaCtz b).toNat < 64 → b.getLsbD (scaCtz b).toNat = true) := by
  unfold scaCtz
  split
  · next h => simp [h]
  · next h =>
    have hne : (b &&& -b).toNat ≠ 0 := fun h0 => and_neg_ne_zero h (BitVec.eq_of_toNat_eq h0)
    have hlog : (b &&& -b).toNat.log2 < 64 := (Nat.log2_lt hne).mpr (b &&& -b).isLt
    have hbit := Nat.testBit_log2 hne
    rw [BitVec.testBit_toNat, getLsbD_and_neg] at hbit
    rw [BitVec.toNat_ofNat, Nat.mod_eq_of_lt (Nat.lt_trans hlog (by decide))]
    exact ⟨hlog.le, hbit.2, fun _ => hbit.1⟩

theorem popNat_eq_countP (b : Word) (n : Nat) : popNat b.toNat n = (List.range n).countP (fun j => b.getLsbD j) := by
  induction n with
  | zero => rfl
  | succ n ih =>
    rw [popNat, ih, List.range_succ, List.countP_append, List.countP_singleton, ← BitVec.testBit_toNat,
      Nat.testBit_eq_decide_div_mod_eq]
    have := Nat.mod_two_eq_zero_or_one (b.toNat / 2 ^ n)
    split <;> simp_all

theorem scaPopc_spec (b : Word) : (scaPopc b).toNat = (List.range 64).countP (fun j => b.getLsbD j) := by
  rw [scaPopc, BitVec.toNat_ofNat, popNat_eq_countP, Nat.mod_eq_of_lt]
  exact Nat.lt_of_le_of_lt List.countP_le_length (by simp)

/-- A truth value is 1 or 0. -/
theorem ofBool64_eq {p : Bool} {q : Prop} [Decidable q] (h : p = true ↔ q) : ofBool64 p = if q then 1 else 0 := if_congr h rfl rfl

theorem scaSext_spec (a b : Word) {j : Nat} (hj : j < 64) : (scaSext a b).getLsbD j = b.getLsbD (min j (a.toNat % 64)) := by
  rw [scaSext, toNat_lowSix, BitVec.getLsbD_sshiftRight, BitVec.msb_shiftLeft]
  have ht : a.toNat % 64 < 64 := Nat.mod_lt _ (by decide)
  generalize a.toNat % 64 = t at ht
  split
  · next h =>
    rw [BitVec.getLsbD_shiftLeft, show 63 - t + j - (63 - t) = min j t by omega]
    simp [h, hj]
  · next h =>
    rw [BitVec.getMsbD, show 64 - 1 - (63 - t) = min j t by omega]
    simp [Nat.not_le.mpr hj, show 63 - t < 64 by omega]

theorem scaZext_spec (a b : Word) {j : Nat} (hj : j < 64) :
    (b &&& maskOf ((a.extractLsb' 0 6).toNat + 1)).getLsbD j = (b.getLsbD j && decide (j ≤ a.toNat % 64)) := by
  rw [BitVec.getLsbD_and, getLsbD_maskOf hj, toNat_lowSix]
  simp only [Nat.lt_succ_iff]

theorem scaBfx_spec (a b : Word) {j : Nat} (hj : j < 64) :
    (scaBfx a b).getLsbD j = (b.getLsbD (a.toNat % 64 + j) && decide (j < a.toNat / 256 % 64 + 1)) := by
  rw [scaBfx, BitVec.getLsbD_and, getLsbD_maskOf hj, BitVec.ushiftRight_eq', BitVec.getLsbD_ushiftRight, toNat_lowSix, fieldLen_eq]

theorem scaBfi_spec (a b c : Word) {j : Nat} (hj : j < 64) : (scaBfi a b c).getLsbD j =
    if a.toNat % 64 ≤ j ∧ j < a.toNat % 64 + (a.toNat / 256 % 64 + 1) then b.getLsbD (j - a.toNat % 64) else c.getLsbD j := by
  rw [scaBfi, BitVec.shiftLeft_eq', BitVec.shiftLeft_eq', toNat_lowSix, fieldLen_eq]
  generalize a.toNat % 64 = t
  generalize a.toNat / 256 % 64 + 1 = n
  have hmask : (maskOf n).getLsbD (j - t) = decide (j - t < n) := getLsbD_maskOf (by omega)
  simp only [BitVec.getLsbD_or, BitVec.getLsbD_and, BitVec.getLsbD_not, BitVec.getLsbD_shiftLeft, hmask, hj, decide_true, Bool.true_and]
  by_cases hlow : j < t
  · simp [hlow, Nat.not_le.mpr hlow]
  · by_cases hhigh : j - t < n
    · simp [hlow, hhigh, Nat.not_lt.mp hlow, show j < t + n by omega]
    · simp [hlow, hhigh, show ¬ j < t + n by omega]

theorem scaCat9_spec (a b : Word) {j : Nat} (hj : j < 64) : ((a <<< 9) ||| (b.extractLsb' 0 9).setWidth 64).getLsbD j =
    if j < 9 then b.getLsbD j else a.getLsbD (j - 9) := by
  rw [BitVec.getLsbD_or, BitVec.getLsbD_shiftLeft, BitVec.getLsbD_setWidth, BitVec.getLsbD_extractLsb', Nat.zero_add]
  split
  · next h => simp [h, hj]
  · next h => simp [h, hj]

/-! ### The triggers -/

/-- Every SCA trigger runs a function that gives what R109 asks of it. -/
theorem exec_sca {i : Instr} (hi : isSca i = true) :
    ∃ f, (∀ s, exec i s = scaRun i (isDivide i) f s) ∧ ∀ a b c, ScaResult i a b c (f a b c) := by
  cases i with
  | scaAdd m => exact ⟨_, fun _ => rfl, fun _ _ _ => rfl⟩
  | scaSub m => exact ⟨_, fun _ => rfl, fun _ _ _ => rfl⟩
  | scaMul m => exact ⟨_, fun _ => rfl, fun _ _ _ => rfl⟩
  | scaMulhs m => exact ⟨_, fun _ => rfl, fun _ _ _ => rfl⟩
  | scaMulhn m => exact ⟨_, fun _ => rfl, fun a b _ => mulHigh_toNat a b⟩
  | scaDivs m => exact ⟨_, fun _ => rfl, fun _ _ _ => rfl⟩
  | scaDivn m => exact ⟨_, fun _ => rfl, fun a b _ => scaDivN_spec a b⟩
  | scaRems m => exact ⟨_, fun _ => rfl, fun a b _ => scaRemS_spec a b⟩
  | scaRemn m => exact ⟨_, fun _ => rfl, fun a b _ => scaRemN_spec a b⟩
  | scaAnd m => exact ⟨_, fun _ => rfl, fun _ _ _ => rfl⟩
  | scaOr m => exact ⟨_, fun _ => rfl, fun _ _ _ => rfl⟩
  | scaXor m => exact ⟨_, fun _ => rfl, fun _ _ _ => rfl⟩
  | scaAndn m => exact ⟨_, fun _ => rfl, fun _ _ _ => rfl⟩
  | scaShl m => exact ⟨_, fun _ => rfl, fun a b _ => congrArg (a <<< ·) (toNat_lowSix b)⟩
  | scaShrl m => exact ⟨_, fun _ => rfl, fun a b _ => congrArg (a >>> ·) (toNat_lowSix b)⟩
  | scaShra m => exact ⟨_, fun _ => rfl, fun a b _ => congrArg a.sshiftRight (toNat_lowSix b)⟩
  | scaRotl m => exact ⟨_, fun _ => rfl, fun a b _ => congrArg a.rotateLeft (toNat_lowSix b)⟩
  | scaClz m => exact ⟨_, fun _ => rfl, fun _ b _ => scaClz_spec b⟩
  | scaCtz m => exact ⟨_, fun _ => rfl, fun _ b _ => scaCtz_spec b⟩
  | scaPopc m => exact ⟨_, fun _ => rfl, fun _ b _ => scaPopc_spec b⟩
  | scaMins m => exact ⟨_, fun _ => rfl, fun a b _ => (apply_ite BitVec.toInt _ a b).trans (min_def _ _).symm⟩
  | scaMaxs m => exact ⟨_, fun _ => rfl, fun a b _ => (apply_ite BitVec.toInt _ b a).trans (max_def _ _).symm⟩
  | scaMinn m => exact ⟨_, fun _ => rfl, fun a b _ => (apply_ite BitVec.toNat _ a b).trans (min_def _ _).symm⟩
  | scaMaxn m => exact ⟨_, fun _ => rfl, fun a b _ => (apply_ite BitVec.toNat _ b a).trans (max_def _ _).symm⟩
  | scaCeq m => exact ⟨_, fun _ => rfl, fun _ _ _ => ofBool64_eq decide_eq_true_iff⟩
  | scaCne m => exact ⟨_, fun _ => rfl, fun a b _ => (ofBool64_eq decide_eq_true_iff).trans (ite_not _ _ _)⟩
  | scaClts m => exact ⟨_, fun _ => rfl, fun _ _ _ => ofBool64_eq (decide_eq_true_iff.trans BitVec.slt_iff_toInt_lt.symm)⟩
  | scaCltn m => exact ⟨_, fun _ => rfl, fun _ _ _ => ofBool64_eq (decide_eq_true_iff.trans BitVec.ult_iff_lt.symm)⟩
  | scaCles m => exact ⟨_, fun _ => rfl, fun _ _ _ => ofBool64_eq (decide_eq_true_iff.trans BitVec.sle_iff_toInt_le.symm)⟩
  | scaClen m => exact ⟨_, fun _ => rfl, fun _ _ _ => ofBool64_eq (decide_eq_true_iff.trans BitVec.ule_iff_le.symm)⟩
  | scaSel m => exact ⟨_, fun _ => rfl, fun _ _ _ => rfl⟩
  | scaSext m => exact ⟨_, fun _ => rfl, fun a b _ _ hj => scaSext_spec a b hj⟩
  | scaZext m => exact ⟨_, fun _ => rfl, fun a b _ _ hj => scaZext_spec a b hj⟩
  | scaBfx m => exact ⟨_, fun _ => rfl, fun a b _ _ hj => scaBfx_spec a b hj⟩
  | scaBfi m => exact ⟨_, fun _ => rfl, fun a b c _ hj => scaBfi_spec a b c hj⟩
  | scaPass m => exact ⟨_, fun _ => rfl, fun _ _ _ => rfl⟩
  | scaCat9 m => exact ⟨_, fun _ => rfl, fun a b _ _ hj => scaCat9_spec a b hj⟩
  | _ => cases hi

/-- Settles O1: the trigger's function (exec_sca) runs at the head of the queue, or a busy divider keeps it there. -/
theorem scaTriggerGivesItsResult : Obligations.ScaTriggerGivesItsResult := by
  intro s i en v hi h
  obtain ⟨f, hx, hf⟩ := exec_sca hi
  refine ⟨fun hfree => ⟨_, hf _ _ _, (hx s).trans (scaRun_started h _ f hfree)⟩, fun hdiv hbusy => (hx s).trans ?_⟩
  rw [hdiv]
  exact scaRun_busy h f hbusy

end Sys2Proof.Machine
end

section
/-! The bundle of one CTL trigger (04_scalar_control.md R111 to R133; 03_encoding.md R86): what makes it one, that it meets no cause, and
what it leaves once it acts. -/

namespace Sys2Proof.Machine

open Sys2Proof.Claims

/-! ### What a bundle with a CTL trigger is -/

/-- Slot 0 alone reaches the triggers of CTL (03_encoding.md R66). -/
theorem slot_eq_zero_of_ctl {i : Instr} {p slot : Nat} {unit : BitVec 3} {port : BitVec 7} {m : Mv}
    (hd : destOf i = .trig .ctl p) (hf : i.fields = some (slot, unit, port, m)) : slot = 0 := by
  have hslot {k : Nat} (hk : slotEng k = .ctl) : k = 0 := by
    unfold slotEng at hk
    split at hk
    · rfl
    all_goals cases hk
  unfold destOf at hd
  split at hd
  · next d _ => cases d <;> cases hd
  · cases hd
  · cases hd
  · cases hd
  · cases hd
  · cases hd
  · simp only [hf, Dest.trig.injEq] at hd
    obtain ⟨he, -⟩ := hd
    split at he
    · cases he
    · exact hslot he

/-- A bundle of one move with a CTL trigger that acts is the performed move of slot 0 that carries it. -/
theorem ctlTrig_oneMove {c : Core} {i j : Instr} {v : EVal} (h : c.ctlTrig (oneMove i) = some (j, v)) :
    ∃ p unit port m, destOf i = .trig .ctl p ∧ i.fields = some (0, unit, port, m) ∧
      c.performs (moveOf i 0 unit port m) = true := by
  cases hf : i.fields with
  | none =>
    have hnil : oneMove i = [] := by simp only [oneMove, encode, hf]
    rw [hnil] at h
    cases h
  | some f =>
    obtain ⟨slot, unit, port, m⟩ := f
    rw [oneMove_moveOf hf] at h
    unfold Core.ctlTrig at h
    split at h
    · next b hb =>
      have hb' := List.find?_some hb
      simp only [Bool.and_eq_true] at hb'
      obtain ⟨hp, hd⟩ := hb'
      obtain rfl := List.mem_singleton.mp (List.mem_of_find?_eq_some hb)
      split at hd
      · next p hd' =>
        rw [moveOf_dest] at hd'
        obtain rfl := slot_eq_zero_of_ctl hd' hf
        exact ⟨p, unit, port, m, hd', rfl, hp⟩
      · cases hd
    · cases h

/-- The bundle's own trigger sees what the CTL operand ports hold: the bundle has no other move (04_scalar_control.md R111). -/
theorem ctlOperand_oneMove {c : Core} {i j : Instr} {v : EVal} (h : c.ctlTrig (oneMove i) = some (j, v)) (p : OPort) :
    c.ownOperand (oneMove i) .ctl p = none ∧
      c.ctlOperand (oneMove i) p = .ready (if p = .o2 then (c.op .ctl).o2 else (c.op .ctl).o) := by
  obtain ⟨q, unit, port, m, hd, hf, -⟩ := ctlTrig_oneMove h
  have hnone : (oneMove i).find? (fun b => c.performs b && decide (b.dest = .oport .ctl p)) = none := by
    rw [oneMove_moveOf hf]
    simp [moveOf_dest, hd]
  simp [Core.ownOperand, Core.ctlOperand, hnone]

section
variable {s : State} {i : Instr} {v : Val} (hclear : s.Clear (oneMove i)) (hc : s.me.ctlTrig (oneMove i) = some (i, .ready v))
include hclear hc

theorem exec_ctl : exec i s = .next (issueChecked s s.cur (oneMove i)) := by
  obtain ⟨p, -, -, -, hd, -⟩ := ctlTrig_oneMove hc
  rw [exec_eq_issueOne_of_ctl hd, issueOne_clear hclear]

/-- A CTL trigger that acts does so on the core as its bundle found it. -/
theorem performBundle_ctlTrigger : performBundle s s.cur (oneMove i) =
    s.setMe (ctlAct s s.cur (begun s.me) { begun s.me with repNext := none } i v.toScalar (s.me.op .ctl).o.toScalar) := by
  obtain ⟨p, unit, port, m, hd, hf, -⟩ := ctlTrig_oneMove hc
  have hmoved : moved s (oneMove i) = { begun s.me with repNext := none } := by
    rw [oneMove_moveOf hf]
    exact moved_ctlTrigger hd (show (0 : Nat) ≠ 4 by decide)
  rw [performBundle_ctl hclear.running hc, hmoved]
  rfl

/-- The checks of a CTL trigger that issues find nothing (03_encoding.md R86). -/
theorem ctlCheck_ne {k : Byte} (hk : k ∈ rankOrder) (hecc : k ≠ Cause.ECC_IMEM) (hbreak : k ≠ Cause.BREAK) :
    ∃ mem b, ctlCheck s.me (s.exchOf s.cur) mem i b (some (s.me.op .ctl).o.toScalar) ≠ some k := by
  have howner := (ctlOperand_oneMove hc .o).1
  have hlegal := hclear.legal
  obtain ⟨q, unit, port, m, hd, hf, hp⟩ := ctlTrig_oneMove hc
  rw [oneMove_moveOf hf] at howner hlegal
  have hdest : (moveOf i 0 unit port m).dest = .trig .ctl q := hd
  have hinstr : (moveOf i 0 unit port m).instr = some i := rfl
  have hat : s.me.ctlAtHand (s.exchOf s.cur) [moveOf i 0 unit port m] = some (s.me.op .ctl).o.toScalar := by
    simp only [Core.ctlAtHand, howner]
  by_contra! hall
  refine not_mem_moveCauses hlegal hk hecc hbreak (List.mem_singleton_self (moveOf i 0 unit port m)) ?_
  simp only [moveCauses, hp, if_true, hdest, hinstr, moveOf_src hf, hat, hall, List.mem_append, List.mem_singleton, true_or, or_true]

end

/-! ### Triggers that act at issue -/

/-- The CTL triggers that may wait after the checks of their bundle (03_encoding.md R86). -/
def ctlWaits : Instr → Bool
  | .ctlTfence _ | .ctlDrain _ | .ctlWaitt _ | .ctlBar _ | .ctlArrive _ | .ctlBwait _ | .ctlBwaitt _ => true
  | _ => false

theorem issueChecked_atOnce {s : State} {i : Instr} {b : EVal} {ms : List BMove} (hclear : s.Clear ms)
    (hc : s.me.ctlTrig ms = some (i, b)) (hi : ctlWaits i = false) : issueChecked s s.cur ms = performBundle s s.cur ms := by
  rw [issueChecked_ctl hclear hc]
  split
  case h_8 => rfl
  all_goals cases hi

theorem exec_ctl_atOnce {s : State} {i : Instr} {v : Val} (hclear : s.Clear (oneMove i))
    (hc : s.me.ctlTrig (oneMove i) = some (i, .ready v)) (hi : ctlWaits i = false) : exec i s =
      .next (s.setMe (ctlAct s s.cur (begun s.me) { begun s.me with repNext := none } i v.toScalar (s.me.op .ctl).o.toScalar)) := by
  rw [exec_ctl hclear hc, issueChecked_atOnce hclear hc hi, performBundle_ctlTrigger hclear hc]

/-! ### Branches and loops (04_scalar_control.md R114, R118 to R120) -/

/-- The frames that a taken branch leaves are those from the first that holds its target (04_scalar_control.md R120). -/
theorem exitFrames_eq_dropWhile (t : Nat) (l : List Loop) :
    exitFrames t l = l.dropWhile (fun f => decide (t < f.lstart ∨ f.lend < t)) := by
  induction l with
  | nil => rfl
  | cons f l ih =>
    rw [exitFrames, List.dropWhile_cons, ih]
    by_cases h : f.lstart ≤ t ∧ t ≤ f.lend
    · rw [if_pos h, if_neg (by simp; omega)]
    · rw [if_neg h, if_pos (by simp; omega)]

theorem Core.ret_of_links {c : Core} {t : Nat} {r : List Nat} (h : c.ctx.links = t :: r) :
    c.ret = { c with pc := t, ctx := { c.ctx with links := r } } := by
  simp only [Core.ret, h]

/-- A branching trigger, ctl.ret with a return address at hand, sets the next bundle, the loop frames and the link stack. -/
theorem ctlAct_branch {s : State} {n : Nat} {c : Core} {i : Instr} {b o : Word} {t : Nat} {l : List Loop} {k : List Nat}
    (h : branchOf c b o i = some (t, l, k)) (hret : ∀ m, i = .ctlRet m → c.ctx.links ≠ []) :
    ctlAct s n (begun c) { begun c with repNext := none } i b o =
      { c with pc := t, ctx := { c.ctx with loops := l, links := k }, resumeBreak := false, repNext := none } := by
  unfold branchOf at h
  split at h
  · cases h
    simp only [ctlAct, Core.branch, exitFrames_eq_dropWhile]
    rfl
  · cases h
    simp only [ctlAct, Core.branch, exitFrames_eq_dropWhile]
    rfl
  · cases h
    rfl
  · next m =>
    cases h
    cases hlinks : c.ctx.links with
    | nil => exact absurd hlinks (hret m rfl)
    | cons a r =>
      exact Core.ret_of_links (c := { begun c with repNext := none }) hlinks
  · cases h
    rfl
  · cases h

theorem ctlWaits_of_branch {c : Core} {i : Instr} {b o : Word} {x : Nat × List Loop × List Nat} (h : branchOf c b o i = some x) :
    ctlWaits i = false := by
  unfold branchOf at h
  split at h
  case h_6 => cases h
  all_goals rfl

/-- ctl.ret issues with a return address on the link stack (04_scalar_control.md R114). -/
theorem links_of_ret {s : State} {m : Mv} {v : Val} (hclear : s.Clear (oneMove (.ctlRet m)))
    (hc : s.me.ctlTrig (oneMove (.ctlRet m)) = some (.ctlRet m, .ready v)) : s.me.ctx.links ≠ [] := by
  obtain ⟨mem, b, h⟩ := ctlCheck_ne hclear hc (k := Cause.STACK) (by decide) (by decide) (by decide)
  intro hnil
  exact h (by simp [ctlCheck, hnil])

/-! ### Control registers (04_scalar_control.md R130 to R133) -/

/-- A control register that is there reads what the state holds. -/
theorem csrRead_of_csrOf {s : State} {num : Nat} {w : Word} (h : csrOf s num = some w) : csrRead s s.cur num = w := by
  obtain ⟨⟨n, x⟩, hfind, hx⟩ := Option.bind_eq_some_iff.mp h
  obtain rfl : n = num := by simpa using List.find?_some hfind
  obtain rfl : x = some w := hx
  have hmem := List.mem_of_find?_eq_some hfind
  have hrun {f : Run → Nat} (hw : some w = (s.runOf s.me.part).map (fun r => BitVec.ofNat 64 (f r))) :
      (match s.runOf s.me.part with | some x => BitVec.ofNat 64 (f x) | none => 0) = w := by
    obtain ⟨r, hr, rfl⟩ := Option.map_eq_some_iff.mp hw.symm
    rw [hr]
  simp only [List.mem_cons, Prod.mk.injEq, List.not_mem_nil, or_false] at hmem
  obtain ⟨rfl, hw⟩ | ⟨rfl, hw⟩ | ⟨rfl, hw⟩ | ⟨rfl, hw⟩ | ⟨rfl, hw⟩ | ⟨rfl, hw⟩ | ⟨rfl, hw⟩ | ⟨rfl, hw⟩ | ⟨rfl, hw⟩ | ⟨rfl, hw⟩
    | ⟨rfl, hw⟩ | ⟨rfl, hw⟩ | ⟨rfl, hw⟩ | ⟨rfl, hw⟩ | ⟨rfl, hw⟩ | ⟨rfl, hw⟩ | ⟨rfl, hw⟩ | ⟨rfl, hw⟩ | ⟨rfl, hw⟩ := hmem
  · rw [Option.some.inj hw]
    exact congrArg (BitVec.ofNat 64) (by rw [State.coreId]; omega)
  · exact (Option.some.inj hw).symm
  · exact (Option.some.inj hw).symm
  · exact (Option.some.inj hw).symm
  · exact (Option.some.inj hw).symm
  · exact hrun hw
  · have htag (n : Nat) : 4 * (n % 2) = if n % 2 = 1 then 4 else 0 := by split <;> omega
    rw [← hrun hw]
    simp only [csrRead, htag]
    rfl
  · exact hrun hw
  · exact hrun hw
  · exact (Option.some.inj hw).symm
  · exact (Option.some.inj hw).symm
  · exact (Option.some.inj hw).symm
  · exact (Option.some.inj hw).symm
  · exact (Option.some.inj hw).symm
  · exact (Option.some.inj hw).symm
  · exact hrun hw
  · exact hrun hw
  · exact hrun hw
  · exact (Option.some.inj hw).symm

/-- The number of a control register that may be written (04_scalar_control.md R131). -/
theorem csrAccess_writable {n : Nat} (h : csrAccess n = some true) : n = 0x018 ∨ n = 0x019 ∨ n = 0x01A ∨ n = 0x01B := by
  unfold csrAccess at h
  split at h
  · next hn => simpa using hn
  · split at h <;> cases h

/-- ctl.csrw issues with the number of a register that may be written at hand (04_scalar_control.md R131). -/
theorem csrAccess_of_csrw {s : State} {m : Mv} {v : Val} (hclear : s.Clear (oneMove (.ctlCsrw m)))
    (hc : s.me.ctlTrig (oneMove (.ctlCsrw m)) = some (.ctlCsrw m, .ready v)) :
    csrAccess (s.me.op .ctl).o.toScalar.toNat = some true := by
  obtain ⟨_, _, hpriv⟩ := ctlCheck_ne hclear hc (k := Cause.PRIVILEGE) (by decide) (by decide) (by decide)
  obtain ⟨_, _, hill⟩ := ctlCheck_ne hclear hc (k := Cause.ILLEGAL_OPERAND) (by decide) (by decide) (by decide)
  cases h : csrAccess (s.me.op .ctl).o.toScalar.toNat with
  | none => exact absurd (by simp [ctlCheck, h]) hill
  | some w =>
    cases w with
    | true => rfl
    | false => exact absurd (by simp [ctlCheck, h]) hpriv

/-! ### Guards and the rest (04_scalar_control.md R116, R117, R122, R125; 10_phase_sync.md R275, R295) -/

theorem Core.guardVal_eq (c : Core) (g : Nat) : c.guardVal g = decide (c.guardCell g = .full true) := by
  unfold Core.guardVal
  cases c.guardCell g with
  | full x => cases x <;> rfl
  | empty => rfl

/-- A CTL trigger that takes effect at issue leaves the core that its rule says. -/
theorem ctlAct_control {s : State} {i : Instr} {b o : Word} {c : Core} (h : controlOf s b o i = some c)
    (hcsrw : ∀ m, i = .ctlCsrw m → csrAccess o.toNat = some true) :
    ctlAct s s.cur (begun s.me) { begun s.me with repNext := none } i b o = c := by
  unfold controlOf at h
  split at h
  · obtain ⟨w, hw, rfl⟩ := Option.map_eq_some_iff.mp h
    simp only [ctlAct, csrRead_of_csrOf hw]
    rfl
  · cases h
    rfl
  · next m =>
    cases h
    have ho {n : Nat} (hn : o.toNat = n) : o = BitVec.ofNat 64 n := by rw [← hn, BitVec.ofNat_toNat, BitVec.setWidth_eq]
    obtain hn | hn | hn | hn := csrAccess_writable (hcsrw m rfl)
    all_goals
      rw [ho hn]
      rfl
  · cases h
    rfl
  · cases h
    simp only [ctlAct, Core.guardVal_eq]
    rfl
  · cases h
    simp only [ctlAct, Core.guardVal_eq]
    rfl
  · cases h
    simp only [ctlAct, Core.guardVal_eq]
    rfl
  · cases h
    rfl
  · cases h
    rfl
  · cases h
    rfl
  · cases h

theorem ctlWaits_of_control {s : State} {i : Instr} {b o : Word} {c : Core} (h : controlOf s b o i = some c) : ctlWaits i = false := by
  unfold controlOf at h
  split at h
  case h_11 => cases h
  all_goals rfl

/-- Settles O18: the trigger acts at once (exec_ctl_atOnce), and ctlAct_branch and ctlAct_control say what that is. -/
theorem controlTriggersAct : Obligations.ControlTriggersAct := by
  refine ⟨fun s i v n l k hclear hc hb => ?_, fun s i v c hclear hc hx => ?_⟩
  · rw [exec_ctl_atOnce hclear hc (ctlWaits_of_branch hb), ctlAct_branch hb]
    rintro m rfl
    exact links_of_ret hclear hc
  · rw [exec_ctl_atOnce hclear hc (ctlWaits_of_control hx), ctlAct_control hx]
    rintro m rfl
    exact csrAccess_of_csrw hclear hc

end Sys2Proof.Machine
end

section
/-! Waits of the sequencer (04_scalar_control.md R128, R129; 10_phase_sync.md R281, R286, R289, R290, R294): the CTL triggers that may wait
after their checks, and the ends of a freeze. -/

namespace Sys2Proof.Machine

open Sys2Proof.Claims

/-! ### Triggers that may wait -/

/-- How a core stands while its bundle waits: as it is, or frozen from now on. -/
def keptBy (s : State) : Option Freeze → State
  | some f => s.setMe { s.me with seq := .frozen f 0 }
  | none => s

section
variable {s : State} {i : Instr} {v : Val} (hclear : s.Clear (oneMove i)) (hc : s.me.ctlTrig (oneMove i) = some (i, .ready v))
include hclear hc

/-- A waiting trigger whose condition holds passes its bundle; ctl.bwaitt leaves 0 in ctl.r (10_phase_sync.md R290). -/
theorem performBundle_goesOn (h : goesOn s v.toScalar i = some true) :
    performBundle s s.cur (oneMove i) = s.setMe (wentOn s.me i) := by
  rw [performBundle_ctlTrigger hclear hc]
  unfold goesOn at h
  split at h
  · rfl
  · rfl
  · rfl
  · rfl
  · have hdone : (begun s.me).barDone v.toScalar = true := Option.some.inj h
    simp only [ctlAct, hdone, if_true]
    rfl
  · cases h

theorem issueChecked_goesOn (h : goesOn s v.toScalar i = some true) :
    issueChecked s s.cur (oneMove i) = performBundle s s.cur (oneMove i) := by
  rw [issueChecked_ctl hclear hc]
  unfold goesOn at h
  split at h
  · have h' := Option.some.inj h
    simp only [Bool.and_eq_true, List.isEmpty_iff, decide_eq_true_eq] at h'
    obtain ⟨⟨⟨hq, hd⟩, hdef⟩, hfl⟩ := h'
    simp [hq, hd, hdef, hfl]
  · simp only [Option.some.inj h, if_true]
  · have h' : v.toScalar.toNat ≤ (s.dtcOf s.cur).toNat := of_decide_eq_true (Option.some.inj h)
    exact if_pos h'
  · exact if_pos (Option.some.inj h)
  · exact if_pos (Option.some.inj h)
  · cases h

/-- A waiting trigger whose condition does not hold keeps its bundle. -/
theorem issueChecked_waits {q : Option Freeze} (h : goesOn s v.toScalar i ≠ some true)
    (hq : waitsAs s.me (s.me.op .ctl).o.toScalar i = some q) : issueChecked s s.cur (oneMove i) = keptBy s q := by
  have ho : ((s.me.ctlOperand (oneMove i) .o).scalar.extractLsb' 0 32).toNat = (s.me.op .ctl).o.toScalar.toNat % 2 ^ 32 := by
    rw [(ctlOperand_oneMove hc .o).2]
    simp [EVal.scalar]
  rw [issueChecked_ctl hclear hc]
  unfold waitsAs at hq
  split at hq
  · cases hq
    exact if_neg fun hd => h (congrArg some hd)
  · cases hq
    exact if_neg fun hd => h (congrArg some (decide_eq_true hd))
  · cases hq
    exact if_neg fun hd => h (congrArg some hd)
  · cases hq
    rw [← ho]
    exact if_neg fun hd => h (congrArg some hd)
  · cases hq
    rfl
  · cases hq
    rfl
  · split at hq
    · cases hq
    · next hb =>
      cases hq
      exact if_pos (by simp [hb])
  · cases hq

end

/-! ### Freezes that end (10_phase_sync.md R286, R294) -/

/-- A bundle whose wait has ended is issued again. -/
theorem exec_waitEnds {s : State} {i : Instr} (hi : i = .slotReadable ∨ i = .waittRelease) (h : waitEnds s i = true) :
    exec i s = .next (issue (s.setMe { s.me with seq := .run }) s.cur s.me.fetch) := by
  have hfetch : reissueFrozen s s.cur = issue (s.setMe { s.me with seq := .run }) s.cur s.me.fetch := by
    show issue _ s.cur ((s.setMe { s.me with seq := .run }).me.fetch) = _
    rw [State.me_setMe]
    rfl
  rw [← hfetch]
  obtain rfl | rfl := hi
  · simp only [waitEnds] at h
    split at h
    · next k hk => exact congrArg Host.Outcome.next (by simp only [hk, h, if_true])
    · cases h
  · simp only [waitEnds] at h
    split at h
    · next k hk => exact congrArg Host.Outcome.next (by simp only [hk, of_decide_eq_true h, if_true])
    · cases h

/-- A freeze at a landing slot beyond the limit is not ended by its slot (10_phase_sync.md R286). -/
theorem exec_slotReadable_late {s : State} {k : Nat} (hk : s.me.seq = .frozen .slot k) (hlim : s.limOf s.cur < k) :
    exec .slotReadable s = .next s := by
  refine congrArg Host.Outcome.next ?_
  have hlate : ¬ k ≤ s.limOf s.cur := by omega
  simp [hk, hlate]

theorem exec_freezeTimeout {s : State} {k : Nat} (hk : s.me.seq = .frozen .slot k) (hlim : s.limOf s.cur < k) :
    exec .freezeTimeout s = .next (s.setMe s.me.freezeTrap) :=
  congrArg Host.Outcome.next (by simp only [hk, hlim, if_true])

/-! ### A bundle performed from its freeze -/

/-- The state in which a frozen core runs again. -/
def thawed (s : State) : State := s.setMe { s.me with seq := .run }

/-- A frozen bundle is performed as that of a core that runs. -/
theorem performBundle_thawed {s : State} {ms : List BMove} {i : Instr} {b : EVal} (hc : s.me.ctlTrig ms = some (i, b)) :
    performBundle s s.cur ms = s.setMe (ctlAct s s.cur (begun (thawed s).me) (moved (thawed s) ms) i b.scalar
      ((moved (thawed s) ms).op .ctl).o.toScalar) := by
  have h0 : ({ s.me with seq := .run, resumeBreak := false } : Core) = begun (thawed s).me := by
    rw [thawed, State.me_setMe]
    rfl
  have hphc : s.phcOf s.cur = (thawed s).phcOf (thawed s).cur := by
    have hpart : ((thawed s).core s.cur).part = s.me.part := by rw [thawed, State.setMe, State.core_setCore_same]
    show (match s.runOf s.me.part with | some r => r.phc | none => 0) = (match s.runOf ((thawed s).core s.cur).part with | some r => r.phc | none => 0)
    rw [hpart]
  have hc0 : (begun (thawed s).me).ctlTrig ms = some (i, b) := by
    rw [← h0]
    exact hc
  unfold performBundle
  rw [show s.core s.cur = s.me from rfl, h0, hphc]
  simp only [hc0]
  rfl

theorem Core.claimPort_seq (c : Core) (p : RPort) (tag : Nat) : (c.claimPort p tag).seq = c.seq := by
  unfold Core.claimPort
  split <;> rfl

theorem writeMove_seq (c0 c : Core) (b : BMove) : (writeMove c0 c b).seq = c.seq := by
  unfold writeMove
  split
  · rfl
  split
  · split
    · rfl
    split <;> rfl
  · rfl
  · rfl

theorem advanceAreg_seq (c0 c : Core) (b : BMove) : (advanceAreg c0 c b).seq = c.seq := by
  unfold advanceAreg
  split
  · split <;> rfl
  · rfl

theorem enterOperand_seq (c0 : Core) (rep : Bool) (c : Core) (b : BMove) : (enterOperand c0 rep c b).seq = c.seq := by
  unfold enterOperand
  split
  · split <;> rfl
  · rfl

theorem enterTrigger_seq (c0 : Core) (ms : List BMove) (phc : Nat) (rep : Bool) (c : Core) (b : BMove) :
    (enterTrigger c0 ms phc rep c b).seq = c.seq := by
  have claim (d : Core) (q : Option RPort) (tag : Nat) :
      (match q with | some q => d.claimPort q tag | none => d).seq = d.seq := by
    cases q with
    | none => rfl
    | some q => exact d.claimPort_seq q tag
  unfold enterTrigger
  split
  · split
    · rfl
    dsimp only
    split
    · exact claim _ _ _
    · exact claim _ _ _
  · rfl

theorem startRep_seq (c0 c : Core) (ms : List BMove) : (startRep c0 c ms).seq = c.seq := by
  obtain ⟨n, r, h⟩ := startRep_eq c0 c ms
  rw [h]

/-- The moves of a bundle leave the sequencer as the bundle began. -/
theorem moved_seq (s : State) (ms : List BMove) : (moved s ms).seq = s.me.seq := by
  unfold moved
  simp only [startRep_seq, foldl_keeps (enterTrigger_seq _ _ _ _), foldl_keeps (enterOperand_seq _ _),
    foldl_keeps (advanceAreg_seq _), foldl_keeps (writeMove_seq _)]
  rfl

/-- A bundle performed from its freeze leaves a core that runs at the sequential successor. -/
theorem passes_moved_thawed (s : State) (ms : List BMove) : passes s.me (moved (thawed s) ms).sequential := by
  have hme : (thawed s).me = { s.me with seq := .run } := State.me_setMe s _
  have hplace : placeOf (moved (thawed s) ms) = placeOf s.me := by rw [moved_placeOf, hme]; rfl
  refine ⟨(moved_seq (thawed s) ms).trans (by rw [hme]), ?_⟩
  exact congrArg (fun x => (loopEnd x.1 x.2).1) hplace

theorem Core.port_setPort_same (c : Core) (p : RPort) (x : PCell) : (c.setPort p x).port p = x := SMap.get_set_same _ _ _ _

/-- A bwaitt beyond its limit passes its bundle with 1 in ctl.r (10_phase_sync.md R290). -/
theorem exec_bwaittTimeout {s : State} {k n : Nat} {m : Mv} {v : EVal} (hseq : s.me.seq = .frozen (.bwaitt k) n) (hk : k < n)
    (hi : s.issuing s.cur = true) (hc : s.me.ctlTrig s.me.fetch = some (.ctlBwaitt m, v)) :
    ∃ t, exec .bwaittTimeout s = .next t ∧ passes s.me t.me ∧ t.me.port .ctlR = .full (.s 1) := by
  have hx : exec .bwaittTimeout s = .next ((performBundle s s.cur s.me.fetch).setMe
      ((performBundle s s.cur s.me.fetch).me.setCtlR 1)) := by
    refine congrArg Host.Outcome.next ?_
    simp only [hseq, hk, hi, and_self, if_true]
  have hpass := passes_moved_thawed s s.me.fetch
  rw [performBundle_thawed hc, State.me_setMe] at hx
  refine ⟨_, hx, ?_⟩
  rw [State.me_setMe]
  generalize moved (thawed s) s.me.fetch = d at hpass
  exact ⟨hpass, Core.port_setPort_same _ _ _⟩

/-- Settles O19: a trigger that may wait goes on (performBundle_goesOn) or keeps its bundle (issueChecked_waits), and each end of a
freeze is its step's own lemma. -/
theorem fencesWaitsAndFreezes : Obligations.FencesWaitsAndFreezes := by
  refine ⟨fun s i v hclear hc => ⟨fun h => ?_, fun q h hq => ?_⟩, fun s i => ⟨fun hi h => exec_waitEnds hi h, fun k hk hlim ht => ?_,
    fun k n m v hseq hk hi hc => exec_bwaittTimeout hseq hk hi hc⟩⟩
  · rw [exec_ctl hclear hc, issueChecked_goesOn hclear hc h, performBundle_goesOn hclear hc h]
  · rw [exec_ctl hclear hc, issueChecked_waits hclear hc h hq]
    cases q <;> rfl
  · obtain ⟨t, c, ht', rfl, rfl⟩ := next_takeTrap (exec_freezeTimeout hk hlim) ht (show (0 : Byte) ≠ 1 by decide)
    exact ⟨exec_slotReadable_late hk hlim, _, _, ht', by rw [State.me_setMe], by rw [State.me_setMe], rfl, rfl, rfl, rfl,
      by rw [State.me_setMe]⟩

end Sys2Proof.Machine
end

section
/-! Repetitions (04_scalar_control.md R121, R122): a further repetition of a slot-4 move as the entry of its queue. -/

namespace Sys2Proof.Machine

open Sys2Proof.Claims

/-! ### What a repetition repeats -/

/-- A STR trigger: its fields, its place in slot 4, the port that it fills, and that it names no operand port. -/
theorem strTrigger_spec {i : Instr} {m : Mv} (h : strTrigger i = some m) :
    ∃ unit port, i.fields = some (4, unit, port, m) ∧ destOf i = .trig .str port.toNat ∧ resPort .str port.toNat = strPort i ∧
      portOf i = .o := by
  unfold strTrigger at h
  split at h
  case h_28 => cases h
  all_goals
    cases h
    exact ⟨_, _, rfl, rfl, rfl, rfl⟩

/-- The move that a repetition repeats, as the bundle held it. -/
def repMove (r : Rep) : BMove := ⟨4, r.move, some r.instr⟩

theorem repMove_src {r : Rep} {slot : Nat} {unit : BitVec 3} {port : BitVec 7} {m : Mv} (hf : r.instr.fields = some (slot, unit, port, m)) :
    (repMove r).src = some m.src := by
  simp [repMove, BMove.src, hf]

/-- The entry of a further repetition: its move bound anew, in the place and the modes of its first (04_scalar_control.md R122, R134). -/
def repEntry (c : Core) (r : Rep) (x : Src) (trig : Option Instr) (p : OPort) : Entry :=
  { mkEntry c (repMove r) x trig p c.nextTag (some r.index) c.nextTag with badr := r.badr, rmode := r.rmode, qcfg := r.qcfg }

/-- What is left of a repeat once a further repetition has entered (04_scalar_control.md R122). -/
def repLess (r : Rep) : Option Rep := if r.left ≤ 1 then none else some { r with left := r.left - 1, index := r.index + 1 }

/-- The core with the entry of a further repetition in its queue, its address register read. -/
def repPut (c : Core) (r : Rep) (en : Entry) : Core :=
  advanceAreg c { c.setQ (repEng r.instr) (c.q (repEng r.instr) ++ [en]) with nextTag := c.nextTag + 1, rep := repLess r } (repMove r)

section
variable {c : Core} {r : Rep} {m : Mv} {unit : BitVec 3} {port : BitVec 7} {slot : Nat}
  (hs : c.serving = true) (ht : c.trap = none) (hr : c.rep = some r)
  (hf : r.instr.fields = some (slot, unit, port, m)) (hroom : (c.q (repEng r.instr)).length < depthOf (repEng r.instr))
include hs ht hr hf hroom

/-- A repetition of an operand move enters its queue for its port. -/
theorem repeatEntry_operand {e : Eng} {p : OPort} (hd : destOf r.instr = .oport e p) :
    c.repeatEntry = repPut c r (repEntry c r m.src none p) := by
  have hdest : (BMove.mk 4 r.move (some r.instr)).dest = .oport e p := hd
  have hsrc : (BMove.mk 4 r.move (some r.instr)).src = some m.src := repMove_src hf
  have hnot : ¬ depthOf (repEng r.instr) ≤ (c.q (repEng r.instr)).length := Nat.not_le.mpr hroom
  simp only [Core.repeatEntry, hr, hs, ht, hnot, hsrc, hdest, Option.isSome_none, Bool.not_true, Bool.or_self, decide_false,
    Bool.false_eq_true, if_false]
  rfl

/-- A repetition of a trigger enters its queue as the trigger and claims its result port. -/
theorem repeatEntry_trigger {e : Eng} {p : Nat} (hd : destOf r.instr = .trig e p) : c.repeatEntry =
    match resPort (repEng r.instr) p with
    | some q => (repPut c r (repEntry c r m.src (some r.instr) .o)).claimPort q c.nextTag
    | none => repPut c r (repEntry c r m.src (some r.instr) .o) := by
  have hdest : (BMove.mk 4 r.move (some r.instr)).dest = .trig e p := hd
  have hsrc : (BMove.mk 4 r.move (some r.instr)).src = some m.src := repMove_src hf
  have hnot : ¬ depthOf (repEng r.instr) ≤ (c.q (repEng r.instr)).length := Nat.not_le.mpr hroom
  simp only [Core.repeatEntry, hr, hs, ht, hnot, hsrc, hdest, Option.isSome_none, Bool.not_true, Bool.or_self, decide_false,
    Bool.false_eq_true, if_false]
  rfl

end

/-! ### What it leaves -/

/-- What the entry of a further repetition changes: its queue, the repeat, and the address register that it reads. -/
structure Repeated (c x : Core) (r : Rep) (y : Src) (en : Entry) : Prop where
  enters : x.q (repEng r.instr) = c.q (repEng r.instr) ++ [en]
  others : ∀ e, e ≠ repEng r.instr → x.q e = c.q e
  rep : x.rep = repLess r
  regs : ∀ q, x.ctx.readReg q = afterRead c 4 y q

theorem repeated_repPut {c : Core} {r : Rep} {y : Src} (hsrc : (repMove r).src = some y) (en : Entry) :
    Repeated c (repPut c r en) r y en := by
  obtain ⟨a, ha, hread⟩ := advanceAreg_reads c (c := { c.setQ (repEng r.instr) (c.q (repEng r.instr) ++ [en]) with
    nextTag := c.nextTag + 1, rep := repLess r }) hsrc fun _ => rfl
  rw [repPut, ha]
  exact ⟨(Core.q_setQ _ _ _ _).trans (if_pos rfl), fun e he => (Core.q_setQ _ _ _ _).trans (if_neg he.symm), rfl, hread⟩

/-- A result port that a trigger claims holds its tag; queues, repeat and registers stay (03_encoding.md R78). -/
theorem Core.claimPort_spec (c : Core) (p : RPort) (tag : Nat) : (c.claimPort p tag).port p = .pend tag ∧
    (c.claimPort p tag).qs = c.qs ∧ (c.claimPort p tag).rep = c.rep ∧ ∀ q, (c.claimPort p tag).ctx.readReg q = c.ctx.readReg q := by
  unfold Core.claimPort
  split
  · exact ⟨Core.port_setPort_same _ _ _, rfl, rfl, fun q => by cases q <;> rfl⟩
  · exact ⟨Core.port_setPort_same _ _ _, rfl, rfl, fun q => by cases q <;> rfl⟩

theorem Repeated.claimPort {c x : Core} {r : Rep} {y : Src} {en : Entry} (h : Repeated c x r y en) (p : RPort) (tag : Nat) :
    Repeated c (x.claimPort p tag) r y en := by
  obtain ⟨-, hqs, hrep, hreg⟩ := x.claimPort_spec p tag
  have hq (e : Eng) : (x.claimPort p tag).q e = x.q e := congrArg (SMap.get · [] e.code) hqs
  exact ⟨(hq _).trans h.enters, fun e he => (hq e).trans (h.others e he), hrep.trans h.rep, fun q => (hreg q).trans (h.regs q)⟩

/-- The entry that a further repetition makes, and the port that a repeated STR trigger claims. -/
theorem repeatEntry_enters {c : Core} {r : Rep} {m : Mv} (hs : c.serving = true) (ht : c.trap = none) (hr : c.rep = some r)
    (hroom : (c.q (repEng r.instr)).length < depthOf (repEng r.instr))
    (hi : (∃ p, r.instr = .moveOperandPort 4 p m) ∨ (∃ e p, e ≠ .ctl ∧ r.instr = .moveXport 4 e p m) ∨ strTrigger r.instr = some m) :
    Repeated c c.repeatEntry r m.src (repEntry c r m.src ((strTrigger r.instr).map fun _ => r.instr) (portOf r.instr)) ∧
      ∀ p, strPort r.instr = some p → c.repeatEntry.port p = .pend c.nextTag := by
  obtain ⟨p, hi⟩ | ⟨e, p, -, hi⟩ | hi := hi
  · have hf : r.instr.fields = _ := congrArg Instr.fields hi
    rw [repeatEntry_operand hs ht hr hf hroom (congrArg destOf hi), hi]
    exact ⟨repeated_repPut (repMove_src hf) _, fun _ h => nomatch h⟩
  · have hf : r.instr.fields = _ := congrArg Instr.fields hi
    rw [repeatEntry_operand hs ht hr hf hroom (congrArg destOf hi), hi]
    exact ⟨repeated_repPut (repMove_src hf) _, fun _ h => nomatch h⟩
  · obtain ⟨unit, port, hf, hd, hport, ho⟩ := strTrigger_spec hi
    have heng : repEng r.instr = .str := by simp only [repEng, hd]
    rw [repeatEntry_trigger hs ht hr hf hroom hd, heng, hport, hi, ho]
    have hput := repeated_repPut (c := c) (repMove_src hf) (repEntry c r m.src (some r.instr) .o)
    cases hp : strPort r.instr with
    | none => exact ⟨hput, fun _ h => nomatch h⟩
    | some q =>
      refine ⟨hput.claimPort q _, fun p h => ?_⟩
      rw [← Option.some.inj h]
      exact (Core.claimPort_spec _ _ _).1

/-- Settles O23: what a repetition leaves is Repeated, with repEntry as its entry. -/
theorem repetitionEnters : Obligations.RepetitionEnters := by
  intro s r m hs ht hr hleft hi hroom
  have hrep : repLess r = if r.left = 1 then none else some { r with left := r.left - 1, index := r.index + 1 } :=
    if_congr ⟨fun h => by omega, fun h => by omega⟩ rfl rfl
  obtain ⟨h, hport⟩ := repeatEntry_enters hs ht hr hroom hi
  exact ⟨_, _, rfl, h.enters, h.others, rfl, rfl, rfl, rfl, rfl, rfl, h.rep.trans hrep, h.regs, hport⟩

end Sys2Proof.Machine
end

section
/-! Arrivals, quiet reports and the limits of a superstep (04_scalar_control.md R125; 05_local_memory.md R160; 10_phase_sync.md R276, R280,
R281). -/

namespace Sys2Proof.Machine

open Sys2Proof.Claims

/-! ### The cores of a stand -/

/-- A change of distinct cores changes each of them once, and no other. -/
theorem State.core_mapCores {l : List Nat} (hl : l.Nodup) (s : State) (f : Nat → Core → Core) (n : Nat) :
    (s.mapCores l f).core n = if n ∈ l then f n (s.core n) else s.core n := by
  induction l generalizing s with
  | nil => rfl
  | cons a l ih =>
    obtain ⟨ha, hl⟩ := List.nodup_cons.mp hl
    have hstep : s.mapCores (a :: l) f = (s.setCore a (f a (s.core a))).mapCores l f := rfl
    rw [hstep, ih hl, State.core_setCore]
    by_cases hn : a = n
    · subst hn
      simp [ha]
    · simp [hn, Ne.symm hn]

/-- The stand of a core in its partition's run. -/
theorem State.runOf_of_standOf {s : State} {n p : Nat} {r : Run} (h : s.standOf n = some (p, r)) : s.runOf p = some r := by
  unfold State.standOf at h
  split at h
  · next x hx =>
    split at h
    · cases h
      exact hx
    · cases h
  · cases h

/-- The stand of a core is that of its partition, whatever else of the core changes. -/
theorem State.standOf_setMe {s : State} {c : Core} (h : c.part = s.me.part) : (s.setMe c).standOf s.cur = s.standOf s.cur := by
  have hpart : ((s.setMe c).core s.cur).part = (s.core s.cur).part := by rw [State.setMe, State.core_setCore_same, h]; rfl
  unfold State.standOf
  rw [hpart]
  rfl

/-! ### Arrivals (04_scalar_control.md R125; 10_phase_sync.md R276) -/

/-- With an arrival the straggler timer of the stand runs, from 0 if it is the first (10_phase_sync.md R281). -/
theorem startTimer_spec {s : State} {n p : Nat} {r : Run} (h : s.standOf n = some (p, r)) :
    (startTimer s n).cores = s.cores ∧ ∃ r', (startTimer s n).runOf p = some r' ∧ r'.strag = some (r.strag.getD 0) := by
  simp only [startTimer, h]
  cases hs : r.strag with
  | none => exact ⟨rfl, _, runOf_setRun _ _ _, rfl⟩
  | some k => exact ⟨rfl, r, State.runOf_of_standOf h, hs⟩

/-- A core arrives: its sequencer notes it, and the timer of its stand runs. -/
theorem arrives {s : State} {p : Nat} {r : Run} {i : Instr} {q : Seq} (h : s.standOf s.cur = some (p, r))
    (hx : exec i s = .next (startTimer (s.setMe { s.me with seq := q }) s.cur)) :
    ∃ t r', exec i s = .next t ∧ t.me = { s.me with seq := q } ∧ t.runOf p = some r' ∧ r'.strag = some (r.strag.getD 0) := by
  have hstand : (s.setMe { s.me with seq := q }).standOf s.cur = some (p, r) := (State.standOf_setMe (c := { s.me with seq := q }) rfl).trans h
  obtain ⟨hcores, r', hrun, hstrag⟩ := startTimer_spec hstand
  have hcur : (startTimer (s.setMe { s.me with seq := q }) s.cur).cur = s.cur := by
    simp only [startTimer, hstand]
    split <;> rfl
  refine ⟨_, r', hx, ?_, hrun, hstrag⟩
  rw [State.me, State.core, hcores, hcur]
  exact State.me_setMe s _

/-! ### Quiet reports (05_local_memory.md R160) -/

theorem exec_quietReport {s : State} {r : Run} {st : Nat} {tag : Bool} (hr : s.runOf s.obj = some r) (hstop : r.stops.contains st = true)
    (hquiet : stopQuiet s r st tag = true) (htag : tag = decide (r.phc % 2 = 1) → allArrived s r = true)
    (hnew : r.quiet.contains (st, tag) = false) :
    exec (.quietReport st tag) s = .next (s.setRun s.obj (some { r with quiet := r.quiet ++ [(st, tag)] })) := by
  have harrived : tag ≠ decide (r.phc % 2 = 1) ∨ allArrived s r = true := by
    by_cases h : tag = decide (r.phc % 2 = 1)
    · exact .inr (htag h)
    · exact .inl h
  refine congrArg Host.Outcome.next ?_
  simp only [hr]
  exact if_pos ⟨hstop, hquiet, harrived, hnew⟩

/-! ### Limits (10_phase_sync.md R280, R281) -/

theorem exec_scapExceeded {s : State} {p : Nat} {r : Run} (h : s.standOf s.cur = some (p, r)) (hcap : s.capOf s.cur ≤ s.me.ssc.toNat)
    (hseq : s.me.seq = .run ∨ (∃ f k, s.me.seq = .frozen f k) ∨ (∃ e, s.me.seq = .endph e false) ∨ s.me.seq = .halted false) :
    exec .scapExceeded s = .next (s.setMe s.me.capTrap) := by
  refine congrArg Host.Outcome.next ?_
  obtain hq | ⟨f, k, hq⟩ | ⟨e, hq⟩ | hq := hseq
  all_goals simp [h, hcap, hq]

/-- The traps of a stand whose straggler timer has passed its limit. -/
theorem exec_straggler {s : State} {r : Run} {k : Nat} (hr : s.runOf s.obj = some r) (hk : r.strag = some k) (hlim : r.adm.lim < k)
    (hst : r.st = .running) : exec .straggler s = .next (stragglerTraps s r) := by
  refine congrArg Host.Outcome.next ?_
  simp [hr, hk, hlim, hst]

/-- The straggler trap of a core, unless it has trapped before. -/
def straggled (arg : BitVec 16) (c : Core) : Core :=
  if c.trap.isSome then c else c.takeTrap { Trap.plain Cause.STRAGGLER 0 c.pc c.pc with arg := arg }

theorem straggled_trap (arg : BitVec 16) {c : Core} (h : c.trap = none) :
    ∃ t, (straggled arg c).trap = some t ∧ t.cause = 0x08 ∧ t.arg = arg ∧ t.prec = 0 := by
  have hnot : ¬ c.trap.isSome = true := by simp [h]
  rw [straggled, if_neg hnot, Core.takeTrap_records h (show (0 : Byte) ≠ 1 by decide)]
  exact ⟨_, rfl, rfl, rfl, rfl⟩

/-- While a core has not arrived, those that have not trap with argument 0. -/
theorem stragglerTraps_missing {s : State} {r : Run} (h : ∃ n ∈ r.cores, (s.core n).arrived = false) :
    stragglerTraps s r = s.mapCores (r.cores.filter fun n => !(s.core n).arrived) fun _ => straggled 0 := by
  obtain ⟨n, hn, hna⟩ := h
  have hne : (r.cores.filter fun n => !(s.core n).arrived).isEmpty = false := by
    rw [List.isEmpty_eq_false_iff_exists_mem]
    exact ⟨n, List.mem_filter.mpr ⟨hn, by simp [hna]⟩⟩
  simp only [stragglerTraps, hne, Bool.not_false, if_true]
  rfl

/-- Where every core has arrived, all trap for what is missing. -/
theorem stragglerTraps_arrived {s : State} {r : Run} {a : BitVec 16} (h : ∀ n ∈ r.cores, (s.core n).arrived = true)
    (ha : stragglerArg s (chooseBoundary s r) = some a) : stragglerTraps s r = s.mapCores r.cores fun _ => straggled a := by
  have hnil : r.cores.filter (fun n => !(s.core n).arrived) = [] := List.filter_eq_nil_iff.mpr fun n hn => by simp [h n hn]
  simp only [stragglerTraps, hnil, List.isEmpty_nil, Bool.not_true, Bool.false_eq_true, if_false, ha]
  rfl

/-- A boundary is chosen for pre-emption where the incoming job is ready and of an earlier D (13_queues.md R376). -/
theorem chooseBoundary_eq (s : State) (r : Run) : chooseBoundary s r =
    { r with chosen := r.chosen || (!r.pend && r.incoming.any (fun x => decide (x.d < r.adm.d) && s.ready x)) } := by
  have same {p : Bool} (h : p = false) : r = { r with chosen := r.chosen || p } := by
    rw [h, Bool.or_false]
  unfold chooseBoundary
  split
  · next x hx =>
    split
    · next h => simp [hx, h]
    · next h => exact same (by simpa [hx] using h)
  · next hx => exact same (by simp [hx])

/-- What is missing where every core has arrived: tokens before sends. -/
theorem stragglerArg_of_wanting {s : State} {b : Run} (h : tokensQuiet s b = false ∨ sendsQuiet s b = false) :
    stragglerArg s b = some (if tokensQuiet s b = false then 1 else 2) := by
  unfold stragglerArg
  cases ht : tokensQuiet s b with
  | false => rfl
  | true =>
    have hs : sendsQuiet s b = false := h.resolve_left (by simp [ht])
    simp [hs]

/-- Settles O39: each arrival, report and limit by the lemma about its step. -/
theorem arrivalsQuietAndLimits : Obligations.ArrivalsQuietAndLimits := by
  intro s p r
  refine ⟨fun e h hq hdone => arrives h ?_, fun h hq hdone => arrives h ?_, fun st tag hr hstop hquiet htag hnew =>
    exec_quietReport hr hstop hquiet htag hnew, fun h hcap hseq ht => ?_, fun k hr hk hlim hst hl hmiss => ?_,
    fun k hr hk hlim hst hl hall => ?_⟩
  · exact congrArg Host.Outcome.next (by simp only [hq, hdone, if_true])
  · exact congrArg Host.Outcome.next (by simp only [hq, hdone, if_true])
  · obtain ⟨t, c, hx, rfl, rfl⟩ := next_takeTrap (exec_scapExceeded h hcap hseq) ht (show (0 : Byte) ≠ 1 by decide)
    exact ⟨_, _, hx, by rw [State.me_setMe], by rw [State.me_setMe], rfl, rfl, by rw [State.me_setMe]⟩
  · refine ⟨_, exec_straggler hr hk hlim hst, ?_⟩
    rw [stragglerTraps_missing hmiss]
    have hcore := State.core_mapCores (hl.filter fun n => !(s.core n).arrived) s (fun _ => straggled 0)
    refine ⟨fun n hn hna ht => ?_, fun n hn hna => ?_⟩
    · rw [hcore, if_pos (List.mem_filter.mpr ⟨hn, by simp [hna]⟩)]
      exact straggled_trap 0 ht
    · rw [hcore, if_neg fun h => by simp [hna] at h]
  · intro b hwant
    refine ⟨_, exec_straggler hr hk hlim hst, fun n hn ht => ?_⟩
    have ha : stragglerArg s (chooseBoundary s r) = some (if tokensQuiet s b = false then 1 else 2) := by
      rw [chooseBoundary_eq]
      exact stragglerArg_of_wanting hwant
    rw [stragglerTraps_arrived hall ha, State.core_mapCores hl, if_pos hn]
    obtain ⟨c, hc, hcause, harg, hprec⟩ := straggled_trap (if tokensQuiet s b = false then 1 else 2) ht
    exact ⟨c, hc, hcause, hprec, harg⟩

end Sys2Proof.Machine
end

section
/-! What the command processor's own writes and the host's held writes leave of the machine besides what every write does (Written): the
packets of every queue, and for an own write the cores too (05_local_memory.md R164, R165; 11_translation.md R299 to R325; 13_queues.md
R384). -/

namespace Sys2Proof.Machine

open Sys2Proof.Claims

/-- What a write keeps that is made for no job of a core. -/
structure Stored (s t : State) : Prop extends Written s t where
  pkts : ∀ q, (t.queue q).pkts = (s.queue q).pkts

theorem Stored.refl (s : State) : Stored s s := ⟨.refl s, fun _ => rfl⟩

theorem Stored.trans {s t u : State} (h : Stored s t) (k : Stored t u) : Stored s u :=
  ⟨h.toWritten.trans k.toWritten, fun q => (k.pkts q).trans (h.pkts q)⟩

theorem Stored.foldl {α : Type} {f : State → α → State} (hf : ∀ t a, Stored t (f t a)) (l : List α) (s : State) :
    Stored s (l.foldl f s) :=
  List.foldlRecOn l f (.refl s) fun t ht a _ => ht.trans (hf t a)

theorem Stored.core {s t : State} (h : Stored s t) (n : Nat) : t.core n = s.core n := congrArg (SMap.get · Core.idle n) h.cores

theorem Stored.runOf {s t : State} (h : Stored s t) (p : Nat) : t.runOf p = s.runOf p :=
  congrArg (fun m => (SMap.get m Part.start p).run) h.parts

theorem Stored.pkt? {s t : State} (h : Stored s t) (q seq : Nat) : t.pkt? q seq = s.pkt? q seq :=
  congrArg (List.find? fun p : Pkt => decide (p.seq = seq)) (h.pkts q)

theorem Stored.now {s t : State} (h : Stored s t) : t.now = s.now := by rw [State.now, h.sys]; rfl

/-! ### Single changes -/

theorem stored_setHome (s : State) (h : Nat) (x : Home) : Stored s (s.setHome h x) := ⟨written_setHome s h x, fun _ => rfl⟩

theorem stored_sendEvent (s : State) (ty stop src : Nat) (l : List Byte) : Stored s (s.sendEvent ty stop src l) :=
  ⟨written_sendEvent s ty stop src l, fun _ => rfl⟩

theorem stored_air (s : State) (l : List Flit) : Stored s { s with air := l } := ⟨⟨⟨rfl, fun _ => rfl, rfl, rfl⟩, rfl⟩, fun _ => rfl⟩

theorem stored_journal (s : State) (l : List JRec) : Stored s { s with journal := l } :=
  ⟨⟨⟨rfl, fun _ => rfl, rfl, rfl⟩, rfl⟩, fun _ => rfl⟩

theorem stored_watchEn (s : State) (xs : List (Xl × Byte)) : Stored s (s.watchEn xs) := by
  refine ⟨written_watchEn s xs, fun q => SMap.get_map_of_kept (fun x => ?_) s.queues Queue.start q⟩
  split
  · split
    · split
      · split <;> exact ⟨rfl, rfl⟩
      · exact ⟨rfl, rfl⟩
    · exact ⟨rfl, rfl⟩
  · exact ⟨rfl, rfl⟩

theorem stored_askHost (s : State) (asid a : Nat) : Stored s (s.askHost asid a) := by
  unfold State.askHost
  dsimp only
  split
  · exact .refl s
  · exact ⟨⟨⟨rfl, fun _ => rfl, rfl, rfl⟩, rfl⟩, fun _ => rfl⟩

/-! ### Writes of translated bytes -/

theorem stored_putXl (s : State) (xs : List (Xl × Byte)) : Stored s (s.putXl xs).1 := by
  refine Stored.trans ?_ (stored_watchEn _ xs)
  refine List.foldlRecOn (motive := fun o : State × List Nat => Stored s o.1) _ _
    ⟨⟨⟨rfl, fun _ => rfl, rfl, rfl⟩, rfl⟩, fun _ => rfl⟩ fun o ho h _ => ?_
  dsimp only
  split
  · exact ho
  · exact ho.trans (stored_setHome _ _ _)

theorem stored_writeXl (s : State) (req : Option Req) (xs : List (Xl × Byte)) (n : Nat) (fl : Byte) (logs : Nat) :
    Stored s (writeXl s req xs n fl logs).1 := by
  unfold writeXl
  dsimp only
  split
  · exact stored_putXl s _
  · split
    · exact .refl s
    · split
      · exact ((stored_putXl s _).trans (stored_setHome _ _ _)).trans (stored_sendEvent _ _ _ _ _)
      · exact (stored_putXl s _).trans (stored_setHome _ _ _)
  · exact .refl s

/-! ### The host's held writes (05_local_memory.md R164, R165) -/

theorem stored_sweepIngress (s : State) (h : Nat) : Stored s (sweepIngress s h) := by
  refine Stored.trans ?_ (stored_setHome _ _ _)
  refine List.foldlRecOn (motive := fun o : State × List Ingress => Stored s o.1) _ _ (.refl s) fun o ho x _ => ?_
  dsimp only
  split
  · exact ho
  · split
    · exact ho
    · exact ho.trans (stored_writeXl _ _ _ _ _ _)

theorem stored_applyIngress (s : State) (p : Nat) : Stored s (applyIngress s p) := by
  refine .foldl (fun t h => ?_) _ s
  dsimp only
  split
  · exact .refl t
  · exact (stored_setHome t h _).trans (stored_sweepIngress _ h)

/-! ### Own writes of the command processor (13_queues.md R384) -/

/-- A write that the command processor makes (11_translation.md R299). -/
def CpWrite (r : Req) : Prop := (∃ q, r.org = .pkt q) ∧ ∃ l, r.kind = .write l

theorem CpWrite.fix {r : Req} (h : CpWrite r) (s : State) : CpWrite (s.fix r) := by
  unfold State.fix
  split
  · exact h
  · exact h

/-- What a packet asks for is counted in no job. -/
theorem addLogs_of_cpWrite {r : Req} (h : CpWrite r) (s : State) (k : Nat) : s.addLogs r k = s := by
  obtain ⟨⟨q, hq⟩, -⟩ := h
  simp only [State.addLogs, hq]

theorem stored_reqEvent (s : State) (home : Nat) (r : Req) : Stored s (s.reqEvent home r) := stored_sendEvent _ _ _ _ _

theorem stored_holdReq (s : State) (r : Req) (home : Nat) : Stored s (holdReq s r home) :=
  (stored_setHome _ _ _).trans (stored_reqEvent _ _ _)

theorem stored_logLines (s : State) (r : Req) (l : List (Nat × Nat × Nat × Byte)) : Stored s (logLines s r l).1 := by
  refine List.foldlRecOn (motive := fun o : State × Nat => Stored s o.1) _ _ (.refl s) fun o ho h _ => ?_
  refine List.foldlRecOn (motive := fun o : State × Nat => Stored s o.1) _ _ ho fun p hp g _ => ?_
  exact hp.trans ((stored_setHome _ _ _).trans (stored_sendEvent _ _ _ _ _))

/-- A choice between two answers. -/
theorem stored_ite {s : State} {c : Prop} [Decidable c] {x y : State × RRes} (hx : Stored s x.1) (hy : Stored s y.1) :
    Stored s (if c then x else y).1 := by
  split
  · exact hx
  · exact hy

theorem stored_writeAt {r : Req} (h : CpWrite r) (s : State) (home : Nat) (xs : List (Option Xl)) (data : List Byte) (fl : Byte) :
    Stored s (writeAt s r home xs data fl).1 := by
  have hwrite (l : List (Nat × Nat × Nat × Byte)) (w : List (Xl × Byte)) (m : Nat) : Stored s (
      match (writeXl (logLines s r l).1 (some r) w m fl 0).2 with
      | .stall => (s, RRes.stall)
      | .waiting => ((writeXl (logLines s r l).1 (some r) w m fl 0).1.addLogs r (logLines s r l).2, .waiting)
      | _ => ((writeXl (logLines s r l).1 (some r) w m fl 0).1, .done m fl (logLines s r l).2)).1 := by
    have hgo := (stored_logLines s r l).trans (stored_writeXl _ (some r) w m fl 0)
    split
    · exact .refl s
    · rw [addLogs_of_cpWrite h]
      exact hgo
    · exact hgo
  unfold writeAt
  refine stored_ite (.refl s) <| stored_ite (.refl s) <| stored_ite (.refl s) <| stored_ite (hwrite _ _ _) ?_
  split
  · exact stored_ite (.refl s) (hwrite _ _ _)
  · exact .refl s

theorem stored_attempt {r : Req} (h : CpWrite r) (s : State) (t : Option Nat) (busy : Bool) : Stored s (attempt s r t busy).1 := by
  obtain ⟨l, hl⟩ := h.2
  unfold attempt
  dsimp only
  split
  · exact .refl s
  · simp only [performXl, hl]
    split
    · exact stored_writeAt h _ _ _ _ _
    · exact .refl s

theorem stored_accessMain {r : Req} (h : CpWrite r) (s : State) (t : Option Nat) : Stored s (accessMain s r t).1 := by
  have hasked (u : State) (l : List Nat) : Stored u (l.foldl (fun u a => u.askHost (s.fix r).asid a) u) :=
    .foldl (fun t a => stored_askHost t _ a) l u
  have hdone := stored_attempt (h.fix s) s t true
  obtain ⟨l, hl⟩ := (h.fix s).2
  unfold accessMain
  dsimp only
  split
  · rw [hl]
    exact (hasked s _).trans (stored_holdReq _ _ _)
  · exact (hasked s _).trans (stored_holdReq _ _ _)
  · exact hdone.trans (stored_reqEvent _ _ _)
  · exact hdone.trans (stored_setHome _ _ _)
  · exact stored_setHome s _ _
  · split
    · exact hdone
    · exact hdone.trans (hasked _ _)
  · exact hdone.trans (hasked _ _)
  · exact hdone

theorem stored_sendLines (fuel : Nat) (s : State) (a : Nat) (l : List Byte) : Stored s (sendLines fuel s a l) := by
  induction fuel generalizing s a l with
  | zero => exact .refl s
  | succ fuel ih =>
    have haway (f : Flit) (a : Nat) (l : List Byte) : Stored s (sendLines fuel { s with air := s.air ++ [f] } a l) :=
      (stored_air s _).trans (ih _ a l)
    have hreach (d l : List Byte) (b : Nat) : Stored s (sendLines fuel (accessMain s (cpReq cpOwn 0 (.write d) a) none).1 b l) :=
      (stored_accessMain ⟨⟨_, rfl⟩, _, rfl⟩ s none).trans (ih _ b l)
    unfold sendLines
    dsimp only
    split
    · exact .refl s
    split
    · exact haway _ _ _
    split
    · exact hreach _ _ _
    · exact haway _ _ _
    · exact haway _ _ _
    · exact hreach _ _ _

theorem stored_putRec (s : State) (place : Nat) (l : List Byte) : Stored s (s.putRec place l) := by
  unfold State.putRec
  split
  · exact stored_sendLines _ _ _ _
  · exact .refl s

theorem stored_setRec (s : State) (q seq : Nat) (f : JRec → JRec) : Stored s (s.setRec q seq f) :=
  (stored_journal s _).trans (.foldl (fun t _ => stored_putRec t _ _) _ _)

end Sys2Proof.Machine
end

section
/-! The boundary of a stand (04_scalar_control.md R125; 10_phase_sync.md R277 to R279; 13_queues.md R360, R377): what each of its steps
leaves of the stand's run, of its cores and of the packets, and the end of a job. -/

namespace Sys2Proof.Machine

open Sys2Proof.Claims

/-! ### Steps of a boundary -/

/-- A step of the boundary of partition p leaves the run r and each core of its stand changed by f; other cores, packets and device time
stay. -/
structure Turned (s t : State) (p : Nat) (l : List Nat) (r : Run) (f : Core → Core) : Prop where
  run : t.runOf p = some r
  cores : ∀ n, t.core n = if n ∈ l then f (s.core n) else s.core n
  pkts : ∀ q seq, t.pkt? q seq = s.pkt? q seq
  now : t.now = s.now

section
variable {s t u : State} {p : Nat} {l : List Nat} {r r' : Run} {f g : Core → Core}

theorem Turned.trans (h : Turned s t p l r f) (k : Turned t u p l r' g) : Turned s u p l r' (g ∘ f) where
  run := k.run
  cores n := by
    rw [k.cores, h.cores]
    by_cases hn : n ∈ l
    · simp only [hn, if_true, Function.comp_apply]
    · simp only [hn, if_false]
  pkts q seq := (k.pkts q seq).trans (h.pkts q seq)
  now := k.now.trans h.now

theorem Turned.stored (h : Turned s t p l r f) (k : Stored t u) : Turned s u p l r f :=
  ⟨(k.runOf p).trans h.run, fun n => (k.core n).trans (h.cores n), fun q seq => (k.pkt? q seq).trans (h.pkts q seq), k.now.trans h.now⟩

theorem turned_setRun (s : State) (p : Nat) (l : List Nat) (r : Run) : Turned s (s.setRun p (some r)) p l r id :=
  ⟨runOf_setRun _ _ _, fun _ => (ite_self _).symm, fun _ _ => rfl, rfl⟩

/-- A change of cores alone leaves everything else. -/
theorem coresOnly_mapCores (s : State) (l : List Nat) (f : Nat → Core → Core) :
    s.mapCores l f = { s with cores := (s.mapCores l f).cores } := by
  refine List.foldlRecOn (motive := fun t : State => t = { s with cores := t.cores }) l _ rfl fun t ht n _ => ?_
  rw [ht]
  rfl

theorem State.mapCores_runOf (s : State) (l : List Nat) (f : Nat → Core → Core) (p : Nat) : (s.mapCores l f).runOf p = s.runOf p := by
  rw [coresOnly_mapCores]
  rfl

theorem State.mapCores_pkt? (s : State) (l : List Nat) (f : Nat → Core → Core) (q seq : Nat) :
    (s.mapCores l f).pkt? q seq = s.pkt? q seq := by
  rw [coresOnly_mapCores]
  rfl

theorem State.mapCores_now (s : State) (l : List Nat) (f : Nat → Core → Core) : (s.mapCores l f).now = s.now := by
  rw [coresOnly_mapCores]
  rfl

theorem turned_mapCores (hr : s.runOf p = some r) (hl : l.Nodup) (f : Core → Core) : Turned s (s.mapCores l fun _ => f) p l r f :=
  ⟨(State.mapCores_runOf _ _ _ _).trans hr, fun n => State.core_mapCores hl s _ n, State.mapCores_pkt? _ _ _, State.mapCores_now _ _ _⟩

end

/-! ### Held sends (10_phase_sync.md R285) -/

/-- Landing slots after sends have landed in them. -/
def slotsAfter (m : SMap (Option Landed)) (l : List Send) : SMap (Option Landed) :=
  l.foldl (fun m x => SMap.set m none x.slot (some ⟨x.arr, x.data⟩)) m

theorem foldl_land (l : List Send) (c : Core) : l.foldl (fun t x => t.land x) c = { c with lnd := slotsAfter c.lnd l } := by
  induction l generalizing c with
  | nil => rfl
  | cons x l ih => exact ih (c.land x)

theorem Core.release3_eq (c : Core) :
    c.release3 = { c with ctx := { c.ctx with holds := [] }, lnd := slotsAfter c.lnd c.ctx.holds } := foldl_land _ _

/-- Every send that has landed stands in its slot, or a later one does. -/
theorem isSome_slotsAfter (m : SMap (Option Landed)) {l : List Send} {h : Send} (hh : h ∈ l) :
    (SMap.get (slotsAfter m l) none h.slot).isSome := by
  refine foldl_reaches (P := fun _ => True) (Q := fun m => (SMap.get m none h.slot).isSome = true) hh trivial (fun _ _ _ _ => trivial)
    (fun m _ => ?_) (fun m x _ hm => ?_)
  · rw [SMap.get_set_same]
    rfl
  · rw [SMap.get_set]
    split
    · rfl
    · exact hm

/-! ### Steps 1 to 5 of R278 -/

/-- A core after steps 1 to 4: its landing slots are empty, but in an exchange phase for its held sends. -/
def slotsTurned (ask : Option Bool) (chosen : Bool) (c : Core) : Core :=
  if ask = some true ∧ chosen = false then { c with lnd := [] }.release3 else { c with lnd := [] }

theorem turned_boundarySteps {s : State} {p : Nat} {r : Run} {ask : Option Bool} (hl : r.cores.Nodup) :
    Turned s (boundarySteps s p r ask) p r.cores { r with phc := r.phc + 1, exch := ask.getD r.exch } (slotsTurned ask r.chosen) :=
  ((turned_setRun s p r.cores _).trans (turned_mapCores (runOf_setRun _ _ _) hl _)).stored (stored_applyIngress _ _)

/-- What a stand has used and has left after a charge (13_queues.md R377). -/
def chargedAdm (a : Adm) (cc b x : Nat) : Adm :=
  { a with remC := a.remC - cc, remB := a.remB - b, remX := a.remX - x,
           usedC := a.usedC + cc, usedB := a.usedB + b, usedX := a.usedX + x }

theorem chargeOf_eq_sum (s : State) (l : List Nat) (f : Core → Nat) : chargeOf s l f = (l.map fun n => f (s.core n)).sum := by
  rw [chargeOf, List.sum_eq_foldl, List.foldl_map]

/-- A stand with funds left is charged, and not exhausted. -/
theorem turned_chargeRun {s : State} {p : Nat} {r : Run} (hr : s.runOf p = some r) (hl : r.cores.Nodup)
    (hc : r.ccSince = 0 ∨ r.ccSince < r.adm.remC)
    (hb : chargeOf s r.cores (·.beats) = 0 ∨ chargeOf s r.cores (·.beats) < r.adm.remB)
    (hx : chargeOf s r.cores (·.bytes) = 0 ∨ chargeOf s r.cores (·.bytes) < r.adm.remX) :
    Turned s (chargeRun s p) p r.cores { r with
      adm := chargedAdm r.adm r.ccSince (chargeOf s r.cores (·.beats)) (chargeOf s r.cores (·.bytes)), ccSince := 0, exhausted := false }
      (fun c => { c with beats := 0, bytes := 0 }) := by
  have hgone {n rem : Nat} (h : n = 0 ∨ n < rem) : decide (n ≠ 0 ∧ rem ≤ n) = false := decide_eq_false (by omega)
  simp only [chargeRun, hr, hgone hc, hgone hb, hgone hx, Bool.or_self]
  exact (turned_mapCores hr hl _).trans (turned_setRun _ _ _ _)

/-! ### The stop decision (10_phase_sync.md R279) -/

theorem mismatched_eq_nil {s : State} {r : Run} {a : Option Bool} (ha : ∀ n ∈ r.cores, (s.core n).seq.asks = a) (hbar : r.episodes = []) :
    mismatched s r = [] := by
  have hdiffer : (r.cores.filter fun n => (s.core n).seq.asks.isSome).any (fun n =>
      (r.cores.filter fun n => (s.core n).seq.asks.isSome).any fun k => decide ((s.core n).seq.asks ≠ (s.core k).seq.asks)) = false := by
    simp only [List.any_eq_false, List.mem_filter, decide_eq_true_eq, not_not, Bool.not_eq_true]
    intro n hn k hk
    rw [ha n hn.1, ha k hk.1]
  refine List.filter_eq_nil_iff.mpr fun n hn => ?_
  simp only [hdiffer, hbar, List.any_nil, Bool.or_false, Bool.false_or, Bool.and_eq_true, List.any_eq_true, not_and]
  rintro ⟨k, hk, hnone⟩
  rw [ha n hn, ← ha k hk]
  simpa using hnone

/-- What follows a boundary that nothing stops, whose arrivals ask for a. -/
def undisturbed (s : State) (p : Nat) (r : Run) : Option Bool → State
  | none => endRun s p r 0 0 0
  | some _ => nextSuperstep s p

/-- A boundary that nothing stops ends the job after final arrivals, and starts the next superstep else. -/
theorem decide6_clear {s : State} {p : Nat} {r : Run} {a : Option Bool} (hr : s.runOf p = some r)
    (hclean : ∀ n ∈ r.cores, (s.core n).deferred = []) (ha : ∀ n ∈ r.cores, (s.core n).seq.asks = a) (hbar : r.episodes = [])
    (hfunds : r.exhausted = false) (hpend : r.pend = false) (hchosen : r.chosen = false) :
    decide6 s p (some a) = undisturbed s p r a := by
  have hhit : r.cores.filter (fun n => !(s.core n).deferred.isEmpty) = [] :=
    List.filter_eq_nil_iff.mpr fun n hn => by simp [hclean n hn]
  simp only [decide6, hr, hhit, List.isEmpty_nil, if_true, decideRest, mismatched_eq_nil ha hbar, hfunds, hpend, hchosen, Bool.not_true,
    Bool.false_eq_true, if_false, false_and]
  cases a <;> rfl

/-- A core at the start of a superstep (10_phase_sync.md R278, R280, R288). -/
def superstepStarts (exch : Bool) (c : Core) : Core :=
  if exch then { c with seq := .run, ssc := 0, disc := false, arrivals := [] }.release3
  else { c with seq := .run, ssc := 0, disc := false, arrivals := [] }

theorem turned_nextSuperstep {s : State} {p : Nat} {r : Run} (hr : s.runOf p = some r) (hl : r.cores.Nodup) :
    Turned s (nextSuperstep s p) p r.cores
      { r with strag := none, quiet := [], ids := [], episodes := [], pend := false, exhausted := false } (superstepStarts r.exch) := by
  simp only [nextSuperstep, hr]
  exact (turned_mapCores hr hl _).trans (turned_setRun _ _ _ _)

/-! ### The end of a job (13_queues.md R360, R361) -/

/-- The packet of a job that has ended. -/
def completedPkt (s : State) (r : Run) (status cfl cause : Byte) (k : Pkt) : Pkt :=
  { k with status := some (if status = 0 ∧ decide (r.adm.d < s.now) = true then 1 else status),
           cfl := cfl ||| (if decide (r.adm.d < s.now) = true then cflLate else 0) ||| (if r.adm.replayed then cflReplayed else 0),
           cause := cause, exitw := exitOf s r.cores, aflb := aflOr s r.cores,
           usedC := r.adm.usedC, usedB := r.adm.usedB, usedX := r.adm.usedX, dline := r.adm.d }

/-- The state in which a job has ended, before its collective uses are dropped. -/
def runEnded (s : State) (p : Nat) (r : Run) (status cfl cause : Byte) : State :=
  (((s.setPkt r.adm.q r.adm.seq (completedPkt s r status cfl cause)).setRec r.adm.q r.adm.seq (fun k => { k with complete := true })).mapCores
    r.cores fun _ c => c.retire).setRun p none

theorem endRun_eq (s : State) (p : Nat) (r : Run) (status cfl cause : Byte) : endRun s p r status cfl cause =
    if r.adm.pgid = 0 then (runEnded s p r status cfl cause).dropUses r.adm.useKey else runEnded s p r status cfl cause := rfl

theorem State.pkt?_setPkt (s : State) (q seq : Nat) {f : Pkt → Pkt} (hf : ∀ k, (f k).seq = k.seq) :
    (s.setPkt q seq f).pkt? q seq = (s.pkt? q seq).map f := by
  have hlist (l : List Pkt) : (l.map fun p => if p.seq = seq then f p else p).find? (fun p => decide (p.seq = seq)) =
      (l.find? fun p => decide (p.seq = seq)).map f := by
    induction l with
    | nil => rfl
    | cons x l ih =>
      by_cases hx : x.seq = seq
      · simp [hx, hf]
      · simpa [hx] using ih
  rw [State.pkt?, State.setPkt, State.queue_setQueue, if_pos rfl]
  exact hlist _

/-- A job that ends leaves its partition free, its cores parked and its packet complete. -/
theorem endRun_spec (s : State) (p : Nat) {r : Run} (hl : r.cores.Nodup) (status cfl cause : Byte) :
    (endRun s p r status cfl cause).runOf p = none ∧
      (endRun s p r status cfl cause).pkt? r.adm.q r.adm.seq = (s.pkt? r.adm.q r.adm.seq).map (completedPkt s r status cfl cause) ∧
      ∀ n ∈ r.cores, (endRun s p r status cfl cause).core n = (s.core n).retire := by
  have hsame : (endRun s p r status cfl cause).runOf p = (runEnded s p r status cfl cause).runOf p ∧
      (∀ q seq, (endRun s p r status cfl cause).pkt? q seq = (runEnded s p r status cfl cause).pkt? q seq) ∧
      ∀ n, (endRun s p r status cfl cause).core n = (runEnded s p r status cfl cause).core n := by
    rw [endRun_eq]
    split <;> exact ⟨rfl, fun _ _ => rfl, fun _ => rfl⟩
  obtain ⟨hrun, hpkt, hcore⟩ := hsame
  have hrec := stored_setRec (s.setPkt r.adm.q r.adm.seq (completedPkt s r status cfl cause)) r.adm.q r.adm.seq
    (fun k => { k with complete := true })
  refine ⟨hrun.trans (runOf_setRun _ _ _), (hpkt _ _).trans ?_, fun n hn => (hcore n).trans ?_⟩
  · refine (State.mapCores_pkt? _ _ _ _ _).trans ((hrec.pkt? _ _).trans (State.pkt?_setPkt _ _ _ fun _ => rfl))
  · refine (State.core_mapCores hl _ _ n).trans ((if_pos hn).trans ?_)
    rw [hrec.core]
    rfl

theorem exitOf_congr {s t : State} {l : List Nat} (h : ∀ n ∈ l, (t.core n).lrank = (s.core n).lrank ∧ (t.core n).exited = (s.core n).exited ∧
    (t.core n).exitw = (s.core n).exitw) : exitOf t l = exitOf s l := by
  have hfind : l.find? (fun n => decide ((t.core n).lrank = 0) && (t.core n).exited) =
      l.find? (fun n => decide ((s.core n).lrank = 0) && (s.core n).exited) := by
    induction l with
    | nil => rfl
    | cons n l ih =>
      obtain ⟨hrank, hexited, -⟩ := h n List.mem_cons_self
      rw [List.find?_cons, List.find?_cons, hrank, hexited, ih fun k hk => h k (List.mem_cons_of_mem n hk)]
  unfold exitOf
  rw [hfind]
  split
  · next n hn => rw [(h n (List.mem_of_find?_eq_some hn)).2.2]
  · rfl

theorem aflOr_congr {s t : State} {l : List Nat} (h : ∀ n ∈ l, (t.core n).ctx.afl = (s.core n).ctx.afl) : aflOr t l = aflOr s l :=
  List.foldl_ext _ _ _ fun b n hn => by rw [h n hn]

/-! ### The boundary -/

/-- The run of a stand as its boundary leaves it before the stop decision. -/
def chargedRun (s : State) (r : Run) (a : Option Bool) : Run :=
  { r with phc := r.phc + 1, exch := a.getD r.exch, ccSince := 0, exhausted := false,
           adm := chargedAdm r.adm r.ccSince (r.cores.map fun n => (s.core n).beats).sum (r.cores.map fun n => (s.core n).bytes).sum }

/-- A core as its boundary leaves it before the stop decision. -/
def chargedCore (a : Option Bool) (chosen : Bool) (c : Core) : Core := { slotsTurned a chosen c with beats := 0, bytes := 0 }

/-- The landing slots and the held sends alone change in steps 1 to 4. -/
theorem slotsTurned_rest (a : Option Bool) (chosen : Bool) (c : Core) : slotsTurned a chosen c =
    { c with ctx := (slotsTurned a chosen c).ctx, lnd := (slotsTurned a chosen c).lnd } := by
  unfold slotsTurned
  rw [Core.release3_eq]
  split <;> rfl

section
variable {s : State} {p : Nat} {r : Run} {a : Option Bool} (h : Quiet s p r a)
include h

theorem asks_of_quiet {n : Nat} (hn : n ∈ r.cores) : (s.core n).seq.asks = a ∧ (s.core n).doing.asks = a := by
  have hseq := h.here n hn
  cases a <;> simp [hseq, Seq.asks, Core.doing]

theorem nextPhase_of_quiet : nextPhase s r = some a := by
  obtain ⟨-, -, -, hne, -⟩ := h.up
  have hmap : r.cores.map (fun n => (s.core n).doing.asks) = r.cores.map fun _ => a :=
    List.map_congr_left fun n hn => (asks_of_quiet h hn).2
  obtain ⟨n, l, hcores⟩ := List.exists_cons_of_ne_nil hne
  rw [nextPhase, hmap, hcores]
  simp

theorem allArrived_of_quiet : allArrived s r = true := by
  refine List.all_eq_true.mpr fun n hn => ?_
  have hseq := h.here n hn
  cases a <;> simp [hseq]

theorem chooseBoundary_of_quiet : chooseBoundary s r = r := by
  unfold chooseBoundary
  split
  · next x hx =>
    refine if_neg fun ⟨_, hd, hready⟩ => ?_
    obtain hlate | hno := h.stays x hx
    · omega
    · simp [hready] at hno
  · rfl

/-- What nothing stops runs through all steps of the boundary. -/
theorem exec_boundaryComplete (hp : p = s.obj) : exec .boundaryComplete s =
    .next (decide6 (chargeRun (boundarySteps (s.setRun p (some r)) p r a) p) p (some a)) := by
  obtain ⟨hst, hpend, -⟩ := h.up
  have hphase : nextPhase (s.setRun p (some r)) r = some a := by
    change nextPhase s r = some a
    exact nextPhase_of_quiet h
  have htokens : tokensQuiet (s.setRun p (some r)) r = true := h.tokens
  have hsends : sendsQuiet (s.setRun p (some r)) r = true := h.sends
  have hruns := h.runs
  have harrived := allArrived_of_quiet h
  have hchoose := chooseBoundary_of_quiet h
  subst hp
  refine congrArg Host.Outcome.next ?_
  simp only [hruns, hchoose, hst, harrived, hpend, hphase, htokens, hsends, and_self, if_true, Bool.false_eq_true, if_false]

/-- Steps 1 to 5 of R278. -/
theorem turned_charged : Turned s (chargeRun (boundarySteps (s.setRun p (some r)) p r a) p) p r.cores (chargedRun s r a)
    (chargedCore a r.chosen) := by
  obtain ⟨-, -, -, -, hl⟩ := h.up
  obtain ⟨hc, hb, hx⟩ := h.funds
  have hsteps := (turned_setRun s p r.cores r).trans (turned_boundarySteps (s := s.setRun p (some r)) (p := p) (ask := a) hl)
  have hcore {n : Nat} (hn : n ∈ r.cores) : (boundarySteps (s.setRun p (some r)) p r a).core n = slotsTurned a r.chosen (s.core n) := by
    rw [hsteps.cores, if_pos hn]
    rfl
  have hspent (f : Core → Nat) (hf : ∀ c, f (slotsTurned a r.chosen c) = f c) :
      chargeOf (boundarySteps (s.setRun p (some r)) p r a) r.cores f = (r.cores.map fun n => f (s.core n)).sum := by
    rw [chargeOf_eq_sum, List.map_congr_left fun n hn => by rw [hcore hn, hf]]
  have hbeats := hspent (·.beats) fun c => by rw [slotsTurned_rest]
  have hbytes := hspent (·.bytes) fun c => by rw [slotsTurned_rest]
  have hcharge := turned_chargeRun hsteps.run hl hc (hbeats.symm ▸ hb) (hbytes.symm ▸ hx)
  rw [hbeats, hbytes] at hcharge
  exact hsteps.trans hcharge

/-- The stop decision of a boundary that nothing stops. -/
theorem decide6_of_quiet {u : State} (hu : Turned s u p r.cores (chargedRun s r a) (chargedCore a r.chosen)) :
    decide6 u p (some a) = undisturbed u p (chargedRun s r a) a := by
  obtain ⟨-, hpend, hchosen, -⟩ := h.up
  have hcore {n : Nat} (hn : n ∈ r.cores) : u.core n = chargedCore a r.chosen (s.core n) := (hu.cores n).trans (if_pos hn)
  refine decide6_clear hu.run (fun n hn => ?_) (fun n hn => ?_) h.nobar rfl hpend hchosen
  · rw [hcore hn]
    exact (congrArg Core.deferred (slotsTurned_rest _ _ _)).trans (h.clean n hn)
  · rw [hcore hn]
    exact (congrArg (fun c => c.seq.asks) (slotsTurned_rest _ _ _)).trans (asks_of_quiet h hn).1

end

/-- A core starts the superstep that its stand asked for, with its held sends in their slots in an exchange phase. -/
theorem starts_superstep (e : Bool) (c : Core) : let d := superstepStarts e (chargedCore (some e) false c)
    d.seq = .run ∧ d.pc = c.pc ∧ d.beats = 0 ∧ Starts d c.ctx e := by
  cases e with
  | false => exact ⟨rfl, rfl, rfl, rfl, fun _ => ⟨rfl, rfl⟩, fun h => nomatch h⟩
  | true =>
    have hslots : slotsTurned (some true) false c =
        { c with ctx := { c.ctx with holds := [] }, lnd := slotsAfter [] c.ctx.holds } := Core.release3_eq { c with lnd := [] }
    have hd : superstepStarts true (chargedCore (some true) false c) =
        { c with ctx := { c.ctx with holds := [] }, lnd := slotsAfter [] c.ctx.holds, beats := 0, bytes := 0, seq := .run, ssc := 0,
                 disc := false, arrivals := [] } := by
      rw [chargedCore, hslots]
      exact Core.release3_eq _
    rw [hd]
    exact ⟨rfl, rfl, rfl, rfl, fun h => (nomatch h), fun _ => ⟨rfl, fun x hx => isSome_slotsAfter [] hx⟩⟩

/-- A boundary that asks for another superstep starts it. -/
theorem boundary_starts_superstep {s : State} {r : Run} {e : Bool} (h : Quiet s s.obj r (some e)) :
    ∃ t, exec .boundaryComplete s = .next t ∧ Turned s t s.obj r.cores
      { chargedRun s r (some e) with strag := none, quiet := [], ids := [], episodes := [], pend := false, exhausted := false }
      (superstepStarts e ∘ chargedCore (some e) false) := by
  obtain ⟨-, -, hchosen, -, hl⟩ := h.up
  have hturn := turned_charged h
  refine ⟨_, (exec_boundaryComplete h rfl).trans (congrArg Host.Outcome.next (decide6_of_quiet h hturn)), ?_⟩
  rw [hchosen] at hturn
  exact hturn.trans (turned_nextSuperstep hturn.run hl)

/-- A boundary of final arrivals ends the job. -/
theorem boundary_ends_job {s : State} {r : Run} (h : Quiet s s.obj r none) {k : Pkt} (hk : s.pkt? r.adm.q r.adm.seq = some k) :
    ∃ t, exec .boundaryComplete s = .next t ∧ t.runOf s.obj = none ∧
      (∃ u, Turned s u s.obj r.cores (chargedRun s r none) (chargedCore none r.chosen) ∧
        t.pkt? r.adm.q r.adm.seq = some (completedPkt u (chargedRun s r none) 0 0 0 k)) ∧
      ∀ n ∈ r.cores, t.core n = (chargedCore none r.chosen (s.core n)).retire := by
  obtain ⟨-, -, -, -, hl⟩ := h.up
  have hturn := turned_charged h
  obtain ⟨hrun, hpkt, hcores⟩ := endRun_spec _ s.obj (r := chargedRun s r none) hl 0 0 0
  refine ⟨_, (exec_boundaryComplete h rfl).trans (congrArg Host.Outcome.next (decide6_of_quiet h hturn)), hrun, ⟨_, hturn, ?_⟩,
    fun n hn => ?_⟩
  · refine hpkt.trans ?_
    rw [show (chargedRun s r none).adm.q = r.adm.q from rfl, show (chargedRun s r none).adm.seq = r.adm.seq from rfl, hturn.pkts, hk]
    rfl
  · refine (hcores n hn).trans ?_
    rw [hturn.cores, if_pos hn]

/-- The exit word and the flags of a stand are those before its boundary. -/
theorem exit_of_turned {s u : State} {p : Nat} {r : Run} {b : Bool} (h : Turned s u p r.cores (chargedRun s r none) (chargedCore none b)) :
    exitOf u r.cores = exitOf s r.cores ∧ aflOr u r.cores = aflOr s r.cores := by
  have hcore {n : Nat} (hn : n ∈ r.cores) : u.core n = chargedCore none b (s.core n) := (h.cores n).trans (if_pos hn)
  refine ⟨exitOf_congr fun n hn => ?_, aflOr_congr fun n hn => ?_⟩
  · rw [hcore hn]
    exact ⟨rfl, rfl, rfl⟩
  · rw [hcore hn]
    rfl

/-- Settles O40: the two ends of a boundary that nothing stops. -/
theorem boundariesComplete : Obligations.BoundariesComplete := by
  intro s r
  refine ⟨fun e h => ?_, fun k h hk => ?_⟩
  · obtain ⟨t, hx, ht⟩ := boundary_starts_superstep h
    refine ⟨t, _, hx, ht.run, rfl, rfl, rfl, rfl, rfl, rfl, rfl, rfl, fun n hn => ?_⟩
    rw [ht.cores, if_pos hn]
    exact starts_superstep e (s.core n)
  · obtain ⟨t, hx, hrun, ⟨u, hu, hpkt⟩, hcores⟩ := boundary_ends_job h hk
    obtain ⟨hexit, hafl⟩ := exit_of_turned hu
    refine ⟨t, _, hx, hrun, hpkt, ?_, rfl, hexit, hafl, rfl, rfl, fun n hn => ?_⟩
    · simp only [completedPkt, hu.now, true_and, decide_eq_true_eq]
      rfl
    · rw [hcores n hn]
      exact ⟨rfl, rfl, rfl⟩

end Sys2Proof.Machine
end

section
/-! The obligation about canonical memories. MemoriesWf reads each core through its key and asks nothing of the list of cores itself:
where that list holds a key twice, a step that drops the first entry brings the second one to light. -/

namespace Sys2Proof.Machine

open Sys2Proof.Claims

/-- A SLOTDROP of slot 0, generation 0, of ASID 0, at the head of its queue. -/
def dropPkt : Pkt where
  seq := 0
  body := [0x03]
  desc := QDesc.zero
  rej := 0
  started := true
  startDtc := 0
  status := none
  cfl := 0
  cause := 0
  exitw := 0
  aflb := 0
  usedC := 0
  usedB := 0
  usedX := 0
  result := 0
  dline := 0
  acks := []
  failed := false
  image := none
  since := none
  old := none

/-- A core whose scratchpad lists a byte that is 0. -/
def listedZero : Core := { Core.idle with scratch := [(0, 0)] }

/-- The list of cores holds core 0 twice, first as an idle core, then with the listed zero; the next turn is a SLOTDROP. -/
def shadowedCore : State :=
  { State.reset with
    agenda := [⟨0, 0, 0, 0, [], .step .slotdrop⟩],
    cores := [(0, Core.idle), (0, listedZero)],
    queues := [(0, { Queue.start with pkts := [dropPkt] })],
    slots := [(0, { RSlot.start with valid := true })] }

theorem shadowedCore_core (n : Nat) : shadowedCore.core n = Core.idle := by
  show SMap.get [(0, Core.idle), (0, listedZero)] Core.idle n = Core.idle
  simp only [SMap.get_cons, SMap.get_nil]
  split <;> rfl

theorem memoriesWf_shadowedCore : shadowedCore.MemoriesWf :=
  ⟨rfl, fun n => ⟨by rw [shadowedCore_core]; rfl, rfl, rfl⟩⟩

/-- The packet makes the cores forget the slot's code, and forgetCode keeps no entry of an idle core. -/
theorem step_shadowedCore : ∃ t, step shadowedCore = .next t ∧ (t.core 0).scratch.wf = false :=
  ⟨_, rfl, by decide +kernel⟩

/-- Refutes O56: a SLOTDROP drops the first, idle entry of core 0, and the core then has the scratchpad of the second, which lists a
zero; the statement's hypothesis does not ask that the list of cores is canonical. -/
theorem not_memoriesStayCanonical : ¬ Obligations.MemoriesStayCanonical := by
  unfold Obligations.MemoriesStayCanonical
  intro h
  obtain ⟨t, hstep, hbad⟩ := step_shadowedCore
  obtain ⟨-, hwf⟩ := h _ t memoriesWf_shadowedCore hstep
  rw [(hwf 0).1] at hbad
  cases hbad

end Sys2Proof.Machine
end

section
/-! The MEM triggers at the head of their queue (05_local_memory.md R141, R151). -/

namespace Sys2Proof.Machine

open Sys2Proof.Claims

/-- Every MEM trigger is served alike. -/
theorem exec_mem {i : Instr} (hi : isMem i = true) (s : State) : exec i s = memRun i s := by
  cases i with
  | memLdb _ | memLdbn _ | memLdh _ | memLdhn _ | memLdw _ | memLdwn _ | memLdd _ | memVld _ | memVlds _ | memVgat _
  | memStb _ | memSth _ | memStw _ | memStd _ | memVst _ | memVsts _ | memVsca _ | memVstm _
  | memAmoadd _ | memAmomins _ | memAmomaxs _ | memAmominn _ | memAmomaxn _ | memAmoand _ | memAmoor _ | memAmoxor _
  | memAmoswap _ | memAmocas _ | memAmoaddW _ | memAmominsW _ | memAmomaxsW _ | memAmominnW _ | memAmomaxnW _ | memAmoandW _
  | memAmoorW _ | memAmoxorW _ | memAmoswapW _ | memAmocasW _ | memAmofmaxW _
  | memMark _ | memSend _ | memSends _ => rfl
  | _ => cases hi

/-- A MEM trigger that finds room enters every inner queue it belongs to. -/
theorem memRun_atHead {s : State} {i : Instr} {en : Entry} {v : Val} (h : s.AtHead .mem i en v) (hl : s.me.ldq.length < 8)
    (ht : s.me.stq.length < 8) : memRun i s = .next (memEntered s i en v) := by
  simp only [memRun, Core.memEnter, h.headTrig, memEntered]
  by_cases hmark : memKind i = .mark
  · simp [hmark, hl, ht, MKind.store, Core.popHead, Core.setQ, Core.accessOf]
  · cases (memKind i).store
    · simp [hmark, hl, Core.popHead, Core.setQ, Core.accessOf]
    · simp [hmark, ht, Core.popHead, Core.setQ, Core.accessOf]

/-- Settles O14: every MEM trigger runs memRun (exec_mem), which enters a mark, a store and a load where memEntered puts them. -/
theorem memTriggerEntersItsQueue : Obligations.MemTriggerEntersItsQueue := by
  unfold Obligations.MemTriggerEntersItsQueue
  intro s i en v hi h hl ht
  exact (exec_mem hi s).trans (memRun_atHead h hl ht)

end Sys2Proof.Machine
end

section
/-! The obligation about stores. Two lanes may name one pool word through two windows, the own partition and the whole pool: the model
lets the higher lane's word stand, the statement's storeLanes only where the two addresses are the same. -/

namespace Sys2Proof.Machine

open Sys2Proof.Claims

/-- A scatter whose lane 0 puts 1 at the first word of the own partition and whose lane 1, performed already, has put 0 at the first
word of the whole pool: of core 0 the same word. -/
def aliasScatter : Access where
  ent := { move := 0, slot := 7, badr := 0, rep := none, trig := some (.memVsca ⟨0, .lit 0⟩), port := .o, val := .ready (.v 0), tag := 1,
           rmode := 0, qcfg := 0, faulted := false, bid := 0 }
  o := 0
  o2 := 0
  m := 0
  b := .v (BitVec.ofNat 4096 (Config.ownBase + 1 * 2 ^ 32 + Config.wholeBase * 2 ^ 64))
  lanes := 2

/-- The scatter has started at core 0, in an exchange superstep of a kernel with 4 KiB of pool; the turn performs lane 0. -/
def aliasState : State :=
  { (State.reset.setCore 0 { Core.idle with seq := .run, sta := [aliasScatter] }).setRun 0
      (some { oneRun with exch := true, pool := 0x1000 }) with obj := 1 }

theorem exec_aliasState : ∃ t, exec (.memAccessPerformed true) aliasState = .next t ∧ arrays t true 0 0 = 0 :=
  ⟨_, rfl, by decide +kernel⟩

theorem storedBytes_aliasState : (storedBytes aliasState 0 aliasScatter).reverse.find? (fun p => decide (p.1 = (true, 0, 0))) =
    some ((true, 0, 0), 1) := by decide +kernel

/-- Refutes O26: the first byte of the pool is 1 by storedBytes, and the turn leaves it at 0, since lane 1 has written its word through
the other window (05_local_memory.md R134, R146). -/
theorem not_storesWrite : ¬ Obligations.StoresWrite := by
  unfold Obligations.StoresWrite
  intro h
  obtain ⟨t, l, ht, -, -, -, hbytes⟩ := h aliasState aliasScatter [] (by decide +kernel) rfl
  obtain ⟨u, hu, hzero⟩ := exec_aliasState
  obtain rfl : u = t := Host.Outcome.next.inj (hu.symm.trans ht)
  have hone := hbytes (true, 0, 0)
  simp only [show aliasState.cur = 0 from rfl, storedBytes_aliasState, hzero] at hone
  exact absurd hone (by decide)

end Sys2Proof.Machine
end

section
/-! The obligation about requests at their home. Plain and Lies translate a request with the permissions of its kind; a request whose
field rw is set needs read and write permission, whatever its kind (11_translation.md R306), and no premise clears that field. -/

namespace Sys2Proof.Machine

open Sys2Proof.Claims

/-- A job that waits for its answer. -/
def waitingJob : CJob where
  tag := 0
  eng := .cpy0
  tok := 0
  addr := 0
  badr := 0
  card := none
  ptag := false
  step := 0
  rd := []
  wr := []
  started := true
  pos := 0
  off := 0
  rows := []
  doneb := 0
  flags := 0
  buf := none
  asked := true
  flush := none
  held := false
  slog := 0
  cancel := false
  faddr := 0
  ended := none
  cause := 0
  use := none
  part := []
  nfault := 0

/-- Its read of one byte at offset 0 of home 0, which asks for write permission too. -/
def pairedRead : Req where
  org := .job 0 0
  asid := 0
  kind := .read 1
  addr := BitVec.ofNat 64 (2 ^ 63)
  ptag := false
  prio := 1
  pos := 0
  replay := false
  pgid := 0
  view := none
  fixed := false
  rw := true

/-- The read has reached home 0, where a locked translation gives the page read permission alone. -/
def readOnlyState : State :=
  { (State.reset.setCore 0 { Core.idle with jobs := [waitingJob] }).setHome 0
      { Home.start with tlb := [⟨0, 0, 4096, 0, true, false, false, true⟩] } with air := [⟨1, .req pairedRead⟩] }

theorem lies_pairedRead : Lies (walked readOnlyState (some 0) pairedRead) pairedRead (some 0) 0 id where
  room := by decide +kernel
  plain := ⟨fun _ => false, by decide +kernel, fun _ => nofun, by decide +kernel, by decide +kernel⟩
  good := by decide +kernel

theorem exec_readOnlyState : ∃ u, exec (.homeRequest (some 0)) readOnlyState = .next u ∧
    (u.core 0).job? 0 = some { waitingJob with asked := false, ended := some 2, faddr := pairedRead.addr } :=
  ⟨_, rfl, by decide +kernel⟩

/-- Refutes O37: a read with rw set at a page without write permission meets every premise of the first clause, and its job ends with
PERM instead of taking the byte. -/
theorem not_homesPerformRequests : ¬ Obligations.HomesPerformRequests := by
  unfold Obligations.HomesPerformRequests
  intro h
  obtain ⟨hpresent, -⟩ := h readOnlyState (some 0) 1 pairedRead 0 0 waitingJob rfl rfl rfl rfl
  obtain ⟨hread, -⟩ := hpresent 0 id (by omega) lies_pairedRead
  obtain ⟨u, j, hu, hj, hbuf, -⟩ := hread rfl
  obtain ⟨t, ht, hended⟩ := exec_readOnlyState
  obtain rfl : t = u := Host.Outcome.next.inj (ht.symm.trans hu)
  obtain rfl : _ = j := Option.some.inj (hended.symm.trans hj)
  cases hbuf

end Sys2Proof.Machine
end

section
/-! The obligation about held requests and the host. Its clause about the Clearing engine asks that the balloon list loses leaves at its
head alone; a leaf that holds a part of the root table is followed by every leaf that the tables turn out to pin (11_translation.md
R301, R321, R324), and no premise says that the home's record of pinned leaves agrees with its tables. -/

namespace Sys2Proof.Machine

open Sys2Proof.Claims

theorem Home.free_le (h : Home) : h.free ≤ Config.poolChunks := Nat.sub_le _ _

/-- A home below LOWW with leaf 1, a part of the root table, and leaf 200 on its balloon list. The root entry of ASID 0 leads to a
table in leaf 1000, whose first entry pins the leaves below 2^27, though the home records no pin; the first byte of leaf 200 is 1. -/
def staleHome : Home :=
  { Home.start with
    mem := [(0, 1), (1, 0x80), (2, 0x3E), (819200, 1), (4096000, 0x43)], loww := Config.poolChunks + 1, balloon := [1, 200] }

/-- It is home 0, and the turn is about it. -/
def staleState : State := State.reset.setHome 0 staleHome

theorem lt_loww_staleHome : staleHome.free < staleHome.loww := Nat.lt_succ_of_le (Home.free_le _)

/-- Once leaf 1 is zero, the tables are read again, and leaf 200 leaves the list as well. -/
theorem balloon_zeroLeaf_staleHome : (staleHome.zeroLeaf 1).balloon = [] := by decide +kernel

theorem read_zeroLeaf_staleHome : Mem.read (staleHome.zeroLeaf 1).mem 819200 = 1 := by decide +kernel

/-- No goal above the size of the pool is ever reached, and the list is empty after one leaf. -/
theorem inflate_staleHome (goal : Nat) (hg : Config.poolChunks < goal) :
    staleHome.inflate goal staleHome.balloon.length = staleHome.zeroLeaf 1 := by
  have hlow (h : Home) : ¬ goal ≤ h.free := fun hle => absurd (hle.trans h.free_le) (Nat.not_le.mpr hg)
  rw [show staleHome.balloon.length = 2 from rfl, Home.inflate, if_neg (hlow _)]
  show (staleHome.zeroLeaf 1).inflate goal 1 = _
  rw [Home.inflate, if_neg (hlow _), balloon_zeroLeaf_staleHome]

theorem staleState_home : staleState.home staleState.obj = staleHome := (State.home_setHome _ _ _ _).trans (if_pos rfl)

theorem exec_staleState : exec .balloonInflate staleState = .next (staleState.setHome 0 (staleHome.zeroLeaf 1)) := by
  show Host.Outcome.next (if (staleState.home staleState.obj).free < (staleState.home staleState.obj).loww then _ else _) = _
  rw [staleState_home, if_pos lt_loww_staleHome, inflate_staleHome _ (by decide)]
  rfl

/-- Refutes O50, in its clause about the Clearing engine: the list of staleHome is empty after the turn, so both its leaves count as
taken, and leaf 200 keeps its byte. -/
theorem not_homesHoldAndServeTheHost : ¬ Obligations.HomesHoldAndServeTheHost := by
  unfold Obligations.HomesHoldAndServeTheHost
  intro h
  obtain ⟨-, -, -, -, -, -, -, hinflate, -⟩ := h staleState
  rw [staleState_home] at hinflate
  obtain ⟨t, n, ht, hleft, -, hread⟩ := hinflate.2 lt_loww_staleHome (by decide)
  obtain rfl : _ = t := Host.Outcome.next.inj (exec_staleState.symm.trans ht)
  have hhome : (staleState.setHome 0 (staleHome.zeroLeaf 1)).home staleState.obj = staleHome.zeroLeaf 1 :=
    (State.home_setHome _ _ _ _).trans (if_pos rfl)
  rw [hhome, balloon_zeroLeaf_staleHome] at hleft
  have hall : staleHome.balloon.take n = staleHome.balloon := List.take_of_length_le (List.drop_eq_nil_iff.mp hleft.symm)
  have hzero := hread 819200
  rw [hhome, read_zeroLeaf_staleHome, hall] at hzero
  exact absurd hzero (by decide)

end Sys2Proof.Machine
end

section
/-! Loads (05_local_memory.md R138, R142 to R144, R153): what the bytes of a little-endian word say bit by bit, the lanes that a turn
performs, and the turn of a scalar and of a vector load. -/

namespace Sys2Proof.Machine

open Sys2Proof.Claims

/-! ### Bytes and bits -/

theorem ofLe_cons (b : Byte) (l : List Byte) : ofLe (b :: l) = 2 ^ 8 * ofLe l + b.toNat := by
  rw [ofLe]
  omega

/-- Bit j of a little-endian number is bit j % 8 of its byte j / 8. -/
theorem testBit_ofLe (l : List Byte) (j : Nat) : (ofLe l).testBit j = (l.getD (j / 8) 0).getLsbD (j % 8) := by
  induction l generalizing j with
  | nil => simp [ofLe]
  | cons b l ih =>
    rw [ofLe_cons, Nat.testBit_two_pow_mul_add _ b.isLt]
    by_cases hj : j < 8
    · rw [if_pos hj, Nat.div_eq_of_lt hj, Nat.mod_eq_of_lt hj]
      rfl
    · obtain ⟨k, rfl⟩ : ∃ k, j = k + 8 := ⟨j - 8, by omega⟩
      rw [if_neg hj, Nat.add_sub_cancel, ih, Nat.add_mod_right, Nat.add_div_right k (by omega), List.getD_cons_succ]

theorem State.getD_localBytes (s : State) (core a n i : Nat) :
    (s.localBytes core a n).getD i 0 = if i < n then s.localByte core (a + i) else 0 := by
  by_cases h : i < n <;> simp [State.localBytes, h]

theorem State.testBit_localBytes (s : State) (core a n j : Nat) : (ofLe (s.localBytes core a n)).testBit j =
    (decide (j < 8 * n) && (s.localByte core (a + j / 8)).getLsbD (j % 8)) := by
  rw [testBit_ofLe, State.getD_localBytes]
  by_cases h : j < 8 * n
  · rw [if_pos (by omega), decide_eq_true h, Bool.true_and]
  · rw [if_neg (by omega), decide_eq_false h, Bool.false_and]
    exact BitVec.getLsbD_zero

theorem word4_localBytes (s : State) (core a : Nat) : word4 s core a (BitVec.ofNat 32 (ofLe (s.localBytes core a 4))) := by
  intro j hj
  rw [BitVec.getLsbD_ofNat, State.testBit_localBytes]
  simp [hj]

/-! ### Lanes performed (05_local_memory.md R138) -/

theorem Access.length_addrs_le (x : Access) : x.addrs.length ≤ 128 := by
  unfold Access.addrs
  cases x.kind <;> simp

theorem lanesNow_eq_pick (s : State) (x : Access) : x.pick s.obj = lanesNow s x := rfl

theorem lt_of_mem_lanesNow {s : State} {x : Access} {i : Nat} (h : i ∈ lanesNow s x) : i < 128 :=
  (List.mem_range.mp (List.mem_filter.mp h).1).trans_le x.length_addrs_le

theorem getLsbD_foldl_setBits {l : List Nat} (hl : ∀ i ∈ l, i < 128) (m : MaskW) (i : Nat) :
    (l.foldl (fun a i => a ||| BitVec.ofNat 128 (2 ^ i)) m).getLsbD i = (m.getLsbD i || l.contains i) := by
  induction l generalizing m with
  | nil => simp
  | cons k l ih =>
    rw [List.foldl_cons, ih fun i hi => hl i (.tail k hi), List.contains_cons, BitVec.getLsbD_or, Bool.or_assoc]
    have hk := hl k (.head l)
    have : (BitVec.ofNat 128 (2 ^ k)).getLsbD i = (i == k) := by
      rw [BitVec.getLsbD_ofNat, Nat.testBit_two_pow]
      by_cases h : i = k
      · simp [h, hk]
      · simp [h, Ne.symm h]
    rw [this]

theorem performed_perform (s : State) (x : Access) : Performed s x (x.perform (lanesNow s x)).lanes :=
  fun i _ => getLsbD_foldl_setBits (fun _ => lt_of_mem_lanesNow) x.lanes i

/-- The three loads of a vector. -/
def MKind.vecLoad (k : MKind) : Prop := k = .vld ∨ k = .vlds ∨ k = .vgat

theorem length_addrs_of_vecLoad {x : Access} (h : x.kind.vecLoad) : x.addrs.length = 128 := by
  unfold Access.addrs
  rcases h with h | h | h <;> simp [h]

theorem whole_iff_of_vecLoad {x : Access} (h : x.kind.vecLoad) (l : List Nat) :
    (x.perform l).whole = true ↔ (x.perform l).lanes = BitVec.allOnes 128 := by
  have hn : (x.perform l).nlanes = 128 := length_addrs_of_vecLoad h
  simp only [Access.whole, hn, List.all_eq_true, List.mem_range]
  constructor
  · intro hall
    exact BitVec.eq_of_getLsbD_eq fun i hi => by rw [hall i hi, BitVec.getLsbD_allOnes, decide_eq_true hi]
  · intro hall i hi
    rw [hall, BitVec.getLsbD_allOnes, decide_eq_true hi]

/-! ### What a load leaves -/

/-- The flight of a load's value. -/
def loadFlight (x : Access) (v : Val) : Flight :=
  ⟨x.ent.tag, some (match x.kind with | .ld _ _ => .memR | _ => .memVr), v, 0, .mem, false⟩

theorem exec_load {s : State} {x : Access} {r : List Access} (h : s.me.lda = x :: r) :
    exec (.memAccessPerformed false) s = .next (s.setMe (
      if (x.perform (lanesNow s x)).whole then
        { s.me with lda := r, flights := s.me.flights ++ [loadFlight x (loadValue s s.cur x (lanesNow s x))] }
      else
        { s.me with lda := { x.perform (lanesNow s x) with got := loadLanes s s.cur x (lanesNow s x) } :: r })) := by
  show Host.Outcome.next (performAccess s s.cur false s.obj) = _
  simp only [performAccess, show s.core s.cur = s.me from rfl, h, lanesNow_eq_pick, Bool.false_eq_true, if_false]
  split <;> rfl

theorem loadLanes_spec (s : State) (core : Nat) (x : Access) (l : List Nat) {i : Nat} (hi : i < 128) :
    if l.contains i then word4 s core (x.addrs.getD i 0) (lane (loadLanes s core x l) i)
    else lane (loadLanes s core x l) i = lane x.got i := by
  rw [loadLanes, lane_ofLanes _ i hi]
  split
  · exact word4_localBytes s core _
  · rfl

/-- A vector load, part of it or all (05_local_memory.md R138, R144). -/
theorem loadsRead_vector {s : State} {x : Access} {r : List Access} (h : s.me.lda = x :: r) (hk : x.kind.vecLoad) :
    ∃ (w : VecW) (l : MaskW), Performed s x l ∧
      (∀ i < 128, if (lanesNow s x).contains i then word4 s s.cur (x.addrs.getD i 0) (lane w i) else lane w i = lane x.got i) ∧
      exec (.memAccessPerformed false) s = .next (s.setMe (
        if l = BitVec.allOnes 128 then
          { s.me with lda := r, flights := s.me.flights ++ [⟨x.ent.tag, some .memVr, .v w, 0, .mem, false⟩] }
        else { s.me with lda := { x with lanes := l, got := w } :: r })) := by
  refine ⟨loadLanes s s.cur x (lanesNow s x), (x.perform (lanesNow s x)).lanes, performed_perform s x,
    fun i hi => loadLanes_spec s s.cur x _ hi, ?_⟩
  have hflight : loadFlight x (loadValue s s.cur x (lanesNow s x)) =
      ⟨x.ent.tag, some .memVr, .v (loadLanes s s.cur x (lanesNow s x)), 0, .mem, false⟩ := by
    unfold loadFlight loadValue
    rcases hk with hk | hk | hk <;> rw [hk]
  rw [exec_load h, hflight]
  simp only [whole_iff_of_vecLoad hk]
  rfl

/-- Every lane at once, none having been performed before. -/
theorem contains_lanesNow {s : State} {x : Access} (hl : x.lanes = 0) (ho : s.obj = 0) (i : Nat) :
    (lanesNow s x).contains i = decide (i < x.addrs.length) := by
  simp [lanesNow, hl, ho]

theorem loadResult_of_vecLoad {s : State} {core : Nat} {x : Access} {w : VecW} (hk : x.kind.vecLoad)
    (hw : ∀ l < 128, word4 s core (x.addrs.getD l 0) (lane w l)) : LoadResult s core x (.v w) := by
  unfold LoadResult
  rcases hk with hk | hk | hk <;> rw [hk] <;> exact ⟨w, rfl, hw⟩

/-- A scalar load reads its bytes, extended by sign or zero (05_local_memory.md R143). -/
theorem loadResult_scalar {s : State} {core n : Nat} {x : Access} {sx : Bool} (l : List Nat) (hk : x.kind = .ld n sx) (hn : 0 < n) :
    LoadResult s core x (loadValue s core x l) := by
  unfold LoadResult loadValue
  rw [hk]
  refine ⟨_, rfl, fun j hj => ?_⟩
  have hbit (w k : Nat) : (BitVec.ofNat w (ofLe (s.localBytes core (x.addrs.headD 0) n))).getLsbD k =
      (decide (k < w) && (decide (k < 8 * n) && (s.localByte core (x.addrs.headD 0 + k / 8)).getLsbD (k % 8))) := by
    rw [BitVec.getLsbD_ofNat, State.testBit_localBytes]
  dsimp only
  cases sx with
  | false =>
    rw [if_neg Bool.false_ne_true, hbit, decide_eq_true hj]
    by_cases h : j < 8 * n <;> simp [h]
  | true =>
    rw [if_pos rfl, BitVec.getLsbD_signExtend, BitVec.msb_eq_getLsbD_last, hbit, hbit, decide_eq_true hj]
    by_cases h : j < 8 * n
    · simp [h]
    · simp [h, hn]

theorem whole_of_scalar {s : State} {x : Access} {n : Nat} {sx : Bool} (hk : x.kind = .ld n sx) (hl : x.lanes = 0) (ho : s.obj = 0) :
    (x.perform (lanesNow s x)).whole = true := by
  have hlen : x.addrs.length = 1 := by simp [Access.addrs, hk]
  have hn : (x.perform (lanesNow s x)).nlanes = 1 := hlen
  have hbit := performed_perform s x 0 (by omega)
  rw [contains_lanesNow hl ho, hlen, decide_eq_true Nat.one_pos, Bool.or_true] at hbit
  simp [Access.whole, hn, hbit]

/-- Settles O25: a scalar load is whole in its turn (whole_of_scalar), and a vector load of which nothing is performed is the case of
loadsRead_vector in which every lane is. -/
theorem loadsRead : Obligations.LoadsRead := by
  unfold Obligations.LoadsRead
  intro s x r n sx h
  refine ⟨fun hk hl ho => ?_, loadsRead_vector h⟩
  rcases hk with ⟨hk, hn⟩ | hk
  · refine ⟨_, loadResult_scalar (lanesNow s x) hk (by omega), ?_⟩
    rw [exec_load h, if_pos (whole_of_scalar hk hl ho), if_pos hk, loadFlight, hk]
  · obtain ⟨w, l, hperf, hlanes, hexec⟩ := loadsRead_vector h hk
    have hall (i : Nat) (hi : i < 128) : (lanesNow s x).contains i = true := by
      rw [contains_lanesNow hl ho, length_addrs_of_vecLoad hk, decide_eq_true hi]
    have hone : l = BitVec.allOnes 128 := BitVec.eq_of_getLsbD_eq fun i hi => by
      rw [hperf i hi, hall i hi, Bool.or_true, BitVec.getLsbD_allOnes, decide_eq_true hi]
    have hport : x.kind ≠ .ld n sx := by rcases hk with hk | hk | hk <;> rw [hk] <;> nofun
    refine ⟨.v w, loadResult_of_vecLoad hk fun i hi => ?_, ?_⟩
    · have hw := hlanes i hi
      rwa [if_pos (hall i hi)] at hw
    · rw [hexec, if_pos hone, if_neg hport]

end Sys2Proof.Machine
end

section
/-! Atomics and sends (05_local_memory.md R147 to R149, 10_phase_sync.md R284, R285): how a started one sets out, and how a memory port
applies the oldest of its queue. -/

namespace Sys2Proof.Machine

open Sys2Proof.Claims

/-! ### Atomics and sends that start -/

section
variable {s : State} {x : Access} {r : List Access} {w op a : Nat} (h : s.me.sta = x :: r)
include h

theorem exec_atomic_scratch (hk : x.kind = .amo w op) (ha : locOf (s.poolOf s.cur) s.cur (x.addrs.headD 0) = some (false, a))
    (hq : inWq s.me.wq s.cur x.ent.tag = false) : exec (.memAccessPerformed true) s =
      .next (s.setMe { s.me with wq := s.me.wq ++ [⟨s.cur, x.ent.tag, false, a, w, op, x.b.toScalar, x.o2⟩] }) := by
  show Host.Outcome.next (performAccess s s.cur true s.obj) = _
  simp only [performAccess, show s.core s.cur = s.me from rfl, h, hk, portAtomicOf, ha, Option.map_some, hq, Bool.false_eq_true, if_true, if_false]
  rfl

theorem exec_atomic_pool (hk : x.kind = .amo w op) (ha : locOf (s.poolOf s.cur) s.cur (x.addrs.headD 0) = some (true, a))
    (hq : inWq (s.quad (quadOf s.cur)).wq s.cur x.ent.tag = false) : exec (.memAccessPerformed true) s =
      .next (s.setQuad (quadOf s.cur) { s.quad (quadOf s.cur) with
        wq := (s.quad (quadOf s.cur)).wq ++ [⟨s.cur, x.ent.tag, false, a, w, op, x.b.toScalar, x.o2⟩] }) := by
  show Host.Outcome.next (performAccess s s.cur true s.obj) = _
  simp only [performAccess, show s.core s.cur = s.me from rfl, h, hk, portAtomicOf, ha, Option.map_some, hq, Bool.false_eq_true, if_true, if_false]

theorem exec_send (hk : x.kind = .send ∨ x.kind = .sends) : exec (.memAccessPerformed true) s =
    .next ((s.setMe { s.me.charge (if x.kind = .send then 512 else 8) with sta := r }).putFlit (stopOfDie (dieOf s.cur))
      ⟨0, .send (sendOf s s.cur x)⟩) := by
  show Host.Outcome.next (performAccess s s.cur true s.obj) = _
  rcases hk with hk | hk <;> simp only [performAccess, show s.core s.cur = s.me from rfl, h, hk] <;> rfl

end

theorem sendOf_data {s : State} {core : Nat} {x : Access} (hk : x.kind = .send ∨ x.kind = .sends) :
    if x.kind = .send then (sendOf s core x).data = x.b.toVec else (sendOf s core x).data.toNat = x.b.toScalar.toNat := by
  unfold sendOf
  rcases hk with hk | hk
  · rw [if_pos hk, if_pos hk]
  · have hne : x.kind ≠ .send := by rw [hk]; nofun
    rw [if_neg hne, if_neg hne, BitVec.toNat_setWidth_of_le (by omega)]

/-! ### The oldest atomic of a port -/

theorem Mem.read_atomicAt (m : Mem) (p : PortAtomic) (a : Nat) : Mem.read (atomicAt m p).1 a =
    if p.addr ≤ a ∧ a < p.addr + p.width then
      BitVec.ofNat 8 ((amoOp p.op (8 * p.width) (atomicAt m p).2 p.x p.cmp).toNat / 2 ^ (8 * (a - p.addr)))
    else Mem.read m a := by
  simp only [atomicAt, Mem.read_writeL, leBytes_length]
  split
  · next h =>
    rw [List.getD_eq_getElem _ _ (by rw [leBytes_length]; omega)]
    simp [leBytes]
  · rfl

/-- A core whose started atomic x, of a tag, has been applied: the old value sets out. -/
def answered (c : Core) (tag : Nat) (x : Access) (old : Word) : Core :=
  { c with sta := c.sta.filter (fun y => decide (y.ent.tag ≠ tag)),
           flights := c.flights ++ [⟨x.ent.tag, some .memR, .s old, 0, .mem, false⟩] }

theorem atomicDone_access {c : Core} {p : PortAtomic} {x : Access} (hj : p.job = false)
    (hx : c.sta.find? (fun y => decide (y.ent.tag = p.tag)) = some x) (old : Word) : c.atomicDone p old = answered c p.tag x old := by
  simp only [Core.atomicDone, hj, hx, Bool.false_eq_true, if_false]
  rfl

section
variable {s : State} {p : PortAtomic} {r : List PortAtomic} {x : Access}

/-- The oldest atomic of the pool's port, its trigger's core being whichever of the quad. -/
theorem exec_atomicApply_pool (hq : (s.quad (quadOf s.cur)).wq = p :: r) (hj : p.job = false)
    (hx : (s.core p.core).sta.find? (fun y => decide (y.ent.tag = p.tag)) = some x) :
    exec (.atomicApply true) s = .next ((s.setQuad (quadOf s.cur) { s.quad (quadOf s.cur) with
      mem := (atomicAt (s.quad (quadOf s.cur)).mem p).1, wq := r }).setCore p.core
        (answered (s.core p.core) p.tag x (atomicAt (s.quad (quadOf s.cur)).mem p).2)) := by
  show Host.Outcome.next (applyAtomic s s.cur true) = _
  simp only [applyAtomic, hq, if_true]
  exact congrArg (fun c => Host.Outcome.next (State.setCore _ p.core c)) (atomicDone_access hj hx _)

/-- The oldest atomic of the scratchpad's port. -/
theorem exec_atomicApply_scratch (hq : s.me.wq = p :: r) (hj : p.job = false)
    (hx : s.me.sta.find? (fun y => decide (y.ent.tag = p.tag)) = some x) :
    exec (.atomicApply false) s = .next (s.setMe
      (answered { s.me with scratch := (atomicAt s.me.scratch p).1, wq := r } p.tag x (atomicAt s.me.scratch p).2)) := by
  show Host.Outcome.next (applyAtomic s s.cur false) = _
  simp only [applyAtomic, show s.core s.cur = s.me from rfl, hq, Bool.false_eq_true, if_false]
  exact congrArg (fun c => Host.Outcome.next (s.setMe c))
    (atomicDone_access (c := { s.me with scratch := (atomicAt s.me.scratch p).1, wq := r }) hj hx _)

end

/-- Settles O27: a started access by the lemma about its kind; the oldest atomic of a port writes atomicAt of its array, whose bytes are
read_atomicAt, and leaves its core answered. -/
theorem atomics : Obligations.Atomics := by
  unfold Obligations.Atomics
  refine ⟨fun s x r h => ⟨fun w op a => exec_atomic_scratch h, fun w op a => exec_atomic_pool h, fun hk => ?_⟩,
    fun s pool p r x hq hjob hcore _ hx => ?_⟩
  · refine ⟨_, ⟨0, .send (sendOf s s.cur x)⟩, sendOf s s.cur x, exec_send h hk, congrArg Core.sta (State.me_setMe s _), ?_, rfl, rfl, rfl,
      rfl, rfl, rfl, sendOf_data hk⟩
    rw [stop_putFlit, if_pos rfl]
    rfl
  · cases pool with
    | true =>
      rw [if_pos rfl] at hq
      have hquad (c : Core) (q : Quad) : ((s.setQuad (quadOf s.cur) q).setCore p.core c).quad (quadOf s.cur) = q :=
        (State.quad_setQuad s _ _ q).trans (if_pos rfl)
      refine ⟨_, exec_atomicApply_pool hq hjob hx, ?_⟩
      simp only [if_true, hquad, State.core_setCore_same, Mem.read_atomicAt]
      exact ⟨trivial, fun _ => rfl, rfl, rfl, rfl⟩
    | false =>
      rw [if_neg Bool.false_ne_true] at hq
      rw [hcore rfl] at hx ⊢
      have hcur (c : Core) : (s.setMe c).core s.cur = c := State.core_setCore_same s s.cur c
      refine ⟨_, exec_atomicApply_scratch hq hjob hx, ?_⟩
      simp only [Bool.false_eq_true, if_false, State.me_setMe, hcur]
      exact ⟨rfl, Mem.read_atomicAt _ _, rfl, rfl, rfl⟩

end Sys2Proof.Machine
end

section
/-! AMO and DELTA jobs (09_copy_collective.md R257, R258): the job of a turn as it runs, its request, and what each step leaves of it. -/

namespace Sys2Proof.Machine

open Sys2Proof.Claims

/-! ### The job that a turn runs -/

theorem Core.jobs_setJob_at {c : Core} {i : Nat} {j x : CJob} (h : c.jobs[i]? = some j) (hx : x.tag = j.tag) :
    (c.setJob x).jobs[i]? = some x := by
  simp [Core.setJob, h, hx]

/-- A job that runs. -/
def goingJob (j : CJob) : CJob := { j with started := true }

/-- The state in which the step of a running job acts. -/
def goingState (s : State) (j : CJob) : State := s.setMe (s.me.setJob (goingJob j))

section
variable {s : State} {kind : Nat} {j : CJob} {card : BitVec 512}

theorem jobStep_of_runs (h : Runs s kind j card) (f : State → CJob → BitVec 512 → State) :
    jobStep s [kind] f = f (goingState s j) (goingJob j) card := by
  obtain ⟨hended, hasked, -⟩ := h.going
  have hmay : (j.started || canStart s s.cur j) = true := by simpa using h.may
  have hat : (s.core s.cur).jobs[s.obj]? = some j := h.at'
  unfold jobStep
  dsimp only
  rw [hat]
  dsimp only
  split
  · next hnone => cases hnone.symm.trans h.read
  · next x hx =>
    obtain rfl : x = card := Option.some.inj (hx.symm.trans h.read)
    rw [if_neg (by simp [h.is, hended, hasked, hmay])]
    rfl

@[simp] theorem goingState_cur : (goingState s j).cur = s.cur := rfl
@[simp] theorem goingState_obj : (goingState s j).obj = s.obj := rfl
@[simp] theorem goingState_core : (goingState s j).core s.cur = s.me.setJob (goingJob j) := State.core_setCore_same _ _ _

theorem goingState_jobs (h : Runs s kind j card) : ((goingState s j).core s.cur).jobs[s.obj]? = some (goingJob j) := by
  rw [goingState_core]
  exact Core.jobs_setJob_at h.at' rfl

/-- What a request of the job leaves. -/
theorem asks_ask (h : Runs s kind j card) (k : RKind) (a : Nat) :
    Asks s (ask (goingState s j) s.cur (goingJob j) card k a) j card k a := by
  refine ⟨_, _, (stop_putFlit _ _ _ _).trans (if_pos rfl), rfl, rfl, rfl, ?_, rfl, rfl, rfl, { goingJob j with asked := true }, ?_, rfl, rfl⟩
  · rw [goingState_core]
    rfl
  · have hat := Core.jobs_setJob_at (x := { goingJob j with asked := true }) (goingState_jobs h) rfl
    exact (congrArg (fun c : Core => c.jobs[s.obj]?) (State.core_setCore_same _ _ _)).trans hat

theorem goingState_poolOf : (goingState s j).poolOf s.cur = s.poolOf s.cur := by
  unfold State.poolOf
  rw [goingState_core]
  rfl

end

/-! ### The steps (09_copy_collective.md R257, R258) -/

section
variable {s : State} {n : Nat} {j : CJob} {card : BitVec 512}

/-- The operation of an AMO job, at byte y of its port's array. -/
def amoAtomic (n : Nat) (j : CJob) (card : BitVec 512) (y : Nat) : PortAtomic :=
  { core := n, tag := j.tag, job := true, addr := y, width := cf card 24 4, op := cf card 52 1 % 16,
    x := BitVec.ofNat 64 (cf card 8 8 % 2 ^ (8 * cf card 24 4)), cmp := 0 }

/-- One word of an AMO job in local memory. -/
theorem amoStep_local {x : Bool} {y : Nat} (hc : j.cancel = false) (hd : ((s.core n).dstOf card).main = false)
    (hp : j.pos < cardTotal card) (ha : locOf (s.poolOf n) n (dstAt (s.core n) card j.pos) = some (x, y)) :
    amoStep s n j card =
      let c := (s.core n).setJob { j with pos := j.pos + 1 }
      if x then (s.setCore n c).setQuad (quadOf n) { s.quad (quadOf n) with wq := (s.quad (quadOf n)).wq ++ [amoAtomic n j card y] }
      else (s.setCore n c).setCore n { c with wq := c.wq ++ [amoAtomic n j card y] } := by
  unfold amoStep
  dsimp only
  rw [if_neg (by simp [hc]), if_neg (Nat.not_le.mpr hp), if_neg (by simp [hd]), ha]
  cases x with
  | true => rfl
  | false => rw [State.core_setCore_same]; rfl

theorem amoStep_done (hc : j.cancel = false) (hp : cardTotal card ≤ j.pos) (hq : j.doneb = j.pos * cf card 24 4) :
    amoStep s n j card = endJob s n j 0 := by
  unfold amoStep
  dsimp only
  rw [if_neg (by simp [hc]), if_pos hp, if_pos (decide_eq_true hq)]

/-- A DELTA job that has its block and the hash of its table entry. -/
theorem deltaStep_of_block {blk old : List Byte} (hc : j.cancel = false) (hbuf : j.buf = some (blk ++ old)) (hblk : blk.length = 4096)
    (hold : old.length = 16) (hp : j.pos < cf card 24 4 / 4096) (hinit : cf card 60 1 = 0) :
    deltaStep s n j card =
      if old = shake256 blk 16 then s.setCore n ((s.core n).setJob { j with pos := j.pos + 1, buf := none })
      else if j.doneb - j.off < 4160 then
        ask s n j card
          (.write (((deltaRec j.pos (shake256 blk 16) blk).drop (j.doneb - j.off)).take (64 - (j.doneb - j.off) % 64)))
          (((s.core n).dstOf card).a + j.doneb)
      else ask s n j card (.table (shake256 blk 16)) (cf card 52 8 + 16 * j.pos) := by
  have hlen : (blk ++ old).length = 4112 := by rw [List.length_append, hblk, hold]
  have htake : (blk ++ old).take 4096 = blk := by rw [← hblk, List.take_left]
  have hdrop : (blk ++ old).drop 4096 = old := by rw [← hblk, List.drop_left]
  unfold deltaStep
  dsimp only
  rw [if_neg (by simp [hc]), if_neg (Nat.not_le.mpr hp), show j.buf.getD [] = blk ++ old by rw [hbuf]; rfl, if_neg (by rw [hlen]; decide),
    if_neg (by simp [hlen]), htake, hdrop]
  by_cases h : old = shake256 blk 16
  · rw [if_pos (by simp [hinit, h]), if_pos h]
  · rw [if_neg (by simp [h]), if_neg h]
    rfl

end

/-! ### What they leave of the job -/

section
variable {s : State} {kind : Nat} {j : CJob} {card : BitVec 512}

theorem setJob_goingState_jobs (h : Runs s kind j card) {x : CJob} (hx : x.tag = j.tag) :
    (((goingState s j).core s.cur).setJob x).jobs[s.obj]? = some x := Core.jobs_setJob_at (goingState_jobs h) hx

theorem exec_jobAmo (h : Runs s 4 j card) : exec .jobAmo s = .next (amoStep (goingState s j) s.cur (goingJob j) card) :=
  congrArg Host.Outcome.next (jobStep_of_runs h fun t j card => amoStep t s.cur j card)

theorem exec_jobDelta (h : Runs s 5 j card) : exec .jobDelta s = .next (deltaStep (goingState s j) s.cur (goingJob j) card) :=
  congrArg Host.Outcome.next (jobStep_of_runs h fun t j card => deltaStep t s.cur j card)

/-- A word of an AMO job reaches the queue of its port. -/
theorem amo_enqueues {x : Bool} {y : Nat} (h : Runs s 4 j card) (hd : (s.me.dstOf card).main = false) (hp : j.pos < cardTotal card)
    (ha : locOf (s.poolOf s.cur) s.cur (dstAt s.me card j.pos) = some (x, y)) :
    ∃ t p, exec .jobAmo s = .next t ∧ p.addr = y ∧ p.width = cf card 24 4 ∧ p.op = cf card 52 1 % 16 ∧ p.job = true ∧
      p.core = s.cur ∧ p.tag = j.tag ∧ t.me.jobs[s.obj]? = some { j with started := true, pos := j.pos + 1 } ∧
      (x = true → (t.quad (quadOf s.cur)).wq = (s.quad (quadOf s.cur)).wq ++ [p]) ∧ (x = false → t.me.wq = s.me.wq ++ [p]) := by
  obtain ⟨-, -, hc⟩ := h.going
  have hstep := amoStep_local (s := goingState s j) (n := s.cur) (j := goingJob j) (x := x) (y := y) hc
    (by rw [goingState_core]; exact hd) hp (by rw [goingState_poolOf, goingState_core]; exact ha)
  have hjobs := setJob_goingState_jobs h (x := { goingJob j with pos := j.pos + 1 }) rfl
  refine ⟨_, amoAtomic s.cur (goingJob j) card y, (exec_jobAmo h).trans (congrArg _ hstep), rfl, rfl, rfl, rfl, rfl, rfl, ?_⟩
  cases x with
  | true =>
    refine ⟨(congrArg (fun c : Core => c.jobs[s.obj]?) (State.core_setCore_same _ _ _)).trans hjobs, fun _ => ?_, nofun⟩
    exact congrArg Quad.wq ((State.quad_setQuad _ _ _ _).trans (if_pos rfl))
  | false =>
    refine ⟨(congrArg (fun c : Core => c.jobs[s.obj]?) (State.core_setCore_same _ _ _)).trans hjobs, nofun, fun _ => ?_⟩
    refine (congrArg Core.wq (State.core_setCore_same _ _ _)).trans ?_
    rw [goingState_core]
    rfl

end

/-- The block of a DELTA job that changed: the next line of its record, and the table entry after the last one. -/
theorem delta_asks {s : State} {j : CJob} {card : BitVec 512} {blk old : List Byte} (h : Runs s 5 j card)
    (hbuf : j.buf = some (blk ++ old)) (hblk : blk.length = 4096) (hold : old.length = 16)
    (hp : j.pos < cf card 24 4 / 4096) (hinit : cf card 60 1 = 0) (hne : old ≠ shake256 blk 16) :
    ∃ t, exec .jobDelta s = .next t ∧
      (j.doneb - j.off < 4160 → Asks s t j card
        (.write (((deltaRec j.pos (shake256 blk 16) blk).drop (j.doneb - j.off)).take (64 - (j.doneb - j.off) % 64)))
        ((s.me.dstOf card).a + j.doneb)) ∧
      (4160 ≤ j.doneb - j.off → Asks s t j card (.table (shake256 blk 16)) (cf card 52 8 + 16 * j.pos)) := by
  obtain ⟨-, -, hc⟩ := h.going
  have hstep := deltaStep_of_block (s := goingState s j) (n := s.cur) (j := goingJob j) hc hbuf hblk hold hp hinit
  rw [if_neg hne, goingState_core] at hstep
  refine ⟨_, (exec_jobDelta h).trans (congrArg _ hstep), fun hlt => ?_, fun hle => ?_⟩
  · rw [if_pos (show (goingJob j).doneb - (goingJob j).off < 4160 from hlt)]
    exact asks_ask h _ _
  · rw [if_neg (show ¬ (goingJob j).doneb - (goingJob j).off < 4160 from Nat.not_lt.mpr hle)]
    exact asks_ask h _ _

/-- Settles O31, branch by branch of the two steps: an AMO job asks nothing of the fabric when its word is local, and a DELTA job's
next request is decided by how many bytes of the record are written (09_copy_collective.md R257, R258). -/
theorem amoAndDeltaJobs : Obligations.AmoAndDeltaJobs := by
  unfold Obligations.AmoAndDeltaJobs
  intro s j card
  refine ⟨fun a x y h hd hp hdst ha => amo_enqueues h hd hp (hdst ▸ ha), fun h _ hp hq => ?_,
    fun blk old h hbuf hblk hold hp hinit => ⟨fun heq => ?_, fun hne hlt => ?_, fun hne hle => ?_⟩⟩
  · obtain ⟨-, -, hc⟩ := h.going
    refine ⟨_, (exec_jobAmo h).trans (congrArg _ (amoStep_done (j := goingJob j) hc hp hq)), ?_⟩
    exact (congrArg (fun c : Core => c.jobs[s.obj]?) (State.core_setCore_same _ _ _)).trans (setJob_goingState_jobs h rfl)
  · obtain ⟨-, -, hc⟩ := h.going
    have hstep := deltaStep_of_block (s := goingState s j) (n := s.cur) (j := goingJob j) hc hbuf hblk hold hp hinit
    rw [if_pos heq] at hstep
    refine ⟨_, (exec_jobDelta h).trans (congrArg _ hstep), rfl, ?_⟩
    exact (congrArg (fun c : Core => c.jobs[s.obj]?) (State.core_setCore_same _ _ _)).trans (setJob_goingState_jobs h rfl)
  · obtain ⟨t, ht, hline, -⟩ := delta_asks h hbuf hblk hold hp hinit hne
    exact ⟨t, ht, hline hlt⟩
  · obtain ⟨t, ht, -, htable⟩ := delta_asks h hbuf hblk hold hp hinit hne
    exact ⟨t, ht, htable hle⟩

end Sys2Proof.Machine
end

section
/-! The triggers of the vector engines (06_vector.md R166 to R174, R178 to R185, R190 to R192): each starts at the head of its queue and
sends one vector, mask or word to its port, and its function gives what the tables of the statements say. -/

namespace Sys2Proof.Machine

open Sys2Proof.Claims

/-! ### Starts -/

section

variable {s : State} {u : VUnit} {i : Instr} {en : Entry} {v : Val}

theorem vecRun_atHead (h : s.AtHead u.eng i en v) (f : VIn → VecW × Byte) :
    vecRun u i f s = .next (s.started u.eng en (some (vecR u)) (.v (f (s.me.vecIn u en v)).1) (f (s.me.vecIn u en v)).2 false) :=
  congrArg _ (vecStart_started h _ _)

theorem maskRun_atHead (h : s.AtHead u.eng i en v) (f : VIn → MaskW × Byte) :
    maskRun u i f s = .next (s.started u.eng en (some (vecM u)) (.m (f (s.me.vecIn u en v)).1) (f (s.me.vecIn u en v)).2 false) :=
  congrArg _ (vecStart_started h _ _)

theorem scalRun_atHead (h : s.AtHead u.eng i en v) (f : VIn → Word × Byte) :
    scalRun u i f s = .next (s.started u.eng en (some (vecS u)) (.s (f (s.me.vecIn u en v)).1) (f (s.me.vecIn u en v)).2 false) :=
  congrArg _ (vecStart_started h _ _)

/-- A trigger that fills its vector lane by lane, without a flag. -/
theorem vecRun_lanes (h : s.AtHead u.eng i en v) (f : VIn → Nat → BitVec 32) :
    ∃ r : VecW, (∀ l < 128, lane r l = f (s.me.vecIn u en v) l) ∧
      vecRun u i (fun x => (ofLanes (f x), 0)) s = .next (s.started u.eng en (some (vecR u)) (.v r) 0 false) :=
  ⟨_, fun _ hl => lane_ofLanes _ _ hl, vecRun_atHead h _⟩

end

/-! ### The same trigger, its function written another way -/

section

variable {u : VUnit} {i : Instr} {s : State}

theorem vecRun_congr {g f : VIn → VecW × Byte} (h : ∀ x, g x = f x) : vecRun u i g s = vecRun u i f s :=
  congrArg (vecRun u i · s) (funext h)

theorem vecRun_lanewise_congr {g f : BitVec 32 → BitVec 32 → BitVec 32 → BitVec 32} (h : ∀ a b c, g a b c = f a b c) :
    vecRun u i (lanewise g) s = vecRun u i (lanewise f) s :=
  vecRun_congr fun x => by simp only [lanewise, h]

theorem vecRun_lanes_congr {g f : VIn → Nat → BitVec 32} (h : ∀ x l, g x l = f x l) :
    vecRun u i (fun x => (ofLanes (g x), 0)) s = vecRun u i (fun x => (ofLanes (f x), 0)) s :=
  vecRun_congr fun x => by rw [funext (h x)]

theorem scalRun_congr {g f : VIn → Word × Byte} (h : ∀ x, g x = f x) : scalRun u i g s = scalRun u i f s :=
  congrArg (scalRun u i · s) (funext h)

end

/-! ### Integer lanes (06_vector.md R172, R192) -/

theorem toNat_lowBits (b : BitVec 32) {n k : Nat} (hk : 2 ^ n = k) : (b.extractLsb' 0 n).toNat = b.toNat % k := by
  simp [← hk]

/-- A reversed lane is the list of its bits from the highest down. -/
theorem reverse_eq_ofBoolListLE (b : BitVec 32) :
    b.reverse = BitVec.ofBoolListLE ((List.range 32).map (fun j => b.getLsbD (31 - j))) := by
  refine BitVec.eq_of_getLsbD_eq fun j hj => ?_
  refine BitVec.getLsbD_reverse.trans (Eq.trans ?_ BitVec.getLsbD_ofBoolListLE.symm)
  simp [BitVec.getMsbD, hj]

/-- The integer triggers run the lane functions of R172 and R192: comparisons by their Boolean form, a shift count as the lane
modulo 32. -/
theorem exec_intLane {i : Instr} {u : VUnit} {f : BitVec 32 → BitVec 32 → BitVec 32 → BitVec 32} (hf : intLane i = some (u, f))
    (s : State) : exec i s = vecRun u i (lanewise f) s := by
  cases i with
  | vecIadd _ _ | vecIsub _ _ | vecImul _ _ | vecImulh _ _ | vecImac _ _ | vecAnd _ _ | vecOr _ _ | vecXor _ _ | vecAndn _ _
  | vecPopc _ _ | vecClz _ _ | vecClmul _ _ | vecClmulh _ _ => cases hf; rfl
  | vecImins _ _ | vecImaxs _ _ =>
    cases hf
    exact vecRun_lanewise_congr fun _ _ _ => if_congr BitVec.sle_iff_toInt_le.symm rfl rfl
  | vecIminn _ _ | vecImaxn _ _ =>
    cases hf
    exact vecRun_lanewise_congr fun _ _ _ => if_congr BitVec.ule_iff_le.symm rfl rfl
  | vecShl _ _ =>
    cases hf
    exact vecRun_lanewise_congr fun a b _ => congrArg (a <<< ·) (toNat_lowBits b rfl)
  | vecShrl _ _ =>
    cases hf
    exact vecRun_lanewise_congr fun a b _ => congrArg (a >>> ·) (toNat_lowBits b rfl)
  | vecShra _ _ =>
    cases hf
    exact vecRun_lanewise_congr fun a b _ => congrArg a.sshiftRight (toNat_lowBits b rfl)
  | vecBitrev _ _ =>
    cases hf
    exact vecRun_lanewise_congr fun _ b _ => reverse_eq_ofBoolListLE b
  | _ => cases hf

/-! ### Moved lanes (06_vector.md R174, R191) -/

/-- The moving triggers take their lanes from where R174 and R191 say: an index field is its lane modulo 128. -/
theorem exec_moveLane {i : Instr} {u : VUnit} {f : VIn → Nat → BitVec 32} (hf : moveLane i = some (u, f)) (s : State) :
    exec i s = vecRun u i (fun x => (ofLanes (f x), 0)) s := by
  cases i with
  | vecSel _ _ | vecZip _ _ | vecUnzip _ _ => cases hf; rfl
  | vecPerm _ _ =>
    cases hf
    exact vecRun_lanes_congr fun x l => congrArg (lane x.a) (toNat_lowBits (lane x.b l) rfl)
  | vecLrot _ _ =>
    cases hf
    refine vecRun_lanes_congr fun x l => congrArg (lane x.a) ?_
    rw [toNat_lowBits _ (k := 128) rfl, Nat.add_mod_mod]
  | vecBcast _ _ =>
    cases hf
    exact vecRun_lanes_congr fun x _ => congrArg (lane x.a) (toNat_lowBits (lane x.b 0) rfl)
  | vecIns _ _ =>
    cases hf
    exact vecRun_lanes_congr fun x l => if_congr (iff_of_eq (congrArg (l = ·) (toNat_lowBits (lane x.c 0) rfl))) rfl rfl
  | _ => cases hf

/-- Settles O2: the lanes of each trigger are those of its table (exec_intLane, exec_moveLane), and no flag is set. -/
theorem vectorIntegerLanes : Obligations.VectorIntegerLanes := by
  unfold Obligations.VectorIntegerLanes
  intro s i u en v h
  refine ⟨fun f hf => ?_, fun f hf => ?_⟩
  · rw [exec_intLane hf]
    exact vecRun_lanes h fun x l => f (lane x.a l) (lane x.b l) (lane x.c l)
  · rw [exec_moveLane hf]
    exact vecRun_lanes h f

/-! ### Lanes with flags (06_vector.md R168, R172, R175 to R178) -/

theorem ofNat_natAbs_toInt (b : BitVec 32) : BitVec.ofNat 32 b.toInt.natAbs = if b.toInt < 0 then -b else b := by
  rw [← BitVec.ofInt_natCast]
  split
  · next h => rw [Int.ofNat_natAbs_of_nonpos h.le, BitVec.ofInt_neg, BitVec.ofInt_toInt]
  · next h => rw [Int.natAbs_of_nonneg (not_lt.mp h), BitVec.ofInt_toInt]

theorem iabs_eq (b : BitVec 32) :
    iabs b = if b = 0x80000000 then (0x7FFFFFFF, fIV) else (if b.toInt < 0 then -b else b, 0) := by
  rw [iabs, ofNat_natAbs_toInt]

theorem exec_flagLane {i : Instr} {u : VUnit} {f : RM → BitVec 32 → BitVec 32 → BitVec 32 → BitVec 32 × Byte}
    (hf : flagLane i = some (u, f)) (s : State) : exec i s = vecRun u i (lanewiseF f) s := by
  cases i with
  | vecFadd _ _ | vecFsub _ _ | vecFmul _ _ | vecFfma _ _ | vecFmin _ _ | vecFmax _ _ | vecFabs _ _ | vecFneg _ _ | vecFrcp _ _
  | vecFrsq _ _ | vecFexp2 _ _ | vecFlog2 _ _ | vecFsqrt _ _ | vecI2f _ _ => cases hf; rfl
  | vecIabs _ m =>
    cases hf
    simp only [← iabs_eq]
    rfl
  | _ => cases hf

/-- Settles O3: one function of the lanes (exec_flagLane), whose flags meet in one byte (getLsbD_orAll). -/
theorem vectorLanesWithFlags : Obligations.VectorLanesWithFlags := by
  unfold Obligations.VectorLanesWithFlags
  intro s i u f en v hf h
  exact ⟨_, _, fun _ hl => lane_ofLanes _ _ hl, fun k _ => getLsbD_orAll 128 _ k, (exec_flagLane hf s).trans (vecRun_atHead h _)⟩

/-! ### Comparisons (06_vector.md R173) -/

theorem exec_cmpLane {i : Instr} {u : VUnit} {f : BitVec 32 → BitVec 32 → Bool × Byte} (hf : cmpLane i = some (u, f)) (s : State) :
    exec i s = maskRun u i (lanewiseM f) s := by
  cases i with
  | vecCeq _ _ | vecClts _ _ | vecCles _ _ | vecFceq _ _ | vecFclt _ _ | vecFcle _ _ => cases hf; rfl
  | _ => cases hf

/-- Settles O4: one comparison of the lanes (exec_cmpLane), each in its bit of the mask. -/
theorem vectorComparisons : Obligations.VectorComparisons := by
  unfold Obligations.VectorComparisons
  intro s i u f en v hf h
  exact ⟨_, _, fun _ hl => getLsbD_ofBits _ _ hl, fun k _ => getLsbD_orAll 128 _ k,
    (exec_cmpLane hf s).trans (maskRun_atHead h _)⟩

/-! ### Reductions and conversions (06_vector.md R178 to R185, R190, R191) -/

theorem exec_scalarOf {i : Instr} {u : VUnit} {f : VIn → Word × Byte} (hf : scalarOf i = some (u, f)) (s : State) :
    exec i s = scalRun u i f s := by
  cases i with
  | vecFredmax _ _ | vecFredsum _ _ => cases hf; rfl
  | vecIredadd _ _ =>
    cases hf
    refine scalRun_congr fun x => ?_
    simp only [List.sum_eq_foldl, List.foldl_map]
  | vecIredmax _ _ =>
    cases hf
    refine scalRun_congr fun x => ?_
    simp only [List.foldl_map]
  | vecExt _ _ =>
    cases hf
    exact scalRun_congr fun x => congrArg (fun n => ((lane x.a n).setWidth 64, 0)) (toNat_lowBits (lane x.b 0) rfl)
  | _ => cases hf

theorem exec_convertOf {i : Instr} {u : VUnit} {f : VIn → VecW × Byte} (hf : convertOf i = some (u, f)) (s : State) :
    exec i s = vecRun u i f s := by
  cases i with
  | vecF2i _ _ | vecF2bf _ _ | vecBf2fl _ _ | vecBf2fh _ _ | vecNarrow _ _ | vecWiden _ _ | vecBmax _ _ | vecQscale _ _
  | vecQfa4 _ _ | vecQib8 _ _ | vecDqfa4 _ _ | vecDqib8 _ _ => cases hf; rfl
  | _ => cases hf

/-- Settles O5: the function of each trigger is that of its table (exec_scalarOf, exec_convertOf). -/
theorem vectorReductionsAndConversions : Obligations.VectorReductionsAndConversions := by
  unfold Obligations.VectorReductionsAndConversions
  intro s i u en v h
  exact ⟨fun f hf => (exec_scalarOf hf s).trans (scalRun_atHead h f), fun f hf => (exec_convertOf hf s).trans (vecRun_atHead h f)⟩

end Sys2Proof.Machine
end

section
/-! The wide accumulators of the vector engines (06_vector.md R167, R168, R186 to R188): what a trigger leaves of them, and the trap of
one that reads an uncorrectable error (12_traps.md R333). -/

namespace Sys2Proof.Machine

open Sys2Proof.Claims

/-! ### Faults at the head of a queue -/

/-- A trap precise at a move that a core without a trap takes: the record says which move, and no register changes. -/
theorem Core.trapHead_records {c : Core} (h : c.trap = none) (e : Eng) (en : Entry) (cause : Byte) (faddr : Nat) :
    c.trapHead e en cause faddr = { c.faultHead e with
      trap := some (moveTrap en e cause c.pc faddr), seq := .capture 0, was := c.seq } := by
  have hf : (c.faultHead e).trap = c.trap ∧ (c.faultHead e).seq = c.seq := by
    unfold Core.faultHead
    split <;> exact ⟨rfl, rfl⟩
  simp only [Core.trapHead, Core.takeTrap, hf, h]
  rfl

theorem Core.faultHead_ctx (c : Core) (e : Eng) : (c.faultHead e).ctx = c.ctx := by
  unfold Core.faultHead
  split <;> rfl

/-! ### The lanes of the accumulators (06_vector.md R186) -/

/-- Accumulator k of unit u alone takes the new lanes. -/
theorem Core.wlane_setWide (c : Core) (u u' : VUnit) {k k' n : Nat} (f : Nat → WLane) (hk : k < 4) (hk' : k' < 4) (hn : n < 128) :
    (c.setWide u k f).wlane u' k' n = if u' = u ∧ k' = k then f n else c.wlane u' k' n := by
  have hplace : vecN u * 512 + k * 128 ≤ vecN u' * 512 + k' * 128 + n ∧
      vecN u' * 512 + k' * 128 + n < vecN u * 512 + k * 128 + 128 ↔ u' = u ∧ k' = k := by
    cases u <;> cases u' <;> simp [vecN] <;> omega
  rw [Core.wlane, Core.setWide, SMap.get_fill]
  simp only [hplace]
  split
  · next h => rw [h.1, h.2, Nat.add_sub_cancel_left]
  · rfl

theorem Core.vecIn_k_lt (c : Core) (u : VUnit) (en : Entry) (v : Val) : (c.vecIn u en v).k < 4 := BitVec.isLt _

theorem Core.wideBad_of_none {c : Core} (h : c.bad.wide = []) (u : VUnit) (k : Nat) : c.wideBad u k = false := by
  simp [Core.wideBad, h]

/-! ### Starts -/

/-- What an accumulating trigger leaves of its core: its queue without the head, accumulator k, and its flags on the way. -/
def Core.accumulated (c : Core) (u : VUnit) (en : Entry) (k : Nat) (f : Nat → WLane × Byte) : Core :=
  ((c.popHead u.eng).setWide u k (fun n => (f n).1)).launchResult en u.eng none (.s 0) (orAll 128 (fun n => (f n).2)) false

section

variable {s : State} {u : VUnit} {i : Instr} {en : Entry} {v : Val}

theorem wideRun_sound (h : s.AtHead u.eng i en v) (reads : VIn → List Nat) (f : Core → VIn → Nat → WLane × Byte)
    (hr : ∀ k ∈ reads (s.me.vecIn u en v), s.me.wideBad u k = false) :
    wideRun u i reads f s =
      .next (s.setMe (s.me.accumulated u en (s.me.vecIn u en v).k (f s.me (s.me.vecIn u en v)))) := by
  have hany : (reads (s.me.vecIn u en v)).any (s.me.wideBad u) = false := List.any_eq_false.mpr fun k hk => by simp [hr k hk]
  simp only [wideRun, Core.wideStart, h.headTrig, hany]
  rfl

theorem wideRun_bad (h : s.AtHead u.eng i en v) {reads : VIn → List Nat} (f : Core → VIn → Nat → WLane × Byte) {k : Nat}
    (hk : k ∈ reads (s.me.vecIn u en v)) (hb : s.me.wideBad u k = true) :
    wideRun u i reads f s = .next (s.setMe (s.me.trapHead u.eng en Cause.ECC_REGFILE 0)) := by
  simp only [wideRun, Core.wideStart, h.headTrig, List.any_eq_true.mpr ⟨k, hk, hb⟩, if_true]

theorem wgetRun_sound (h : s.AtHead u.eng i en v) (f : RM → (Nat → WLane) → VecW × Byte)
    (hb : s.me.wideBad u (s.me.vecIn u en v).k = false) :
    wgetRun u i f s = .next (s.started u.eng en (some (vecR u)) (.v (f en.rmode (s.me.wlane u (s.me.vecIn u en v).k)).1)
      (f en.rmode (s.me.wlane u (s.me.vecIn u en v).k)).2 false) := by
  simp only [wgetRun, h.headTrig, hb, Bool.false_eq_true, if_false, vecStart_started h]
  rfl

theorem wgetRun_bad (h : s.AtHead u.eng i en v) (f : RM → (Nat → WLane) → VecW × Byte)
    (hb : s.me.wideBad u (s.me.vecIn u en v).k = true) :
    wgetRun u i f s = .next (s.setMe (s.me.trapHead u.eng en Cause.ECC_REGFILE 0)) := by
  simp only [wgetRun, h.headTrig, hb, if_true]

end

/-! ### The triggers (06_vector.md R187, R188) -/

/-- The accumulators that an accumulating trigger reads: wfold reads wk and wj. -/
def wideReads : Instr → VIn → List Nat
  | .vecWadd _ _, x | .vecWsub _ _, x => [x.k]
  | .vecWfold _ _, x => [x.k, (lane x.b 0).toNat % 4]
  | _, _ => []

/-- Every accumulating trigger makes of its lanes what R187 says. -/
theorem exec_wideOf {i : Instr} {u : VUnit} {f : Core → VUnit → VIn → Nat → WLane × Byte} (hf : wideOf i = some (u, f)) (s : State) :
    exec i s = wideRun u i (wideReads i) (fun c x => f c u x) s := by
  cases i with
  | vecWadd _ _ | vecWsub _ _ | vecWclr _ _ | vecWfold _ _ => cases hf; rfl
  | _ => cases hf

theorem exec_wgetOf {i : Instr} {u : VUnit} {f : RM → (Nat → WLane) → VecW × Byte} (hf : wgetOf i = some (u, f)) (s : State) :
    exec i s = wgetRun u i f s := by
  cases i with
  | vecWget _ _ | vecWgetbf _ _ => cases hf; rfl
  | _ => cases hf

theorem exec_wideOf_bad {s : State} {i : Instr} {u : VUnit} {f : Core → VUnit → VIn → Nat → WLane × Byte} {en : Entry} {v : Val}
    {k : Nat} (hf : wideOf i = some (u, f)) (h : s.AtHead u.eng i en v) (hk : k ∈ wideReads i (s.me.vecIn u en v))
    (hb : s.me.wideBad u k = true) : exec i s = .next (s.setMe (s.me.trapHead u.eng en Cause.ECC_REGFILE 0)) :=
  (exec_wideOf hf s).trans (wideRun_bad h _ hk hb)

/-- Settles O8: a trigger that reads no error writes accumulator k alone (wlane_setWide) and sends its flags on the way. -/
theorem wideAccumulate : Obligations.WideAccumulate := by
  unfold Obligations.WideAccumulate
  intro s i u f en v hf h hbad
  have hk := s.me.vecIn_k_lt u en v
  refine ⟨_, (exec_wideOf hf s).trans (wideRun_sound h _ _ fun k _ => Core.wideBad_of_none hbad u k), fun n hn => ?_,
    fun u' k' n hn hk' hne => ?_, ?_, ?_⟩
  · rw [State.me_setMe]
    exact (Core.wlane_setWide _ u u _ hk hk hn).trans (if_pos ⟨rfl, rfl⟩)
  · rw [State.me_setMe]
    exact (Core.wlane_setWide _ u u' _ hk hk' hn).trans (if_neg (not_and_or.mpr hne))
  · rw [State.me_setMe]
    rfl
  · rw [State.me_setMe]
    rfl

/-- Settles O9: a read of a sound accumulator starts (wgetRun_sound); every trigger that reads one with an error faults at the head of
its queue, which keeps the registers (Core.trapHead_records). -/
theorem wideRead : Obligations.WideRead := by
  unfold Obligations.WideRead
  intro s i u en v h
  refine ⟨fun f hf hb => (exec_wgetOf hf s).trans (wgetRun_sound h f hb), fun hread ht => ?_⟩
  have hx : exec i s = .next (s.setMe (s.me.trapHead u.eng en Cause.ECC_REGFILE 0)) := by
    rcases hread with ⟨⟨m, rfl⟩ | ⟨m, rfl⟩ | ⟨m, rfl⟩ | ⟨m, rfl⟩ | ⟨m, rfl⟩, hb⟩ | ⟨⟨m, rfl⟩, hb⟩
    · exact (exec_wgetOf rfl s).trans (wgetRun_bad h _ hb)
    · exact (exec_wgetOf rfl s).trans (wgetRun_bad h _ hb)
    · exact exec_wideOf_bad rfl h (List.mem_singleton_self _) hb
    · exact exec_wideOf_bad rfl h (List.mem_singleton_self _) hb
    · exact exec_wideOf_bad rfl h List.mem_cons_self hb
    · exact exec_wideOf_bad rfl h (List.mem_cons_of_mem _ (List.mem_singleton_self _)) hb
  rw [Core.trapHead_records ht] at hx
  refine ⟨_, moveTrap en u.eng Cause.ECC_REGFILE s.me.pc 0, hx, ?_, ?_, rfl, rfl, rfl⟩
  · rw [State.me_setMe]
    exact s.me.faultHead_ctx u.eng
  · rw [State.me_setMe]

end Sys2Proof.Machine
end

section
/-! How the triggers of the stream array start (08_stream_ops.md R217, R218): what each makes of the array, and the trap of one that a
rule stops (12_traps.md R333, R335); the configuration triggers (08_stream_ops.md R229, R239). -/

namespace Sys2Proof.Machine

open Sys2Proof.Claims

/-! ### Starts and stops -/

section

variable {s : State} {i : Instr} {en : Entry} {v : Val} {p : Option RPort} {f : Str → Word → Word → Val → Entry → StrRes}

theorem strDone_beatsPlus (u : Str) (q : Option RPort) (w : Val) (fl : Byte) (n : Nat) :
    s.setMe { s.me with
      qs := s.me.qs.set [] Eng.str.code (s.me.q .str).tail, ctx := { s.me.ctx with str := u }, beats := s.me.beatsPlus n,
      bad := s.me.bad.after s.me.ctx.str i (s.me.op .str).o.toScalar v.toScalar,
      flights := s.me.flights ++ [⟨en.tag, q, w, fl, .str, false⟩] } = strDone s i en v u q w fl n := by
  unfold strDone Core.beatsPlus
  split <;> rfl

/-- A trigger without a result that acts leaves the array it made. -/
theorem strRun_acts (h : s.AtHead .str i en v) (hr : strRange s.me.ctx.str.sprec i v.toScalar = true) {u : Str} {fl : Byte} {n : Nat}
    (hf : f s.me.ctx.str (s.me.op .str).o.toScalar (s.me.op .str).o2.toScalar v en = .ok u none fl n) :
    strRun i p f s = .next (strDone s i en v u none (.s 0) fl n) := by
  rw [strRun_at h, if_pos hr, hf]
  exact congrArg _ (strDone_beatsPlus u _ _ fl n)

/-- A trigger with a result also sends it to its port. -/
theorem strRun_answers (h : s.AtHead .str i en v) (hr : strRange s.me.ctx.str.sprec i v.toScalar = true) {u : Str} {w : Val} {fl : Byte}
    {n : Nat} (hf : f s.me.ctx.str (s.me.op .str).o.toScalar (s.me.op .str).o2.toScalar v en = .ok u (some w) fl n) :
    strRun i p f s = .next (strDone s i en v u p w fl n) := by
  rw [strRun_at h, if_pos hr, hf]
  exact congrArg _ (strDone_beatsPlus u _ _ fl n)

/-- A fault at the head of the queue leaves the context and the results under way. -/
theorem strStops_of_trapHead {k : Byte} {a : Nat} (ht : s.me.trap = none)
    (hx : exec i s = .next (s.setMe (s.me.trapHead .str en k a))) : StrStops s i en k := by
  rw [Core.trapHead_records ht] at hx
  refine ⟨_, moveTrap en .str k s.me.pc a, hx, ?_, ?_, ?_, rfl, rfl, rfl, ?_⟩
  all_goals rw [State.me_setMe]
  · exact s.me.faultHead_ctx .str
  · unfold Core.faultHead
    split <;> rfl

theorem strRun_stops (hx : exec i s = strRun i p f s) (h : s.AtHead .str i en v) (ht : s.me.trap = none)
    (hr : strRange s.me.ctx.str.sprec i v.toScalar = true) {k : Byte} {a : Nat}
    (hf : f s.me.ctx.str (s.me.op .str).o.toScalar (s.me.op .str).o2.toScalar v en = .trap k a) : StrStops s i en k := by
  refine strStops_of_trapHead ht (a := a) ?_
  rw [hx, strRun_at h, if_pos hr, hf]

/-- A value out of its range stops the trigger (08_stream_ops.md R218). -/
theorem strRun_out_of_range (hx : exec i s = strRun i p f s) (h : s.AtHead .str i en v) (ht : s.me.trap = none)
    (hr : strRange s.me.ctx.str.sprec i v.toScalar = false) : StrStops s i en 0x02 := by
  refine strStops_of_trapHead ht (a := 0) ?_
  rw [hx, strRun_at h, hr, if_neg Bool.false_ne_true]

end

/-! ### Configuration (08_stream_ops.md R229, R239) -/

/-- A configuration trigger writes the field of its table. -/
theorem exec_strField {i : Instr} {f : Str → Word → Str} (hf : strField i = some f) (s : State) : exec i s = strCfg i f s := by
  cases i with
  | strBank _ | strSlen _ | strSprec _ | strSeeda _ | strSeedb _ | strSmode _ | strSthr _ | strRefexp _ | strDigit _ | strCkint _
  | strCpair _ => cases hf; rfl
  | _ => cases hf

/-- Settles O10: in range the trigger acts (strRun_acts), out of range it stops (strRun_out_of_range). -/
theorem streamConfiguration : Obligations.StreamConfiguration := by
  unfold Obligations.StreamConfiguration
  intro s i f en v hf h
  exact ⟨fun hr => (exec_strField hf s).trans (strRun_acts h hr rfl),
    fun hr ht => strRun_out_of_range (exec_strField hf s) h ht hr⟩

end Sys2Proof.Machine
end

section
/-! The banks, tags and flags of the stream array (07_stream_array.md R193, R194, R211; 02_numbers.md R43): what each operation on
them leaves; and the vector pushes (08_stream_ops.md R226, R227). -/

namespace Sys2Proof.Machine

open Sys2Proof.Claims

/-! ### Flags -/

theorem flagIf_true (f : Byte) : flagIf true f = f := rfl

theorem flagIf_false (f : Byte) : flagIf false f = 0 := rfl

theorem flagIf_or (a b : Bool) (f : Byte) : flagIf a f ||| flagIf b f = flagIf (a || b) f := by
  cases a <;> cases b <;> simp [flagIf]

/-- One flag raised by some of many. -/
theorem foldl_or_flagIf {α : Type} (l : List α) (g : α → Bool) (f : Byte) (b : Bool) :
    l.foldl (fun a x => a ||| flagIf (g x) f) (flagIf b f) = flagIf (b || l.any g) f := by
  induction l generalizing b with
  | nil => simp
  | cons x l ih => rw [List.foldl_cons, flagIf_or, ih, List.any_cons, Bool.or_assoc]

theorem orAll_flagIf (n : Nat) (g : Nat → Bool) (f : Byte) :
    orAll n (fun k => flagIf (g k) f) = flagIf ((List.range n).any g) f := by
  induction n with
  | zero => rfl
  | succ n ih => rw [orAll, ih, flagIf_or, List.range_succ, List.any_append, List.any_cons, List.any_nil, Bool.or_false]

/-- The flag that is raised exactly where a test holds. -/
theorem flagIf_cases {b : Bool} {f : Byte} {P : Prop} (h : b = true ↔ P) : (flagIf b f = f ∧ P) ∨ (flagIf b f = 0 ∧ ¬ P) := by
  cases b with
  | true => exact .inl ⟨rfl, h.mp rfl⟩
  | false => exact .inr ⟨rfl, fun hp => Bool.false_ne_true (h.mpr hp)⟩

theorem flagIf_any_range (n : Nat) (g : Nat → Bool) (f : Byte) :
    (flagIf ((List.range n).any g) f = f ∧ ∃ k < n, g k = true) ∨ (flagIf ((List.range n).any g) f = 0 ∧ ∀ k < n, g k = false) := by
  have h : (List.range n).any g = true ↔ ∃ k < n, g k = true := by simp
  exact (flagIf_cases h).imp_right (And.imp_right (by simp))

/-! ### The banks in use (07_stream_array.md R194) -/

theorem Str.abank_lt (t : Str) : t.abank < 2 := BitVec.isLt _

theorem Str.cbank_lt (t : Str) : t.cbank < 2 := BitVec.isLt _

theorem Str.bbank_bounds (t : Str) : 2 ≤ t.bbank ∧ t.bbank < 4 := by
  have : (t.bsel.extractLsb' 1 1).toNat < 2 := BitVec.isLt _
  unfold Str.bbank
  omega

theorem Str.target_A_lt (t : Str) (tgt : Bool) : t.target false tgt < 2 := by
  have := t.abank_lt
  cases tgt <;> simp only [Str.target, Bool.false_eq_true, if_false, if_true] <;> omega

/-! ### TAG and the beat indices -/

section

variable (t : Str) {bank : Nat} (l : List (BitVec 2)) (v : BitVec 32)

theorem Str.setTags_eq : t.setTags bank l =
    { t with tag0 := if bank = 0 then l else t.tag0, tag1 := if bank = 0 then t.tag1 else l } := by
  unfold Str.setTags
  split <;> rfl

theorem Str.tags_setTags_same : (t.setTags bank l).tags bank = l := by
  unfold Str.setTags Str.tags
  split <;> rfl

theorem Str.tags_setTags_other (h : bank < 2) : (t.setTags bank l).tags (1 - bank) = t.tags (1 - bank) := by
  obtain rfl | rfl : bank = 0 ∨ bank = 1 := by omega
  all_goals rfl

theorem Str.setBt_eq : t.setBt bank v =
    { t with bt0 := if bank = 0 then v else t.bt0, bt1 := if bank = 0 then t.bt1 else v } := by
  unfold Str.setBt
  split <;> rfl

theorem Str.bt_setBt_same : (t.setBt bank v).bt bank = v := by
  unfold Str.setBt Str.bt
  split <;> rfl

theorem Str.bt_setBt_other (h : bank < 2) : (t.setBt bank v).bt (1 - bank) = t.bt (1 - bank) := by
  obtain rfl | rfl : bank = 0 ∨ bank = 1 := by omega
  all_goals rfl

end

theorem getElem?_defaultTags {k : Nat} (h : k < 128) : defaultTags[k]? = some (BitVec.ofNat 2 (k / 32)) := by
  simp [defaultTags, h]

/-! ### Digits (02_numbers.md R43; 07_stream_array.md R211; 08_stream_ops.md R226) -/

theorem Str.digit_eq (t : Str) (sideB sg : Bool) (m : Nat) :
    t.digit sideB sg m = ((edgeDigit t sideB sg m).1, flagIf (edgeDigit t sideB sg m).2 fQX) := by
  have hmin : min m (2 ^ t.sprec.toNat - 1) = if 2 ^ t.sprec.toNat - 1 < m then 2 ^ t.sprec.toNat - 1 else m := by
    split <;> omega
  simp only [Str.digit, edgeDigit, hmin]
  congr 1
  cases sideB <;> cases t.smode <;> simp

theorem Str.laneDigit_eq (t : Str) (sideB : Bool) (w : BitVec 32) :
    t.laneDigit sideB w = ((vectorDigit t sideB w).1, flagIf (vectorDigit t sideB w).2 fQX) := by
  have hdead : w.getLsbD 5 = decide (w.toNat / 32 % 2 = 1) := Nat.testBit_eq_decide_div_mod_eq
  have hsign : w.getLsbD 4 = decide (w.toNat / 16 % 2 = 1) := Nat.testBit_eq_decide_div_mod_eq
  have hm : (w.extractLsb' 0 4).toNat = w.toNat % 16 := toNat_lowBits w rfl
  simp only [Str.laneDigit, vectorDigit, hdead, hsign, hm, t.digit_eq, decide_eq_true_eq]
  split <;> rfl

/-! ### Vector pushes (08_stream_ops.md R227) -/

/-- One line of a bank written, with the headers of scale 1.0 that a vector push leaves. -/
def Str.vectorLine (t : Str) (sideB : Bool) (bank ln : Nat) (b : VecW) : Str :=
  { t.setLine bank ln (fun k => (vectorDigit t sideB (lane b k)).1) with
    hdr := t.hdr.fill 0 (bank * 512 + ln * 4) 4 (fun _ => 0x01FC) }

/-- The flag of a vector push: QX where a lane's digit is clamped. -/
def Str.vectorFlag (t : Str) (sideB : Bool) (b : VecW) : Byte :=
  flagIf ((List.range 128).any (fun k => (vectorDigit t sideB (lane b k)).2)) fQX

section

variable (t : Str) (sideB : Bool) {bank ln : Nat} (b : VecW)

theorem Str.vectorLine_entry {k : Nat} (hk : k < 128) :
    (t.vectorLine sideB bank ln b).edge.get Dig.dead (bank * 16384 + ln * 128 + k) = (vectorDigit t sideB (lane b k)).1 := by
  rw [Str.vectorLine, Str.setLine, SMap.get_fill, if_pos (by omega), Nat.add_sub_cancel_left]

theorem Str.vectorLine_other_entry {a : Nat} (h : a < bank * 16384 + ln * 128 ∨ bank * 16384 + ln * 128 + 128 ≤ a) :
    (t.vectorLine sideB bank ln b).edge.get Dig.dead a = t.edge.get Dig.dead a := by
  rw [Str.vectorLine, Str.setLine, SMap.get_fill, if_neg (by omega)]

theorem Str.vectorLine_header {q : Nat} (hq : q < 4) : (t.vectorLine sideB bank ln b).header bank ln q = 0x01FC := by
  rw [Str.header, Str.vectorLine, SMap.get_fill, if_pos (by omega)]

theorem Str.vectorLine_other_header {x l q : Nat} (hln : ln < 128) (hl : l < 128) (hq : q < 4) (h : x ≠ bank ∨ l ≠ ln) :
    (t.vectorLine sideB bank ln b).header x l q = t.header x l q := by
  rw [Str.header, Str.vectorLine, SMap.get_fill, if_neg (by omega)]
  rfl

theorem pushVec_eq (o : Word) (v : Val) : pushVec sideB t o v =
    let u := t.vectorLine sideB (t.target sideB (o.getLsbD 1)) (o.toNat / 256 % 128) v.toVec
    .ok (if sideB then u else { u.setTags (t.target sideB (o.getLsbD 1)) defaultTags with cmap := none }) none
      (t.vectorFlag sideB v.toVec) 0 := by
  have hln : (o.extractLsb' 8 7).toNat = o.toNat / 256 % 128 := by
    rw [BitVec.extractLsb'_toNat, Nat.shiftRight_eq_div_pow]
  simp only [pushVec, hln, t.laneDigit_eq, orAll_flagIf]
  rfl

end

theorem exec_vectorPush {i : Instr} {sideB : Bool} {m : Mv} (hi : i = if sideB then .strPushbv m else .strPushav m) (s : State) :
    exec i s = strRun i none (fun t o _ v _ => pushVec sideB t o v) s := by
  cases sideB <;> subst hi <;> rfl

/-- Settles O12: the line, its headers and nothing else (Str.vectorLine_entry and the lemmas beside it); on the A side TAG
(Str.tags_setTags_same) and no map. -/
theorem vectorPushes : Obligations.VectorPushes := by
  unfold Obligations.VectorPushes
  intro s i sideB m en v hi h c o bank ln
  have hln : ln < 128 := Nat.mod_lt _ (by decide)
  have hr : strRange s.me.ctx.str.sprec i v.toScalar = true := by cases sideB <;> subst hi <;> rfl
  have hx := (exec_vectorPush hi s).trans (strRun_acts h hr (pushVec_eq c sideB o v))
  refine ⟨_, _, hx, ?_⟩
  cases sideB with
  | true =>
    exact ⟨rfl, fun k => c.vectorLine_entry true v.toVec, fun a => c.vectorLine_other_entry true v.toVec,
      fun q => c.vectorLine_header true v.toVec, fun x l q hq hl => c.vectorLine_other_header true v.toVec hln hl hq,
      fun _ => ⟨rfl, rfl, rfl⟩, nofun, flagIf_any_range _ _ _⟩
  | false =>
    have hbank : bank < 2 := c.target_A_lt _
    refine ⟨?_, fun k hk => ?_, fun a ha => ?_, fun q hq => ?_, fun x l q hq hl hne => ?_, nofun,
      fun _ => ⟨rfl, fun k hk => ?_, ?_⟩, flagIf_any_range _ _ _⟩
    · rw [Str.setTags_eq]; rfl
    · rw [Str.setTags_eq]; exact c.vectorLine_entry false v.toVec hk
    · rw [Str.setTags_eq]; exact c.vectorLine_other_entry false v.toVec ha
    · rw [Str.setTags_eq]; exact c.vectorLine_header false v.toVec hq
    · rw [Str.setTags_eq]; exact c.vectorLine_other_header false v.toVec hln hl hq hne
    · exact (congrArg (·[k]?) (Str.tags_setTags_same _ _)).trans (getElem?_defaultTags hk)
    · exact Str.tags_setTags_other _ _ hbank

end Sys2Proof.Machine
end

section
/-! Beats (07_stream_array.md R198 to R202): the thresholds bit by bit, what the cells of a line add, and the sub-counters after the
sums of a beat; the runs of beats (08_stream_ops.md R231). -/

namespace Sys2Proof.Machine

open Sys2Proof.Claims

/-! ### Thresholds (07_stream_array.md R198) -/

/-- The number of p bits whose bits from the highest down are b 0, …, b (p - 1). -/
def bitsDown (p : Nat) (b : Nat → Bool) : Nat := ((List.range p).map (fun n => if b n then 2 ^ (p - 1 - n) else 0)).sum

theorem bitsDown_succ (p : Nat) (b : Nat → Bool) : bitsDown (p + 1) b = 2 * bitsDown p b + (b p).toNat := by
  have hshift : ∀ n ∈ List.range p, (if b n then 2 ^ (p + 1 - 1 - n) else 0) = 2 * if b n then 2 ^ (p - 1 - n) else 0 := by
    intro n hn
    rw [List.mem_range] at hn
    rw [show p + 1 - 1 - n = (p - 1 - n) + 1 by omega, pow_succ]
    split <;> omega
  rw [bitsDown, List.range_succ, List.map_append, List.sum_append, List.map_congr_left hshift, List.sum_map_mul_left, bitsDown]
  cases hb : b p <;> simp [hb]

theorem testBit_bitsDown (p : Nat) (b : Nat → Bool) (k : Nat) : (bitsDown p b).testBit k = (decide (k < p) && b (p - 1 - k)) := by
  induction p generalizing k with
  | zero => simp [bitsDown]
  | succ p ih =>
    rw [bitsDown_succ]
    cases k with
    | zero => cases hb : b p <;> simp [Nat.testBit_zero, hb]
    | succ k =>
      rw [Nat.testBit_succ, show (2 * bitsDown p b + (b p).toNat) / 2 = bitsDown p b by have := (b p).toNat_lt; omega, ih,
        show p + 1 - 1 - (k + 1) = p - 1 - k by omega]
      simp

theorem theta_eq_bitsDown (p t odd : Nat) (seed : BitVec 4) :
    theta p t odd seed = bitsDown p (fun n => t.testBit (2 * n + odd) != seed.getLsbD (p - 1 - n)) := by
  unfold theta bitsDown
  congr 1
  refine List.map_congr_left fun n _ => ?_
  by_cases h : t.testBit (2 * n + odd) = seed.getLsbD (p - 1 - n) <;> simp [h]

/-- A beat's bits from the highest down, and the seed's bits, make the threshold. -/
theorem bitsDown_xor_seed (p t odd : Nat) (seed : BitVec 4) :
    bitsDown p (fun n => t.testBit (2 * n + odd)) ^^^ (seed.toNat % 2 ^ p) = theta p t odd seed := by
  rw [theta_eq_bitsDown]
  refine Nat.eq_of_testBit_eq fun k => ?_
  rw [Nat.testBit_xor, testBit_bitsDown, testBit_bitsDown, Nat.testBit_mod_two_pow]
  by_cases hk : k < p
  · rw [show p - 1 - (p - 1 - k) = k by omega]
    simp [hk, BitVec.getLsbD]
  · simp [hk]

theorem thresholds_eq (p t : Nat) (sa sb : BitVec 4) :
    thresholds p t sa.toNat sb.toNat = (theta p t 0 sa, theta p t 1 sb) := by
  have hrev (off : Nat) : (List.range p).foldl (fun acc n => acc + ((t / 2 ^ (2 * n + off)) % 2) * 2 ^ (p - 1 - n)) 0 =
      bitsDown p (fun n => t.testBit (2 * n + off)) := by
    rw [bitsDown, List.sum_eq_foldl, List.foldl_map]
    congr 1
    funext acc n
    rw [Nat.testBit_eq_decide_div_mod_eq]
    obtain h | h := Nat.mod_two_eq_zero_or_one (t / 2 ^ (2 * n + off)) <;> simp [h]
  simp only [thresholds, hrev, bitsDown_xor_seed]

/-! ### Entries of a line (07_stream_array.md R193) -/

theorem SMap.get_eq_of_mem {α : Type} {m : SMap α} (h : m.Pairwise (fun p q => p.1 < q.1)) (d : α) {k : Nat} {v : α}
    (hk : (k, v) ∈ m) : m.get d k = v := by
  induction m with
  | nil => cases hk
  | cons p m ih =>
    rw [List.pairwise_cons] at h
    rw [SMap.get_cons]
    obtain rfl | hk := List.mem_cons.mp hk
    · exact if_pos rfl
    · rw [if_neg (h.1 _ hk).ne, ih h.2 hk]

theorem SMap.mem_of_get_ne {α : Type} {m : SMap α} {d : α} {k : Nat} (h : m.get d k ≠ d) : (k, m.get d k) ∈ m := by
  induction m with
  | nil => exact absurd rfl h
  | cons p m ih =>
    rw [SMap.get_cons] at h ⊢
    split at h
    · next hk =>
      rw [if_pos hk, ← hk]
      exact List.mem_cons_self
    · next hk =>
      rw [if_neg hk]
      exact List.mem_cons_of_mem _ (ih h)

/-- A sum over what a map lists in a range of keys is the sum over the range, where a default adds nothing. -/
theorem SMap.sum_range {α : Type} {m : SMap α} (h : m.Pairwise (fun p q => p.1 < q.1)) (d : α) (F : Nat → α → Int)
    (hd : ∀ k, F k d = 0) (lo n : Nat) :
    ((m.filter (fun p => decide (lo ≤ p.1 ∧ p.1 < lo + n))).map (fun p => F p.1 p.2)).sum =
      ((List.range n).map (fun k => F (lo + k) (m.get d (lo + k)))).sum := by
  induction m with
  | nil => simp [SMap.get_nil, hd]
  | cons p m ih =>
    obtain ⟨k, v⟩ := p
    rw [List.pairwise_cons] at h
    have habsent : SMap.get m d k = d := SMap.get_of_absent m d k fun q hq => (h.1 q hq).ne'
    by_cases hk : lo ≤ k ∧ k < lo + n
    · have hget (x : Nat) : F (lo + x) (SMap.get ((k, v) :: m) d (lo + x)) =
          if x = k - lo then F k v else F (lo + x) (SMap.get m d (lo + x)) := by
        rw [SMap.get_cons]
        by_cases hx : k = lo + x
        · rw [if_pos hx, if_pos (by omega), hx]
        · rw [if_neg hx, if_neg (by omega)]
      have hcount : (List.range n).count (k - lo) = 1 := List.count_eq_one_of_mem List.nodup_range (List.mem_range.mpr (by omega))
      rw [List.filter_cons_of_pos (by simpa using hk), List.map_cons, List.sum_cons, ih h.2, List.map_congr_left fun x _ => hget x,
        List.sum_map_ite_eq, hcount, show lo + (k - lo) = k by omega, habsent, hd]
      simp
    · have hget : ∀ x ∈ List.range n, F (lo + x) (SMap.get ((k, v) :: m) d (lo + x)) = F (lo + x) (SMap.get m d (lo + x)) := by
        intro x hx
        rw [List.mem_range] at hx
        rw [SMap.get_cons, if_neg (by omega)]
      rw [List.filter_cons_of_neg (by simpa using hk), ih h.2, List.map_congr_left hget]

theorem getD_lookup_line (t : Str) (bank ln : Nat) {k : Nat} (hk : k < 128) :
    ((t.line bank ln).lookup k).getD Dig.dead = entry t bank ln k := by
  rw [entry, Str.line]
  induction t.edge with
  | nil => rfl
  | cons p m ih =>
    rw [SMap.get_cons, List.filter_cons]
    by_cases hp : p.1 = bank * 16384 + ln * 128 + k
    · rw [if_pos (by simp; omega), if_pos hp, List.map_cons, List.lookup_cons, show (k == p.1 % 128) = true by simp; omega]
      rfl
    · rw [if_neg hp, ← ih]
      split
      · next hl =>
        have hl : p.1 / 128 = bank * 128 + ln := by simpa using hl
        rw [List.map_cons, List.lookup_cons, show (k == p.1 % 128) = false by simp; omega]
      · rfl

/-- A line without an entry listed in its bank is dead. -/
theorem entry_eq_dead_of_not_mem_lines {t : Str} {bank ln : Nat} (hln : ln < 128) (h : ln ∉ t.lines bank) {k : Nat} (hk : k < 128) :
    entry t bank ln k = Dig.dead := by
  by_contra hne
  refine h (List.mem_eraseDups.mpr (List.mem_map.mpr ⟨_, List.mem_filter.mpr ⟨SMap.mem_of_get_ne hne, ?_⟩, ?_⟩))
  · simp only [decide_eq_true_eq]; omega
  · dsimp only; omega

theorem lt_of_mem_lines {t : Str} {bank ln : Nat} (h : ln ∈ t.lines bank) : ln < 128 := by
  obtain ⟨p, -, rfl⟩ := List.mem_map.mp (List.mem_eraseDups.mp h)
  exact Nat.mod_lt _ (by decide)

/-! ### Cells (07_stream_array.md R199, R200, R202) -/

theorem cellBeat_dead_left (bipolar : Bool) (lim x y : Nat) (b : Dig) : cellBeat bipolar lim x y Dig.dead b = 0 := rfl

theorem cellBeat_dead_right (bipolar : Bool) (lim x y : Nat) (a : Dig) : cellBeat bipolar lim x y a Dig.dead = 0 := by
  simp [cellBeat, Dig.dead]

/-- What a cell of two digits adds. -/
theorem cellBeat_cases (bipolar : Bool) (lim x y : Nat) (a b : Dig) : cellBeat bipolar lim x y a b =
    let p := decide (x < min a.m.toNat lim)
    let q := decide (y < min b.m.toNat lim)
    if a.live = false ∨ b.live = false then 0
    else if bipolar then (if p = q then 1 else -1)
    else if p = true ∧ q = true then (if a.s = b.s then 1 else -1)
    else 0 := by
  obtain ⟨la, sa, ma⟩ := a
  obtain ⟨lb, sb, mb⟩ := b
  simp only [cellBeat]
  cases la with
  | false => simp
  | true =>
    cases lb with
    | false => simp
    | true => cases sa <;> cases sb <;> simp

/-- The A edge's threshold in the next beat. -/
def Str.thetaA (t : Str) : Nat := theta t.sprec.toNat (beatIndex t % 4 ^ t.sprec.toNat) 0 t.seeda

/-- The B edge's threshold in the next beat. -/
def Str.thetaB (t : Str) : Nat := theta t.sprec.toNat (beatIndex t % 4 ^ t.sprec.toNat) 1 t.seedb

/-- The largest magnitude that streams. -/
def Str.topDigit (t : Str) : Nat := 2 ^ t.sprec.toNat - 1

theorem cellBeat_eq (t : Str) (i j k : Nat) :
    cellBeat t.smode t.topDigit t.thetaA t.thetaB (entry t t.abank i k) (entry t t.bbank j k) = cellAdds t i j k :=
  cellBeat_cases _ _ _ _ _ _

/-- What digit a at position k of a row adds to slot n with column j. -/
def Str.rowAdds (t : Str) (j n k : Nat) (a : Dig) : Int :=
  if ((t.tags t.abank).getD k 0).toNat = n then
    cellBeat t.smode t.topDigit t.thetaA t.thetaB a (((t.line t.bbank j).lookup k).getD Dig.dead)
  else 0

theorem rowAdds_dead (t : Str) (j n k : Nat) : t.rowAdds j n k Dig.dead = 0 := by
  rw [Str.rowAdds, cellBeat_dead_left, ite_self]

theorem rowAdds_entry (t : Str) (i j n : Nat) {k : Nat} (hk : k < 128) : t.rowAdds j n k (entry t t.abank i k) =
    if ((t.tags t.abank).getD k 0).toNat = n then cellAdds t i j k else 0 := by
  rw [Str.rowAdds, getD_lookup_line t _ _ hk, cellBeat_eq]

theorem slotSum_eq_foldl (t : Str) (row : List (Nat × Dig)) (j n : Nat) :
    slotSum t.smode t.topDigit t.thetaA t.thetaB (t.tags t.abank) row (t.line t.bbank j) n =
      (row.map (fun p => t.rowAdds j n p.1 p.2)).sum := by
  rw [slotSum, List.sum_eq_foldl, List.foldl_map]
  congr 1
  funext acc p
  unfold Str.rowAdds
  split
  · cases (t.line t.bbank j).lookup p.1 with
    | none => rw [Option.getD_none, cellBeat_dead_right, add_zero]
    | some b => rfl
  · exact (add_zero acc).symm

/-- The sum over the entries listed in a row is the sum over the positions of the slot. -/
theorem slotSum_eq {t : Str} (hw : t.edge.wf Dig.dead = true) (i j n : Nat) :
    slotSum t.smode t.topDigit t.thetaA t.thetaB (t.tags t.abank) (t.line t.abank i) (t.line t.bbank j) n = slotAdds t i j n := by
  have hrise := ((SMap.wf_iff _ _).mp hw).1
  have hline : (t.edge.filter (fun p => decide (p.1 / 128 = t.abank * 128 + i))) =
      t.edge.filter (fun p => decide (t.abank * 16384 + i * 128 ≤ p.1 ∧ p.1 < t.abank * 16384 + i * 128 + 128)) :=
    List.filter_congr fun p _ => decide_eq_decide.mpr (by omega)
  rw [slotSum_eq_foldl, Str.line, hline, List.map_map]
  refine (SMap.sum_range hrise Dig.dead (fun k a => t.rowAdds j n (k % 128) a) (fun k => rowAdds_dead t j n _) _ 128).trans ?_
  refine congrArg List.sum (List.map_congr_left fun k hk => ?_)
  rw [List.mem_range] at hk
  rw [show (t.abank * 16384 + i * 128 + k) % 128 = k by omega]
  exact rowAdds_entry t i j n hk

/-- A line of dead entries adds nothing. -/
theorem slotAdds_of_not_mem_lines {t : Str} {i j : Nat} (hi : i < 128) (hj : j < 128)
    (h : i ∉ t.lines t.abank ∨ j ∉ t.lines t.bbank) (n : Nat) : slotAdds t i j n = 0 := by
  refine List.sum_eq_zero fun x hx => ?_
  obtain ⟨k, hk, rfl⟩ := List.mem_map.mp hx
  rw [List.mem_range] at hk
  rw [← cellBeat_eq]
  obtain h | h := h
  · rw [entry_eq_dead_of_not_mem_lines hi h hk, cellBeat_dead_left, ite_self]
  · rw [entry_eq_dead_of_not_mem_lines hj h hk, cellBeat_dead_right, ite_self]

/-! ### Sub-counters (07_stream_array.md R202) -/

/-- Saturation of a sub-counter. -/
def sat16 (x : Int) : Int := max (-32767) (min 32767 x)

theorem toInt_subAdd (c : BitVec 16) (d : Int) : (subAdd c d).1.toInt = sat16 (c.toInt + d) := by
  unfold subAdd sat16
  dsimp only
  split
  · rw [show (32767 : BitVec 16).toInt = 32767 by decide]; omega
  split
  · rw [show (BitVec.ofInt 16 (-32767)).toInt = -32767 by decide]; omega
  · rw [BitVec.toInt_ofInt_eq_self (by decide) (by omega) (by omega)]; omega

theorem subAdd_flag (c : BitVec 16) (d : Int) : (subAdd c d).2 = flagIf (decide (32767 < (c.toInt + d).natAbs)) fACO := by
  unfold subAdd
  dsimp only
  split
  · rw [decide_eq_true (by omega)]; rfl
  split
  · rw [decide_eq_true (by omega)]; rfl
  · rw [decide_eq_false (by omega)]; rfl

/-- A sum enters its sub-counter. -/
def addCount (acc : SMap (BitVec 16) × Byte) (x : Nat × Int) : SMap (BitVec 16) × Byte :=
  let n := subAdd (acc.1.get 0 x.1) x.2
  (acc.1.set 0 x.1 n.1, acc.2 ||| n.2)

/-- Where all but the first sum of a key are 0, the first decides. -/
theorem foldl_addCount {l : List (Nat × Int)} (hl : l.Pairwise (fun x y => x.1 = y.1 → y.2 = 0)) (m : SMap (BitVec 16)) (b : Bool) :
    ∃ c : Bool, (l.foldl addCount (m, flagIf b fACO)).2 = flagIf c fACO ∧
      (c = true ↔ b = true ∨ ∃ k d, l.lookup k = some d ∧ 32767 < ((m.get 0 k).toInt + d).natAbs) ∧
      ∀ k, ((l.foldl addCount (m, flagIf b fACO)).1.get 0 k).toInt =
        match l.lookup k with
        | some d => sat16 ((m.get 0 k).toInt + d)
        | none => (m.get 0 k).toInt := by
  induction l generalizing m b with
  | nil => exact ⟨b, rfl, by simp, fun k => rfl⟩
  | cons x l ih =>
    obtain ⟨k₀, d₀⟩ := x
    rw [List.pairwise_cons] at hl
    obtain ⟨c, hflag, hc, hget⟩ := ih hl.2
      (m.set 0 k₀ (subAdd (m.get 0 k₀) d₀).1) (b || decide (32767 < ((m.get 0 k₀).toInt + d₀).natAbs))
    have hstart : addCount (m, flagIf b fACO) (k₀, d₀) = (m.set 0 k₀ (subAdd (m.get 0 k₀) d₀).1,
        flagIf (b || decide (32767 < ((m.get 0 k₀).toInt + d₀).natAbs)) fACO) := by
      rw [addCount, subAdd_flag, flagIf_or]
    have hzero {d : Int} (h : l.lookup k₀ = some d) : d = 0 := by
      obtain ⟨l₁, l₂, rfl, -⟩ := List.lookup_eq_some_iff.mp h
      exact hl.1 (k₀, d) (by simp) rfl
    have hother {k : Nat} (h : k ≠ k₀) : List.lookup k ((k₀, d₀) :: l) = l.lookup k ∧
        (m.set 0 k₀ (subAdd (m.get 0 k₀) d₀).1).get 0 k = m.get 0 k := by
      rw [List.lookup_cons, beq_false_of_ne h, SMap.get_set_ne _ _ _ _ _ (Ne.symm h)]
      exact ⟨rfl, rfl⟩
    have hself : List.lookup k₀ ((k₀, d₀) :: l) = some d₀ := by rw [List.lookup_cons, beq_self_eq_true]
    rw [List.foldl_cons, hstart]
    refine ⟨c, hflag, ?_, fun k => ?_⟩
    · rw [hc, Bool.or_eq_true, decide_eq_true_eq, or_assoc]
      refine or_congr_right ⟨?_, ?_⟩
      · rintro (h | ⟨k, d, hk, h⟩)
        · exact ⟨k₀, d₀, hself, h⟩
        · by_cases hne : k = k₀
          · subst hne
            rw [hzero hk, SMap.get_set_same, toInt_subAdd, sat16] at h
            omega
          · rw [(hother hne).2] at h
            exact ⟨k, d, (hother hne).1.trans hk, h⟩
      · rintro ⟨k, d, hk, h⟩
        by_cases hne : k = k₀
        · subst hne
          rw [hself, Option.some.injEq] at hk
          exact .inl (hk ▸ h)
        · rw [(hother hne).1] at hk
          exact .inr ⟨k, d, hk, by rwa [(hother hne).2]⟩
    · rw [hget]
      by_cases hne : k = k₀
      · subst hne
        rw [hself, SMap.get_set_same, toInt_subAdd]
        cases hk : l.lookup k with
        | none => rfl
        | some d =>
          rw [hzero hk]
          simp only [sat16]
          omega
      · rw [(hother hne).1, (hother hne).2]

/-! ### The sums of a beat -/

/-- The key of sub-counter n of output (i, j) in the active counter bank. -/
def Str.countKey (t : Str) (i j n : Nat) : Nat := t.cbank * 65536 + (128 * i + j) * 4 + n

/-- The sums of the outputs whose lines list an entry. -/
def Str.beatSums (t : Str) : List (Nat × Int) :=
  (t.lines t.abank).flatMap (fun i => (t.lines t.bbank).flatMap (fun j =>
    (List.range 4).map (fun n => (t.countKey i j n, slotAdds t i j n))))

/-- The sub-counters at -32768, which a beat that adds nothing brings into range. -/
def Str.beatLow (t : Str) : List (Nat × Int) :=
  (t.cnt.filter (fun p => decide (p.1 / 65536 = t.cbank ∧ p.2 = BitVec.ofInt 16 (-32768)))).map (fun p => (p.1, (0 : Int)))

theorem Str.beat_eq {t : Str} (hw : t.edge.wf Dig.dead = true) :
    t.beat = let r := (t.beatSums ++ t.beatLow).foldl addCount (t.cnt, 0)
      ({ t with cnt := r.1 }.setBt t.cbank (t.bt t.cbank + 1), r.2) := by
  have hsums : t.beatSums = (t.lines t.abank).flatMap (fun i =>
      ((t.lines t.bbank).map (fun j => (j, t.line t.bbank j))).flatMap (fun jc => (List.range 4).map (fun n =>
        (t.countKey i jc.1 n, slotSum t.smode t.topDigit t.thetaA t.thetaB (t.tags t.abank) (t.line t.abank i) jc.2 n)))) := by
    simp only [Str.beatSums, List.flatMap_map, slotSum_eq hw]
  rw [hsums, Str.beat, thresholds_eq]
  rfl

theorem nodup_eraseDups {α : Type} [DecidableEq α] (l : List α) : l.eraseDups.Nodup := by
  match l with
  | [] => simp
  | a :: l =>
    rw [List.eraseDups_cons, List.nodup_cons, List.mem_eraseDups]
    exact ⟨by simp, nodup_eraseDups _⟩
termination_by l.length
decreasing_by exact Nat.lt_succ_of_le (List.length_filter_le _ _)

section

variable {t : Str}

theorem mem_beatSums {x : Nat × Int} : x ∈ t.beatSums ↔ ∃ i ∈ t.lines t.abank, ∃ j ∈ t.lines t.bbank, ∃ n < 4,
    (t.countKey i j n, slotAdds t i j n) = x := by
  simp [Str.beatSums]

theorem countKey_inj {i j n i' j' n' : Nat} (hj : j < 128) (hn : n < 4) (hj' : j' < 128) (hn' : n' < 4)
    (h : t.countKey i j n = t.countKey i' j' n') : i = i' ∧ j = j' ∧ n = n' := by
  unfold Str.countKey at h
  omega

theorem beatSums_pairwise : t.beatSums.Pairwise (fun x y => x.1 ≠ y.1) := by
  refine List.pairwise_flatMap.mpr ⟨fun i hi => List.pairwise_flatMap.mpr ⟨fun j hj => ?_, ?_⟩, ?_⟩
  · rw [List.pairwise_map]
    exact List.nodup_range.imp fun h he => h (by unfold Str.countKey at he; omega)
  · refine (nodup_eraseDups _).imp_of_mem fun {j j'} hj hj' hne x hx y hy he => ?_
    obtain ⟨n, hn, rfl⟩ := List.mem_map.mp hx
    obtain ⟨n', hn', rfl⟩ := List.mem_map.mp hy
    exact hne (countKey_inj (lt_of_mem_lines hj) (List.mem_range.mp hn) (lt_of_mem_lines hj') (List.mem_range.mp hn') he).2.1
  · refine (nodup_eraseDups _).imp_of_mem fun {i i'} hi hi' hne x hx y hy he => ?_
    obtain ⟨j, hj, hx⟩ := List.mem_flatMap.mp hx
    obtain ⟨n, hn, rfl⟩ := List.mem_map.mp hx
    obtain ⟨j', hj', hy⟩ := List.mem_flatMap.mp hy
    obtain ⟨n', hn', rfl⟩ := List.mem_map.mp hy
    exact hne (countKey_inj (lt_of_mem_lines hj) (List.mem_range.mp hn) (lt_of_mem_lines hj')
      (List.mem_range.mp hn') he).1

theorem beat_pairwise : (t.beatSums ++ t.beatLow).Pairwise (fun x y => x.1 = y.1 → y.2 = 0) := by
  have hlow : ∀ y ∈ t.beatLow, y.2 = 0 := by
    intro y hy
    obtain ⟨p, -, rfl⟩ := List.mem_map.mp hy
    rfl
  refine List.pairwise_append.mpr ⟨beatSums_pairwise.imp fun h he => absurd he h, ?_, fun x _ y hy _ => hlow y hy⟩
  exact List.pairwise_of_forall_mem_list fun x _ y hy _ => hlow y hy

/-- A beat touches the active counter bank alone. -/
theorem lookup_beat_other {k : Nat} (h : k / 65536 ≠ t.cbank) : (t.beatSums ++ t.beatLow).lookup k = none := by
  refine List.lookup_eq_none_iff.mpr fun p hp => bne_iff_ne.mpr ?_
  rintro rfl
  obtain hp | hp := List.mem_append.mp hp
  · obtain ⟨i, hi, j, hj, n, hn, rfl⟩ := mem_beatSums.mp hp
    have := lt_of_mem_lines hi
    have := lt_of_mem_lines hj
    exact h (by dsimp only [Str.countKey]; omega)
  · obtain ⟨q, hq, rfl⟩ := List.mem_map.mp hp
    exact h (of_decide_eq_true (List.mem_filter.mp hq).2).1

theorem eq_countKey {k : Nat} (h : k / 65536 = t.cbank) :
    k = t.countKey (k % 65536 / 512) (k % 65536 / 4 % 128) (k % 4) := by
  unfold Str.countKey
  omega

section

variable {i j : Nat} (hi : i < 128) (hj : j < 128) {n : Nat} (hn : n < 4)
include hi hj hn

/-- What a beat finds for a sub-counter is what its cells add. -/
theorem lookup_beat_some {d : Int} (h : (t.beatSums ++ t.beatLow).lookup (t.countKey i j n) = some d) : d = slotAdds t i j n := by
  rw [List.lookup_append] at h
  cases hs : t.beatSums.lookup (t.countKey i j n) with
  | some e =>
    rw [hs, Option.some_or, Option.some.injEq] at h
    obtain ⟨l₁, l₂, hl, -⟩ := List.lookup_eq_some_iff.mp hs
    obtain ⟨i', hi', j', hj', n', hn', he⟩ := mem_beatSums.mp (hl ▸ List.mem_append_right l₁ List.mem_cons_self)
    rw [Prod.mk.injEq] at he
    obtain ⟨rfl, rfl, rfl⟩ := countKey_inj (lt_of_mem_lines hj') hn' hj hn he.1
    rw [← h, he.2]
  | none =>
    rw [hs, Option.none_or] at h
    obtain ⟨l₁, l₂, hl, -⟩ := List.lookup_eq_some_iff.mp h
    obtain ⟨p, -, hp⟩ := List.mem_map.mp (hl ▸ List.mem_append_right l₁ List.mem_cons_self : (t.countKey i j n, d) ∈ t.beatLow)
    have habsent : i ∉ t.lines t.abank ∨ j ∉ t.lines t.bbank := by
      by_contra hc
      rw [not_or, not_not, not_not] at hc
      have := List.lookup_eq_none_iff.mp hs _ (mem_beatSums.mpr ⟨i, hc.1, j, hc.2, n, hn, rfl⟩)
      simp at this
    rw [slotAdds_of_not_mem_lines hi hj habsent]
    exact (Prod.mk.inj hp).2.symm

/-- Where a beat finds nothing, the cells add nothing and the sub-counter is in range. -/
theorem lookup_beat_none (h : (t.beatSums ++ t.beatLow).lookup (t.countKey i j n) = none) :
    slotAdds t i j n = 0 ∧ (t.cnt.get 0 (t.countKey i j n)).toInt ≠ -32768 := by
  have hmiss := List.lookup_eq_none_iff.mp h
  constructor
  · refine slotAdds_of_not_mem_lines hi hj ?_ n
    by_contra hc
    rw [not_or, not_not, not_not] at hc
    have := hmiss _ (List.mem_append_left _ (mem_beatSums.mpr ⟨i, hc.1, j, hc.2, n, hn, rfl⟩))
    simp at this
  · intro hlow
    have hval : t.cnt.get 0 (t.countKey i j n) = BitVec.ofInt 16 (-32768) := BitVec.eq_of_toInt_eq (by rw [hlow]; decide)
    have hmem := SMap.mem_of_get_ne (m := t.cnt) (d := 0) (k := t.countKey i j n) (by rw [hval]; decide)
    have := hmiss (t.countKey i j n, 0) (List.mem_append_right _ (List.mem_map.mpr ⟨_, List.mem_filter.mpr ⟨hmem, ?_⟩, rfl⟩))
    · simp at this
    · refine decide_eq_true ⟨?_, hval⟩
      dsimp only [Str.countKey]
      omega

end

theorem subCount_eq (i j n : Nat) : subCount t t.cbank (128 * i + j) n = (t.cnt.get 0 (t.countKey i j n)).toInt := rfl

theorem toInt16_bounds (x : BitVec 16) : -32768 ≤ x.toInt ∧ x.toInt ≤ 32767 := by
  have := x.isLt
  rw [BitVec.toInt_eq_toNat_cond]
  split <;> omega

/-- One beat (07_stream_array.md R198 to R202). -/
theorem beat_spec (hw : t.edge.wf Dig.dead = true) : Beat t t.beat.1 t.beat.2 := by
  obtain ⟨c, hflag, hc, hget⟩ := foldl_addCount (beat_pairwise (t := t)) t.cnt false
  rw [Str.beat_eq hw]
  have hover : c = true ↔ ∃ i j n, i < 128 ∧ j < 128 ∧ n < 4 ∧
      32767 < (subCount t t.cbank (128 * i + j) n + slotAdds t i j n).natAbs := by
    rw [hc, or_iff_right Bool.false_ne_true]
    constructor
    · rintro ⟨k, d, hk, h⟩
      have hbank : k / 65536 = t.cbank := by
        by_contra hne
        rw [lookup_beat_other hne] at hk
        cases hk
      have hi : k % 65536 / 512 < 128 := by omega
      have hj : k % 65536 / 4 % 128 < 128 := by omega
      have hn : k % 4 < 4 := by omega
      rw [eq_countKey hbank] at hk h
      rw [lookup_beat_some hi hj hn hk] at h
      exact ⟨_, _, _, hi, hj, hn, h⟩
    · rintro ⟨i, j, n, hi, hj, hn, h⟩
      cases hk : (t.beatSums ++ t.beatLow).lookup (t.countKey i j n) with
      | some d => exact ⟨_, _, hk, by rwa [lookup_beat_some hi hj hn hk]⟩
      | none =>
        obtain ⟨hzero, hlow⟩ := lookup_beat_none hi hj hn hk
        have := toInt16_bounds (t.cnt.get 0 (t.countKey i j n))
        rw [subCount_eq, hzero] at h
        omega
  refine ⟨?_, ⟨Str.bt_setBt_same _ _, Str.bt_setBt_other _ _ t.cbank_lt⟩, fun i hi j hj n hn => ?_, fun x hx n hn => ?_, ?_⟩
  · dsimp only
    rw [Str.setBt_eq]
  · dsimp only
    rw [Str.setBt_eq]
    refine (hget (t.countKey i j n)).trans ?_
    cases hk : (t.beatSums ++ t.beatLow).lookup (t.countKey i j n) with
    | some d => rw [lookup_beat_some hi hj hn hk]; rfl
    | none =>
      obtain ⟨hzero, hlow⟩ := lookup_beat_none hi hj hn hk
      have := toInt16_bounds (t.cnt.get 0 (t.countKey i j n))
      rw [subCount_eq, hzero]
      dsimp only
      omega
  · have := t.cbank_lt
    dsimp only
    rw [Str.setBt_eq]
    refine (hget _).trans ?_
    rw [lookup_beat_other (by omega)]
    rfl
  · refine (hflag ▸ flagIf_cases hover).imp_right (And.imp_right fun h i hi j hj n hn => ?_)
    exact not_lt.mp fun hlt => h ⟨i, j, n, hi, hj, hn, hlt⟩

end

/-! ### Checkpoints and runs (08_stream_ops.md R231) -/

theorem Str.count_eq_total (t : Str) (x : Nat) : t.count t.cbank x = total t x := by
  show 0 + subCount t t.cbank x 0 + subCount t t.cbank x 1 + subCount t t.cbank x 2 + subCount t t.cbank x 3 = total t x
  rw [zero_add, total]

theorem Str.pair0_eq (t : Str) : t.pair0 = t.cpair.toNat % 2 ^ 14 := by
  rw [Str.pair0, BitVec.extractLsb'_toNat, Nat.shiftRight_zero]

theorem Str.pair1_eq (t : Str) : t.pair1 = t.cpair.toNat / 2 ^ 14 := by
  have := t.cpair.isLt
  rw [Str.pair1, BitVec.extractLsb'_toNat, Nat.shiftRight_eq_div_pow]
  exact Nat.mod_eq_of_lt (by omega)

theorem Str.stopsHere_iff (t : Str) : t.stopsHere = true ↔ checkStops t := by
  simp only [Str.stopsHere, checkStops, beatIndex, Str.count_eq_total, Str.pair0_eq, Str.pair1_eq, Bool.and_eq_true, decide_eq_true_eq]
  have hzero : t.ckint.toNat ≠ 0 ↔ t.ckint ≠ 0 := by
    rw [ne_eq, ne_eq, ← BitVec.toNat_inj]
    rfl
  rw [hzero]
  tauto

/-- A beat leaves the configuration and the edge banks. -/
theorem edge_of_beat {t u : Str} {f : Byte} (h : Beat t u f) : u.edge = t.edge := by rw [h.frame]

theorem cbank_of_beat {t u : Str} {f : Byte} (h : Beat t u f) : u.cbank = t.cbank := by rw [h.frame]; rfl

theorem slen_of_beat {t u : Str} {f : Byte} (h : Beat t u f) : u.slen = t.slen := by rw [h.frame]

theorem beatIndex_of_beat {t u : Str} {f : Byte} (h : Beat t u f) (hlt : beatIndex t < t.slen.toNat) :
    beatIndex u = beatIndex t + 1 := by
  have hslen := t.slen.isLt
  unfold beatIndex at hlt ⊢
  rw [cbank_of_beat h, h.index.1, BitVec.toNat_add]
  exact Nat.mod_eq_of_lt (by rw [show (1 : BitVec 32).toNat = 1 from rfl]; omega)

/-- The beats that remain to SLEN are fuel enough for the loop. -/
theorem runLoop_spec (n : Nat) {t : Str} (hw : t.edge.wf Dig.dead = true) (hn : t.slen.toNat ≤ beatIndex t + n) :
    RunLoop t (Str.runLoop n t).1 (Str.runLoop n t).2.1 (Str.runLoop n t).2.2.1 (Str.runLoop n t).2.2.2 := by
  induction n generalizing t with
  | zero => exact .full t hn
  | succ n ih =>
    rw [Str.runLoop]
    split
    · next hlt =>
      have hbeat := beat_spec hw
      dsimp only
      split
      · next hs => exact .stop t _ _ hlt hbeat ((Str.stopsHere_iff _).mp hs)
      · next hs =>
        refine .more t _ _ _ _ _ _ hlt hbeat (fun h => hs ((Str.stopsHere_iff _).mpr h)) (ih (edge_of_beat hbeat ▸ hw) ?_)
        rw [beatIndex_of_beat hbeat hlt, slen_of_beat hbeat]
        omega
    · next hge => exact .full t (not_lt.mp hge)

/-- A run leaves all but the counters and the beat indices. -/
theorem runLoop_frame {t u : Str} {f : Byte} {n : Nat} {x : Bool} (h : RunLoop t u f n x) :
    u = { t with cnt := u.cnt, bt0 := u.bt0, bt1 := u.bt1 } := by
  induction h with
  | full t _ => rfl
  | stop t u f _ hb _ => exact hb.frame
  | more t v u f g n x _ hb _ _ ih =>
    rw [ih, hb.frame]

/-- A run (08_stream_ops.md R231). -/
theorem runBeats_spec {t : Str} (hw : t.edge.wf Dig.dead = true) : ∃ w x, RunLoop t w t.runBeats.2.1 t.runBeats.2.2 x ∧
    t.runBeats.1 = { w with
      stop := x,
      tie := decide (x = false ∧ t.ckint ≠ 0 ∧ total w (t.cpair.toNat % 2 ^ 14) = total w (t.cpair.toNat / 2 ^ 14)),
      sbeat := w.bt t.cbank } := by
  have hrun := runLoop_spec t.slen.toNat hw (Nat.le_add_left _ _)
  refine ⟨_, _, hrun, ?_⟩
  have hframe := runLoop_frame hrun
  rw [Str.runBeats]
  generalize Str.runLoop t.slen.toNat t = r at hframe ⊢
  obtain ⟨w, f, n, x⟩ := r
  dsimp only at hframe ⊢
  have hcb : w.cbank = t.cbank := by rw [hframe]; rfl
  have hpair : w.cpair = t.cpair := by rw [hframe]
  have htotal (y : Nat) : w.count t.cbank y = total w y := hcb ▸ w.count_eq_total y
  simp only [Str.pair0_eq, Str.pair1_eq, hcb, hpair, htotal]
  cases x <;> simp

end Sys2Proof.Machine
end

section
/-! Folds (07_stream_array.md R209; 08_stream_ops.md R234): the value that a count contributes, the outputs that a fold visits, and the
counter bank that it clears (08_stream_ops.md R236). -/

namespace Sys2Proof.Machine

open Sys2Proof.Claims

/-! ### Nearest integers -/

theorem rne_of_near {q : Rat} {k : Int} (hlow : (k : Rat) - 1 / 2 ≤ q) (hhigh : q ≤ k + 1 / 2)
    (heven : q = k - 1 / 2 ∨ q = k + 1 / 2 → k % 2 = 0) : rne q = k := by
  have hf : (q.floor : Rat) ≤ q := Rat.floor_le q
  have hf' : q < q.floor + 1 := by exact_mod_cast Rat.lt_floor_add_one q
  have hint (a b : Int) (hab : (a : Rat) < b + 1) : a ≤ b := Int.lt_add_one_iff.mp (by exact_mod_cast hab)
  have hk1 : k ≤ q.floor + 1 := hint _ _ (by push_cast; linarith)
  have hk0 : q.floor ≤ k := hint _ _ (by linarith)
  unfold rne
  split
  · exact le_antisymm hk0 (hint _ _ (by linarith))
  split
  · refine le_antisymm (hint _ _ ?_) hk1
    push_cast
    linarith
  · have htie : q = q.floor + 1 / 2 := by linarith
    obtain rfl | rfl : k = q.floor ∨ k = q.floor + 1 := by omega
    · rw [if_pos (heven (.inr htie))]
    · have := heven (.inl (by push_cast; linarith))
      rw [if_neg (by omega)]

theorem rne_near (q : Rat) : (rne q : Rat) - 1 / 2 ≤ q ∧ q ≤ rne q + 1 / 2 ∧
  (q = rne q - 1 / 2 ∨ q = rne q + 1 / 2 → rne q % 2 = 0) := by
  have hf : (q.floor : Rat) ≤ q := Rat.floor_le q
  have hf' : q < q.floor + 1 := by exact_mod_cast Rat.lt_floor_add_one q
  unfold rne
  split
  · exact ⟨by linarith, by linarith, by rintro (h | h) <;> linarith⟩
  split
  · push_cast
    exact ⟨by linarith, by linarith, by rintro (h | h) <;> linarith⟩
  split
  · next heven => exact ⟨by linarith, by linarith, fun _ => heven⟩
  · push_cast
    exact ⟨by linarith, by linarith, fun _ => by omega⟩

theorem rne_neg (q : Rat) : rne (-q) = -rne q := by
  obtain ⟨hlow, hhigh, heven⟩ := rne_near q
  refine rne_of_near (by push_cast; linarith) (by push_cast; linarith) fun h => ?_
  push_cast at h
  have := heven (h.symm.imp (fun h => by linarith) (fun h => by linarith))
  omega

theorem rne_intCast (k : Int) : rne k = k :=
  rne_of_near (by linarith) (by linarith) (by rintro (h | h) <;> linarith)

/-- A quotient is its own nearest integer where nothing remains. -/
theorem rne_div_eq_iff (n : Nat) {d : Nat} (hd : 0 < d) : (rne ((n : Rat) / d) : Rat) = n / d ↔ n % d = 0 := by
  have hd' : (d : Rat) ≠ 0 := by exact_mod_cast hd.ne'
  constructor
  · intro h
    rw [eq_div_iff hd'] at h
    have hint : rne ((n : Rat) / d) * d = n := by exact_mod_cast h
    exact Nat.mod_eq_zero_of_dvd (Int.natCast_dvd_natCast.mp ⟨_, hint.symm.trans (Int.mul_comm _ _)⟩)
  · intro h
    obtain ⟨m, rfl⟩ := Nat.dvd_of_mod_eq_zero h
    have hq : ((d * m : Nat) : Rat) / d = (m : Int) := by push_cast; field_simp
    rw [hq, rne_intCast]

/-! ### Contributions (07_stream_array.md R209) -/

theorem pow2Frac_eq (e : Int) : ((pow2Frac e).1 : Rat) / (pow2Frac e).2 = p2 e ∧ 0 < (pow2Frac e).2 := by
  unfold pow2Frac
  split
  · next h =>
    refine ⟨?_, Nat.two_pow_pos _⟩
    have he : e = -(e.natAbs : Int) := by omega
    rw [he, Int.natAbs_neg, Int.natAbs_natCast, p2, zpow_neg, zpow_natCast]
    push_cast
    exact one_div _
  · next h =>
    refine ⟨?_, one_pos⟩
    have he : e = (e.natAbs : Int) := by omega
    rw [he, p2_natCast, Int.natAbs_natCast, Nat.cast_one, div_one]

/-- A header's factor in a product: its scale's fraction in quarters, with the factor 16 of HI. -/
def hdrWeight (h : BitVec 16) : Nat := (4 + (h.extractLsb' 0 2).toNat) * (if h.getLsbD 11 then 16 else 1)

theorem hdrExp_eq (h : BitVec 16) : hdrExp h = h.toNat / 4 % 256 := by
  rw [hdrExp, BitVec.extractLsb'_toNat, Nat.shiftRight_eq_div_pow]

theorem hdrBit_eq (h : BitVec 16) (k : Nat) : h.getLsbD k = decide (h.toNat / 2 ^ k % 2 = 1) := by
  rw [BitVec.getLsbD, Nat.testBit_eq_decide_div_mod_eq]

/-- A header's scale and HI in quarters. -/
theorem s10val_mul_hi (h : BitVec 16) :
    s10val h * 16 ^ (h.toNat / 2048 % 2) = hdrWeight h * p2 ((hdrExp h : Int) - 129) := by
  have hsplit : (2 : Rat) ^ ((h.toNat / 4 % 256 : Int) - 127) = p2 ((hdrExp h : Int) - 129) * 4 := by
    have hfour : (4 : Rat) = p2 2 := by norm_num [p2]
    rw [hfour, ← p2_add, hdrExp_eq, p2]
    congr 1
    push_cast
    ring
  have hhi : (16 : Rat) ^ (h.toNat / 2048 % 2) = ((if h.getLsbD 11 then 16 else 1 : Nat) : Rat) := by
    rw [hdrBit_eq]
    obtain hb | hb := Nat.mod_two_eq_zero_or_one (h.toNat / 2048) <;> simp [hb]
  have hlow : (h.extractLsb' 0 2).toNat = h.toNat % 4 := by rw [BitVec.extractLsb'_toNat, Nat.shiftRight_zero]
  rw [s10val, hsplit, hhi, hdrWeight, hlow]
  push_cast
  ring

/-- The numerator and the denominator of a contribution's magnitude. -/
def Str.foldNum (t : Str) (c : Int) (ha hb : BitVec 16) : Nat :=
  c.natAbs * hdrWeight ha * hdrWeight hb * (if t.smode then 1 else 4 ^ t.sprec.toNat)

/-- The power of two of a contribution (07_stream_array.md R209). -/
def Str.foldExp (t : Str) (ha hb : BitVec 16) : Int :=
  (hdrExp ha + hdrExp hb : Nat) - 258 - (if ha.getLsbD 10 then 1 else 0) - (if hb.getLsbD 10 then 1 else 0) - t.refexp.toInt

theorem foldValue_eq (t : Str) (c : Int) (ha hb : BitVec 16) :
    foldValue t c ha hb = (if c < 0 then -1 else 1) * (t.foldNum c ha hb / t.slen.toNat * p2 (t.foldExp ha hb)) := by
  have hhalf (h : BitVec 16) : (2 : Rat) ^ (h.toNat / 1024 % 2) = p2 (if h.getLsbD 10 then 1 else 0) := by
    rw [hdrBit_eq]
    obtain hb | hb := Nat.mod_two_eq_zero_or_one (h.toNat / 1024) <;> simp [hb, p2]
  have hexp : p2 (t.foldExp ha hb) = p2 ((hdrExp ha : Int) - 129) * p2 ((hdrExp hb : Int) - 129) /
      (p2 (if ha.getLsbD 10 then 1 else 0) * p2 (if hb.getLsbD 10 then 1 else 0)) / p2 t.refexp.toInt := by
    rw [div_div, eq_div_iff (by have := p2_pos; positivity), ← p2_add, ← p2_add, ← p2_add, ← p2_add, Str.foldExp]
    congr 1
    push_cast
    ring
  have hc : (c : Rat) = (if c < 0 then -1 else 1) * (c.natAbs : Rat) := by
    split
    · rw [← Int.cast_natCast, Int.ofNat_natAbs_of_nonpos (by omega)]; push_cast; ring
    · rw [← Int.cast_natCast, Int.natAbs_of_nonneg (by omega), one_mul]
  rw [foldValue, hexp, Str.foldNum]
  simp only [pow_add, hhalf]
  have ha' := s10val_mul_hi ha
  have hb' := s10val_mul_hi hb
  rw [show (2 : Rat) ^ t.refexp.toInt = p2 t.refexp.toInt from rfl]
  push_cast
  calc _ = (c : Rat) * (s10val ha * 16 ^ (ha.toNat / 2048 % 2)) * (s10val hb * 16 ^ (hb.toNat / 2048 % 2)) /
        (p2 (if ha.getLsbD 10 then 1 else 0) * p2 (if hb.getLsbD 10 then 1 else 0)) *
        (if t.smode then 1 else 4 ^ t.sprec.toNat) / t.slen.toNat / p2 t.refexp.toInt := by ring
    _ = _ := by rw [ha', hb', hc]; ring

/-- A contribution is the nearest integer to the count's value, inexact where they differ. -/
theorem contribution_eq {t : Str} (hs : t.slen ≠ 0) (c : Int) (ha hb : BitVec 16) :
    t.contribution c ha hb = (rne (foldValue t c ha hb), flagIf (decide ((rne (foldValue t c ha hb) : Rat) ≠ foldValue t c ha hb)) fNX) := by
  have hslen : 0 < t.slen.toNat := Nat.pos_of_ne_zero fun h => hs (BitVec.eq_of_toNat_eq h)
  obtain ⟨hq, hpos⟩ := pow2Frac_eq (t.foldExp ha hb)
  have hd : 0 < t.slen.toNat * (pow2Frac (t.foldExp ha hb)).2 := Nat.mul_pos hslen hpos
  have hmag : (t.foldNum c ha hb : Rat) / t.slen.toNat * p2 (t.foldExp ha hb) =
      ((t.foldNum c ha hb * (pow2Frac (t.foldExp ha hb)).1 : Nat) : Rat) / (t.slen.toNat * (pow2Frac (t.foldExp ha hb)).2 : Nat) := by
    rw [← hq]
    push_cast
    rw [div_mul_div_comm]
  have hdiv := rne_div (t.foldNum c ha hb * (pow2Frac (t.foldExp ha hb)).1) hd
  have hexact := rne_div_eq_iff (t.foldNum c ha hb * (pow2Frac (t.foldExp ha hb)).1) hd
  have hmodel : t.contribution c ha hb =
      (if c < 0 then -(rneDiv (t.foldNum c ha hb * (pow2Frac (t.foldExp ha hb)).1) (t.slen.toNat * (pow2Frac (t.foldExp ha hb)).2) : Int)
        else rneDiv (t.foldNum c ha hb * (pow2Frac (t.foldExp ha hb)).1) (t.slen.toNat * (pow2Frac (t.foldExp ha hb)).2),
      flagIf (decide (t.foldNum c ha hb * (pow2Frac (t.foldExp ha hb)).1 % (t.slen.toNat * (pow2Frac (t.foldExp ha hb)).2) ≠ 0)) fNX) := rfl
  rw [hmodel, foldValue_eq, hmag]
  generalize ((t.foldNum c ha hb * (pow2Frac (t.foldExp ha hb)).1 : Nat) : Rat) / (t.slen.toNat * (pow2Frac (t.foldExp ha hb)).2 : Nat) = y at *
  split
  · rw [neg_one_mul, rne_neg, hdiv]
    congr 2
    rw [decide_eq_decide, ← hdiv, not_iff_not, ← hexact]
    push_cast
    exact neg_inj.symm
  · rw [one_mul, hdiv]
    congr 2
    rw [decide_eq_decide, ← hdiv, not_iff_not, ← hexact]

/-! ### One output (07_stream_array.md R209) -/

theorem sat64_eq (x : Int) : (sat64 x).1.toInt = max (-(2 ^ 63)) (min (2 ^ 63 - 1) x) ∧
    (sat64 x).2 = flagIf (decide (x ≠ max (-(2 ^ 63)) (min (2 ^ 63 - 1) x))) fACO := by
  unfold sat64
  split
  · rw [decide_eq_true (by omega)]
    exact ⟨by rw [show (BitVec.ofInt 64 (-(2 ^ 63))).toInt = -(2 ^ 63) by decide]; omega, rfl⟩
  split
  · rw [decide_eq_true (by omega)]
    exact ⟨by rw [show (BitVec.ofInt 64 (2 ^ 63 - 1)).toInt = 2 ^ 63 - 1 by decide]; omega, rfl⟩
  · rw [decide_eq_false (by omega)]
    exact ⟨by rw [BitVec.toInt_ofInt_eq_self (by decide) (by omega) (by omega)]; omega, rfl⟩

/-- The entry, ANAN and flags of an output under way are those of the rule. -/
structure FoldState (w : Word × Bool × Byte) (z : Int × Bool × Bool × Bool) : Prop where
  entry : w.1.toInt = z.1
  anan : w.2.1 = z.2.1
  flags : w.2.2 = flagIf z.2.2.1 fNX ||| flagIf z.2.2.2 fACO

theorem flags_or_flags (a b c d : Bool) : flagIf a fNX ||| flagIf b fACO ||| flagIf c fNX ||| flagIf d fACO =
    flagIf (a || c) fNX ||| flagIf (b || d) fACO := by
  cases a <;> cases b <;> cases c <;> cases d <;> rfl

theorem FoldState.slot {t : Str} (hs : t.slen ≠ 0) {i j : Nat} (hj : j < 128) {w : Word × Bool × Byte} {z : Int × Bool × Bool × Bool}
    (h : FoldState w z) (n : Nat) : FoldState (t.foldSlot (128 * i + j) w n) (foldSlot' t i j z n) := by
  obtain ⟨hentry, hanan, hflags⟩ := h
  have hrow : (128 * i + j) / 128 = i := by omega
  have hcol : (128 * i + j) % 128 = j := by omega
  have hcount : (t.cnt.get 0 (t.cbank * 65536 + (128 * i + j) * 4 + n)).toInt = subCount t t.cbank (128 * i + j) n := rfl
  simp only [Str.foldSlot, foldSlot', hrow, hcol, hdrExp_eq, contribution_eq hs, hcount, hentry]
  generalize subCount t t.cbank (128 * i + j) n = c
  generalize t.header t.abank i n = ha
  generalize t.header t.bbank j n = hb
  by_cases hnan : ha.toNat / 4 % 256 = 255 ∨ hb.toNat / 4 % 256 = 255
  · rw [if_pos hnan, if_pos hnan]
    exact ⟨hentry, rfl, hflags⟩
  rw [if_neg hnan, if_neg hnan]
  by_cases hzero : c = 0 ∨ ha.toNat / 4 % 256 = 0 ∨ hb.toNat / 4 % 256 = 0
  · rw [if_pos hzero, if_pos hzero]
    exact ⟨hentry, hanan, hflags⟩
  rw [if_neg hzero, if_neg hzero]
  obtain ⟨hval, hsat⟩ := sat64_eq (z.1 + rne (foldValue t c ha hb))
  exact ⟨hval, hanan, by rw [hflags, hsat, flags_or_flags]⟩

theorem foldOut_spec {t : Str} (hs : t.slen ≠ 0) {i j : Nat} (hj : j < 128) :
    FoldState (t.foldOut (128 * i + j)) (foldOutput t i j) :=
  List.foldl_rel (r := FoldState) ⟨rfl, rfl, by rw [flagIf_false, flagIf_false]; rfl⟩ fun n _ _ _ h => h.slot hs hj n

/-! ### The outputs of a fold -/

/-- An output takes its fold. -/
def Str.foldInto (t : Str) (acc : SMap Word × SMap Bool × Byte) (x : Nat) : SMap Word × SMap Bool × Byte :=
  let n := t.foldOut x
  (acc.1.set 0 x n.1, acc.2.1.set false x n.2.1, acc.2.2 ||| n.2.2)

theorem foldl_foldInto (t : Str) (l : List Nat) (acc : SMap Word) (anan : SMap Bool) (f : Byte) :
    let r := l.foldl t.foldInto (acc, anan, f)
    (∀ x, r.1.get 0 x = if x ∈ l then (t.foldOut x).1 else acc.get 0 x) ∧
      (∀ x, r.2.1.get false x = if x ∈ l then (t.foldOut x).2.1 else anan.get false x) ∧
      ∀ k, r.2.2.getLsbD k = true ↔ f.getLsbD k = true ∨ ∃ x ∈ l, (t.foldOut x).2.2.getLsbD k = true := by
  induction l generalizing acc anan f with
  | nil => simp
  | cons y l ih =>
    obtain ⟨hacc, hanan, hf⟩ := ih (acc.set 0 y (t.foldOut y).1) (anan.set false y (t.foldOut y).2.1) (f ||| (t.foldOut y).2.2)
    refine ⟨fun x => (hacc x).trans ?_, fun x => (hanan x).trans ?_, fun k => (hf k).trans ?_⟩
    · by_cases hx : x = y
      · subst hx; simp
      · rw [SMap.get_set_ne _ _ _ _ _ (Ne.symm hx)]; simp [hx]
    · by_cases hx : x = y
      · subst hx; simp
      · rw [SMap.get_set_ne _ _ _ _ _ (Ne.symm hx)]; simp [hx]
    · simp [or_assoc]

theorem lt_of_mem_foldOutputs {t : Str} {x : Nat} (h : x ∈ t.foldOutputs) : x < 16384 := by
  unfold Str.foldOutputs at h
  split at h
  · exact List.mem_range.mp h
  · obtain ⟨p, -, rfl⟩ := List.mem_map.mp (List.mem_eraseDups.mp h)
    omega

/-- An output that a fold does not visit has no count, and no header of its banks marks a NaN block. -/
theorem foldOut_of_not_mem {t : Str} {x : Nat} (hx : x < 16384) (h : x ∉ t.foldOutputs) :
    t.foldOut x = (t.acc.get 0 x, t.anan.get false x, 0) := by
  unfold Str.foldOutputs at h
  split at h
  · exact absurd (List.mem_range.mpr hx) h
  · next hnan =>
    have hexp {bank l n : Nat} (hb : bank = t.abank ∨ bank = t.bbank) (hl : l < 128) (hn : n < 4) : hdrExp (t.header bank l n) ≠ 255 := by
      intro he
      refine hnan (List.any_eq_true.mpr ⟨_, SMap.mem_of_get_ne (m := t.hdr) (d := 0) (k := bank * 512 + l * 4 + n) fun h0 => ?_, ?_⟩)
      · rw [Str.header, h0] at he
        exact absurd he (by decide)
      · rw [decide_eq_true_eq, show (bank * 512 + l * 4 + n) / 512 = bank by omega]
        exact ⟨hb, he⟩
    have hcount {n : Nat} (hn : n < 4) : t.cnt.get 0 (t.cbank * 65536 + x * 4 + n) = 0 := by
      by_contra hne
      refine h (List.mem_eraseDups.mpr (List.mem_map.mpr ⟨_, List.mem_filter.mpr ⟨SMap.mem_of_get_ne hne, ?_⟩, ?_⟩))
      · rw [decide_eq_true_eq]; dsimp only; omega
      · dsimp only; omega
    refine List.foldlRecOn (motive := (· = _)) _ (t.foldSlot x) rfl fun w hw n hn => ?_
    rw [List.mem_range] at hn
    rw [Str.foldSlot, if_neg (not_or.mpr ⟨hexp (.inl rfl) (by omega) hn, hexp (.inr rfl) (by omega) hn⟩),
      if_pos (.inl (by rw [hcount hn]; rfl)), hw]

/-! ### Cleared counters (08_stream_ops.md R236) -/

theorem Str.cleared_clearBank (t : Str) {cb : Nat} (hcb : cb < 2) : Cleared t (t.clearBank cb) cb := by
  unfold Str.clearBank
  refine ⟨?_, ⟨Str.bt_setBt_same _ _, fun x hx n hn => ?_⟩, Str.bt_setBt_other _ _ hcb, fun x hx n hn => ?_⟩
  all_goals rw [Str.setBt_eq]
  · rw [subCount, SMap.get_of_absent]
    · rfl
    · intro p hp
      have := of_decide_eq_true (List.mem_filter.mp hp).2
      omega
  · exact congrArg BitVec.toInt (SMap.get_filter t.cnt 0 (fun k => decide (k / 65536 ≠ cb)) _ (decide_eq_true (by omega)))

/-- A fold (08_stream_ops.md R234). -/
theorem fold_spec {t : Str} (hs : t.slen ≠ 0) : Fold t t.fold.1 t.fold.2 := by
  obtain ⟨hacc, hanan, hflags⟩ := foldl_foldInto t t.foldOutputs t.acc t.anan 0
  generalize hr : t.foldOutputs.foldl t.foldInto (t.acc, t.anan, 0) = r at *
  have hfold : t.fold = (Str.clearBank { t with acc := r.1, anan := r.2.1 } t.cbank, r.2.2) := by rw [← hr]; rfl
  rw [hfold]
  obtain ⟨hframe, hhere, hother⟩ := Str.cleared_clearBank { t with acc := r.1, anan := r.2.1 } t.cbank_lt
  have hout {i j : Nat} (hi : i < 128) (hj : j < 128) : r.1.get 0 (128 * i + j) = (t.foldOut (128 * i + j)).1 ∧
      r.2.1.get false (128 * i + j) = (t.foldOut (128 * i + j)).2.1 := by
    rw [hacc, hanan]
    split
    · exact ⟨rfl, rfl⟩
    · next hx => rw [foldOut_of_not_mem (by omega) hx]; exact ⟨rfl, rfl⟩
  refine ⟨?_, hhere, hother, fun i hi j hj => ?_, fun k hk => ?_⟩
  · dsimp only
    rw [hframe]
  · have hspec := foldOut_spec hs (i := i) hj
    dsimp only
    rw [hframe]
    exact ⟨(congrArg BitVec.toInt (hout hi hj).1).trans hspec.entry, (hout hi hj).2.trans hspec.anan⟩
  · dsimp only
    have hor (a b : Bool) : (flagIf a fNX ||| flagIf b fACO).getLsbD k = true ↔
        (fNX.getLsbD k = true ∧ a = true) ∨ (fACO.getLsbD k = true ∧ b = true) := by
      rw [BitVec.getLsbD_or, Bool.or_eq_true]
      cases a <;> cases b <;> simp [flagIf]
    rw [hflags, or_iff_right (by simp)]
    constructor
    · rintro ⟨x, hx, h⟩
      have hlt := lt_of_mem_foldOutputs hx
      rw [show x = 128 * (x / 128) + x % 128 by omega, (foldOut_spec hs (by omega)).flags, hor] at h
      exact ⟨x / 128, x % 128, by omega, by omega, h⟩
    · rintro ⟨i, j, hi, hj, h⟩
      rw [← hor, ← (foldOut_spec hs hj).flags] at h
      refine ⟨128 * i + j, ?_, h⟩
      by_contra hx
      rw [foldOut_of_not_mem (by omega) hx] at h
      simp at h

end Sys2Proof.Machine
end

section
/-! The triggers that act on the array (08_stream_ops.md R228 to R239): shifts, drains, counts and the status word, what each trigger
reads that may hold an error, and O11. -/

namespace Sys2Proof.Machine

open Sys2Proof.Claims

/-! ### Shifts (08_stream_ops.md R228) -/

theorem shiftA_spec (t : Str) (v : Val) : Shift t (shiftA t v).1 v.toVec (shiftA t v).2 := by
  simp only [shiftA, t.laneDigit_eq, orAll_flagIf]
  refine ⟨rfl, fun i hi k hk => ?_, fun i hi => ?_, fun a ha => ?_, flagIf_any_range _ _ _⟩
  · rw [entry, SMap.get_fill, if_pos (by omega), show t.abank * 16384 + i * 128 + k - t.abank * 16384 = i * 128 + k by omega,
      if_neg (by omega), entry]
    exact congrArg (SMap.get t.edge Dig.dead) (by omega)
  · rw [entry, SMap.get_fill, if_pos (by omega), show t.abank * 16384 + i * 128 + 127 - t.abank * 16384 = i * 128 + 127 by omega,
      if_pos (by omega), show (i * 128 + 127) / 128 = i by omega]
  · rw [SMap.get_fill, if_neg (by omega)]

theorem wf_shiftA {t : Str} (hw : t.edge.wf Dig.dead = true) (v : Val) : (shiftA t v).1.edge.wf Dig.dead = true :=
  SMap.wf_fill _ _ _ _ _ hw

/-! ### Drains (08_stream_ops.md R235) -/

theorem lane_eq_halves (v : VecW) (l : Nat) : lane v l = half v (2 * l + 1) ++ half v (2 * l) := by
  unfold lane half
  rw [BitVec.extractLsb'_append_extractLsb'_eq_extractLsb' (by omega), show 16 * (2 * l) = 32 * l by omega]

theorem lane_ofHalves_eq_zero {f : Nat → BitVec 16} {l : Nat} (hl : l < 128) (h : ∀ n, 2 * l ≤ n → f n = 0) :
    lane (ofHalves f) l = 0 := by
  rw [lane_eq_halves, half_ofHalves f _ (by omega), half_ofHalves f _ (by omega), h _ (by omega), h _ le_rfl]
  rfl

theorem row_eq (b : Word) : (b.extractLsb' 0 7).toNat = b.toNat % 128 := by
  rw [BitVec.extractLsb'_toNat, Nat.shiftRight_zero]

/-! ### Counts (08_stream_ops.md R237) -/

theorem output_eq (b : Word) : (b.extractLsb' 0 14).toNat = b.toNat % 2 ^ 14 := by
  rw [BitVec.extractLsb'_toNat, Nat.shiftRight_zero]

theorem selector_eq (b : Word) : (b.extractLsb' 14 2).toNat = b.toNat / 2 ^ 14 % 4 := by
  rw [BitVec.extractLsb'_toNat, Nat.shiftRight_eq_div_pow]

theorem toInt_cntValue (t : Str) (b : Word) : (t.cntValue b).toInt =
    if b.getLsbD 16 then total t (b.toNat % 2 ^ 14) else subCount t t.cbank (b.toNat % 2 ^ 14) (b.toNat / 2 ^ 14 % 4) := by
  have hb (x n : Nat) : -32768 ≤ subCount t t.cbank x n ∧ subCount t t.cbank x n ≤ 32767 := toInt16_bounds _
  simp only [Str.cntValue, Str.count_eq_total, output_eq, selector_eq]
  split
  · have h0 := hb (b.toNat % 2 ^ 14) 0
    have h1 := hb (b.toNat % 2 ^ 14) 1
    have h2 := hb (b.toNat % 2 ^ 14) 2
    have h3 := hb (b.toNat % 2 ^ 14) 3
    rw [BitVec.toInt_ofInt_eq_self (by decide)] <;> unfold total <;> omega
  · rw [BitVec.toInt_signExtend_of_le (by decide)]
    rfl

/-! ### The status word (08_stream_ops.md R233) -/

theorem toNat_status (t : Str) : t.status.toNat = t.sbeat.toNat + t.stop.toNat * 2 ^ 32 + t.tie.toNat * 2 ^ 33 +
    t.cmap.isSome.toNat * 2 ^ 34 + t.bsel.toNat * 2 ^ 35 := by
  have hif (b : Bool) (n : Nat) : (if b then n else 0) = b.toNat * n := by cases b <;> simp
  have hbeat := t.sbeat.isLt
  have hsel := t.bsel.isLt
  have hstop := t.stop.toNat_lt
  have htie := t.tie.toNat_lt
  have hmap := t.cmap.isSome.toNat_lt
  rw [Str.status, hif, hif, hif, BitVec.toNat_ofNat]
  exact Nat.mod_eq_of_lt (by omega)

theorem status_fields (t : Str) : t.status.extractLsb' 0 32 = t.sbeat ∧ t.status.getLsbD 32 = t.stop ∧ t.status.getLsbD 33 = t.tie ∧
    t.status.getLsbD 34 = t.cmap.isSome ∧ t.status.extractLsb' 35 3 = t.bsel ∧ t.status.extractLsb' 38 26 = 0 := by
  have hbeat := t.sbeat.isLt
  have hsel := t.bsel.isLt
  have hstop := t.stop.toNat_lt
  have htie := t.tie.toNat_lt
  have hmap := t.cmap.isSome.toNat_lt
  have hbit {k : Nat} {b : Bool} (h : t.status.toNat / 2 ^ k % 2 = b.toNat) : t.status.getLsbD k = b := by
    rw [BitVec.getLsbD, Nat.testBit_eq_decide_div_mod_eq, h]
    cases b <;> rfl
  have hfield {k n : Nat} {x : BitVec n} (h : t.status.toNat / 2 ^ k % 2 ^ n = x.toNat) : t.status.extractLsb' k n = x :=
    BitVec.eq_of_toNat_eq (by rw [BitVec.extractLsb'_toNat, Nat.shiftRight_eq_div_pow, h])
  have hword := toNat_status t
  refine ⟨hfield ?_, hbit ?_, hbit ?_, hbit ?_, hfield ?_, hfield (x := 0) ?_⟩ <;> rw [hword]
  · omega
  · omega
  · omega
  · omega
  · omega
  · rw [show (0 : BitVec 26).toNat = 0 from rfl]; omega

/-! ### What a trigger reads (08_stream_ops.md R238) -/

section

variable (c : Core) (v : Val)

theorem beatBad_iff : c.beatBad = true ↔ ReadsError.beats c := by
  simp only [Core.beatBad, ReadsError.beats, Bool.or_eq_true, List.any_eq_true, decide_eq_true_eq, or_assoc]

theorem runBad_iff (m : Mv) : c.runBad = true ↔ ReadsError c v (.strRun m) := by
  have h0 : c.ctx.str.cpair.toNat % 2 ^ 14 < 16384 := Nat.mod_lt _ (by decide)
  have h1 : c.ctx.str.cpair.toNat / 2 ^ 14 < 16384 := by have := c.ctx.str.cpair.isLt; omega
  change (if beatIndex c.ctx.str < c.ctx.str.slen.toNat then c.beatBad else _) = true ↔ if _ then _ else _
  by_cases hlt : beatIndex c.ctx.str < c.ctx.str.slen.toNat
  · rw [if_pos hlt, if_pos hlt]
    exact beatBad_iff c
  · rw [if_neg hlt, if_neg hlt]
    simp only [Str.pair0_eq, Str.pair1_eq, Bool.and_eq_true, decide_eq_true_eq, List.any_eq_true]
    refine and_congr_right fun _ => exists_congr fun e => and_congr_right fun _ => ?_
    omega

theorem shiftBad_iff (m : Mv) : c.shiftBad = true ↔ ReadsError c v (.strShift m) := by
  simp only [Core.shiftBad, ReadsError, List.any_eq_true, decide_eq_true_eq]

theorem foldBad_iff (m : Mv) : c.foldBad = true ↔ ReadsError c v (.strFold m) := by
  simp only [Core.foldBad, ReadsError, Bool.or_eq_true, Bool.not_eq_true', List.isEmpty_eq_false_iff, List.any_eq_true,
    decide_eq_true_eq, or_assoc]

theorem drainBad_iff : c.drainBad v.toScalar = true ↔ ∃ e ∈ c.bad.acc, e / 128 = v.toScalar.toNat % 128 := by
  simp only [Core.drainBad, row_eq, List.any_eq_true, decide_eq_true_eq]

theorem cntBad_iff (m : Mv) : c.cntBad v.toScalar = true ↔ ReadsError c v (.strCnt m) := by
  simp only [Core.cntBad, ReadsError, output_eq, selector_eq, List.any_eq_true]
  refine exists_congr fun e => and_congr_right fun _ => ?_
  have hn : v.toScalar.toNat / 2 ^ 14 % 4 < 4 := Nat.mod_lt _ (by decide)
  cases v.toScalar.getLsbD 16 with
  | true => simp only [if_true, decide_eq_true_eq, true_or, and_true]; omega
  | false => simp only [Bool.false_eq_true, if_false, decide_eq_true_eq, false_or]; omega

end

/-! ### The triggers -/

/-- What O11 asks of one trigger at the head of its queue. -/
def ActsAsStated (s : State) (i : Instr) (en : Entry) (v : Val) : Prop :=
  let c := s.me
  let t := c.ctx.str
  let o := (c.op .str).o.toScalar
  let tooMany := countsBeats i = true ∧ 4 ^ t.sprec.toNat < t.slen.toNat
  (¬ tooMany → ¬ ReadsError c v i → ((∃ m, i = .strMgn m) → o.toNat ≤ 15) → ((∃ m, i = .strFold m) → t.slen ≠ 0) →
    t.edge.wf Dig.dead = true →
    ∃ u r f n, StrActs t o v u r f n i ∧ u.edge.wf Dig.dead = true ∧
      exec i s = .next (strDone s i en v u (r.map (·.1)) ((r.map (·.2)).getD (.s 0)) f n)) ∧
  (c.trap = none →
    (tooMany → StrStops s i en 0x23) ∧
    (¬ tooMany → ReadsError c v i → StrStops s i en 0x1B) ∧
    ((∃ m, i = .strMgn m) → 15 < o.toNat → StrStops s i en 0x02))

/-- What a trigger answers: it checks SLEN and the entries it reads, then acts. -/
def checked (long bad : Bool) (u : Str) (r : Option Val) (f : Byte) (n : Nat) : StrRes :=
  if long then .trap Cause.SLEN_RANGE 0 else if bad then .trap Cause.ECC_ACC 0 else .ok u r f n

section

variable {s : State} {i : Instr} {en : Entry} {v : Val} {g : Str → Word → Word → Val → Entry → StrRes} {long bad : Bool} {u : Str}
  {r : Option (RPort × Val)} {f : Byte} {n : Nat}

theorem strRun_checked (h : s.AtHead .str i en v) (hr : strRange s.me.ctx.str.sprec i v.toScalar = true)
    (hg : g s.me.ctx.str (s.me.op .str).o.toScalar (s.me.op .str).o2.toScalar v en = .ok u (r.map (·.2)) f n) :
    strRun i (r.map (·.1)) g s = .next (strDone s i en v u (r.map (·.1)) ((r.map (·.2)).getD (.s 0)) f n) := by
  cases r with
  | none => exact strRun_acts h hr hg
  | some r => exact strRun_answers h hr hg

/-- A trigger that is not mgn acts as stated when its checks are those of the rules and its effect is that of the table. -/
theorem actsAsStated_of_checked (h : s.AtHead .str i en v) (hr : strRange s.me.ctx.str.sprec i v.toScalar = true)
    (hmgn : ¬ ∃ m, i = .strMgn m) (hx : exec i s = strRun i (r.map (·.1)) g s)
    (hg : g s.me.ctx.str (s.me.op .str).o.toScalar (s.me.op .str).o2.toScalar v en = checked long bad u (r.map (·.2)) f n)
    (hlong : long = true ↔ countsBeats i = true ∧ 4 ^ s.me.ctx.str.sprec.toNat < s.me.ctx.str.slen.toNat)
    (hbad : bad = true ↔ ReadsError s.me v i)
    (hspec : ((∃ m, i = .strFold m) → s.me.ctx.str.slen ≠ 0) → s.me.ctx.str.edge.wf Dig.dead = true →
      StrActs s.me.ctx.str (s.me.op .str).o.toScalar v u r f n i ∧ u.edge.wf Dig.dead = true) : ActsAsStated s i en v := by
  unfold ActsAsStated
  dsimp only
  rw [← hlong, ← hbad, Bool.not_eq_true, Bool.not_eq_true]
  refine ⟨fun ho hb _ hs hw => ?_, fun ht => ⟨fun ho => ?_, fun ho hb => ?_, fun hm => absurd hm hmgn⟩⟩
  · obtain ⟨hacts, hwf⟩ := hspec hs hw
    subst ho hb
    exact ⟨u, r, f, n, hacts, hwf, hx.trans (strRun_checked h hr hg)⟩
  · subst ho
    exact strRun_stops hx h ht hr hg
  · subst ho hb
    exact strRun_stops hx h ht hr hg

end

theorem slenBad_iff {i : Instr} (hi : countsBeats i = true) (t : Str) :
    t.slenBad = true ↔ countsBeats i = true ∧ 4 ^ t.sprec.toNat < t.slen.toNat :=
  decide_eq_true_iff.trans (and_iff_right hi).symm

theorem not_long {i : Instr} (hi : countsBeats i = false) (t : Str) :
    false = true ↔ countsBeats i = true ∧ 4 ^ t.sprec.toNat < t.slen.toNat := by simp [hi]

theorem not_bad {s : State} {i : Instr} {v : Val} (hi : ¬ ReadsError s.me v i) : false = true ↔ ReadsError s.me v i := by simp [hi]

section

variable {s : State} {en : Entry} {v : Val} (m : Mv)

theorem strBeat_acts (h : s.AtHead .str (.strBeat m) en v) : ActsAsStated s (.strBeat m) en v :=
  actsAsStated_of_checked (r := none) h rfl nofun (rfl : exec _ s = execStrBeat m s) rfl
    (slenBad_iff rfl _) (beatBad_iff s.me) fun _ hw =>
    ⟨⟨beat_spec hw, rfl, rfl⟩, edge_of_beat (beat_spec hw) ▸ hw⟩

theorem strRunTrigger_acts (h : s.AtHead .str (.strRun m) en v) : ActsAsStated s (.strRun m) en v :=
  actsAsStated_of_checked (r := none) h rfl nofun (rfl : exec _ s = execStrRun m s) rfl
    (slenBad_iff rfl _) (runBad_iff s.me v m) fun _ hw => by
    obtain ⟨w, x, hloop, hu⟩ := runBeats_spec hw
    refine ⟨⟨w, x, hloop, rfl, hu⟩, ?_⟩
    rw [hu]
    exact (congrArg Str.edge (runLoop_frame hloop)).symm ▸ hw

theorem strShift_acts (h : s.AtHead .str (.strShift m) en v) : ActsAsStated s (.strShift m) en v :=
  actsAsStated_of_checked (r := none) h rfl nofun (rfl : exec _ s = execStrShift m s) rfl
    (not_long rfl _) (shiftBad_iff s.me v m) fun _ hw =>
    ⟨⟨shiftA_spec _ v, rfl, rfl⟩, wf_shiftA hw v⟩

theorem strFold_acts (h : s.AtHead .str (.strFold m) en v) : ActsAsStated s (.strFold m) en v :=
  actsAsStated_of_checked (r := none) h rfl nofun (rfl : exec _ s = execStrFold m s) rfl
    (slenBad_iff rfl _) (foldBad_iff s.me v m) fun hs hw => by
    have hfold := fold_spec (hs ⟨m, rfl⟩)
    exact ⟨⟨hfold, rfl, rfl⟩, (congrArg Str.edge hfold.frame).symm ▸ hw⟩

theorem strDrain_acts (h : s.AtHead .str (.strDrain m) en v) : ActsAsStated s (.strDrain m) en v :=
  actsAsStated_of_checked (r := some (.strVr, _)) h rfl nofun (rfl : exec _ s = execStrDrain m s) rfl
    (not_long rfl _) (drainBad_iff s.me v) fun _ hw =>
    ⟨⟨rfl, rfl, ⟨_, rfl, fun j hj => by rw [lane_ofLanes _ _ hj, row_eq]⟩, fun k _ => by rw [getLsbD_orAll, row_eq]⟩, hw⟩

theorem strDrainbf_acts (h : s.AtHead .str (.strDrainbf m) en v) : ActsAsStated s (.strDrainbf m) en v :=
  actsAsStated_of_checked (r := some (.strVr, _)) h rfl nofun (rfl : exec _ s = execStrDrainbf m s) rfl
    (not_long rfl _) (drainBad_iff s.me v) fun _ hw =>
    ⟨⟨rfl, rfl, ⟨_, rfl, fun j hj => by rw [half_ofHalves _ _ (by omega), if_pos hj, row_eq],
      fun l hl hl' => lane_ofHalves_eq_zero hl' fun n hn => if_neg (by omega)⟩, fun k _ => by rw [getLsbD_orAll, row_eq]⟩, hw⟩

theorem strClra_acts (h : s.AtHead .str (.strClra m) en v) : ActsAsStated s (.strClra m) en v :=
  actsAsStated_of_checked (r := none) h rfl nofun (rfl : exec _ s = execStrClra m s) rfl
    (not_long rfl _) (not_bad id) fun _ hw => ⟨⟨rfl, rfl, rfl, rfl⟩, hw⟩

theorem strClrc_acts (h : s.AtHead .str (.strClrc m) en v) : ActsAsStated s (.strClrc m) en v :=
  actsAsStated_of_checked (r := none) h rfl nofun (rfl : exec _ s = execStrClrc m s) rfl
    (not_long rfl _) (not_bad id) fun _ hw => by
    have hcb := s.me.ctx.str.cbank_lt
    have hclear := s.me.ctx.str.cleared_clearBank
      (cb := if v.toScalar.getLsbD 0 then 1 - s.me.ctx.str.cbank else s.me.ctx.str.cbank) (by split <;> omega)
    exact ⟨⟨hclear, rfl, rfl, rfl⟩, (congrArg Str.edge hclear.frame).symm ▸ hw⟩

theorem strCnt_acts (h : s.AtHead .str (.strCnt m) en v) : ActsAsStated s (.strCnt m) en v :=
  actsAsStated_of_checked (r := some (.strR, _)) h rfl nofun (rfl : exec _ s = execStrCnt m s) rfl
    (not_long rfl _) (cntBad_iff s.me v m) fun _ hw =>
    ⟨⟨rfl, rfl, rfl, _, rfl, toInt_cntValue _ _⟩, hw⟩

theorem strStat_acts (h : s.AtHead .str (.strStat m) en v) : ActsAsStated s (.strStat m) en v :=
  actsAsStated_of_checked (r := some (.strR, _)) h rfl nofun (rfl : exec _ s = execStrStat m s) rfl
    (not_long rfl _) (not_bad id) fun _ hw =>
    ⟨⟨rfl, rfl, rfl, _, rfl, status_fields _⟩, hw⟩

/-- A margin is written at an index up to 15, and no other (08_stream_ops.md R239). -/
theorem strMgn_acts (h : s.AtHead .str (.strMgn m) en v) (hr : strRange s.me.ctx.str.sprec (.strMgn m) v.toScalar = true) :
    ActsAsStated s (.strMgn m) en v := by
  have hx : exec (.strMgn m) s = strRun (.strMgn m) none (fun t o _ v _ =>
      if 15 < o.toNat then .trap Cause.ILLEGAL_OPERAND 0
      else .ok { t with mgn := t.mgn.set 0 o.toNat (v.toScalar.extractLsb' 0 17) } none 0 0) s := rfl
  refine ⟨fun _ _ ho _ hw => ?_, fun ht => ⟨fun ho => absurd ho.1 Bool.false_ne_true, fun _ hb => absurd hb id, fun _ ho => ?_⟩⟩
  · exact ⟨_, none, 0, 0, ⟨rfl, rfl, rfl, rfl⟩, hw, hx.trans (strRun_acts h hr (if_neg (not_lt.mpr (ho ⟨m, rfl⟩))))⟩
  · exact strRun_stops hx h ht hr (if_pos ho)

end

/-- Settles O11: each trigger checks SLEN and what it reads, and then acts (actsAsStated_of_checked) by the lemma about its effect:
beat_spec, runBeats_spec, shiftA_spec, fold_spec and the shorter ones. -/
theorem streamActs : Obligations.StreamActs := by
  unfold Obligations.StreamActs
  intro s i en v hi h hr
  cases i with
  | strBeat m => exact strBeat_acts m h
  | strRun m => exact strRunTrigger_acts m h
  | strShift m => exact strShift_acts m h
  | strFold m => exact strFold_acts m h
  | strDrain m => exact strDrain_acts m h
  | strDrainbf m => exact strDrainbf_acts m h
  | strClra m => exact strClra_acts m h
  | strClrc m => exact strClrc_acts m h
  | strCnt m => exact strCnt_acts m h
  | strStat m => exact strStat_acts m h
  | strMgn m => exact strMgn_acts m h hr
  | _ => exact absurd hi Bool.false_ne_true

end Sys2Proof.Machine
end

section
/-! Before a memory push writes (08_stream_ops.md R220, R222, R223): its control word, the checks on the bytes it reads, and the blocks
that it gets. -/

namespace Sys2Proof.Machine

open Sys2Proof.Claims

/-! ### The control word (08_stream_ops.md R220) -/

/-- What the model tests of a control word. -/
def pushRefused (ak : Bool) (mapped : Option Nat) (o : Word) : Bool :=
  (mapped.isNone && decide ((if ak then 512 else 128) < o.toNat / 2 ^ 16 % 1024)) || decide (128 < o.toNat / 2 ^ 8 % 256) ||
    (ak && decide (mapped.getD (if o.toNat / 2 ^ 16 % 1024 = 0 then (if ak then 512 else 128) else o.toNat / 2 ^ 16 % 1024) ≤
      o.toNat / 4 % 32))

theorem pushCtl_eq (ak : Bool) (mapped : Option Nat) (o o2 b : Word) :
    pushCtl ak mapped o o2 b = if pushRefused ak mapped o then none else some (pushWord ak mapped o o2 b) := by
  have hk : (o.extractLsb' 16 10).toNat = o.toNat / 2 ^ 16 % 1024 := by rw [BitVec.extractLsb'_toNat, Nat.shiftRight_eq_div_pow]
  have hn : (o.extractLsb' 8 8).toNat = o.toNat / 2 ^ 8 % 256 := by rw [BitVec.extractLsb'_toNat, Nat.shiftRight_eq_div_pow]
  have hskip : (o.extractLsb' 2 5).toNat = o.toNat / 4 % 32 := by rw [BitVec.extractLsb'_toNat, Nat.shiftRight_eq_div_pow]
  have hstride : (o2.extractLsb' 0 32).toInt = 0 ↔ o2.toNat % 2 ^ 32 = 0 := by
    have hlow : (o2.extractLsb' 0 32).toNat = o2.toNat % 2 ^ 32 := by rw [BitVec.extractLsb'_toNat, Nat.shiftRight_zero]
    rw [BitVec.toInt_eq_toNat_cond, hlow]
    split <;> omega
  cases mapped <;> simp only [pushCtl, pushRefused, pushWord, hk, hn, hskip, hstride, Option.getD_none, Option.getD_some]

theorem pushRefused_iff {ak : Bool} {mapped : Option Nat} (hm : ak = true → mapped = none) (o : Word) :
    pushRefused ak mapped o = true ↔ pushWordBad ak mapped.isSome o := by
  unfold pushRefused pushWordBad
  cases ak with
  | false => cases mapped <;> simp
  | true =>
    rw [hm rfl]
    simp only [Option.isNone_none, Option.isSome_none, Option.getD_none, if_true, Bool.true_and, Bool.or_eq_true, decide_eq_true_eq,
      true_and, or_assoc]
    refine or_congr_right (or_congr_right ?_)
    split <;> omega

section

variable {ak : Bool} {mapped : Option Nat} (hm : ak = true → mapped = none) {o : Word} (o2 b : Word)
include hm

theorem pushCtl_of_bad (h : pushWordBad ak mapped.isSome o) : pushCtl ak mapped o o2 b = none := by
  rw [pushCtl_eq, if_pos ((pushRefused_iff hm o).mpr h)]

theorem pushCtl_of_legal (h : ¬ pushWordBad ak mapped.isSome o) : pushCtl ak mapped o o2 b = some (pushWord ak mapped o o2 b) := by
  rw [pushCtl_eq, if_neg (mt (pushRefused_iff hm o).mp h)]

end

/-! ### The checks (05_local_memory.md R135, R137; 08_stream_ops.md R223) -/

theorem locOf_isNone (pool core a : Nat) : (locOf pool core a).isNone = !reachable pool a := by
  simp only [locOf, localWin, reachable, inScratchpad, inOwnWindow, inPoolWindow, Config.scratchBytes, Config.ownBase, Config.wholeBase]
  grind

theorem localWin_beyond_iff {pool a : Nat} (h : reachable pool a = false) :
    localWin pool a = .beyond ↔ (inOwnWindow a || inPoolWindow a) = true := by
  simp only [localWin, reachable, inScratchpad, inOwnWindow, inPoolWindow, Config.scratchBytes, Config.ownBase, Config.wholeBase] at *
  grind

theorem localWin_scratch {pool a : Nat} (h : inScratchpad a = true) : localWin pool a = .scratch a := if_pos (of_decide_eq_true h)

theorem localWin_ne_scratch {pool a : Nat} (h : inScratchpad a = false) (x : Nat) : localWin pool a ≠ .scratch x := by
  have h' : ¬ a < Config.scratchBytes := of_decide_eq_false h
  rw [localWin, if_neg h']
  split
  · split <;> exact nofun
  split
  · split <;> exact nofun
  · exact nofun

section

variable {s : State} {a : Nat}

theorem byteCheck_phase (k : Byte) : byteCheck s true 1 2 a = some k ↔
    s.exchOf s.cur = false ∧ inWholeWindow a = true ∧ k = Cause.PHASE_COMPUTE := by
  have hwindow : inPoolWindow a = inWholeWindow a := rfl
  simp only [byteCheck, List.range_one, List.map_cons, List.map_nil, List.any_cons, List.any_nil, Nat.add_zero, Bool.or_false, hwindow]
  split
  · next h => exact ⟨fun hk => ⟨h.1, h.2, (Option.some.inj hk).symm⟩, fun hk => congrArg some hk.2.2.symm⟩
  · next h => exact ⟨nofun, fun hk => absurd ⟨hk.1, hk.2.1⟩ h⟩

theorem byteCheck_bounds (k : Byte) : byteCheck s true 1 3 a = some k ↔ (locOf (s.poolOf s.cur) s.cur a).isNone = true ∧
    k = if localWin (s.poolOf s.cur) a = .beyond then Cause.POOL_BOUNDS else Cause.LOCAL_BOUNDS := by
  simp only [byteCheck, List.range_one, List.map_cons, List.map_nil, Nat.add_zero, locOf_isNone, List.find?_cons, List.find?_nil]
  cases h : reachable (s.poolOf s.cur) a with
  | true => simp
  | false =>
    have hcause : (if inOwnWindow a || inPoolWindow a then (0x0C : Byte) else 0x0B) =
        if localWin (s.poolOf s.cur) a = .beyond then Cause.POOL_BOUNDS else Cause.LOCAL_BOUNDS :=
      if_congr (localWin_beyond_iff h).symm rfl rfl
    exact ⟨fun hk => ⟨rfl, (Option.some.inj hk).symm.trans hcause⟩, fun hk => congrArg some (hcause.trans hk.2.symm)⟩

/-- The cause of an error in local memory. -/
def pushEccCause (a : Nat) : Byte := if inScratchpad a then Cause.ECC_SCRATCH else Cause.ECC_POOL

theorem byteCheck_ecc (k : Byte) : byteCheck s true 1 4 a = some k ↔ s.localBad s.cur a = true ∧ k = pushEccCause a := by
  simp only [byteCheck, List.range_one, List.map_cons, List.map_nil, List.any_cons, List.any_nil, Nat.add_zero, Bool.or_false, true_and]
  split
  · next h => exact ⟨fun hk => ⟨h, (Option.some.inj hk).symm⟩, fun hk => congrArg some hk.2.symm⟩
  · next h => exact ⟨nofun, fun hk => absurd hk.1 h⟩

end

theorem find?_eq_some_of_first {α : Type} {p : α → Bool} {l : List α} {i : Nat} {a : α} (hi : l[i]? = some a) (ha : p a = true)
    (hbefore : ∀ b ∈ l.take i, p b = false) : l.find? p = some a := by
  obtain ⟨hlt, rfl⟩ := List.getElem?_eq_some_iff.mp hi
  refine List.find?_eq_some_iff_getElem.mpr ⟨ha, i, hlt, rfl, fun j hj => ?_⟩
  rw [hbefore _ (List.mem_take_iff_getElem.mpr ⟨j, by omega, rfl⟩)]
  rfl

section

variable {s : State} {p : PushCtl} {qs : List Nat}

/-- Where a check fails on no byte, no byte is found. -/
theorem check_none {c : Nat} {q : Nat → Bool} {f : Nat → Byte} (hq : ∀ a k, byteCheck s true 1 c a = some k ↔ q a = true ∧ k = f a)
    {a : Nat} (h : byteCheck s true 1 c a = none) : q a = false := by
  cases ha : q a with
  | false => rfl
  | true => rw [(hq a (f a)).mpr ⟨ha, rfl⟩] at h; cases h

theorem find?_of_clean {c : Nat} {q : Nat → Bool} {f : Nat → Byte}
    (hq : ∀ a k, byteCheck s true 1 c a = some k ↔ q a = true ∧ k = f a) (h : ∀ a ∈ p.bytes qs, byteCheck s true 1 c a = none) :
    (p.bytes qs).find? q = none :=
  List.find?_eq_none.mpr fun a ha => Bool.not_eq_true _ ▸ check_none hq (h a ha)

/-- The first byte on which a check fails is found, and its cause is the check's. -/
theorem find?_of_first {c i a : Nat} {k : Byte} {q : Nat → Bool} {f : Nat → Byte}
    (hq : ∀ a k, byteCheck s true 1 c a = some k ↔ q a = true ∧ k = f a) (hi : (p.bytes qs)[i]? = some a)
    (hk : byteCheck s true 1 c a = some k) (hbefore : ∀ b ∈ (p.bytes qs).take i, byteCheck s true 1 c b = none) :
    (p.bytes qs).find? q = some a ∧ k = f a := by
  obtain ⟨ha, hcause⟩ := (hq a k).mp hk
  exact ⟨find?_eq_some_of_first hi ha fun b hb => check_none hq (hbefore b hb), hcause⟩

/-- The first check's test: the whole-pool window outside the exchange phase. -/
def phaseTest (s : State) (a : Nat) : Bool := !s.exchOf s.cur && inWholeWindow a

theorem find?_phaseTest (s : State) (l : List Nat) :
    (if s.exchOf s.cur then none else l.find? inWholeWindow) = l.find? (phaseTest s) := by
  have htest : phaseTest s = fun a => !s.exchOf s.cur && inWholeWindow a := rfl
  rw [htest]
  cases s.exchOf s.cur with
  | true => exact (List.find?_eq_none.mpr (by simp)).symm
  | false => simp

theorem phase_iff (a : Nat) (k : Byte) : byteCheck s true 1 2 a = some k ↔ phaseTest s a = true ∧ k = Cause.PHASE_COMPUTE := by
  rw [byteCheck_phase, phaseTest, Bool.and_eq_true, Bool.not_eq_true', and_assoc]

theorem pushFault_of_reads (h : PushReads s p qs) : pushFault s s.cur p qs = none := by
  obtain ⟨⟨hbase, hstride⟩, hsound⟩ := h
  rw [pushFault, if_neg (by omega)]
  simp only [find?_phaseTest]
  rw [find?_of_clean (c := 2) phase_iff (hsound 2 le_rfl (by decide)),
    find?_of_clean (c := 3) (fun a k => byteCheck_bounds k) (hsound 3 (by decide) (by decide)),
    find?_of_clean (c := 4) (fun a k => byteCheck_ecc k) (hsound 4 (by decide) le_rfl)]

theorem pushFault_of_fails {k : Byte} (h : PushFails s p qs k) : ∃ a, pushFault s s.cur p qs = some (k, a) := by
  obtain ⟨hodd, rfl⟩ | ⟨hbase, hstride, a, c, i, hlow, hhigh, hi, hk, hbefore, hearlier⟩ := h
  · exact ⟨_, if_pos hodd⟩
  · refine ⟨a, ?_⟩
    rw [pushFault, if_neg (by omega)]
    simp only [find?_phaseTest]
    obtain rfl | rfl | rfl : c = 2 ∨ c = 3 ∨ c = 4 := by omega
    · obtain ⟨hfind, rfl⟩ := find?_of_first phase_iff hi hk hbefore
      rw [hfind]
    · obtain ⟨hfind, rfl⟩ := find?_of_first (fun a k => byteCheck_bounds k) hi hk hbefore
      rw [find?_of_clean (c := 2) phase_iff (hearlier 2 le_rfl (by decide)), hfind]
    · obtain ⟨hfind, rfl⟩ := find?_of_first (fun a k => byteCheck_ecc k) hi hk hbefore
      rw [find?_of_clean (c := 2) phase_iff (hearlier 2 le_rfl (by decide)),
        find?_of_clean (c := 3) (fun a k => byteCheck_bounds k) (hearlier 3 (by decide) (by decide)), hfind]
      refine congrArg (fun k => some (k, a)) ?_
      cases hin : inScratchpad a with
      | true => rw [localWin_scratch hin, pushEccCause, if_pos hin]
      | false =>
        rw [pushEccCause, if_neg (Bool.eq_false_iff.mp hin)]
        split
        · next x hx => exact absurd hx (localWin_ne_scratch hin x)
        · rfl

theorem pushRun_reads {en : Entry} (hfree : PushFree s en p qs) (h : PushReads s p qs) (f : List (List (List Byte)) → StrRes) :
    pushRun s p qs en.tag f = f (pushBlocks s s.cur p qs) := by
  rw [pushRun, if_neg (Bool.eq_false_iff.mp hfree), pushFault_of_reads h]

theorem pushRun_fails {en : Entry} (hfree : PushFree s en p qs) {k : Byte} (h : PushFails s p qs k)
    (f : List (List (List Byte)) → StrRes) : ∃ a, pushRun s p qs en.tag f = .trap k a := by
  obtain ⟨a, ha⟩ := pushFault_of_fails h
  exact ⟨a, by rw [pushRun, if_neg (Bool.eq_false_iff.mp hfree), ha]⟩

end

/-! ### The blocks (08_stream_ops.md R220, R221) -/

/-- Block b of line n of the source. -/
def PushCtl.block (p : PushCtl) (s : State) (n b : Nat) : List Byte := s.localBytes s.cur (p.blockAt n b) p.size

section

variable (s : State) (p : PushCtl)

theorem pushBlocks_getD {qs : List Nat} {n q b : Nat} (hn : n < p.nline) (hq : qs[q]? = some b) :
    ((pushBlocks s s.cur p qs).getD n []).getD q [] = p.block s n b := by
  simp [pushBlocks, hn, hq, PushCtl.block]

theorem block_getD {n b i : Nat} (hi : i < p.size) : (p.block s n b).getD i 0 = pushByte s p n b i := by
  rw [PushCtl.block, State.getD_localBytes, if_pos hi]
  rfl

theorem two_lt_size : 2 < p.size := by unfold PushCtl.size; split <;> decide

theorem leAt_block (n b : Nat) : leAt (p.block s n b) 0 2 = (pushByte s p n b 0).toNat + 256 * (pushByte s p n b 1).toNat := by
  have hsize := two_lt_size p
  have h0 := block_getD s p (n := n) (b := b) (i := 0) (by omega)
  have h1 := block_getD s p (n := n) (b := b) (i := 1) (by omega)
  have hlen : (p.block s n b).length = p.size := by simp [PushCtl.block, State.localBytes]
  match hb : p.block s n b with
  | [] => simp [hb] at hlen; omega
  | [x] => simp [hb] at hlen; omega
  | x :: y :: l =>
    rw [hb] at h0 h1
    simp only [List.getD_cons_zero, List.getD_cons_succ] at h0 h1
    rw [← h0, ← h1]
    simp [leAt, ofLe]

theorem convEl_block (high : Bool) (n b : Nat) {x : Nat} (hx : x < 32) :
    convEl p.ib8 high (p.block s n b) x = pushElement s p high n b x := by
  unfold convEl pushElement
  split
  · next h8 =>
    have hbyte := block_getD s p (n := n) (b := b) (i := 2 + x) (by simp [PushCtl.size, h8]; omega)
    simp only [ib8El, hbyte]
    cases high
    · have : (pushByte s p n b (2 + x)).toNat % 128 % 16 = (pushByte s p n b (2 + x)).toNat % 16 := by omega
      simp [this]
    · rfl
  · next h8 =>
    have hbyte := block_getD s p (n := n) (b := b) (i := 2 + x / 2) (by simp [PushCtl.size, h8]; omega)
    have hlt := (pushByte s p n b (2 + x / 2)).isLt
    have hcode : (if x % 2 = 0 then (pushByte s p n b (2 + x / 2)).toNat % 16 else (pushByte s p n b (2 + x / 2)).toNat / 16) =
        (pushByte s p n b (2 + x / 2)).toNat / 16 ^ (x % 2) % 16 := by
      split
      · next h => rw [h, pow_zero, Nat.div_one]
      · next h => rw [show x % 2 = 1 by omega, pow_one]; omega
    have hmag (c : Nat) : fa4mag c = [0, 1, 2, 3, 4, 6, 8, 12].getD (c % 8) 0 := by
      have hc : c % 8 < 8 := Nat.mod_lt _ (by decide)
      unfold fa4mag
      generalize c % 8 = d at hc ⊢
      interval_cases d <;> rfl
    simp only [fa4El, hbyte, hcode, leAt_block, hmag]
    rfl

theorem blockHeader_block (high : Bool) (n b : Nat) : (blockHeader p.ib8 high (p.block s n b)).toNat = pushHeader s p high n b := by
  have hmod := Nat.mod_lt ((pushByte s p n b 0).toNat + 256 * (pushByte s p n b 1).toNat) (show 0 < 1024 by decide)
  rw [blockHeader, BitVec.toNat_ofNat, leAt_block, pushHeader]
  cases p.ib8 <;> cases high <;> simp <;> omega

theorem digit_block (t : Str) (sideB : Bool) {n b x : Nat} (hb : b = x / 32) :
    let e := convEl p.ib8 (t.dsel.getLsbD (if sideB then 0 else 1)) (p.block s n b) (x % 32)
    t.digit sideB e.1 e.2 = ((pushDigit s t sideB p n x).1, flagIf (pushDigit s t sideB p n x).2 fQX) := by
  subst hb
  rw [convEl_block s p _ n _ (Nat.mod_lt _ (by decide))]
  exact t.digit_eq sideB _ _

end

end Sys2Proof.Machine
end

section
/-! What a memory push writes (08_stream_ops.md R221, R224, R225): the entries, the headers and QX, from the blocks it read. -/

namespace Sys2Proof.Machine

open Sys2Proof.Claims

/-! ### A bank replaced -/

/-- The keys of a grid of lines and places with what stands there. -/
def grid (nline nplace : Nat) (D : Nat → Nat → Dig) : List (Nat × Dig) :=
  (List.range nline).flatMap (fun n => (List.range nplace).map (fun k => (n * 128 + k, D n k)))

/-- The entries of a grid as a bank lists them. -/
def listed (bank : Nat) (l : List (Nat × Dig)) : List (Nat × Dig) :=
  (l.filter (fun p => decide (p.2 ≠ Dig.dead))).map (fun p => (bank * 16384 + p.1, p.2))

section

variable {bank nline nplace : Nat} {D : Nat → Nat → Dig}

theorem mem_listed_grid {x : Nat × Dig} : x ∈ listed bank (grid nline nplace D) ↔
    ∃ n < nline, ∃ k < nplace, D n k ≠ Dig.dead ∧ x = (bank * 16384 + (n * 128 + k), D n k) := by
  simp only [listed, grid, List.mem_map, List.mem_filter, List.mem_flatMap, List.mem_range, decide_eq_true_eq]
  constructor
  · rintro ⟨y, ⟨⟨n, hn, k, hk, rfl⟩, hd⟩, rfl⟩
    exact ⟨n, hn, k, hk, hd, rfl⟩
  · rintro ⟨n, hn, k, hk, hd, rfl⟩
    exact ⟨_, ⟨⟨n, hn, k, hk, rfl⟩, hd⟩, rfl⟩

theorem listed_grid_rises (hp : nplace ≤ 128) : (listed bank (grid nline nplace D)).Pairwise (fun x y => x.1 < y.1) := by
  refine List.pairwise_map.mpr (List.Pairwise.filter _ (List.pairwise_flatMap.mpr ⟨fun n _ => ?_, ?_⟩)) |>.imp fun h => h
  · exact List.pairwise_map.mpr (List.pairwise_lt_range.imp fun h => by dsimp only; omega)
  · refine List.pairwise_lt_range.imp fun {n n'} hlt x hx y hy => ?_
    obtain ⟨k, hk, rfl⟩ := List.mem_map.mp hx
    obtain ⟨k', -, rfl⟩ := List.mem_map.mp hy
    rw [List.mem_range] at hk
    dsimp only
    omega

theorem get_listed_grid (hp : nplace ≤ 128) {n k : Nat} (hk : k < 128) :
    SMap.get (listed bank (grid nline nplace D)) Dig.dead (bank * 16384 + (n * 128 + k)) =
      if n < nline ∧ k < nplace then D n k else Dig.dead := by
  by_cases h : (n < nline ∧ k < nplace) ∧ D n k ≠ Dig.dead
  · rw [if_pos h.1]
    exact SMap.get_eq_of_mem (listed_grid_rises hp) _ (mem_listed_grid.mpr ⟨n, h.1.1, k, h.1.2, h.2, rfl⟩)
  · rw [SMap.get_of_absent]
    · split
      · next hin => exact (not_not.mp fun hne => h ⟨hin, Ne.symm hne⟩)
      · rfl
    · intro x hx hkey
      obtain ⟨n', hn', k', hk', hd, rfl⟩ := mem_listed_grid.mp hx
      obtain ⟨rfl, rfl⟩ : n = n' ∧ k = k' := by dsimp only at hkey; omega
      exact h ⟨⟨hn', hk'⟩, hd⟩

theorem listed_grid_key (hl : nline ≤ 128) (hp : nplace ≤ 128) {x : Nat × Dig} (hx : x ∈ listed bank (grid nline nplace D)) :
    x.1 / 16384 = bank := by
  obtain ⟨n, hn, k, hk, -, rfl⟩ := mem_listed_grid.mp hx
  dsimp only
  omega

variable (t : Str)

theorem Str.edge_setBank (l : List (Nat × Dig)) : (t.setBank bank l).edge =
    t.edge.filter (fun p => decide (p.1 < bank * 16384)) ++ listed bank l ++ t.edge.filter (fun p => decide ((bank + 1) * 16384 ≤ p.1)) := rfl

/-- A bank replaced holds the grid's entries. -/
theorem Str.setBank_entry (hp : nplace ≤ 128) {n k : Nat} (hn : n < 128) (hk : k < 128) :
    entry (t.setBank bank (grid nline nplace D)) bank n k = if n < nline ∧ k < nplace then D n k else Dig.dead := by
  rw [entry, Str.edge_setBank, Nat.add_assoc, SMap.get_append_left, SMap.get_append_right, get_listed_grid hp hk]
  · intro p hp
    have := of_decide_eq_true (List.mem_filter.mp hp).2
    omega
  · intro p hp
    have := of_decide_eq_true (List.mem_filter.mp hp).2
    omega

/-- The other banks keep theirs. -/
theorem Str.setBank_other (hl : nline ≤ 128) (hp : nplace ≤ 128) {a : Nat} (ha : a / 16384 ≠ bank) :
    (t.setBank bank (grid nline nplace D)).edge.get Dig.dead a = t.edge.get Dig.dead a := by
  have hmid : ∀ p ∈ listed bank (grid nline nplace D), p.1 ≠ a := fun p hp' he => ha (he ▸ listed_grid_key hl hp hp')
  rw [Str.edge_setBank]
  by_cases hlow : a < bank * 16384
  · rw [SMap.get_append_left, SMap.get_append_left _ _ _ _ hmid]
    · exact SMap.get_filter t.edge _ (fun k => decide (k < bank * 16384)) a (decide_eq_true hlow)
    · intro p hp
      have := of_decide_eq_true (List.mem_filter.mp hp).2
      omega
  · rw [SMap.get_append_right]
    · exact SMap.get_filter t.edge _ (fun k => decide ((bank + 1) * 16384 ≤ k)) a (decide_eq_true (by omega))
    · intro p hp
      obtain hp | hp := List.mem_append.mp hp
      · have := of_decide_eq_true (List.mem_filter.mp hp).2
        omega
      · exact hmid p hp

theorem Str.setHdrs_header (f : Nat → Nat → BitVec 16) {n q : Nat} (hn : n < 128) (hq : q < 4) :
    (t.setHdrs bank f).header bank n q = f n q := by
  rw [Str.header, Str.setHdrs, SMap.get_fill, if_pos (by omega), show bank * 512 + n * 4 + q - bank * 512 = n * 4 + q by omega,
    show (n * 4 + q) / 4 = n by omega, show (n * 4 + q) % 4 = q by omega]

theorem Str.setHdrs_other (f : Nat → Nat → BitVec 16) {x : Nat} (hx : x / 512 ≠ bank) :
    (t.setHdrs bank f).hdr.get 0 x = t.hdr.get 0 x := by
  rw [Str.setHdrs, SMap.get_fill, if_neg (by omega)]

end

/-! ### Flags of many digits -/

theorem foldl_or_flags (l : List Byte) (h : ∀ x ∈ l, x = fQX ∨ x = 0) :
    l.foldl (fun a x => a ||| x) 0 = flagIf (l.any (fun x => decide (x = fQX))) fQX := by
  have hflag : ∀ x ∈ l, x = flagIf (decide (x = fQX)) fQX := by
    intro x hx
    obtain rfl | rfl := h x hx <;> rfl
  calc l.foldl (fun a x => a ||| x) 0 = l.foldl (fun a x => a ||| flagIf (decide (x = fQX)) fQX) (flagIf false fQX) :=
        List.foldl_ext _ _ _ fun a x hx => by rw [← hflag x hx]
    _ = _ := foldl_or_flagIf l _ fQX false

theorem flagIf_eq_or (b : Bool) (f : Byte) : flagIf b f = f ∨ flagIf b f = 0 := by cases b <;> simp [flagIf]

theorem flagIf_eq_fQX_iff (b : Bool) : flagIf b fQX = fQX ↔ b = true := by cases b <;> simp [flagIf]

/-! ### The write (08_stream_ops.md R221, R224, R225) -/

/-- The place of a block among those read, with the element in it, is that of a source position. -/
def PlaceOf (qs : List Nat) : Option (Nat × Nat) → Option Nat → Prop
  | some (q, x), some y => qs[q]? = some (y / 32) ∧ x = y % 32
  | none, none => True
  | _, _ => False

/-- The place of a block among those read is that of a source block. -/
def SlotOf (qs : List Nat) : Option Nat → Option Nat → Prop
  | some q, some y => qs[q]? = some y
  | none, none => True
  | _, _ => False

section

variable {s : State} {t : Str} {sideB : Bool} {p : PushCtl} {qs : List Nat} {src : Nat → Option (Nat × Nat)} {nplace : Nat}
  {hsrc : Nat → Option Nat} {place slot : Nat → Option Nat}

/-- What a push makes of place k of line n. -/
def pushPlaced (s : State) (t : Str) (sideB : Bool) (p : PushCtl) (place : Nat → Option Nat) (n k : Nat) : Dig × Bool :=
  match place k with
  | some x => pushDigit s t sideB p n x
  | none => (Dig.dead, false)

theorem pushEntries_eq (hp : ∀ k < nplace, PlaceOf qs (src k) (place k)) :
    t.pushEntries sideB (t.dsel.getLsbD (if sideB then 0 else 1)) p (pushBlocks s s.cur p qs) src nplace =
      (List.range p.nline).flatMap (fun n => (List.range nplace).map (fun k => (n * 128 + k, (pushPlaced s t sideB p place n k).1,
        flagIf (pushPlaced s t sideB p place n k).2 fQX))) := by
  unfold Str.pushEntries
  refine List.flatMap_congr fun n hn => List.map_congr_left fun k hk => ?_
  rw [List.mem_range] at hn hk
  have h := hp k hk
  unfold pushPlaced
  match hs : src k, hy : place k with
  | some (q, x), some y =>
    rw [hs, hy] at h
    obtain ⟨hq, rfl⟩ := h
    dsimp only
    rw [pushBlocks_getD s p hn hq]
    have := digit_block s p t sideB (n := n) (x := y) rfl
    dsimp only at this
    rw [this]
  | none, none => rfl
  | some _, none => rw [hs, hy] at h; exact h.elim
  | none, some _ => rw [hs, hy] at h; exact h.elim

/-- The bank and the headers of a push are those of the places and the slots. -/
theorem pushWrite_pushed (hline : p.nline ≤ 128) (hplace : nplace ≤ 128) (hp : ∀ k < nplace, PlaceOf qs (src k) (place k))
    (hout : ∀ k < 128, nplace ≤ k → place k = none) (hh : ∀ q < 4, SlotOf qs (hsrc q) (slot q)) :
    Pushed s t (t.pushWrite sideB (t.dsel.getLsbD (if sideB then 0 else 1)) p (pushBlocks s s.cur p qs) src nplace hsrc).1
      sideB p place slot := by
  have hgrid : (t.pushEntries sideB (t.dsel.getLsbD (if sideB then 0 else 1)) p (pushBlocks s s.cur p qs) src nplace).map
      (fun x => (x.1, x.2.1)) = grid p.nline nplace (fun n k => (pushPlaced s t sideB p place n k).1) := by
    rw [pushEntries_eq hp, grid, List.map_flatMap]
    refine List.flatMap_congr fun n _ => ?_
    rw [List.map_map]
    rfl
  simp only [Str.pushWrite, hgrid]
  refine ⟨rfl, fun n hn k hk => ?_, fun n hn q hq => ?_, fun a ha => ?_, fun x hx => ?_⟩
  · refine (Str.setBank_entry t hplace hn hk).trans ?_
    unfold pushPlaced
    cases hy : place k with
    | none => split <;> rfl
    | some y =>
      have hin : k < nplace := not_le.mp fun hle => by rw [hout k hk hle] at hy; cases hy
      simp only [hin, and_true]
      rfl
  · rw [Str.setHdrs_header _ _ hn hq]
    have h := hh q hq
    match hs : hsrc q, hy : slot q with
    | some b, some y =>
      rw [hs, hy] at h
      dsimp only
      split
      · next hin => rw [pushBlocks_getD s p hin h, blockHeader_block]
      · rfl
    | none, none => rfl
    | some _, none => rw [hs, hy] at h; exact h.elim
    | none, some _ => rw [hs, hy] at h; exact h.elim
  · exact Str.setBank_other t hline hplace ha
  · exact Str.setHdrs_other _ _ hx

/-- QX of a push is that of a digit it writes. -/
theorem pushWrite_flag (hplace : nplace ≤ 128) (hp : ∀ k < nplace, PlaceOf qs (src k) (place k))
    (hout : ∀ k < 128, nplace ≤ k → place k = none) :
    let f := (t.pushWrite sideB (t.dsel.getLsbD (if sideB then 0 else 1)) p (pushBlocks s s.cur p qs) src nplace hsrc).2
    (f = fQX ∧ ∃ n k x, n < p.nline ∧ k < 128 ∧ place k = some x ∧ (pushDigit s t sideB p n x).2 = true) ∨
      (f = 0 ∧ ∀ n k x, n < p.nline → k < 128 → place k = some x → (pushDigit s t sideB p n x).2 = false) := by
  have hflag : (t.pushWrite sideB (t.dsel.getLsbD (if sideB then 0 else 1)) p (pushBlocks s s.cur p qs) src nplace hsrc).2 =
      ((List.range p.nline).flatMap (fun n => (List.range nplace).map (fun k =>
        flagIf (pushPlaced s t sideB p place n k).2 fQX))).foldl (fun a x => a ||| x) 0 := by
    have hmap : ((List.range p.nline).flatMap (fun n => (List.range nplace).map (fun k =>
        flagIf (pushPlaced s t sideB p place n k).2 fQX))) =
        (t.pushEntries sideB (t.dsel.getLsbD (if sideB then 0 else 1)) p (pushBlocks s s.cur p qs) src nplace).map (fun x => x.2.2) := by
      rw [pushEntries_eq hp, List.map_flatMap]
      refine List.flatMap_congr fun n _ => ?_
      rw [List.map_map]
      rfl
    rw [hmap, List.foldl_map]
    rfl
  intro f
  rw [show f = _ from hflag, foldl_or_flags]
  · refine (flagIf_cases (P := ∃ n k x, n < p.nline ∧ k < 128 ∧ place k = some x ∧ (pushDigit s t sideB p n x).2 = true) ?_).imp_right
      (And.imp_right fun h n k x hn hk hx => ?_)
    · simp only [List.any_eq_true, decide_eq_true_eq, List.mem_flatMap, List.mem_map, List.mem_range]
      constructor
      · rintro ⟨_, ⟨n, hn, k, hk, rfl⟩, h⟩
        rw [flagIf_eq_fQX_iff] at h
        unfold pushPlaced at h
        cases hx : place k with
        | none => rw [hx] at h; cases h
        | some x => rw [hx] at h; exact ⟨n, k, x, hn, by omega, hx, h⟩
      · rintro ⟨n, k, x, hn, hk, hx, h⟩
        have hin : k < nplace := not_le.mp fun hle => by rw [hout k hk hle] at hx; cases hx
        refine ⟨_, ⟨n, hn, k, hin, rfl⟩, ?_⟩
        rw [flagIf_eq_fQX_iff, pushPlaced, hx]
        exact h
    · exact Bool.not_eq_true _ ▸ fun hd => h ⟨n, k, x, hn, hk, hx, hd⟩
  · simp only [List.mem_flatMap, List.mem_map]
    rintro _ ⟨n, -, k, -, rfl⟩
    exact flagIf_eq_or _ _

end

/-- TAG and the map stand apart from what is pushed. -/
theorem pushed_setTags {s : State} {t u : Str} {sideB : Bool} {p : PushCtl} {place slot : Nat → Option Nat}
    (h : Pushed s t u sideB p place slot) (bank : Nat) (l : List (BitVec 2)) (m : Option CMap) :
    Pushed s t { u.setTags bank l with cmap := m } sideB p place slot := by
  rw [Str.setTags_eq]
  exact ⟨by dsimp only; rw [h.frame], h.entries, h.headers, h.other⟩

theorem pushed_cmap {s : State} {t u : Str} {sideB : Bool} {p : PushCtl} {place slot : Nat → Option Nat}
    (h : Pushed s t u sideB p place slot) (m : Option CMap) : Pushed s t { u with cmap := m } sideB p place slot :=
  ⟨by dsimp only; rw [h.frame], h.entries, h.headers, h.other⟩

end Sys2Proof.Machine
end

section
/-! The walk of pushak over its source (08_stream_ops.md R224): the model's loop makes it, and no other walk fits the rule; its tags and
its flag. -/

namespace Sys2Proof.Machine

open Sys2Proof.Claims

/-! ### Distinct blocks in order of appearance -/

theorem eraseDups_append_singleton {α : Type} [DecidableEq α] (l : List α) (b : α) :
    (l ++ [b]).eraseDups = if b ∈ l.eraseDups then l.eraseDups else l.eraseDups ++ [b] := by
  rw [List.eraseDups_append]
  by_cases h : b ∈ l
  · rw [if_pos (List.mem_eraseDups.mpr h)]
    simp [List.removeAll, h]
  · rw [if_neg (mt List.mem_eraseDups.mp h)]
    simp [List.removeAll, h, List.eraseDups_cons]

/-- The blocks of the kept positions, a further one included (08_stream_ops.md R224). -/
def blocksOf (l : List Nat) : List Nat := (l.map (· / 32)).eraseDups

theorem mem_blocksOf {l : List Nat} {b : Nat} : b ∈ blocksOf l ↔ ∃ y ∈ l, y / 32 = b := by simp [blocksOf]

theorem blocksOf_append_singleton (l : List Nat) (x : Nat) :
    blocksOf (l ++ [x]) = if x / 32 ∈ blocksOf l then blocksOf l else blocksOf l ++ [x / 32] := by
  rw [blocksOf, List.map_append, List.map_singleton, eraseDups_append_singleton]
  rfl

/-! ### Only one walk fits -/

/-- Two walks over the same positions keep equally many: the shorter one would have room for the longer one's next position. -/
theorem walk_length_le {want : List Nat} {kext x x' : Nat} {places places' slots slots' : List Nat} (h : Claims.Walk want kext x places slots)
    (h' : Claims.Walk want kext x' places' slots') : places'.length ≤ places.length := by
  by_contra hlt
  rw [not_le] at hlt
  obtain ⟨⟨hplaces, hx⟩, hslots, ⟨hroom, hin⟩, hstops⟩ := h
  obtain ⟨⟨hplaces', hx'⟩, hslots', ⟨hroom', hin'⟩, -⟩ := h'
  have hwant : places'.length ≤ want.length := by
    have := congrArg List.length hplaces'
    rw [List.length_take] at this
    omega
  obtain ⟨hfull, hnew⟩ | hfull := hstops (by omega)
  · have hget : places'[places.length]? = some x := by
      rw [hplaces', List.getElem?_take_of_lt hlt, hx, List.getElem?_eq_getElem (by omega), Option.getD_some]
    have hsub : ∀ y ∈ places, y ∈ places' := by
      intro y hy
      rw [hplaces] at hy
      rw [hplaces']
      exact (List.take_prefix_take_left hlt.le).subset hy
    rw [if_neg (by omega), List.append_nil] at hslots
    have hall : ∀ b ∈ slots ++ [x / 32], b ∈ slots' := by
      intro b hb
      obtain hb | hb := List.mem_append.mp hb
      · rw [hslots] at hb
        obtain ⟨y, hy, rfl⟩ := mem_blocksOf.mp (List.mem_of_mem_take hb)
        exact hin' y (hsub y hy)
      · rw [List.mem_singleton.mp hb]
        exact hin' x (List.mem_of_getElem? hget)
    have hnodup : (slots ++ [x / 32]).Nodup := by
      refine List.nodup_append.mpr ⟨?_, List.nodup_singleton _, fun a ha b hb => ?_⟩
      · rw [hslots]
        exact (nodup_eraseDups _).sublist (List.take_sublist _ _)
      · rw [List.mem_singleton.mp hb]
        rintro rfl
        exact hnew ha
    have hle := (List.subperm_of_subset hnodup hall).length_le
    rw [List.length_append, hfull, hslots', List.length_take, List.length_singleton] at hle
    omega
  · omega

theorem walk_unique {want : List Nat} {kext x x' : Nat} {places places' slots slots' : List Nat} (h : Claims.Walk want kext x places slots)
    (h' : Claims.Walk want kext x' places' slots') : x = x' ∧ places = places' ∧ slots = slots' := by
  have hlen : places.length = places'.length := le_antisymm (walk_length_le h' h) (walk_length_le h h')
  have hplaces : places = places' := by rw [h.kept.1, h'.kept.1, hlen]
  exact ⟨by rw [h.kept.2, h'.kept.2, hlen], hplaces, by rw [h.slots', h'.slots', hplaces]⟩

/-! ### The loop -/

section

variable {keep P : Nat → Bool} {kext x : Nat}

theorem filter_range_split (hx : x < kext) : ∃ r, (List.range kext).filter P =
    (List.range x).filter P ++ (if P x then [x] else []) ++ r := by
  refine ⟨((List.range (kext - (x + 1))).map (x + 1 + ·)).filter P, ?_⟩
  have hsplit : List.range kext = List.range x ++ [x] ++ (List.range (kext - (x + 1))).map (x + 1 + ·) := by
    rw [← List.range_succ, ← List.range_add, show x + 1 + (kext - (x + 1)) = kext by omega]
  rw [hsplit, List.filter_append, List.filter_append]
  congr 2
  cases h : P x <;> simp [h]

/-- All wanted positions are kept. -/
theorem walk_all (hroom : ((List.range kext).filter P).length ≤ 128) (hslots : (blocksOf ((List.range kext).filter P)).length ≤ 4) :
    Claims.Walk ((List.range kext).filter P) kext kext ((List.range kext).filter P) (blocksOf ((List.range kext).filter P)) := by
  refine ⟨⟨List.take_length.symm, ?_⟩, ?_, ⟨hroom, fun y hy => mem_blocksOf.mpr ⟨y, hy, rfl⟩⟩, fun h => absurd h (lt_irrefl _)⟩
  · rw [List.getElem?_eq_none le_rfl, Option.getD_none]
  · have hnone : (if ((List.range kext).filter P).length = 128 then ((List.range kext).filter P)[128]?.toList else []) = [] := by
      split
      · next h => rw [List.getElem?_eq_none h.le, Option.toList_none]
      · rfl
    rw [hnone, List.append_nil]
    exact (List.take_of_length_le hslots).symm

/-- The walk stops at a wanted position. -/
theorem walk_stop (hx : x < kext) (hp : P x = true) {slots : List Nat} (hroom : ((List.range x).filter P).length ≤ 128)
    (hslots : slots = (blocksOf ((List.range x).filter P ++ if ((List.range x).filter P).length = 128 then [x] else [])).take 4)
    (hin : ∀ y ∈ (List.range x).filter P, y / 32 ∈ slots)
    (hstop : (slots.length = 4 ∧ x / 32 ∉ slots) ∨ ((List.range x).filter P).length = 128) :
    Claims.Walk ((List.range kext).filter P) kext x ((List.range x).filter P) slots := by
  obtain ⟨r, hr⟩ := filter_range_split (P := P) hx
  rw [hp, if_pos rfl, List.append_assoc] at hr
  have hnext : ((List.range kext).filter P)[((List.range x).filter P).length]? = some x := by
    rw [hr, List.getElem?_append_right le_rfl, Nat.sub_self]
    rfl
  refine ⟨⟨?_, by rw [hnext, Option.getD_some]⟩, ?_, ⟨hroom, hin⟩, fun _ => hstop⟩
  · rw [hr, List.take_left]
  · rw [hslots]
    congr 2
    split
    · next h => rw [← h, hnext, Option.toList_some]
    · rfl

theorem filter_range_succ : (List.range (x + 1)).filter P = (List.range x).filter P ++ if P x then [x] else [] := by
  rw [List.range_succ, List.filter_append]
  cases h : P x <;> simp [h]

/-- From a position below which all wanted ones are kept, the loop makes the walk. -/
theorem akLoop_walk (hkeep : ∀ y < kext, x ≤ y → keep y = P y) {fuel : Nat} (hx : x ≤ kext) (hfuel : kext ≤ x + fuel)
    (hroom : ((List.range x).filter P).length ≤ 128) (hslots : (blocksOf ((List.range x).filter P)).length ≤ 4) :
    let r := akLoop keep kext fuel x ((List.range x).filter P) (blocksOf ((List.range x).filter P))
    Claims.Walk ((List.range kext).filter P) kext r.1 r.2.1 r.2.2 := by
  induction fuel generalizing x with
  | zero =>
    obtain rfl : x = kext := by omega
    exact walk_all hroom hslots
  | succ fuel ih =>
    have hkeep' : ∀ y < kext, x + 1 ≤ y → keep y = P y := fun y hy hle => hkeep y hy (by omega)
    rw [akLoop]
    by_cases hend : kext ≤ x
    · obtain rfl : x = kext := by omega
      rw [if_pos hend]
      exact walk_all hroom hslots
    rw [if_neg hend, hkeep x (by omega) le_rfl]
    cases hp : P x with
    | false =>
      have hnext := ih hkeep' (by omega) (by omega)
      rw [filter_range_succ, hp, if_neg Bool.false_ne_true, List.append_nil] at hnext
      exact hnext hroom hslots
    | true =>
      have hmem : (blocksOf ((List.range x).filter P)).contains (x / 32) = decide (x / 32 ∈ blocksOf ((List.range x).filter P)) := by
        rw [Bool.eq_iff_iff, List.contains_iff_mem, decide_eq_true_eq]
      have hall : ∀ y ∈ (List.range x).filter P, y / 32 ∈ blocksOf ((List.range x).filter P) := fun y hy => mem_blocksOf.mpr ⟨y, hy, rfl⟩
      have happend := blocksOf_append_singleton ((List.range x).filter P) x
      have hnext := ih hkeep' (by omega) (by omega)
      rw [filter_range_succ, hp, if_pos rfl, happend] at hnext
      simp only [if_true, hmem, Bool.and_eq_true, Bool.not_eq_true', decide_eq_false_iff_not, decide_eq_true_eq]
      by_cases hin : x / 32 ∈ blocksOf ((List.range x).filter P)
      · rw [if_pos hin] at happend hnext
        rw [if_neg (by tauto), if_pos hin]
        by_cases hlen : ((List.range x).filter P).length = 128
        · rw [if_pos hlen]
          refine walk_stop (by omega) hp hroom ?_ hall (.inr hlen)
          rw [if_pos hlen, happend, List.take_of_length_le hslots]
        · rw [if_neg hlen]
          exact hnext (by rw [List.length_append, List.length_singleton]; omega) hslots
      · rw [if_neg hin] at happend hnext
        by_cases hfour : (blocksOf ((List.range x).filter P)).length = 4
        · rw [if_pos ⟨hin, hfour⟩]
          refine walk_stop (by omega) hp hroom ?_ hall (.inl ⟨hfour, hin⟩)
          split
          · rw [happend, List.take_left' hfour]
          · rw [List.append_nil, List.take_of_length_le hslots]
        · rw [if_neg (by tauto), if_neg hin]
          have hlen' : (blocksOf ((List.range x).filter P) ++ [x / 32]).length ≤ 4 := by
            rw [List.length_append, List.length_singleton]; omega
          by_cases hlen : ((List.range x).filter P).length = 128
          · rw [if_pos hlen]
            refine walk_stop (by omega) hp hroom ?_ (fun y hy => List.mem_append_left _ (hall y hy)) (.inr hlen)
            rw [if_pos hlen, happend, List.take_of_length_le hlen']
          · rw [if_neg hlen]
            exact hnext (by rw [List.length_append, List.length_singleton]; omega) hlen'

end

end Sys2Proof.Machine
end

section
/-! The pushes from local memory at the head of the queue (08_stream_ops.md R220 to R225): pusha and pushb by places, pushak by its
walk; and O13. -/

namespace Sys2Proof.Machine

open Sys2Proof.Claims

/-! ### Bounds of a legal control word (08_stream_ops.md R220) -/

section

variable {ak m : Bool} {o : Word} (mapped : Option Nat) (o2 b : Word)

theorem pushWord_nline_le (h : ¬ pushWordBad ak m o) : (pushWord ak mapped o o2 b).nline ≤ 128 := by
  unfold pushWordBad at h
  simp only [pushWord]
  split <;> omega

theorem pushWord_kext_le (h : ¬ pushWordBad false false o) : (pushWord false none o o2 b).kext ≤ 128 := by
  unfold pushWordBad at h
  simp only [pushWord, Option.getD_none, Bool.false_eq_true, if_false, true_and] at h ⊢
  split <;> omega

theorem pushWord_kskip_lt (h : ¬ pushWordBad true false o) :
    (pushWord true none o o2 b).kskip < (pushWord true none o o2 b).kext ∧ (pushWord true none o o2 b).kext ≤ 512 := by
  unfold pushWordBad at h
  simp only [pushWord, Option.getD_none, if_true, true_and] at h ⊢
  split <;> omega

end

/-! ### pusha and pushb (08_stream_ops.md R221, R225) -/

/-- The array and the flag after pusha or pushb, by the pending map where there is one. -/
def pushBy (t : Str) (sideB : Bool) (p : PushCtl) (map : Option CMap) (bl : List (List (List Byte))) : Str × Byte :=
  match map with
  | some m => t.pushMapped m p bl
  | none => t.push sideB p bl

/-- What R221 and R225 say of the array and the flag after pusha or pushb. -/
structure PushLeaves (s : State) (t u : Str) (sideB : Bool) (p : PushCtl) (map : Option CMap) (f : Byte) : Prop where
  pushed : Pushed s t u sideB p (pushPlace p map) (pushSlot p map)
  cmap : u.cmap = none
  tagsB : sideB = true → u.tag0 = t.tag0 ∧ u.tag1 = t.tag1
  tagsA : sideB = false → (∀ k < 128, (u.tags (t.target false p.tgt))[k]? = some (BitVec.ofNat 2 (k / 32))) ∧
    u.tags (1 - t.target false p.tgt) = t.tags (1 - t.target false p.tgt)
  flag : (f = fQX ∧ ∃ n k x, n < p.nline ∧ k < 128 ∧ pushPlace p map k = some x ∧ (pushDigit s t sideB p n x).2 = true) ∨
    (f = 0 ∧ ∀ n k x, n < p.nline → k < 128 → pushPlace p map k = some x → (pushDigit s t sideB p n x).2 = false)

section

variable {s : State} {t : Str} {p : PushCtl} (hline : p.nline ≤ 128)
include hline

/-- Without a map, place k takes position k of the line. -/
theorem push_leaves (sideB : Bool) (hmap : sideB = true → t.cmap = none) (hkext : p.kext ≤ 128) :
    let r := t.push sideB p (pushBlocks s s.cur p (List.range ((p.kext + 31) / 32)))
    PushLeaves s t r.1 sideB p none r.2 := by
  have hp : ∀ k < p.kext, PlaceOf (List.range ((p.kext + 31) / 32)) (some (k / 32, k % 32)) (pushPlace p none k) := by
    intro k hk
    rw [pushPlace, if_pos hk]
    exact ⟨by rw [List.getElem?_range (by omega)], rfl⟩
  have hout : ∀ k < 128, p.kext ≤ k → pushPlace p none k = none := fun k _ hk => if_neg (not_lt.mpr hk)
  have hh : ∀ q < 4, SlotOf (List.range ((p.kext + 31) / 32)) (if 32 * q < p.kext then some q else none) (pushSlot p none q) := by
    intro q _
    rw [pushSlot]
    split
    · exact List.getElem?_range (by omega)
    · trivial
  have hpushed := pushWrite_pushed (s := s) (t := t) (sideB := sideB) hline hkext hp hout hh
  have hflag := pushWrite_flag (s := s) (t := t) (p := p) (sideB := sideB)
    (hsrc := fun q => if 32 * q < p.kext then some q else none) hkext hp hout
  cases sideB with
  | true => exact ⟨hpushed, hmap rfl, fun _ => ⟨rfl, rfl⟩, nofun, hflag⟩
  | false =>
    refine ⟨pushed_setTags hpushed _ _ none, rfl, nofun, fun _ => ⟨fun k hk => ?_, ?_⟩, hflag⟩
    · exact (congrArg (·[k]?) (Str.tags_setTags_same _ _)).trans (getElem?_defaultTags hk)
    · exact Str.tags_setTags_other _ _ (t.target_A_lt _)

/-- Where the model finds place k under a map: the block among those read, and the element. -/
def mapSource (m : CMap) (k : Nat) : Option (Nat × Nat) :=
  match m.places[k]? with
  | some x => (m.slots.idxOf? (x / 32)).map (fun q => (q, x % 32))
  | none => none

/-- Under a map, a place takes the position that the map names. -/
theorem pushMapped_leaves (m : CMap) (hplaces : m.places.length ≤ 128) :
    let r := t.pushMapped m p (pushBlocks s s.cur p m.slots)
    PushLeaves s t r.1 true p (some m) r.2 := by
  have hp : ∀ k < m.places.length, PlaceOf m.slots (mapSource m k) (pushPlace p (some m) k) := by
    intro k hk
    rw [mapSource, pushPlace, List.getElem?_eq_getElem hk, Option.bind_some]
    dsimp only
    cases hi : m.slots.idxOf? (m.places[k] / 32) with
    | none =>
      rw [if_neg (List.idxOf?_eq_none_iff.mp hi)]
      trivial
    | some q =>
      obtain ⟨hq, hget, -⟩ := List.idxOf?_eq_some_iff.mp hi
      rw [if_pos (hget ▸ List.getElem_mem hq)]
      exact ⟨by rw [List.getElem?_eq_getElem hq, hget], rfl⟩
  have hout : ∀ k < 128, m.places.length ≤ k → pushPlace p (some m) k = none := by
    intro k _ hk
    rw [pushPlace, List.getElem?_eq_none hk]
    rfl
  have hh : ∀ q < 4, SlotOf m.slots (if q < m.slots.length then some q else none) (pushSlot p (some m) q) := by
    intro q _
    rw [pushSlot]
    split
    · next hq => rw [List.getElem?_eq_getElem hq]; exact List.getElem?_eq_getElem hq
    · next hq => rw [List.getElem?_eq_none (not_lt.mp hq)]; trivial
  have hpushed := pushWrite_pushed (s := s) (t := t) (sideB := true) hline hplaces hp hout hh
  have hflag := pushWrite_flag (s := s) (t := t) (p := p) (sideB := true)
    (hsrc := fun q => if q < m.slots.length then some q else none) hplaces hp hout
  exact ⟨pushed_cmap hpushed none, rfl, fun _ => ⟨rfl, rfl⟩, nofun, hflag⟩

end

theorem exec_memoryPush {i : Instr} {sideB : Bool} {m : Mv} (hi : i = if sideB then .strPushb m else .strPusha m) (s : State) :
    exec i s = strRun i none (fun t o o2 v en => pushMem s sideB t o o2 v en) s := by
  cases sideB <;> subst hi <;> rfl

section

variable {s : State} {sideB : Bool} {t : Str} {map : Option CMap} (hmap : (if sideB then t.cmap else none) = map) {o o2 : Word}
  {v : Val} {en : Entry}
include hmap

theorem pushMem_of_bad (h : pushWordBad false map.isSome o) : pushMem s sideB t o o2 v en = .trap Cause.ILLEGAL_OPERAND 0 := by
  cases map with
  | none => simp only [pushMem, hmap, pushCtl_of_bad (ak := false) (mapped := none) nofun _ _ h]
  | some m => simp only [pushMem, hmap, pushCtl_of_bad (ak := false) (mapped := some m.kext) nofun _ _ h]

theorem pushMem_of_legal (h : ¬ pushWordBad false map.isSome o) :
    let p := pushWord false (map.map (·.kext)) o o2 v.toScalar
    pushMem s sideB t o o2 v en = pushRun s p (pushBlocksOf p map) en.tag
      (fun bl => .ok (pushBy t sideB p map bl).1 none (pushBy t sideB p map bl).2 0) := by
  cases map with
  | none =>
    simp only [pushMem, hmap, pushCtl_of_legal (ak := false) (mapped := none) nofun _ _ h]
    rfl
  | some m =>
    simp only [pushMem, hmap, pushCtl_of_legal (ak := false) (mapped := some m.kext) nofun _ _ h]
    rfl

theorem pushBy_leaves (h : ¬ pushWordBad false map.isSome o) (hplaces : ∀ x, map = some x → x.places.length ≤ 128) :
    let p := pushWord false (map.map (·.kext)) o o2 v.toScalar
    let r := pushBy t sideB p map (pushBlocks s s.cur p (pushBlocksOf p map))
    PushLeaves s t r.1 sideB p map r.2 := by
  cases map with
  | none => exact push_leaves (pushWord_nline_le _ _ _ h) sideB (fun hs => by rwa [hs] at hmap) (pushWord_kext_le _ _ h)
  | some m =>
    cases sideB with
    | false => cases hmap
    | true => exact pushMapped_leaves (pushWord_nline_le _ _ _ h) m (hplaces m rfl)

end

/-! ### pushak (08_stream_ops.md R224) -/

/-- The test of a wanted position. -/
def isWanted (s : State) (t : Str) (p : PushCtl) (x : Nat) : Bool :=
  decide (p.kskip ≤ x) && (t.smode || (List.range p.nline).any (fun n => decide ((pushDigit s t false p n x).1.m ≠ 0)))

theorem pushWanted_eq (s : State) (t : Str) (p : PushCtl) : pushWanted s t p = (List.range p.kext).filter (isWanted s t p) := rfl

theorem lt_of_mem_pushWanted {s : State} {t : Str} {p : PushCtl} {x : Nat} (h : x ∈ pushWanted s t p) : x < p.kext :=
  List.mem_range.mp (List.mem_filter.mp h).1

/-- All source blocks of a pushak. -/
abbrev PushCtl.source (p : PushCtl) (s : State) : List (List (List Byte)) := pushBlocks s s.cur p (List.range ((p.kext + 31) / 32))

section

variable {s : State} {t : Str} {p : PushCtl}

/-- The digit that the model makes of a source position is that of the rule. -/
theorem source_digit {n x : Nat} (hn : n < p.nline) (hx : x < p.kext) :
    let e := convEl p.ib8 (t.dsel.getLsbD 1) (((p.source s).getD n []).getD (x / 32) []) (x % 32)
    t.digit false e.1 e.2 = ((pushDigit s t false p n x).1, flagIf (pushDigit s t false p n x).2 fQX) := by
  rw [pushBlocks_getD s p (b := x / 32) hn (List.getElem?_range (by omega))]
  exact digit_block s p t false rfl

theorem keeps_eq {x : Nat} (hx : x < p.kext) (hskip : p.kskip ≤ x) : t.keeps p (p.source s) x = isWanted s t p x := by
  rw [isWanted, decide_eq_true hskip, Bool.true_and, Str.keeps]
  congr 1
  rw [Bool.eq_iff_iff, List.any_eq_true, List.any_eq_true]
  refine exists_congr fun n => and_congr_right fun hn => ?_
  have := source_digit (s := s) (t := t) (List.mem_range.mp hn) hx
  dsimp only at this ⊢
  rw [this]

/-- The model's loop is the walk of R224. -/
theorem akLoop_eq (hskip : p.kskip < p.kext) (hkext : p.kext ≤ 512) {x : Nat} {places slots : List Nat}
    (h : Claims.Walk (pushWanted s t p) p.kext x places slots) :
    akLoop (t.keeps p (p.source s)) p.kext 513 p.kskip [] [] = (x, places, slots) := by
  have hnone : (List.range p.kskip).filter (isWanted s t p) = [] := by
    refine List.filter_eq_nil_iff.mpr fun y hy => ?_
    rw [isWanted, decide_eq_false (not_le.mpr (List.mem_range.mp hy))]
    simp
  have hloop := akLoop_walk (P := isWanted s t p) (kext := p.kext) (x := p.kskip) (fuel := 513)
    (fun y hy hle => keeps_eq (s := s) hy hle) hskip.le (by omega) (by simp [hnone]) (by simp [hnone, blocksOf])
  rw [hnone] at hloop
  obtain ⟨hx, hplaces, hslots⟩ := walk_unique hloop h
  exact Prod.ext hx (Prod.ext hplaces hslots)

/-- QX of a pushak is that of a digit at a position it examines. -/
theorem akFlags_spec {last : Nat} (hlast : last < p.kext) :
    let f := t.akFlags p (p.source s) last
    (f = fQX ∧ ∃ n y, n < p.nline ∧ p.kskip ≤ y ∧ y ≤ last ∧ (pushDigit s t false p n y).2 = true) ∨
      (f = 0 ∧ ∀ n y, n < p.nline → p.kskip ≤ y → y ≤ last → (pushDigit s t false p n y).2 = false) := by
  have hdigits : t.akFlags p (p.source s) last = ((List.range (last + 1 - p.kskip)).flatMap (fun i => (List.range p.nline).map (fun n =>
      flagIf (pushDigit s t false p n (p.kskip + i)).2 fQX))).foldl (fun a x => a ||| x) 0 := by
    rw [List.foldl_flatMap]
    refine List.foldl_ext _ _ _ fun a i hi => ?_
    rw [List.mem_range] at hi
    rw [List.foldl_map]
    refine List.foldl_ext _ _ _ fun b n hn => ?_
    have := source_digit (s := s) (t := t) (x := p.kskip + i) (List.mem_range.mp hn) (by omega)
    dsimp only at this ⊢
    rw [this]
  intro f
  rw [show f = _ from hdigits, foldl_or_flags]
  · refine (flagIf_cases (P := ∃ n y, n < p.nline ∧ p.kskip ≤ y ∧ y ≤ last ∧ (pushDigit s t false p n y).2 = true) ?_).imp_right
      (And.imp_right fun h n y hn hlow hhigh => Bool.not_eq_true _ ▸ fun hd => h ⟨n, y, hn, hlow, hhigh, hd⟩)
    simp only [List.any_eq_true, decide_eq_true_eq, List.mem_flatMap, List.mem_map, List.mem_range]
    constructor
    · rintro ⟨_, ⟨i, hi, n, hn, rfl⟩, h⟩
      exact ⟨n, _, hn, Nat.le_add_right _ _, by omega, (flagIf_eq_fQX_iff _).mp h⟩
    · rintro ⟨n, y, hn, hlow, hhigh, h⟩
      refine ⟨_, ⟨y - p.kskip, by omega, n, hn, rfl⟩, ?_⟩
      rw [flagIf_eq_fQX_iff, Nat.add_sub_cancel' hlow]
      exact h
  · simp only [List.mem_flatMap, List.mem_map]
    rintro _ ⟨i, -, n, -, rfl⟩
    exact flagIf_eq_or _ _

theorem walk_places_lt {x : Nat} {places slots : List Nat} (h : Claims.Walk (pushWanted s t p) p.kext x places slots) :
    ∀ y ∈ places, y < p.kext := fun y hy => by
  rw [h.kept.1] at hy
  exact lt_of_mem_pushWanted (List.mem_of_mem_take hy)

theorem walk_slots_lt {x : Nat} {places slots : List Nat} (h : Claims.Walk (pushWanted s t p) p.kext x places slots) :
    ∀ b ∈ slots, b < (p.kext + 31) / 32 := fun b hb => by
  rw [h.slots'] at hb
  obtain ⟨y, hy, rfl⟩ := mem_blocksOf.mp (List.mem_of_mem_take hb)
  have hlt : y < p.kext := by
    obtain hy | hy := List.mem_append.mp hy
    · exact walk_places_lt h y hy
    · split at hy
      · exact lt_of_mem_pushWanted (List.mem_of_getElem? (Option.mem_toList.mp hy))
      · cases hy
  omega

/-- What pushak writes: the kept positions, their blocks' headers, their slots as tags, and the map. -/
theorem pushak_spec (hline : p.nline ≤ 128) {x : Nat} {places slots : List Nat} (hkext : 0 < p.kext)
    (h : Claims.Walk (pushWanted s t p) p.kext x places slots) :
    let r := t.pushak p (p.source s) (x, places, slots)
    Pushed s t r.1 false p (fun k => places[k]?) (fun q => slots[q]?) ∧ r.1.cmap = some ⟨p.kext, places, slots⟩ ∧
      (∀ k < 128, (r.1.tags (t.target false p.tgt))[k]? = some (BitVec.ofNat 2 (match places[k]? with
        | some y => (slots.idxOf? (y / 32)).getD 0
        | none => k / 32))) ∧
      r.1.tags (1 - t.target false p.tgt) = t.tags (1 - t.target false p.tgt) ∧
      ((r.2 = fQX ∧ ∃ n y, n < p.nline ∧ p.kskip ≤ y ∧ y ≤ min x (p.kext - 1) ∧ (pushDigit s t false p n y).2 = true) ∨
        (r.2 = 0 ∧ ∀ n y, n < p.nline → p.kskip ≤ y → y ≤ min x (p.kext - 1) → (pushDigit s t false p n y).2 = false)) := by
  have hp : ∀ k < places.length,
      PlaceOf (List.range ((p.kext + 31) / 32)) ((places[k]?).map (fun x => (x / 32, x % 32))) (places[k]?) := by
    intro k hk
    have hlt := walk_places_lt h _ (List.getElem_mem hk)
    rw [List.getElem?_eq_getElem hk]
    exact ⟨List.getElem?_range (by omega), rfl⟩
  have hh : ∀ q < 4, SlotOf (List.range ((p.kext + 31) / 32)) (slots[q]?) (slots[q]?) := by
    intro q _
    cases hq : slots[q]? with
    | none => trivial
    | some b => exact List.getElem?_range (walk_slots_lt h b (List.mem_of_getElem? hq))
  have hpushed := pushWrite_pushed (s := s) (t := t) (sideB := false) hline h.room.1 hp (fun k _ hk => List.getElem?_eq_none hk) hh
  refine ⟨pushed_setTags hpushed _ _ _, rfl, fun k hk => ?_, ?_, akFlags_spec (by omega)⟩
  · refine (congrArg (·[k]?) (Str.tags_setTags_same _ _)).trans ?_
    dsimp only
    rw [List.getElem?_map, List.getElem?_range hk, Option.map_some]
    cases places[k]? <;> rfl
  · exact Str.tags_setTags_other _ _ (t.target_A_lt _)

end

section

variable {s : State} {t : Str} {o o2 : Word} {v : Val} {en : Entry}

theorem pushCompact_of_bad (h : pushWordBad true false o) : pushCompact s t o o2 v en = .trap Cause.ILLEGAL_OPERAND 0 := by
  simp only [pushCompact, pushCtl_of_bad (mapped := none) (fun _ => rfl) _ _ h]

/-- A legal pushak reads the blocks from its first position to the one where its walk ends. -/
theorem pushCompact_of_legal (h : ¬ pushWordBad true false o) {x : Nat} {places slots : List Nat} :
    let p := pushWord true none o o2 v.toScalar
    Claims.Walk (pushWanted s t p) p.kext x places slots →
    pushCompact s t o o2 v en =
      pushRun s p ((List.range (min x (p.kext - 1) / 32 + 1)).filter (fun q => decide (p.kskip / 32 ≤ q))) en.tag
        (fun _ => .ok (t.pushak p (p.source s) (x, places, slots)).1 (some (.s (BitVec.ofNat 64 x)))
          (t.pushak p (p.source s) (x, places, slots)).2 0) := by
  intro p hwalk
  obtain ⟨hskip, hkext⟩ := pushWord_kskip_lt o2 v.toScalar h
  simp only [pushCompact, pushCtl_of_legal (mapped := none) (fun _ => rfl) _ _ h, akLoop_eq hskip hkext hwalk]
  rfl

end

/-! ### The obligation -/

/-- pusha and pushb: the first half of O13. -/
theorem memoryPush_acts (s : State) {i : Instr} {sideB : Bool} {m : Mv} {en : Entry} {v : Val}
    (hi : i = if sideB then .strPushb m else .strPusha m) (h : s.AtHead .str i en v) :
    let t := s.me.ctx.str
    let map := if sideB then t.cmap else none
    let o := (s.me.op .str).o.toScalar
    let p := pushWord false (map.map (·.kext)) o (s.me.op .str).o2.toScalar v.toScalar
    let qs := pushBlocksOf p map
    (¬ pushWordBad false map.isSome o → PushFree s en p qs → PushReads s p qs → (∀ x, map = some x → x.places.length ≤ 128) →
      ∃ u f, exec i s = .next (strDone s i en v u none (.s 0) f 0) ∧ PushLeaves s t u sideB p map f) ∧
    (s.me.trap = none →
      (pushWordBad false map.isSome o → StrStops s i en 0x02) ∧
      (¬ pushWordBad false map.isSome o → PushFree s en p qs → ∀ k, PushFails s p qs k → StrStops s i en k)) := by
  intro t map o p qs
  have hr : strRange s.me.ctx.str.sprec i v.toScalar = true := by cases sideB <;> subst hi <;> rfl
  have hx := exec_memoryPush hi s
  refine ⟨fun hlegal hfree hreads hplaces => ?_, fun ht => ⟨fun hbad => ?_, fun hlegal hfree k hfails => ?_⟩⟩
  · have hrun := (pushMem_of_legal (en := en) rfl hlegal).trans (pushRun_reads hfree hreads _)
    exact ⟨_, _, hx.trans (strRun_acts h hr hrun), pushBy_leaves rfl hlegal hplaces⟩
  · exact strRun_stops hx h ht hr (pushMem_of_bad rfl hbad)
  · obtain ⟨a, ha⟩ := pushRun_fails hfree hfails _
    exact strRun_stops hx h ht hr ((pushMem_of_legal (en := en) rfl hlegal).trans ha)

/-- Settles O13: pusha and pushb by memoryPush_acts; pushak by the one walk over its source (pushCompact_of_legal), what it writes
(pushak_spec), and the checks on its blocks (pushRun_reads, pushRun_fails). -/
theorem memoryPushes : Obligations.MemoryPushes := by
  unfold Obligations.MemoryPushes
  refine ⟨fun s i sideB m en v hi h => ?_, fun s m en v h => ?_⟩
  · obtain ⟨hacts, hstops⟩ := memoryPush_acts s hi h
    refine ⟨fun hlegal hfree hreads hplaces => ?_, hstops⟩
    obtain ⟨u, f, hx, hleaves⟩ := hacts hlegal hfree hreads hplaces
    exact ⟨u, f, hx, hleaves.pushed, hleaves.cmap, hleaves.tagsB, hleaves.tagsA, hleaves.flag⟩
  · have hx : exec (.strPushak m) s = strRun (.strPushak m) (some .strR) (fun t o o2 v en => pushCompact s t o o2 v en) s := rfl
    refine ⟨fun hlegal x places slots hwalk hfree hreads => ?_,
      fun ht => ⟨fun hbad => ?_, fun hlegal x places slots hwalk hfree k hfails => ?_⟩⟩
    · have hskip := (pushWord_kskip_lt (s.me.op .str).o2.toScalar v.toScalar hlegal).1
      have hrun := (pushCompact_of_legal (en := en) hlegal hwalk).trans (pushRun_reads hfree hreads _)
      exact ⟨_, _, hx.trans (strRun_answers h rfl hrun), pushak_spec (pushWord_nline_le _ _ _ hlegal) (by omega) hwalk⟩
    · exact strRun_stops hx h ht rfl (pushCompact_of_bad hbad)
    · obtain ⟨a, ha⟩ := pushRun_fails hfree hfails _
      exact strRun_stops hx h ht rfl ((pushCompact_of_legal (en := en) hlegal hwalk).trans ha)

end Sys2Proof.Machine
end
